-- ==== Sys2Proof/Word.lean ====
section
/-! DEFINITION. The word and byte types, and the plain records with which the register map is written. -/

namespace Sys2Proof

/-- A control register or a Flivin data register (R6, R247). -/
abbrev Word := BitVec 32

/-- One byte of memory (R2). -/
abbrev Byte := BitVec 8

namespace Machine

/-- A field of a control register: the register's road address and its bits [hi:lo] (R1). -/
structure Fld where
  addr : Nat
  hi : Nat
  lo : Nat
deriving DecidableEq, Repr

/-- The access types of R3. -/
inductive RTy where
  | rw | ro | w1c | w1s | wo | st | lk
deriving DecidableEq, Repr

/-- A field of a register table: bits [hi:lo], its type and its reset value. -/
structure FieldDesc where
  hi : Nat
  lo : Nat
  ty : RTy
  reset : Nat
deriving DecidableEq, Repr

/-- A register, or an array of registers, of a window: its first offset, the (stride, count) of each index, its fields. -/
structure RegDesc where
  off : Nat
  dims : List (Nat × Nat)
  fields : List FieldDesc
deriving DecidableEq, Repr

end Machine
end Sys2Proof
end

