-- ==== Sys2Proof/Syntax.lean ====
section
/-! DEFINITION. The commands of the block: one constructor of Instr for each row of the operation table, in its order,
with the operands a command brings from outside (who asks, which hall, stream, core or queue, the data of the environment). -/

namespace Sys2Proof

abbrev CoreId := Fin 4
abbrev StreamId := Fin 4
/-- A physical hall: 0 to 15, and 16 for HS (R21). -/
abbrev HallId := Fin 17
/-- A logical hall (R21). -/
abbrev LHall := Fin 16
abbrev DReg := BitVec 4
abbrev AReg := BitVec 3
abbrev PReg := BitVec 3

/-- The control register windows of R24. -/
inductive Block where
  | sys | pwr | clk | sec | evc | road | seq | hall (h : HallId) | stair | gal | byw | host | ddr | link | way | test | dbg | line
deriving DecidableEq, Repr

/-- Who makes an access or writes a command register. A core's mode and secure attribute are read from its SR (R270, R271);
the host, the links and the fabric carry SYS = 0 and SEC = 0 (R359, R374, R356); the debug memory port SYS = 1 and SEC = 0 (R431). -/
inductive Requester where
  | core (c : CoreId)
  | host
  | dma (e : Fin 8)
  | dbg
  | tap
  | fabric
  | link
  | seq
  | sec
deriving DecidableEq, Repr

/-- The predicate of a 32-bit form: executed when P[p] XOR neg is 1 (R74, R257). -/
structure Pred where
  p : PReg
  neg : Bool
deriving DecidableEq, Repr

/-- An array instruction as its core reaches it: the issuing core, the predicate and the three slots (R73). -/
structure AOp where
  core : CoreId
  pred : Pred
  sd : BitVec 5
  sa : BitVec 5
  sb : BitVec 5
deriving DecidableEq, Repr

/-- The 16-bit form Dd := Dd op Ds (R252) and the 32-bit form Dd := Ds op Dt (R253). -/
inductive AluForm where
  | short (d s : DReg)
  | long (p : Pred) (d s t : DReg)
deriving DecidableEq, Repr

/-- MOVI and ADDI: the 16-bit form with an 8-bit immediate, and the 32-bit form with a 16-bit one (R252, R253). -/
inductive ImmForm where
  | short (d : DReg) (imm : BitVec 8)
  | long (p : Pred) (d : DReg) (imm : BitVec 16)
deriving DecidableEq, Repr

/-- Loads and stores: the 16-bit word forms of R252 and the 32-bit forms of R253 and R254. -/
inductive MemForm where
  | short (d : DReg) (a : AReg) (mode : BitVec 2) (k : BitVec 3)
  | long (p : Pred) (size : BitVec 2) (d : DReg) (a : AReg) (mode : BitVec 3) (sx : Bool) (opd : BitVec 9)
deriving DecidableEq, Repr

/-- The second operand of a compare (R253). -/
inductive CmpOp where
  | reg (t : DReg)
  | imm (i : BitVec 11)
deriving DecidableEq, Repr

/-- BR and CALL: 12-bit and 20-bit halfword offsets (R252, R253). -/
inductive BrForm where
  | short (off : BitVec 12)
  | long (p : Pred) (off : BitVec 20)
deriving DecidableEq, Repr

/-- A hall's report of an upset to the recovery logic, in the layout of HALLn_UPSET (R43). -/
structure UpsetRep where
  src : BitVec 3
  multi : Bool
  pcol : BitVec 7
  row : BitVec 6
  addr : BitVec 13
deriving DecidableEq, Repr

/-- The outcome of the checks of R419 on a signed item. -/
inductive Verdict where
  | pass | header | noKey | signature | rollback
deriving DecidableEq, Repr

/-- One access waiting at a gallery bank (R185): its requester, the index of the word in the bank, and the byte mask and data
of a write (none for a read). -/
structure GalReq where
  who : Fin 7
  word : Nat
  wr : Option (BitVec 8 × BitVec 64)
  /-- The secure attribute of a road port's request (R25). -/
  sec : Bool := false
deriving DecidableEq, Repr

/-- The word lies in the bank's landing rows (R183), whose port A arbitrates for itself. -/
def GalReq.landing (r : GalReq) : Bool := 90112 ≤ r.word && r.word < 92160

/-- A failing word that the march engine found (R196). -/
structure MarchFail where
  bank : Fin 32
  row : BitVec 12
  word : BitVec 5
  bit : BitVec 7
deriving DecidableEq, Repr

/-- A request packet of the road, with the header of R316: source node, TID, SYS, SEC, LEN, ADDR, and the data of a write. -/
structure Packet where
  src : BitVec 6
  tid : BitVec 12
  sys : Bool
  sec : Bool
  len : BitVec 6
  addr : BitVec 40
  data : List Byte
deriving DecidableEq, Repr

/-- Where an EPOCH marker arrives (R329): at an input port of a router, or at the ejection port of a node. -/
inductive EpochAt where
  | router (r : Fin 10) (port : Fin 16) (vc : Fin 4)
  | eject (node : BitVec 6) (vc : Fin 4)
deriving DecidableEq, Repr

/-- A submission entry (R364). -/
structure Sqe where
  opc : Byte
  fence : Bool
  cid : BitVec 16
  haddr : BitVec 64
  raddr : BitVec 40
  len : BitVec 32
  params : List Byte
deriving DecidableEq, Repr

/-- The quantities of a print plan that the job loader checks (R223, R227, R231); times in ps, halls the halls that the plan runs. -/
structure PlanData where
  period : Nat
  work : Nat
  spanTime : Nat
  lead : Nat
  foen : Bool
  halls : BitVec 16
  positions : Nat
  perHall : Nat
  heads : List (Nat × Nat)
  govEn : Bool
  guard16 : Nat
  target16 : Nat
deriving DecidableEq, Repr

/-- The strap balls (R400). -/
structure Straps where
  boot : BitVec 2
  oscdly : BitVec 3
  chipid : BitVec 3
  hostw : Bool
  safe : BitVec 2
  xsel : Bool
  part : BitVec 2
deriving DecidableEq, Repr

/-- The findings of a self-test (R445). -/
structure BistRes where
  nfail : BitVec 11
  first : BitVec 11
  halls : BitVec 17
  cols : List (HallId × List (BitVec 7))
  banks : BitVec 32
deriving DecidableEq, Repr

/-- A host configuration write that the part acts on (R361, R311, R362). -/
inductive CfgWrite where
  | busMaster (en : Bool)
  | msixEnable (en : Bool)
  | msixMask (en : Bool)
  | toD0
deriving DecidableEq, Repr

/-- The commands: one constructor for each row of the operation table. -/
inductive Instr where
  | registerWrite (r : Requester) (addr : BitVec 40) (size : Nat) (v : Word)  -- REGISTER_WRITE (R3)
  | commit (r : Requester) (b : Block)  -- COMMIT (R10)
  | commitApply (b : Block)  -- COMMIT_APPLY (R13)
  | lock (r : Requester) (b : Block)  -- LOCK (R15)
  | splitQuiesced  -- SPLIT_QUIESCED (R171)
  | mov (a : AOp)  -- MOV (R85)
  | not (a : AOp)  -- NOT (R85)
  | and (a : AOp)  -- AND (R85)
  | or (a : AOp)  -- OR (R85)
  | xor (a : AOp)  -- XOR (R85)
  | andn (a : AOp)  -- ANDN (R85)
  | set (a : AOp)  -- SET (R85)
  | clr (a : AOp)  -- CLR (R85)
  | movs (a : AOp)  -- MOVS (R86)
  | add (a : AOp)  -- ADD (R107)
  | adc (a : AOp)  -- ADC (R107)
  | sub (a : AOp)  -- SUB (R107)
  | sbc (a : AOp)  -- SBC (R107)
  | addsu (a : AOp)  -- ADDSU (R109)
  | addss (a : AOp)  -- ADDSS (R109)
  | subsu (a : AOp)  -- SUBSU (R109)
  | subss (a : AOp)  -- SUBSS (R109)
  | neg (a : AOp)  -- NEG (R107)
  | cmpeq (a : AOp)  -- CMPEQ (R110)
  | cmpltu (a : AOp)  -- CMPLTU (R110)
  | cmplts (a : AOp)  -- CMPLTS (R110)
  | minu (a : AOp)  -- MINU (R110)
  | maxu (a : AOp)  -- MAXU (R110)
  | mins (a : AOp)  -- MINS (R110)
  | maxs (a : AOp)  -- MAXS (R110)
  | mulu (a : AOp)  -- MULU (R87)
  | muls (a : AOp)  -- MULS (R111)
  | dstep (a : AOp)  -- DSTEP (R88)
  | shl (a : AOp) (hi : Bool)  -- SHL (R89)
  | shru (a : AOp) (hi : Bool)  -- SHRU (R89)
  | shrs (a : AOp) (hi : Bool)  -- SHRS (R89)
  | rol (a : AOp) (hi : Bool)  -- ROL (R89)
  | getn (a : AOp)  -- GETN (R90)
  | gets (a : AOp)  -- GETS (R90)
  | gete (a : AOp)  -- GETE (R90)
  | getw (a : AOp)  -- GETW (R90)
  | xgetn (a : AOp)  -- XGETN (R90)
  | xgets (a : AOp)  -- XGETS (R90)
  | xgete (a : AOp)  -- XGETE (R90)
  | xgetw (a : AOp)  -- XGETW (R90)
  | sel (a : AOp)  -- SEL (R92)
  | seln (a : AOp)  -- SELN (R92)
  | actall (a : AOp)  -- ACTALL (R93)
  | actld (a : AOp)  -- ACTLD (R93)
  | actpush (a : AOp)  -- ACTPUSH (R93)
  | actpushn (a : AOp)  -- ACTPUSHN (R93)
  | actpop (a : AOp)  -- ACTPOP (R93)
  | actelse (a : AOp)  -- ACTELSE (R93)
  | lookup (a : AOp)  -- LOOKUP (R95)
  | afd (a : AOp)  -- AFD (R77)
  | agor (a : AOp)  -- AGOR (R97)
  | agorB (a : AOp)  -- AGOR_B (R98)
  | hor (a : AOp)  -- HOR (R97)
  | horB (a : AOp)  -- HOR_B (R98)
  | faddH (a : AOp)  -- FADD_H (R99)
  | faddS (a : AOp)  -- FADD_S (R99)
  | fsubH (a : AOp)  -- FSUB_H (R99)
  | fsubS (a : AOp)  -- FSUB_S (R99)
  | fmulH (a : AOp)  -- FMUL_H (R99)
  | fmulS (a : AOp)  -- FMUL_S (R99)
  | fmaH (a : AOp)  -- FMA_H (R99)
  | fmaS (a : AOp)  -- FMA_S (R99)
  | fceqH (a : AOp)  -- FCEQ_H (R99)
  | fceqS (a : AOp)  -- FCEQ_S (R99)
  | fcltH (a : AOp)  -- FCLT_H (R99)
  | fcltS (a : AOp)  -- FCLT_S (R99)
  | fcleH (a : AOp)  -- FCLE_H (R99)
  | fcleS (a : AOp)  -- FCLE_S (R99)
  | fcvtSH (a : AOp)  -- FCVT_S_H (R99)
  | fcvtHS (a : AOp)  -- FCVT_H_S (R99)
  | fcvtHI (a : AOp)  -- FCVT_H_I (R99)
  | fcvtSI (a : AOp)  -- FCVT_S_I (R99)
  | fcvtIH (a : AOp)  -- FCVT_I_H (R99)
  | fcvtIS (a : AOp)  -- FCVT_I_S (R99)
  | strin (a : AOp)  -- STRIN (R100)
  | strout (a : AOp)  -- STROUT (R100)
  | milestone (a : AOp)  -- MILESTONE (R101)
  | amode (a : AOp)  -- AMODE (R102)
  | customerOpcode (n : BitVec 4) (a : AOp)  -- CUSTOMER_OPCODE (R105)
  | reservedArrayOpcode (opc : BitVec 7) (a : AOp)  -- RESERVED_ARRAY_OPCODE (R103)
  | arrayFpTrap (s : StreamId)  -- ARRAY_FP_TRAP (R125)
  | routineStart (s : StreamId)  -- ROUTINE_START (R132)
  | microwordIssue (s : StreamId)  -- MICROWORD_ISSUE (R133)
  | routineTimeout (s : StreamId)  -- ROUTINE_TIMEOUT (R151)
  | microwordArrive (h : LHall)  -- MICROWORD_ARRIVE (R159)
  | creditReturn (h : LHall)  -- CREDIT_RETURN (R160)
  | hallEntryStart (h : LHall)  -- HALL_ENTRY_START (R162)
  | stallEnd (h : LHall)  -- STALL_END (R163)
  | tokenTimeout (h : LHall) (edge : BitVec 2) (faulty : LHall)  -- TOKEN_TIMEOUT (R165)
  | repReport (h : LHall)  -- REP_REPORT (R167)
  | orRelease (h : LHall)  -- OR_RELEASE (R204)
  | orResultFormed (s : StreamId)  -- OR_RESULT_FORMED (R70)
  | patchLoad (r : Requester)  -- PATCH_LOAD (R145)
  | patchStagingDone (ok : Bool)  -- PATCH_STAGING_DONE (R145)
  | patchVerifyDone (v : Verdict)  -- PATCH_VERIFY_DONE (R145)
  | preemptStop (s : StreamId)  -- PREEMPT_STOP (R155)
  | preemptResume (s : StreamId)  -- PREEMPT_RESUME (R157)
  | stairTransferStart (h : LHall)  -- STAIR_TRANSFER_START (R180)
  | stairWaitTimeout (h : LHall)  -- STAIR_WAIT_TIMEOUT (R180)
  | galleryBankGrant (bank : Fin 32) (waiting : List GalReq)  -- GALLERY_BANK_GRANT (R185)
  | milestoneCommit (s : StreamId) (t : Int)  -- MILESTONE_COMMIT (R218)
  | leadCopyStart  -- LEAD_COPY_START (R189)
  | leadCopyDone  -- LEAD_COPY_DONE (R189)
  | secureWipe (r : Requester)  -- SECURE_WIPE (R192)
  | wipeClearDone  -- WIPE_CLEAR_DONE (R193)
  | wipeReadbackDone (nonzero : Bool)  -- WIPE_READBACK_DONE (R193)
  | marchStart (r : Requester) (v : Word)  -- MARCH_START (R196)
  | marchDone (fails : List MarchFail)  -- MARCH_DONE (R196)
  | rprWrite (r : Requester) (n : Fin 320) (v : Word)  -- RPR_WRITE (R197)
  | upsetRecovery (reps : List (HallId × UpsetRep))  -- UPSET_RECOVERY (R207)
  | spanOverrun (s : StreamId)  -- SPAN_OVERRUN (R202)
  | columnRetirement (h : HallId)  -- COLUMN_RETIREMENT (R215)
  | retireRefillStart (h : HallId)  -- RETIRE_REFILL_START (R215)
  | retireRefillDone (h : HallId)  -- RETIRE_REFILL_DONE (R215)
  | failoverImageLoaded (ok : Bool)  -- FAILOVER_IMAGE_LOADED (R219)
  | failoverResume (ok : Bool)  -- FAILOVER_RESUME (R219)
  | faultRecordWrite  -- FAULT_RECORD_WRITE (R225)
  | himgUnload (r : Requester) (h : LHall)  -- HIMG_UNLOAD (R224)
  | himgLoad (r : Requester) (h : LHall)  -- HIMG_LOAD (R224)
  | himgVerify (r : Requester) (h : LHall)  -- HIMG_VERIFY (R224)
  | himgDone  -- HIMG_DONE (R224)
  | encoderEdge (a b : Bool)  -- ENCODER_EDGE (R233)
  | lsyncPulse (lowNs highNs : Nat)  -- LSYNC_PULSE (R233)
  | lineStrobe (t : Nat)  -- LINE_STROBE (R232)
  | lineGateAdmit (s : StreamId)  -- LINE_GATE_ADMIT (R237)
  | eventEntry (c : CoreId)  -- EVENT_ENTRY (R303)
  | impreciseTrap (c : CoreId)  -- IMPRECISE_TRAP (R275)
  | coreRun (r : Requester) (v : Word)  -- CORE_RUN (R273)
  | coreMov (c : CoreId) (d s : DReg)  -- CORE_MOV (R252)
  | coreAdd (c : CoreId) (f : AluForm)  -- CORE_ADD (R253)
  | coreSub (c : CoreId) (f : AluForm)  -- CORE_SUB (R253)
  | coreAnd (c : CoreId) (f : AluForm)  -- CORE_AND (R253)
  | coreOr (c : CoreId) (f : AluForm)  -- CORE_OR (R253)
  | coreXor (c : CoreId) (f : AluForm)  -- CORE_XOR (R253)
  | coreAndn (c : CoreId) (p : Pred) (d s t : DReg)  -- CORE_ANDN (R253)
  | coreNot (c : CoreId) (d s : DReg)  -- CORE_NOT (R252)
  | coreNeg (c : CoreId) (d s : DReg)  -- CORE_NEG (R252)
  | coreShl (c : CoreId) (f : AluForm)  -- CORE_SHL (R253)
  | coreShru (c : CoreId) (f : AluForm)  -- CORE_SHRU (R253)
  | coreShrs (c : CoreId) (f : AluForm)  -- CORE_SHRS (R253)
  | coreRol (c : CoreId) (p : Pred) (d s t : DReg)  -- CORE_ROL (R253)
  | coreMins (c : CoreId) (p : Pred) (d s t : DReg)  -- CORE_MINS (R253)
  | coreMaxs (c : CoreId) (p : Pred) (d s t : DReg)  -- CORE_MAXS (R253)
  | coreMinu (c : CoreId) (p : Pred) (d s t : DReg)  -- CORE_MINU (R253)
  | coreMaxu (c : CoreId) (p : Pred) (d s t : DReg)  -- CORE_MAXU (R253)
  | aset (c : CoreId) (d : AReg) (s : DReg)  -- ASET (R252)
  | aget (c : CoreId) (d : DReg) (s : AReg)  -- AGET (R252)
  | aadd (c : CoreId) (d : AReg) (s : DReg)  -- AADD (R252)
  | lea (c : CoreId) (p : Pred) (d s : AReg) (imm : BitVec 16)  -- LEA (R253)
  | movi (c : CoreId) (f : ImmForm)  -- MOVI (R253)
  | movhi (c : CoreId) (p : Pred) (d : DReg) (imm : BitVec 16)  -- MOVHI (R253)
  | addi (c : CoreId) (f : ImmForm)  -- ADDI (R253)
  | load (c : CoreId) (f : MemForm)  -- LOAD (R262)
  | store (c : CoreId) (f : MemForm)  -- STORE (R254)
  | cmpEq (c : CoreId) (p : Pred) (d : PReg) (s : DReg) (o : CmpOp)  -- CMP_EQ (R253)
  | cmpNe (c : CoreId) (p : Pred) (d : PReg) (s : DReg) (o : CmpOp)  -- CMP_NE (R253)
  | cmpLts (c : CoreId) (p : Pred) (d : PReg) (s : DReg) (o : CmpOp)  -- CMP_LTS (R253)
  | cmpGes (c : CoreId) (p : Pred) (d : PReg) (s : DReg) (o : CmpOp)  -- CMP_GES (R253)
  | cmpLtu (c : CoreId) (p : Pred) (d : PReg) (s : DReg) (o : CmpOp)  -- CMP_LTU (R253)
  | cmpGeu (c : CoreId) (p : Pred) (d : PReg) (s : DReg) (o : CmpOp)  -- CMP_GEU (R253)
  | predAnd (c : CoreId) (p : Pred) (d a b : PReg)  -- PRED_AND (R253)
  | predOr (c : CoreId) (p : Pred) (d a b : PReg)  -- PRED_OR (R253)
  | predXor (c : CoreId) (p : Pred) (d a b : PReg)  -- PRED_XOR (R253)
  | predAndn (c : CoreId) (p : Pred) (d a b : PReg)  -- PRED_ANDN (R253)
  | br (c : CoreId) (f : BrForm)  -- BR (R252)
  | brp (c : CoreId) (p : Pred) (off : BitVec 8)  -- BRP (R252)
  | call (c : CoreId) (f : BrForm)  -- CALL (R265)
  | jmp (c : CoreId) (p : Pred) (a : AReg)  -- JMP (R253)
  | calla (c : CoreId) (p : Pred) (a : AReg)  -- CALLA (R265)
  | ret (c : CoreId)  -- RET (R265)
  | nop (c : CoreId)  -- NOP (R252)
  | wait (c : CoreId)  -- WAIT (R310)
  | fence (c : CoreId)  -- FENCE (R261)
  | bkpt (c : CoreId)  -- BKPT (R275)
  | isync (c : CoreId)  -- ISYNC (R261)
  | macH2 (c : CoreId) (p : Pred) (n x y : BitVec 2)  -- MAC_H2 (R268)
  | acmov (c : CoreId) (p : Pred) (d : DReg) (n : BitVec 2) (sh : BitVec 6)  -- ACMOV (R269)
  | acclr (c : CoreId) (p : Pred) (n : BitVec 2)  -- ACCLR (R269)
  | acrd (c : CoreId) (p : Pred) (d : DReg) (n part : BitVec 2)  -- ACRD (R269)
  | acwr (c : CoreId) (p : Pred) (n : BitVec 2) (s : DReg) (part : BitVec 2)  -- ACWR (R269)
  | mul (c : CoreId) (p : Pred) (d s t : DReg) (ct : Bool)  -- MUL (R281)
  | mulhs (c : CoreId) (p : Pred) (d s t : DReg) (ct : Bool)  -- MULHS (R281)
  | mulhu (c : CoreId) (p : Pred) (d s t : DReg) (ct : Bool)  -- MULHU (R281)
  | mulds (c : CoreId) (p : Pred) (d s t : DReg) (ct : Bool)  -- MULDS (R281)
  | muldu (c : CoreId) (p : Pred) (d s t : DReg) (ct : Bool)  -- MULDU (R281)
  | coreDstep (c : CoreId) (p : Pred) (r q v : DReg)  -- CORE_DSTEP (R284)
  | macs (c : CoreId) (p : Pred) (n : BitVec 2) (s t : DReg) (ct : Bool)  -- MACS (R281)
  | macu (c : CoreId) (p : Pred) (n : BitVec 2) (s t : DReg) (ct : Bool)  -- MACU (R281)
  | msus (c : CoreId) (p : Pred) (n : BitVec 2) (s t : DReg) (ct : Bool)  -- MSUS (R281)
  | fadd (c : CoreId) (p : Pred) (pr : Bool) (d s t : DReg)  -- FADD (R286)
  | fsub (c : CoreId) (p : Pred) (pr : Bool) (d s t : DReg)  -- FSUB (R286)
  | fmul (c : CoreId) (p : Pred) (pr : Bool) (d s t : DReg)  -- FMUL (R286)
  | fma (c : CoreId) (p : Pred) (pr : Bool) (d s t : DReg)  -- FMA (R286)
  | fnms (c : CoreId) (p : Pred) (pr : Bool) (d s t : DReg)  -- FNMS (R286)
  | fmin (c : CoreId) (p : Pred) (pr : Bool) (d s t : DReg)  -- FMIN (R290)
  | fmax (c : CoreId) (p : Pred) (pr : Bool) (d s t : DReg)  -- FMAX (R290)
  | fneg (c : CoreId) (p : Pred) (pr : Bool) (d s : DReg)  -- FNEG (R286)
  | fabs (c : CoreId) (p : Pred) (pr : Bool) (d s : DReg)  -- FABS (R286)
  | fmov (c : CoreId) (p : Pred) (pr : Bool) (d s : DReg)  -- FMOV (R286)
  | fceq (c : CoreId) (p : Pred) (pr : Bool) (d : PReg) (s t : DReg)  -- FCEQ (R286)
  | fclt (c : CoreId) (p : Pred) (pr : Bool) (d : PReg) (s t : DReg)  -- FCLT (R286)
  | fcle (c : CoreId) (p : Pred) (pr : Bool) (d : PReg) (s t : DReg)  -- FCLE (R286)
  | fcvt (c : CoreId) (p : Pred) (pr : Bool) (d s : DReg)  -- FCVT (R286)
  | fcvtW (c : CoreId) (p : Pred) (pr : Bool) (d s : DReg)  -- FCVT_W (R289)
  | fcvtFW (c : CoreId) (p : Pred) (pr : Bool) (d s : DReg)  -- FCVT_F_W (R286)
  | fcvtWu (c : CoreId) (p : Pred) (pr : Bool) (d s : DReg)  -- FCVT_WU (R289)
  | fcvtFWu (c : CoreId) (p : Pred) (pr : Bool) (d s : DReg)  -- FCVT_F_WU (R286)
  | frece (c : CoreId) (p : Pred) (pr : Bool) (d s : DReg)  -- FRECE (R291)
  | frsqe (c : CoreId) (p : Pred) (pr : Bool) (d s : DReg)  -- FRSQE (R291)
  | mfsr (c : CoreId) (p : Pred) (d : DReg) (n : BitVec 8)  -- MFSR (R272)
  | mtsr (c : CoreId) (p : Pred) (d : DReg) (n : BitVec 8)  -- MTSR (R272)
  | rete (c : CoreId) (p : Pred)  -- RETE (R277)
  | sysc (c : CoreId) (p : Pred) (code : BitVec 8)  -- SYSC (R275)
  | rspush (c : CoreId) (p : Pred) (d : DReg)  -- RSPUSH (R265)
  | rspop (c : CoreId) (p : Pred) (d : DReg)  -- RSPOP (R265)
  | rspushb (c : CoreId) (p : Pred) (d : DReg)  -- RSPUSHB (R265)
  | rspopb (c : CoreId) (p : Pred) (d : DReg)  -- RSPOPB (R265)
  | illegalInstruction (c : CoreId)  -- ILLEGAL_INSTRUCTION (R255)
  | eventLineChange (src : BitVec 8) (v : Bool)  -- EVENT_LINE_CHANGE (R298)
  | eventSet (r : Requester) (w : Fin 8) (v : Word)  -- EVENT_SET (R298)
  | claim (c : CoreId)  -- CLAIM (R301)
  | done (owner : Fin 5) (src : BitVec 8)  -- DONE (R302)
  | modTimerExpire (g : BitVec 4)  -- MOD_TIMER_EXPIRE (R306)
  | modDisable (r : Requester) (g : BitVec 4) (v : Word)  -- MOD_DISABLE (R307)
  | waitWake (c : CoreId)  -- WAIT_WAKE (R310)
  | msixSend (vec : BitVec 6)  -- MSIX_SEND (R311)
  | rd (p : Packet)  -- RD (R318)
  | wr (p : Packet)  -- WR (R318)
  | pwr (p : Packet)  -- PWR (R318)
  | swr (p : Packet)  -- SWR (R318)
  | rsp (tid : BitVec 12)  -- RSP (R318)
  | mrd (p : Packet)  -- MRD (R318)
  | mwr (p : Packet)  -- MWR (R318)
  | mrsp (tid : BitVec 12)  -- MRSP (R318)
  | msg (p : Packet)  -- MSG (R318)
  | epoch (at_ : EpochAt)  -- EPOCH (R329)
  | roadFlitReceive (link : Fin 15) (up : Bool) (crcOk : Bool)  -- ROAD_FLIT_RECEIVE (R324)
  | linkHeartbeatTimeout (link : Fin 15)  -- LINK_HEARTBEAT_TIMEOUT (R324)
  | bridgeDrainEnd (n : BitVec 6)  -- BRIDGE_DRAIN_END (R331)
  | bridgeDrainTimeout (n : BitVec 6)  -- BRIDGE_DRAIN_TIMEOUT (R331)
  | bridgeLinkDown (n : BitVec 6)  -- BRIDGE_LINK_DOWN (R334)
  | resetExchange (n : BitVec 6)  -- RESET_EXCHANGE (R333)
  | targetTimeout (n : BitVec 6)  -- TARGET_TIMEOUT (R335)
  | roadKill (r : Requester) (n : BitVec 6)  -- ROAD_KILL (R335)
  | deadRevive (r : Requester) (w : Fin 2) (v : Word)  -- DEAD_REVIVE (R335)
  | fabricFullLoad (r : Requester)  -- FABRIC_FULL_LOAD (R344)
  | fabricPartialLoad (r : Requester) (rgn : BitVec 3)  -- FABRIC_PARTIAL_LOAD (R344)
  | fabricFramesRead (ok : Bool)  -- FABRIC_FRAMES_READ (R344)
  | fabricVerifyDone (v : Verdict)  -- FABRIC_VERIFY_DONE (R345)
  | fabricOutputsEnable  -- FABRIC_OUTPUTS_ENABLE (R345)
  | queueLineBegin (q : Fin 48)  -- QUEUE_LINE_BEGIN (R351)
  | gatherRead (q : Fin 48)  -- GATHER_READ (R350)
  | queuePop (q : Fin 48)  -- QUEUE_POP (R347)
  | captureArm (r : Requester)  -- CAPTURE_ARM (R355)
  | captureTake (ffs : List Word)  -- CAPTURE_TAKE (R355)
  | captureResume (r : Requester)  -- CAPTURE_RESUME (R355)
  | rbdataRead (r : Requester)  -- RBDATA_READ (R355)
  | fabricRoadRequest (write : Bool) (p : Packet)  -- FABRIC_ROAD_REQUEST (R356)
  | hostReadTlp (bar : Fin 6) (off : BitVec 32) (len : Nat)  -- HOST_READ_TLP (R359)
  | hostWriteTlp (bar : Fin 6) (off : BitVec 32) (data : List Byte)  -- HOST_WRITE_TLP (R359)
  | hostCompletionTlp (tid : BitVec 12) (ok : Bool) (data : List Byte)  -- HOST_COMPLETION_TLP (R360)
  | perst  -- PERST (R362)
  | hotReset  -- HOT_RESET (R362)
  | flr  -- FLR (R362)
  | d3hotEntry  -- D3HOT_ENTRY (R362)
  | hostLinkChange (up : Bool) (speed width : BitVec 4) (l1 : Bool)  -- HOST_LINK_CHANGE (R367)
  | sqDoorbell (r : Requester) (q : Fin 16) (tail : BitVec 12)  -- SQ_DOORBELL (R365)
  | cqDoorbell (r : Requester) (q : Fin 16) (head : BitVec 12)  -- CQ_DOORBELL (R365)
  | commandStep (e : Sqe)  -- COMMAND_STEP (R365)
  | copyin (q : Fin 16) (data : List Byte) (ok : Bool)  -- COPYIN (R366)
  | copyout (q : Fin 16) (n : Nat)  -- COPYOUT (R366)
  | plan (q : Fin 16) (p : PlanData)  -- PLAN (R223)
  | mode (q : Fin 16)  -- MODE (R366)
  | nvswr (q : Fin 16) (off : BitVec 23)  -- NVSWR (R366)
  | attest (q : Fin 16) (sig : List Byte)  -- ATTEST (R423)
  | himg (q : Fin 16)  -- HIMG (R366)
  | fabload (q : Fin 16)  -- FABLOAD (R366)
  | patch (q : Fin 16)  -- PATCH (R366)
  | invalidHostOpcode (q : Fin 16)  -- INVALID_HOST_OPCODE (R366)
  | fwComplete (r : Requester) (q : Fin 16)  -- FW_COMPLETE (R366)
  | ddrTrainingDone (pass : Bool)  -- DDR_TRAINING_DONE (R371)
  | dqsRetrain (ch : Bool)  -- DQS_RETRAIN (R371)
  | linkTrainingDone (p : Fin 4) (chip : BitVec 3) (pedge : Bool)  -- LINK_TRAINING_DONE (R373)
  | linkTrainRetry (p : Fin 4)  -- LINK_TRAIN_RETRY (R373)
  | newsTokenFrame (p : Fin 4) (tseq : BitVec 16) (x : BitVec 64)  -- NEWS_TOKEN_FRAME (R372)
  | expressTokenFrame (p : Fin 4) (tseq : BitVec 16) (x : BitVec 512)  -- EXPRESS_TOKEN_FRAME (R372)
  | roadRequestFrame (p : Fin 4) (write : Bool) (pk : Packet)  -- ROAD_REQUEST_FRAME (R374)
  | roadResponseFrame (p : Fin 4) (tid : BitVec 12) (status : BitVec 4) (data : List Byte)  -- ROAD_RESPONSE_FRAME (R372)
  | ackCreditFrame (p : Fin 4) (fseq : BitVec 12) (cred : BitVec 16)  -- ACK_CREDIT_FRAME (R372)
  | controlFrame (p : Fin 4) (chip : BitVec 3) (pedge : Bool)  -- CONTROL_FRAME (R372)
  | edgeWaitTimeout (p : Fin 4) (s : StreamId)  -- EDGE_WAIT_TIMEOUT (R375)
  | dmaStart (r : Requester) (e : Fin 8) (v : Word)  -- DMA_START (R376)
  | dmaDone (e : Fin 8)  -- DMA_DONE (R376)
  | vinSample (mv : BitVec 16) (lowFor highFor : Nat)  -- VIN_SAMPLE (R377)
  | vmidUndervoltage  -- VMID_UNDERVOLTAGE (R379)
  | rampRestart  -- RAMP_RESTART (R377)
  | domainRequest (r : Requester) (v : Word)  -- DOMAIN_REQUEST (R383)
  | domainUp (d : Fin 25)  -- DOMAIN_UP (R381)
  | domainOff (d : Fin 25)  -- DOMAIN_OFF (R382)
  | supplyTrip (d : Fin 25) (usec : Nat)  -- SUPPLY_TRIP (R387)
  | hallClockFail (h : HallId)  -- HALL_CLOCK_FAIL (R394)
  | xtaCheck (khz : Nat) (st : Straps)  -- XTA_CHECK (R389)
  | xtbCheck (hz : Nat)  -- XTB_CHECK (R389)
  | crystalStop (xtb : Bool)  -- CRYSTAL_STOP (R389)
  | pllLock (n : Fin 4)  -- PLL_LOCK (R391)
  | pllLockLost (n : Fin 4)  -- PLL_LOCK_LOST (R391)
  | hallTrim (h : HallId) (slower : Bool)  -- HALL_TRIM (R393)
  | fmeterStart (r : Requester) (v : Word)  -- FMETER_START (R396)
  | fmeterDone (count : Nat)  -- FMETER_DONE (R396)
  | modeReqIdle (r : Requester)  -- MODE_REQ_IDLE (R402)
  | modeReqReady (r : Requester)  -- MODE_REQ_READY (R402)
  | modeReqPrint (r : Requester)  -- MODE_REQ_PRINT (R402)
  | modeReqService (r : Requester)  -- MODE_REQ_SERVICE (R402)
  | modeReqSleep (r : Requester)  -- MODE_REQ_SLEEP (R402)
  | modeReqStandby (r : Requester)  -- MODE_REQ_STANDBY (R402)
  | modeReqUnlisted (r : Requester) (tgt : BitVec 4)  -- MODE_REQ_UNLISTED (R401)
  | modeTransitionDone  -- MODE_TRANSITION_DONE (R402)
  | wakePin  -- WAKE_PIN (R403)
  | wakeAlarm  -- WAKE_ALARM (R403)
  | wakeHost  -- WAKE_HOST (R403)
  | bootOffer (r : Requester) (v : Word)  -- BOOT_OFFER (R404)
  | resetPin  -- RESET_PIN (R407)
  | softwareReset (r : Requester)  -- SOFTWARE_RESET (R407)
  | watchdogExpire  -- WATCHDOG_EXPIRE (R408)
  | watchdogKick (r : Requester) (key : BitVec 16)  -- WATCHDOG_KICK (R408)
  | aonPowerGood (st : Straps)  -- AON_POWER_GOOD (R410)
  | vmidGood  -- VMID_GOOD (R378)
  | secStepEnd  -- SEC_STEP_END (R412)
  | fuseBurnDone  -- FUSE_BURN_DONE (R416)
  | tamperDetect (src : Fin 5)  -- TAMPER_DETECT (R429)
  | debugNewch (r : Requester) (nonce : List Word)  -- DEBUG_NEWCH (R433)
  | debugTokenGo (r : Requester)  -- DEBUG_TOKEN_GO (R433)
  | debugTokenDone (v : Verdict)  -- DEBUG_TOKEN_DONE (R433)
  | newchBlockExpire  -- NEWCH_BLOCK_EXPIRE (R433)
  | debugHalt (r : Requester) (hreq : BitVec 4)  -- DEBUG_HALT (R434)
  | debugResume (r : Requester)  -- DEBUG_RESUME (R402)
  | memPortAccess (r : Requester) (write : Bool) (v : Word)  -- MEM_PORT_ACCESS (R431)
  | waymarkSample (src : BitVec 4) (sel : BitVec 5) (v : BitVec 32)  -- WAYMARK_SAMPLE (R437)
  | waymarkWindowEnd (w : Fin 16)  -- WAYMARK_WINDOW_END (R438)
  | waymarkClear (r : Requester) (w : Fin 16)  -- WAYMARK_CLEAR (R439)
  | waymarkSnap (r : Requester) (w : Fin 16)  -- WAYMARK_SNAP (R439)
  | bistInterconnect (r : Requester) (hmask : BitVec 17)  -- BIST_INTERCONNECT (R444)
  | bistHallLogic (r : Requester) (hmask : BitVec 17)  -- BIST_HALL_LOGIC (R441)
  | bistPeMarch (r : Requester) (hmask : BitVec 17)  -- BIST_PE_MARCH (R441)
  | bistSpareRows (r : Requester) (hmask : BitVec 17)  -- BIST_SPARE_ROWS (R441)
  | bistDone (res : BistRes)  -- BIST_DONE (R443)
  | fuseRepairBurn (r : Requester)  -- FUSE_REPAIR_BURN (R446)
  | fuseRepairDone (bad : List (Fin 320))  -- FUSE_REPAIR_DONE (R446)
  | tapReset  -- TAP_RESET (R447)
  | extest  -- EXTEST (R449)
  | idcode  -- IDCODE (R448)
  | samplePreload (cells : BitVec 1536)  -- SAMPLE_PRELOAD (R447)
  | extestPulse  -- EXTEST_PULSE (R450)
  | extestTrain  -- EXTEST_TRAIN (R450)
  | clamp  -- CLAMP (R449)
  | highz  -- HIGHZ (R449)
  | bypass  -- BYPASS (R447)
  | dbgacc (go wr : Bool) (off : BitVec 16) (v : Word)  -- DBGACC (R451)
  | testacc (go wr : Bool) (off : BitVec 16) (v : Word)  -- TESTACC (R451)
  | thermalSample (readings : List (BitVec 16)) (msWarm msHot : Nat)  -- THERMAL_SAMPLE (R469)
  | completionTimeout (tid : BitVec 12)  -- COMPLETION_TIMEOUT (R360)
  | configWriteTlp (w : CfgWrite)  -- CONFIG_WRITE_TLP (R361)
  | ramufinFrameCrcFail (p : Fin 4)  -- RAMUFIN_FRAME_CRC_FAIL (R372)
  | aonPowerGoodTimeout  -- AON_POWER_GOOD_TIMEOUT (R410)
  | hallDomainGroupStart  -- HALL_DOMAIN_GROUP_START (R381)
  | ddrVdd2lPgChange (high : Bool)  -- DDR_VDD2L_PG_CHANGE (R465)
  | ddrVdd2lPgTimeout  -- DDR_VDD2L_PG_TIMEOUT (R465)
  | resetNRelease  -- RESET_N_RELEASE (R407)
  | firmwareVerifyDone (v : Verdict)  -- FIRMWARE_VERIFY_DONE (R419)
deriving DecidableEq, Repr

end Sys2Proof
end

