-- ==== Sys2Proof/Decode.lean ====
section
/-! DEFINITION. Words that spell commands: the operation table gives no row any bits, so no word of it spells one. The spec gives the
instructions of the Flivin cores and the array their halfwords: the decoder of those (R73, R251 to R255, R268, R269, R281, R286). -/

namespace Sys2Proof

/-- The command that a word spells by the table's bits: none, for every row's list of bits is empty. -/
def decodeTableWord (_nbits _w : Nat) : Option Instr := none

/-- The instruction whose first halfword is h has a second one (R251). -/
def flivinLong (h : BitVec 16) : Bool := h.extractLsb' 14 2 = 3

/-- The array instruction of an opcode (R73, R85, R99, R104, R105). -/
def decodeArray (opc : BitVec 7) (a : AOp) : Instr :=
  if 0x70 ≤ opc.toNat then .customerOpcode (opc.setWidth 4) a else
  match opc.toNat with
  | 0x00 => .mov a | 0x01 => .not a | 0x02 => .and a | 0x03 => .or a | 0x04 => .xor a | 0x05 => .andn a | 0x06 => .set a
  | 0x07 => .clr a | 0x08 => .movs a | 0x10 => .add a | 0x11 => .adc a | 0x12 => .sub a | 0x13 => .sbc a | 0x14 => .addsu a
  | 0x15 => .addss a | 0x16 => .subsu a | 0x17 => .subss a | 0x18 => .neg a | 0x19 => .cmpeq a | 0x1A => .cmpltu a
  | 0x1B => .cmplts a | 0x1C => .minu a | 0x1D => .maxu a | 0x1E => .mins a | 0x1F => .maxs a | 0x20 => .mulu a
  | 0x21 => .muls a | 0x22 => .dstep a | 0x28 => .shl a false | 0x29 => .shru a false | 0x2A => .shrs a false
  | 0x2B => .rol a false | 0x2C => .shl a true | 0x2D => .shru a true | 0x2E => .shrs a true | 0x2F => .rol a true
  | 0x30 => .getn a | 0x31 => .gets a | 0x32 => .gete a | 0x33 => .getw a | 0x34 => .xgetn a | 0x35 => .xgets a
  | 0x36 => .xgete a | 0x37 => .xgetw a | 0x38 => .sel a | 0x39 => .seln a | 0x40 => .actall a | 0x41 => .actld a
  | 0x42 => .actpush a | 0x43 => .actpushn a | 0x44 => .actpop a | 0x45 => .actelse a | 0x48 => .lookup a | 0x4C => .afd a
  | 0x50 => .agor a | 0x51 => .agorB a | 0x52 => .hor a | 0x53 => .horB a | 0x58 => .faddH a | 0x59 => .fsubH a
  | 0x5A => .fmulH a | 0x5B => .fmaH a | 0x5C => .fceqH a | 0x5D => .fcltH a | 0x5E => .fcleH a | 0x5F => .fcvtSH a
  | 0x60 => .faddS a | 0x61 => .fsubS a | 0x62 => .fmulS a | 0x63 => .fmaS a | 0x64 => .fceqS a | 0x65 => .fcltS a
  | 0x66 => .fcleS a | 0x67 => .fcvtHS a | 0x68 => .fcvtHI a | 0x69 => .fcvtSI a | 0x6A => .fcvtIH a | 0x6B => .fcvtIS a
  | 0x6C => .strin a | 0x6D => .strout a | 0x6E => .milestone a | 0x6F => .amode a
  | _ => .reservedArrayOpcode opc a

/-- A 16-bit form of core c (R252). A required-zero bit that no operand holds makes it illegal (R255). -/
def decodeShort (c : CoreId) (h : BitVec 16) : Instr :=
  let d : DReg := h.extractLsb' 4 4
  let s : DReg := h.extractLsb' 0 4
  let ill : Instr := .illegalInstruction c
  match (h.extractLsb' 14 2).toNat, (h.extractLsb' 12 2).toNat with
  | 0, _ =>
    match (h.extractLsb' 8 6).toNat with
    | 0x01 => .coreMov c d s
    | 0x02 => .coreAdd c (.short d s)
    | 0x03 => .coreSub c (.short d s)
    | 0x04 => .coreAnd c (.short d s)
    | 0x05 => .coreOr c (.short d s)
    | 0x06 => .coreXor c (.short d s)
    | 0x07 => .coreNot c d s
    | 0x08 => .coreNeg c d s
    | 0x09 => .coreShl c (.short d s)
    | 0x0A => .coreShru c (.short d s)
    | 0x0B => .coreShrs c (.short d s)
    | 0x0C => if h.getLsbD 7 then ill else .aset c (h.extractLsb' 4 3) s
    | 0x0D => if h.getLsbD 3 then ill else .aget c d (h.extractLsb' 0 3)
    | 0x0E => if h.getLsbD 7 then ill else .aadd c (h.extractLsb' 4 3) s
    | _ => ill
  | 1, 0 => .movi c (.short (h.extractLsb' 8 4) (h.extractLsb' 0 8))
  | 1, 1 => .addi c (.short (h.extractLsb' 8 4) (h.extractLsb' 0 8))
  | 1, 2 => .load c (.short (h.extractLsb' 8 4) (h.extractLsb' 5 3) (h.extractLsb' 3 2) (h.extractLsb' 0 3))
  | 1, _ => .store c (.short (h.extractLsb' 8 4) (h.extractLsb' 5 3) (h.extractLsb' 3 2) (h.extractLsb' 0 3))
  | _, 0 => .br c (.short (h.extractLsb' 0 12))
  | _, 1 => .brp c ⟨h.extractLsb' 9 3, h.getLsbD 8⟩ (h.extractLsb' 0 8)
  | _, 2 => .call c (.short (h.extractLsb' 0 12))
  | _, _ =>
    match (h.extractLsb' 0 12).toNat with
    | 0 => .nop c
    | 1 => .ret c
    | 2 => .wait c
    | 3 => .fence c
    | 4 => .bkpt c
    | 5 => .isync c
    | _ => ill

/-- The multiply and accumulator class (R268, R269, R281). -/
def decodeMac (c : CoreId) (p : Pred) (fn : Nat) (h : BitVec 16) : Instr :=
  let d : DReg := h.extractLsb' 12 4
  let s : DReg := h.extractLsb' 8 4
  let t : DReg := h.extractLsb' 4 4
  let ct := h.getLsbD 3
  let low (n : Nat) : Bool := h.toNat % 2 ^ n = 0
  let ill : Instr := .illegalInstruction c
  match fn with
  | 0x00 => if low 3 then .mul c p d s t ct else ill
  | 0x01 => if low 3 then .mulhs c p d s t ct else ill
  | 0x02 => if low 3 then .mulhu c p d s t ct else ill
  | 0x04 => if low 3 then .mulds c p d s t ct else ill
  | 0x05 => if low 3 then .muldu c p d s t ct else ill
  | 0x08 => if low 4 then .coreDstep c p d s t else ill
  | 0x10 => if low 10 then .macH2 c p (h.extractLsb' 14 2) (h.extractLsb' 12 2) (h.extractLsb' 10 2) else ill
  | 0x11 => if low 3 && h.extractLsb' 14 2 = 0 then .macs c p (h.extractLsb' 12 2) s t ct else ill
  | 0x12 => if low 3 && h.extractLsb' 14 2 = 0 then .macu c p (h.extractLsb' 12 2) s t ct else ill
  | 0x13 => if low 3 && h.extractLsb' 14 2 = 0 then .msus c p (h.extractLsb' 12 2) s t ct else ill
  | 0x18 => if h.extractLsb' 6 4 = 0 then .acmov c p d (h.extractLsb' 10 2) (h.extractLsb' 0 6) else ill
  | 0x19 => if h &&& 0xF3FF = 0 then .acclr c p (h.extractLsb' 10 2) else ill
  | 0x1A => if h.extractLsb' 2 8 = 0 then .acrd c p d (h.extractLsb' 10 2) (h.extractLsb' 0 2) else ill
  | 0x1B => if h.extractLsb' 2 8 = 0 then .acwr c p (h.extractLsb' 10 2) d (h.extractLsb' 0 2) else ill
  | _ => ill

/-- The FPU class (R286). -/
def decodeFpu (c : CoreId) (p : Pred) (pr : Bool) (op : Nat) (h : BitVec 16) : Instr :=
  let d : DReg := h.extractLsb' 12 4
  let s : DReg := h.extractLsb' 8 4
  let t : DReg := h.extractLsb' 4 4
  let pd : PReg := h.extractLsb' 13 3
  let two (i : Instr) : Instr := if h.extractLsb' 0 8 = 0 then i else .illegalInstruction c
  let three (i : Instr) : Instr := if h.extractLsb' 0 4 = 0 then i else .illegalInstruction c
  let cmp (i : Instr) : Instr := if h.extractLsb' 0 4 = 0 && !h.getLsbD 12 then i else .illegalInstruction c
  match op with
  | 0x00 => three (.fadd c p pr d s t)
  | 0x01 => three (.fsub c p pr d s t)
  | 0x02 => three (.fmul c p pr d s t)
  | 0x03 => three (.fma c p pr d s t)
  | 0x04 => three (.fnms c p pr d s t)
  | 0x05 => three (.fmin c p pr d s t)
  | 0x06 => three (.fmax c p pr d s t)
  | 0x07 => two (.fneg c p pr d s)
  | 0x08 => two (.fabs c p pr d s)
  | 0x09 => two (.fmov c p pr d s)
  | 0x0A => cmp (.fceq c p pr pd s t)
  | 0x0B => cmp (.fclt c p pr pd s t)
  | 0x0C => cmp (.fcle c p pr pd s t)
  | 0x0D => two (.fcvt c p pr d s)
  | 0x0E => two (.fcvtW c p pr d s)
  | 0x0F => two (.fcvtFW c p pr d s)
  | 0x10 => two (.frece c p pr d s)
  | 0x11 => two (.frsqe c p pr d s)
  | 0x12 => two (.fcvtWu c p pr d s)
  | 0x13 => two (.fcvtFWu c p pr d s)
  | _ => .illegalInstruction c

/-- The system class (R253). -/
def decodeSystem (c : CoreId) (p : Pred) (fn : Nat) (h : BitVec 16) : Instr :=
  let d : DReg := h.extractLsb' 12 4
  let ill : Instr := .illegalInstruction c
  let stack (i : Instr) : Instr := if h.extractLsb' 0 12 = 0 then i else ill
  match fn with
  | 0x00 => if h.extractLsb' 8 4 = 0 then .mfsr c p d (h.extractLsb' 0 8) else ill
  | 0x01 => if h.extractLsb' 8 4 = 0 then .mtsr c p d (h.extractLsb' 0 8) else ill
  | 0x02 => if h = 0 then .rete c p else ill
  | 0x03 => if h.extractLsb' 8 8 = 0 then .sysc c p (h.extractLsb' 0 8) else ill
  | 0x04 => stack (.rspush c p d)
  | 0x05 => stack (.rspop c p d)
  | 0x06 => stack (.rspushb c p d)
  | 0x07 => stack (.rspopb c p d)
  | _ => ill

/-- The register class (R253): Dd := Ds op Dt. -/
def decodeAlu (c : CoreId) (p : Pred) (fn : Nat) (h : BitVec 16) : Instr :=
  let d : DReg := h.extractLsb' 12 4
  let s : DReg := h.extractLsb' 8 4
  let t : DReg := h.extractLsb' 4 4
  let f : AluForm := .long p d s t
  if h.extractLsb' 0 4 ≠ 0 then .illegalInstruction c else
  match fn with
  | 0x00 => .coreAdd c f
  | 0x01 => .coreSub c f
  | 0x02 => .coreAnd c f
  | 0x03 => .coreOr c f
  | 0x04 => .coreXor c f
  | 0x05 => .coreAndn c p d s t
  | 0x06 => .coreShl c f
  | 0x07 => .coreShru c f
  | 0x08 => .coreShrs c f
  | 0x09 => .coreRol c p d s t
  | 0x0A => .coreMins c p d s t
  | 0x0B => .coreMaxs c p d s t
  | 0x0C => .coreMinu c p d s t
  | 0x0D => .coreMaxu c p d s t
  | _ => .illegalInstruction c

/-- The predicate class (R253): compares and predicate logic. -/
def decodePred (c : CoreId) (p : Pred) (pd : PReg) (cc : Nat) (h : BitVec 16) : Instr :=
  let s : DReg := h.extractLsb' 12 4
  let pa : PReg := h.extractLsb' 11 3
  let pb : PReg := h.extractLsb' 8 3
  let ill : Instr := .illegalInstruction c
  let o : CmpOp := if h.getLsbD 11 then .imm (h.extractLsb' 0 11) else .reg (h.extractLsb' 7 4)
  let cmp (i : Instr) : Instr := if !h.getLsbD 11 && h.extractLsb' 0 7 ≠ 0 then ill else i
  match cc with
  | 0 => cmp (.cmpEq c p pd s o)
  | 1 => cmp (.cmpNe c p pd s o)
  | 2 => cmp (.cmpLts c p pd s o)
  | 3 => cmp (.cmpGes c p pd s o)
  | 4 => cmp (.cmpLtu c p pd s o)
  | 5 => cmp (.cmpGeu c p pd s o)
  | 6 =>
    if h.extractLsb' 0 8 ≠ 0 then ill else
    match (h.extractLsb' 14 2).toNat with
    | 0 => .predAnd c p pd pa pb
    | 1 => .predOr c p pd pa pb
    | 2 => .predXor c p pd pa pb
    | _ => .predAndn c p pd pa pb
  | _ => ill

/-- The branch class (R253). -/
def decodeBranch (c : CoreId) (p : Pred) (f : BitVec 6) (h : BitVec 16) : Instr :=
  let off : BitVec 20 := (f.extractLsb' 0 4).append h
  let a : AReg := h.extractLsb' 13 3
  let reg (i : Instr) : Instr := if f.extractLsb' 0 4 = 0 && h.extractLsb' 0 13 = 0 then i else .illegalInstruction c
  match (f.extractLsb' 4 2).toNat with
  | 0 => .br c (.long p off)
  | 1 => .call c (.long p off)
  | 2 => reg (.jmp c p a)
  | _ => reg (.calla c p a)

/-- The instruction of two halfwords that core c fetches (R73, R251 to R255). The second one counts for a 32-bit form alone. -/
def decodeFlivin (c : CoreId) (h k : BitVec 16) : Instr :=
  if !flivinLong h then decodeShort c h else
  let p : Pred := ⟨h.extractLsb' 11 3, h.getLsbD 10⟩
  let f : BitVec 6 := h.extractLsb' 0 6
  let mem : MemForm := .long p (h.extractLsb' 4 2) (h.extractLsb' 0 4) (k.extractLsb' 13 3) (k.extractLsb' 10 3) (k.getLsbD 9)
    (k.extractLsb' 0 9)
  match (h.extractLsb' 6 4).toNat with
  | 0x0 => decodeAlu c p f.toNat k
  | 0x1 =>
    match (h.extractLsb' 4 2).toNat with
    | 0 => .movi c (.long p (h.extractLsb' 0 4) k)
    | 1 => .movhi c p (h.extractLsb' 0 4) k
    | 2 => .addi c (.long p (h.extractLsb' 0 4) k)
    | _ => .illegalInstruction c
  | 0x2 => .load c mem
  | 0x3 => .store c mem
  | 0x4 => .lea c p (h.extractLsb' 3 3) (h.extractLsb' 0 3) k
  | 0x5 => decodePred c p (h.extractLsb' 3 3) (h.extractLsb' 0 3).toNat k
  | 0x6 => decodeBranch c p f k
  | 0x7 => decodeMac c p f.toNat k
  | 0x8 => decodeFpu c p (h.getLsbD 5) (h.extractLsb' 0 5).toNat k
  | 0x9 => decodeSystem c p f.toNat k
  | 0xF => decodeArray (f.append (k.extractLsb' 15 1)) ⟨c, p, k.extractLsb' 10 5, k.extractLsb' 5 5, k.extractLsb' 0 5⟩
  | _ => .illegalInstruction c

end Sys2Proof
end

