-- ==== Sys2Proof/Config.lean ====
section
/-! DEFINITION. What an implementation fixes and the values the spec leaves open: constants without a body, so that no proof can
see their values. A value that differs from use to use is applied to a counter of the state (Dev.free). -/

namespace Sys2Proof.Config

/-- A plane of 64 lanes left undefined (X, Y or C after an instruction, R83, R84; a partly written field, R149): the use
and the plane's place. -/
opaque freePlane : Nat → Nat → BitVec 64

/-- The lanes of a row word of the scratch segment, undefined between instructions (R79): the generation and the word's key. -/
opaque freeScratch : Nat → Nat → BitVec 64

/-- Any other undefined word: the use. -/
opaque freeWord : Nat → BitVec 64

/-- Whether an open condition holds: the use. -/
opaque freeBool : Nat → Bool

/-- The microstore ROM (R130), but for the three words the spec gives. -/
opaque rom : BitVec 13 → BitVec 48

/-- The entry address of each vendor opcode (R130), but for ADD. -/
opaque romEntry : BitVec 7 → BitVec 13

/-- The boot ROM's bytes (R23). -/
opaque bootRom : Nat → BitVec 8

/-- How the gallery's SECDED code treats an error of three or more bits of a word (R183): 0 uncorrectable, 1 to 72 a
correction of that bit, 73 a valid word; by the error pattern. -/
opaque galleryBeyond : BitVec 72 → Nat

/-- The check bits of the gallery's SECDED code that a march log names are beyond the model; the DRAM's code for errors of
three or more bits is open in the same way (R369). -/
opaque dramBeyond : BitVec 72 → Nat

/-- How the microstore's SECDED code treats an error of three or more bits of a word (R131): 0 uncorrectable, 1 to 55 a
correction of that bit, 56 a valid word; by the error pattern. -/
opaque microBeyond : BitVec 55 → Nat

/-- FRECE and FRSQE results (R291): double precision?, the operand. -/
opaque reciprocalEstimate : Bool → BitVec 64 → BitVec 64
opaque rsqrtEstimate : Bool → BitVec 64 → BitVec 64

/-- What the debug memory port reaches at level FULL beside the road's own addresses (R146, R170, R431): one half of a microstore word, of
a row of PE memory, or of a latch plane of one twin copy. -/
inductive DebugPlace where
  | micro (a : BitVec 13) (high : Bool)
  | row (hall : Fin 17) (row : Fin 64) (a : BitVec 13) (high : Bool)
  | latch (hall : Fin 17) (copy : Fin 2) (row : Fin 64) (plane : Fin 32) (high : Bool)
deriving DecidableEq, Repr

/-- Where the port reaches it: the spec gives no addresses. -/
opaque debugPlace : Nat → Option DebugPlace

/-- SHAKE256 (R411), uninterpreted: the byte of the output with a given number for an input. -/
opaque shake256 : List (BitVec 8) → Nat → BitVec 8

/-- The seed that the part's PUF gives (R422). -/
opaque pufSeed : List (BitVec 8)

/-- DEVID (R422), by word: the first 32 bytes of SHAKE256(0x49 ‖ seed). -/
def devid (k : Nat) : BitVec 32 :=
  let b (i : Nat) : BitVec 8 := shake256 (0x49 :: pufSeed) (4 * k + i)
  (b 3).append ((b 2).append ((b 1).append (b 0)))

/-- The identity public key that SHAKE256(0x4B ‖ seed) gives (R422). -/
opaque identityKey : List (BitVec 8) → List (BitVec 8)

/-- Whether a configuration frame has a multiplexer with two or more select bits at 1 (R339), by its address: the places of the
multiplexers in a frame are not given. -/
opaque frameConflict : Nat → BitVec 2048 → Bool

/-- What the frames of the fabric say, where the spec gives no places of bits: a 9-bit unit of a block memory's initial contents, the
port width of a block memory (R338), whether a register of an I/O cell runs at double data rate, a cell's initial tap (R341). -/
opaque memInit : List (Nat × BitVec 2048) → Nat → BitVec 9
opaque memMode : List (Nat × BitVec 2048) → Nat → Fin 4
opaque ioDouble : List (Nat × BitVec 2048) → Nat → Fin 3 → Bool
opaque ioTap : List (Nat × BitVec 2048) → Nat → BitVec 7

/-- What the fabric's logic makes of the flip-flops of a region in a cycle of its clock: the use. -/
opaque freeFlops : Nat → BitVec 1536

/-- The cell of the boundary register that controls (true) or feeds (false) a Byway ball (R449): BY_P, BY_N and BY_SE in their order. -/
opaque scanCell : Nat → Bool → Nat

/-- Whether the board supplies VIOBk (R456), by bank. -/
opaque viobPresent : Nat → Bool

end Sys2Proof.Config
end

