-- ==== Sys2Proof/Machine/Regs.lean ====
section
/-! DEFINITION. The register map: every control register of the spec (R24 and the register tables of each chapter), its
offset, its fields and their types and reset values. A reset value that a strap or a fuse gives (SEQ_CTRL.SPLIT, PWR_STRAP,
GAL_RPRn, PWR_HVn, SEC_KEYS, SEC_LCS, DBG levels) or a table of the text gives (ROAD_TIDn, ROAD_RTr_n) is 0 here and is
written by the reset of its block. The names R.BLOCK_REG and R.BLOCK_REG_FIELD are the spec's names; an index follows. -/

namespace Sys2Proof.Machine

/-- The registers of the SYS window, in offset order. -/
def sysRegs : List RegDesc :=
  [⟨0x100, [(4, 4)], [⟨3, 0, .rw, 0⟩]⟩,
   ⟨0x110, [], [⟨3, 1, .rw, 0⟩, ⟨0, 0, .ro, 1⟩]⟩,
   ⟨0x118, [(4, 3)], [⟨31, 1, .rw, 67108864⟩]⟩]

/-- The registers of the PWR window, in offset order. -/
def pwrRegs : List RegDesc :=
  [⟨0x0, [], [⟨15, 0, .ro, 0⟩]⟩,
   ⟨0x4, [], [⟨31, 31, .w1c, 0⟩, ⟨30, 30, .w1c, 0⟩]⟩,
   ⟨0x10, [], [⟨24, 8, .rw, 0⟩, ⟨5, 0, .rw, 0⟩]⟩,
   ⟨0x14, [], [⟨31, 31, .w1c, 0⟩, ⟨24, 8, .ro, 0⟩, ⟨5, 0, .ro, 0⟩]⟩,
   ⟨0x18, [], [⟨24, 8, .ro, 0⟩, ⟨5, 0, .ro, 0⟩]⟩,
   ⟨0x1C, [], [⟨24, 8, .w1c, 0⟩, ⟨6, 0, .w1c, 0⟩]⟩,
   ⟨0x80, [], [⟨2, 0, .st, 4⟩]⟩,
   ⟨0x100, [(4, 17)], [⟨31, 31, .ro, 0⟩, ⟨30, 24, .ro, 8⟩, ⟨22, 16, .ro, 0⟩, ⟨14, 8, .st, 8⟩, ⟨6, 0, .st, 0⟩]⟩,
   ⟨0x200, [], [⟨31, 31, .wo, 0⟩, ⟨3, 0, .rw, 0⟩]⟩,
   ⟨0x204, [], [⟨31, 31, .ro, 0⟩, ⟨30, 30, .w1c, 0⟩, ⟨27, 24, .ro, 0⟩, ⟨15, 12, .ro, 1⟩, ⟨11, 8, .ro, 0⟩, ⟨3, 0, .ro, 1⟩]⟩,
   ⟨0x208, [], [⟨13, 12, .ro, 0⟩, ⟨11, 11, .ro, 0⟩, ⟨10, 9, .ro, 0⟩, ⟨8, 8, .ro, 0⟩, ⟨7, 5, .ro, 0⟩, ⟨4, 2, .ro, 0⟩, ⟨1, 0, .ro, 0⟩]⟩,
   ⟨0x20C, [], [⟨31, 31, .w1c, 1⟩, ⟨30, 30, .w1c, 0⟩, ⟨29, 29, .w1c, 0⟩, ⟨28, 28, .w1c, 0⟩, ⟨27, 27, .w1c, 0⟩, ⟨26, 26, .w1c, 0⟩, ⟨8, 8, .w1c, 0⟩, ⟨3, 0, .ro, 0⟩]⟩] ++
  [⟨0x210, [], [⟨31, 31, .wo, 0⟩]⟩,
   ⟨0x214, [], [⟨31, 31, .w1s, 0⟩, ⟨15, 0, .rw, 1000⟩]⟩,
   ⟨0x218, [], [⟨15, 0, .wo, 0⟩]⟩,
   ⟨0x21C, [], [⟨31, 31, .rw, 0⟩, ⟨30, 30, .rw, 0⟩, ⟨29, 29, .rw, 0⟩, ⟨15, 0, .rw, 0⟩]⟩,
   ⟨0x220, [], [⟨31, 1, .rw, 67108864⟩]⟩,
   ⟨0x224, [], [⟨31, 31, .wo, 0⟩, ⟨24, 3, .rw, 0⟩]⟩,
   ⟨0x240, [], [⟨31, 31, .w1c, 0⟩, ⟨15, 8, .ro, 0⟩, ⟨4, 0, .w1c, 0⟩]⟩,
   ⟨0x244, [], [⟨4, 0, .lk, 0⟩]⟩,
   ⟨0x250, [], [⟨31, 31, .w1c, 0⟩, ⟨30, 30, .w1c, 0⟩, ⟨20, 16, .ro, 0⟩, ⟨15, 0, .rw, 0⟩]⟩]

/-- The registers of the CLK window, in offset order. -/
def clkRegs : List RegDesc :=
  [⟨0x0, [(8, 4)], [⟨31, 31, .st, 0⟩, ⟨13, 12, .st, 0⟩, ⟨11, 9, .st, 0⟩, ⟨8, 0, .st, 0⟩]⟩,
   ⟨0x4, [(8, 4)], [⟨15, 0, .st, 0⟩]⟩,
   ⟨0x20, [], [⟨1, 1, .st, 0⟩, ⟨0, 0, .st, 0⟩]⟩,
   ⟨0x24, [], [⟨6, 0, .st, 64⟩]⟩,
   ⟨0x40, [], [⟨31, 31, .wo, 0⟩, ⟨30, 30, .ro, 0⟩, ⟨29, 29, .w1c, 0⟩, ⟨28, 24, .rw, 0⟩, ⟨23, 22, .rw, 0⟩, ⟨19, 0, .rw, 0⟩]⟩,
   ⟨0x44, [], [⟨31, 0, .ro, 0⟩]⟩,
   ⟨0x48, [], [⟨31, 31, .ro, 0⟩, ⟨30, 30, .ro, 0⟩, ⟨29, 29, .w1c, 0⟩, ⟨7, 4, .w1c, 0⟩, ⟨3, 0, .ro, 0⟩]⟩]

/-- The registers of the SEC window, in offset order. -/
def secRegs : List RegDesc :=
  [⟨0x0, [], [⟨31, 31, .ro, 0⟩, ⟨30, 30, .w1c, 0⟩, ⟨29, 29, .ro, 0⟩, ⟨13, 8, .ro, 0⟩, ⟨2, 0, .ro, 0⟩]⟩,
   ⟨0x4, [], [⟨23, 16, .ro, 0⟩, ⟨15, 8, .ro, 0⟩, ⟨7, 0, .ro, 0⟩]⟩,
   ⟨0x10, [], [⟨7, 0, .st, 0⟩]⟩,
   ⟨0x14, [], [⟨31, 31, .ro, 0⟩, ⟨30, 30, .ro, 0⟩, ⟨15, 8, .ro, 0⟩, ⟨6, 0, .ro, 0⟩]⟩,
   ⟨0x20, [(4, 8)], [⟨31, 0, .ro, 0⟩]⟩]

/-- The registers of the EVC window, in offset order. -/
def evcRegs : List RegDesc :=
  [⟨0x40, [], [⟨31, 31, .rw, 0⟩, ⟨2, 0, .rw, 0⟩]⟩,
   ⟨0x44, [], [⟨31, 16, .rw, 0⟩, ⟨15, 0, .rw, 0⟩]⟩,
   ⟨0x100, [(16, 4)], [⟨31, 31, .ro, 0⟩, ⟨27, 24, .ro, 0⟩, ⟨7, 0, .ro, 0⟩]⟩,
   ⟨0x104, [(16, 5)], [⟨7, 0, .wo, 0⟩]⟩,
   ⟨0x108, [(16, 4)], [⟨31, 31, .ro, 0⟩, ⟨27, 24, .ro, 0⟩, ⟨7, 0, .ro, 0⟩]⟩,
   ⟨0x200, [(4, 8)], [⟨31, 0, .w1c, 0⟩]⟩,
   ⟨0x220, [(4, 8)], [⟨31, 0, .wo, 0⟩]⟩,
   ⟨0x240, [(4, 8)], [⟨31, 0, .ro, 0⟩]⟩,
   ⟨0x304, [(4, 15)], [⟨31, 31, .rw, 0⟩, ⟨23, 16, .rw, 1⟩, ⟨15, 0, .rw, 0⟩]⟩,
   ⟨0x1000, [(4, 256)], [⟨31, 31, .rw, 0⟩, ⟨30, 30, .rw, 0⟩, ⟨29, 24, .rw, 0⟩, ⟨23, 20, .rw, 0⟩, ⟨19, 16, .rw, 0⟩, ⟨15, 8, .rw, 0⟩, ⟨4, 0, .rw, 0⟩]⟩]

/-- The registers of the ROAD window, in offset order. -/
def roadRegs : List RegDesc :=
  [⟨0x0, [], [⟨31, 24, .rw, 50⟩, ⟨15, 0, .rw, 200⟩]⟩,
   ⟨0x4, [], [⟨7, 0, .rw, 16⟩]⟩,
   ⟨0x8, [], [⟨31, 0, .rw, 0⟩]⟩,
   ⟨0x10, [], [⟨14, 0, .ro, 0⟩]⟩,
   ⟨0x14, [], [⟨31, 0, .rw, 0⟩]⟩,
   ⟨0x18, [], [⟨31, 31, .ro, 0⟩, ⟨15, 0, .ro, 0⟩]⟩,
   ⟨0x20, [(4, 2)], [⟨31, 0, .w1c, 0⟩]⟩,
   ⟨0x28, [], [⟨5, 0, .wo, 0⟩]⟩,
   ⟨0x2C, [], [⟨31, 0, .rw, 0⟩]⟩,
   ⟨0x30, [], [⟨7, 0, .ro, 0⟩]⟩,
   ⟨0x100, [(16, 4)], [⟨31, 31, .rw, 0⟩, ⟨30, 30, .rw, 0⟩, ⟨29, 26, .rw, 0⟩, ⟨25, 24, .rw, 0⟩, ⟨23, 20, .rw, 0⟩, ⟨19, 19, .rw, 0⟩, ⟨15, 10, .rw, 0⟩, ⟨9, 0, .rw, 0⟩]⟩,
   ⟨0x104, [(16, 4)], [⟨31, 0, .rw, 0⟩]⟩] ++
  [⟨0x108, [(16, 4)], [⟨31, 0, .rw, 0⟩]⟩,
   ⟨0x200, [(4, 64)], [⟨27, 16, .st, 0⟩, ⟨12, 0, .st, 0⟩]⟩,
   ⟨0x300, [(4, 64)], [⟨31, 31, .rw, 0⟩, ⟨30, 28, .ro, 0⟩, ⟨22, 16, .ro, 0⟩, ⟨15, 8, .rw, 0⟩, ⟨7, 0, .rw, 0⟩]⟩,
   ⟨0x1000, [(256, 10), (4, 64)], [⟨4, 4, .st, 0⟩, ⟨3, 0, .st, 0⟩]⟩,
   ⟨0x2000, [(4, 1024)], [⟨31, 0, .ro, 0⟩]⟩]

/-- The registers of the SEQ window, in offset order. -/
def seqRegs : List RegDesc :=
  [⟨0x0, [], [⟨15, 8, .rw, 16⟩, ⟨1, 0, .st, 0⟩]⟩,
   ⟨0x40, [], [⟨17, 16, .st, 0⟩, ⟨15, 14, .st, 0⟩, ⟨13, 12, .st, 0⟩, ⟨11, 10, .st, 0⟩, ⟨9, 8, .st, 0⟩, ⟨7, 6, .st, 0⟩, ⟨5, 4, .st, 0⟩, ⟨3, 2, .st, 0⟩, ⟨1, 0, .st, 0⟩]⟩,
   ⟨0x50, [], [⟨15, 0, .rw, 256⟩]⟩,
   ⟨0x54, [], [⟨19, 16, .rw, 0⟩, ⟨15, 12, .rw, 0⟩, ⟨11, 8, .rw, 0⟩, ⟨7, 4, .rw, 0⟩, ⟨3, 0, .rw, 0⟩]⟩,
   ⟨0x60, [(4, 4)], [⟨31, 31, .w1c, 0⟩, ⟨30, 26, .ro, 0⟩, ⟨25, 16, .rw, 0⟩, ⟨12, 0, .ro, 0⟩]⟩,
   ⟨0x70, [(4, 4)], [⟨7, 7, .ro, 0⟩, ⟨6, 5, .ro, 0⟩, ⟨4, 4, .ro, 0⟩, ⟨3, 0, .ro, 0⟩]⟩,
   ⟨0x200, [(4, 4)], [⟨31, 31, .w1c, 0⟩, ⟨30, 24, .ro, 0⟩, ⟨23, 16, .ro, 0⟩, ⟨15, 11, .ro, 0⟩, ⟨10, 9, .ro, 0⟩]⟩,
   ⟨0x220, [(4, 4)], [⟨31, 31, .rw, 0⟩, ⟨28, 16, .rw, 0⟩, ⟨9, 9, .rw, 0⟩, ⟨7, 4, .rw, 12⟩, ⟨3, 3, .rw, 0⟩, ⟨2, 2, .rw, 0⟩, ⟨1, 0, .rw, 0⟩]⟩,
   ⟨0x230, [(4, 4)], [⟨31, 31, .w1c, 0⟩, ⟨30, 24, .ro, 0⟩, ⟨0, 0, .w1c, 0⟩]⟩,
   ⟨0x300, [(4, 16)], [⟨31, 31, .st, 0⟩, ⟨27, 27, .st, 0⟩, ⟨26, 26, .st, 0⟩, ⟨25, 25, .st, 0⟩, ⟨24, 24, .st, 0⟩, ⟨23, 23, .st, 0⟩, ⟨22, 22, .st, 0⟩, ⟨21, 21, .st, 0⟩, ⟨8, 0, .st, 0⟩]⟩,
   ⟨0x340, [], [⟨15, 0, .ro, 0⟩]⟩,
   ⟨0x400, [(4, 32)], [⟨31, 31, .st, 0⟩, ⟨28, 16, .st, 0⟩, ⟨8, 0, .st, 0⟩]⟩] ++
  [⟨0x480, [], [⟨31, 3, .rw, 0⟩]⟩,
   ⟨0x484, [], [⟨1, 1, .rw, 0⟩, ⟨0, 0, .wo, 0⟩]⟩,
   ⟨0x488, [], [⟨31, 31, .ro, 0⟩, ⟨30, 30, .w1c, 0⟩, ⟨29, 29, .w1c, 0⟩, ⟨27, 24, .ro, 0⟩, ⟨9, 0, .ro, 0⟩]⟩,
   ⟨0x500, [(32, 4)], [⟨31, 0, .st, 0⟩]⟩,
   ⟨0x504, [(32, 4)], [⟨31, 0, .st, 0⟩]⟩,
   ⟨0x508, [(32, 4)], [⟨15, 0, .st, 4096⟩]⟩,
   ⟨0x50C, [(32, 4)], [⟨31, 31, .st, 0⟩, ⟨29, 24, .st, 0⟩, ⟨12, 0, .st, 0⟩]⟩,
   ⟨0x510, [(32, 4)], [⟨12, 0, .st, 0⟩]⟩,
   ⟨0x580, [(4, 4)], [⟨31, 31, .ro, 0⟩, ⟨30, 30, .w1c, 0⟩, ⟨24, 16, .ro, 0⟩, ⟨13, 0, .ro, 0⟩]⟩,
   ⟨0x590, [(4, 4)], [⟨31, 0, .ro, 0⟩]⟩,
   ⟨0x5A0, [(4, 4)], [⟨31, 31, .ro, 0⟩, ⟨30, 30, .ro, 0⟩, ⟨29, 29, .ro, 0⟩, ⟨15, 0, .ro, 0⟩]⟩,
   ⟨0x5B0, [(4, 4)], [⟨31, 0, .ro, 0⟩]⟩] ++
  [⟨0x5C0, [(4, 4)], [⟨31, 0, .ro, 0⟩]⟩,
   ⟨0x600, [], [⟨31, 16, .rw, 1000⟩, ⟨14, 12, .rw, 3⟩, ⟨11, 8, .rw, 4⟩, ⟨3, 3, .rw, 0⟩, ⟨2, 2, .rw, 1⟩, ⟨1, 1, .st, 0⟩, ⟨0, 0, .rw, 1⟩]⟩,
   ⟨0x604, [], [⟨31, 0, .st, 0⟩]⟩,
   ⟨0x608, [], [⟨24, 16, .st, 0⟩, ⟨8, 0, .st, 0⟩]⟩,
   ⟨0x610, [], [⟨31, 31, .st, 0⟩, ⟨3, 0, .st, 0⟩]⟩,
   ⟨0x614, [], [⟨31, 31, .ro, 0⟩, ⟨30, 30, .w1c, 0⟩, ⟨29, 28, .ro, 0⟩, ⟨27, 24, .ro, 0⟩, ⟨23, 23, .ro, 0⟩, ⟨15, 0, .rw, 0⟩]⟩,
   ⟨0x640, [(4, 16)], [⟨11, 0, .st, 0⟩]⟩,
   ⟨0x680, [], [⟨31, 31, .wo, 0⟩, ⟨30, 30, .ro, 0⟩, ⟨29, 29, .w1c, 0⟩, ⟨28, 28, .w1c, 0⟩, ⟨27, 27, .w1c, 0⟩, ⟨26, 24, .ro, 0⟩, ⟨9, 8, .rw, 0⟩, ⟨3, 0, .rw, 0⟩]⟩,
   ⟨0x800, [(128, 4), (4, 19)], [⟨31, 0, .ro, 0⟩]⟩,
   ⟨0x1000, [(256, 4), (8, 32)], [⟨31, 31, .ro, 0⟩, ⟨20, 15, .ro, 0⟩, ⟨13, 13, .ro, 0⟩, ⟨12, 0, .ro, 0⟩]⟩,
   ⟨0x1004, [(256, 4), (8, 32)], [⟨12, 0, .ro, 0⟩]⟩]

/-- The registers of a HALLn window, in offset order. -/
def hallRegs : List RegDesc :=
  [⟨0x100, [], [⟨31, 31, .ro, 0⟩, ⟨30, 24, .ro, 0⟩, ⟨23, 23, .ro, 0⟩, ⟨22, 16, .ro, 0⟩, ⟨15, 15, .ro, 0⟩, ⟨14, 8, .ro, 0⟩, ⟨7, 7, .ro, 0⟩, ⟨6, 0, .ro, 0⟩]⟩,
   ⟨0x104, [], [⟨31, 31, .st, 0⟩, ⟨30, 24, .st, 0⟩, ⟨23, 23, .st, 0⟩, ⟨22, 16, .st, 0⟩, ⟨15, 15, .st, 0⟩, ⟨14, 8, .st, 0⟩, ⟨7, 7, .st, 0⟩, ⟨6, 0, .st, 0⟩]⟩,
   ⟨0x110, [], [⟨15, 15, .rw, 0⟩, ⟨14, 8, .rw, 0⟩, ⟨0, 0, .rw, 1⟩]⟩,
   ⟨0x114, [], [⟨31, 20, .rw, 0⟩, ⟨19, 4, .rw, 0⟩, ⟨0, 0, .w1c, 0⟩]⟩,
   ⟨0x118, [], [⟨31, 19, .ro, 0⟩, ⟨18, 13, .ro, 0⟩, ⟨12, 6, .ro, 0⟩, ⟨5, 4, .ro, 0⟩, ⟨0, 0, .ro, 0⟩]⟩,
   ⟨0x120, [], [⟨31, 31, .w1c, 0⟩, ⟨30, 28, .ro, 0⟩, ⟨27, 27, .ro, 0⟩, ⟨26, 20, .ro, 0⟩, ⟨19, 14, .ro, 0⟩, ⟨12, 0, .ro, 0⟩]⟩,
   ⟨0x130, [], [⟨31, 31, .w1c, 0⟩, ⟨30, 29, .ro, 0⟩, ⟨22, 16, .rw, 0⟩, ⟨6, 0, .ro, 0⟩]⟩,
   ⟨0x140, [(4, 5)], [⟨31, 0, .rw, 0⟩]⟩,
   ⟨0x180, [(4, 4)], [⟨31, 31, .ro, 0⟩, ⟨30, 28, .ro, 0⟩, ⟨27, 21, .ro, 0⟩, ⟨20, 0, .ro, 0⟩]⟩,
   ⟨0x190, [], [⟨31, 31, .ro, 0⟩, ⟨30, 30, .ro, 0⟩, ⟨29, 29, .w1c, 0⟩, ⟨22, 16, .ro, 0⟩, ⟨2, 0, .ro, 0⟩]⟩,
   ⟨0x400, [(4, 76)], [⟨15, 0, .rw, 0⟩]⟩]

/-- The registers of the STAIR window, in offset order. -/
def stairRegs : List RegDesc :=
  [⟨0x0, [], [⟨15, 0, .rw, 100⟩]⟩,
   ⟨0x100, [(32, 8)], [⟨31, 31, .st, 0⟩, ⟨30, 29, .st, 0⟩, ⟨28, 28, .st, 0⟩, ⟨27, 27, .st, 0⟩, ⟨26, 24, .st, 0⟩, ⟨23, 23, .st, 0⟩, ⟨22, 22, .st, 0⟩]⟩,
   ⟨0x104, [(32, 8)], [⟨24, 6, .st, 0⟩]⟩,
   ⟨0x108, [(32, 8)], [⟨28, 16, .st, 0⟩, ⟨12, 0, .st, 0⟩]⟩,
   ⟨0x10C, [(32, 8)], [⟨23, 0, .ro, 0⟩]⟩,
   ⟨0x110, [(32, 8)], [⟨23, 0, .ro, 0⟩]⟩,
   ⟨0x114, [(32, 8)], [⟨23, 0, .rw, 0⟩]⟩,
   ⟨0x118, [(32, 8)], [⟨31, 31, .w1c, 0⟩, ⟨30, 30, .w1c, 0⟩, ⟨29, 29, .ro, 0⟩]⟩,
   ⟨0x11C, [(32, 8)], [⟨23, 0, .ro, 0⟩]⟩]

/-- The registers of the GAL window, in offset order. -/
def galRegs : List RegDesc :=
  [⟨0x0, [], [⟨7, 0, .rw, 16⟩]⟩,
   ⟨0x4, [], [⟨31, 0, .rw, 0⟩]⟩,
   ⟨0x10, [], [⟨31, 20, .rw, 0⟩, ⟨19, 0, .rw, 0⟩]⟩,
   ⟨0x14, [], [⟨31, 31, .w1c, 0⟩, ⟨30, 30, .ro, 0⟩, ⟨21, 0, .ro, 0⟩]⟩,
   ⟨0x40, [], [⟨31, 31, .st, 0⟩, ⟨23, 16, .st, 0⟩, ⟨15, 14, .st, 0⟩, ⟨13, 8, .st, 8⟩, ⟨7, 0, .st, 0⟩]⟩,
   ⟨0x44, [], [⟨17, 0, .st, 0⟩]⟩,
   ⟨0x48, [], [⟨12, 0, .st, 0⟩]⟩,
   ⟨0x50, [], [⟨31, 24, .rw, 0⟩, ⟨23, 23, .w1c, 0⟩, ⟨15, 0, .ro, 0⟩]⟩,
   ⟨0x54, [], [⟨31, 31, .ro, 0⟩, ⟨23, 0, .ro, 0⟩]⟩,
   ⟨0x80, [], [⟨31, 31, .wo, 0⟩, ⟨30, 30, .ro, 0⟩, ⟨29, 29, .ro, 0⟩, ⟨28, 28, .w1c, 0⟩, ⟨27, 24, .ro, 0⟩]⟩,
   ⟨0xC0, [], [⟨31, 31, .wo, 0⟩, ⟨30, 30, .ro, 0⟩, ⟨29, 29, .w1c, 0⟩, ⟨28, 28, .w1c, 0⟩, ⟨27, 27, .w1c, 0⟩, ⟨25, 24, .rw, 0⟩, ⟨23, 23, .rw, 0⟩, ⟨17, 16, .rw, 0⟩, ⟨15, 0, .ro, 0⟩]⟩,
   ⟨0xC4, [], [⟨31, 31, .ro, 0⟩, ⟨30, 26, .ro, 0⟩, ⟨25, 14, .ro, 0⟩, ⟨13, 9, .ro, 0⟩, ⟨8, 8, .ro, 0⟩, ⟨6, 0, .ro, 0⟩]⟩] ++
  [⟨0x200, [(16, 8)], [⟨31, 0, .rw, 0⟩]⟩,
   ⟨0x204, [(16, 8)], [⟨31, 0, .rw, 0⟩]⟩,
   ⟨0x208, [(16, 8)], [⟨15, 8, .rw, 0⟩, ⟨7, 0, .rw, 0⟩]⟩,
   ⟨0x20C, [(16, 8)], [⟨31, 31, .wo, 0⟩, ⟨30, 30, .ro, 0⟩, ⟨29, 29, .w1c, 0⟩, ⟨28, 28, .w1c, 0⟩, ⟨27, 27, .rw, 0⟩, ⟨26, 23, .ro, 0⟩, ⟨22, 0, .rw, 0⟩]⟩,
   ⟨0x400, [(4, 320)], [⟨31, 31, .lk, 0⟩, ⟨30, 30, .ro, 0⟩, ⟨29, 29, .ro, 0⟩, ⟨11, 0, .lk, 0⟩]⟩]

/-- The registers of the BYW window, in offset order. -/
def bywRegs : List RegDesc :=
  [⟨0x0, [], [⟨31, 3, .rw, 0⟩]⟩,
   ⟨0x4, [], [⟨5, 3, .rw, 0⟩, ⟨1, 1, .rw, 0⟩, ⟨0, 0, .wo, 0⟩]⟩,
   ⟨0x8, [], [⟨31, 31, .ro, 0⟩, ⟨30, 30, .ro, 0⟩, ⟨29, 29, .w1c, 0⟩, ⟨28, 28, .w1c, 0⟩, ⟨27, 24, .ro, 0⟩, ⟨23, 12, .ro, 0⟩, ⟨11, 0, .ro, 0⟩]⟩,
   ⟨0xC, [], [⟨15, 8, .ro, 0⟩, ⟨7, 0, .rw, 0⟩]⟩,
   ⟨0x40, [(4, 8)], [⟨31, 31, .st, 0⟩, ⟨5, 4, .st, 0⟩, ⟨3, 0, .st, 0⟩]⟩,
   ⟨0x80, [], [⟨19, 0, .st, 0⟩]⟩,
   ⟨0x84, [], [⟨24, 16, .st, 0⟩, ⟨15, 0, .st, 0⟩]⟩,
   ⟨0x100, [], [⟨31, 31, .wo, 0⟩, ⟨30, 30, .wo, 0⟩, ⟨29, 29, .rw, 0⟩, ⟨28, 27, .rw, 0⟩, ⟨26, 24, .rw, 0⟩, ⟨15, 0, .rw, 1⟩]⟩,
   ⟨0x104, [], [⟨31, 31, .ro, 0⟩, ⟨30, 30, .w1c, 0⟩, ⟨29, 29, .ro, 0⟩, ⟨28, 28, .w1c, 0⟩]⟩,
   ⟨0x108, [], [⟨15, 0, .rw, 0⟩]⟩,
   ⟨0x10C, [], [⟨31, 0, .ro, 0⟩]⟩,
   ⟨0x200, [(4, 48)], [⟨31, 31, .st, 0⟩, ⟨2, 0, .st, 0⟩]⟩] ++
  [⟨0x300, [], [⟨31, 16, .ro, 0⟩, ⟨15, 0, .rw, 0⟩]⟩,
   ⟨0x1000, [(4, 512)], [⟨31, 0, .st, 0⟩]⟩]

/-- The registers of the HOST window, in offset order. -/
def hostRegs : List RegDesc :=
  [⟨0x0, [], [⟨31, 31, .ro, 0⟩, ⟨27, 24, .ro, 0⟩, ⟨23, 20, .ro, 0⟩, ⟨19, 19, .ro, 0⟩, ⟨18, 18, .w1c, 0⟩]⟩,
   ⟨0x4, [], [⟨24, 0, .rw, 0⟩]⟩,
   ⟨0x8, [], [⟨8, 0, .rw, 0⟩]⟩,
   ⟨0x100, [(32, 16)], [⟨31, 12, .st, 0⟩]⟩,
   ⟨0x104, [(32, 16)], [⟨31, 0, .st, 0⟩]⟩,
   ⟨0x108, [(32, 16)], [⟨31, 12, .st, 0⟩]⟩,
   ⟨0x10C, [(32, 16)], [⟨31, 0, .st, 0⟩]⟩,
   ⟨0x110, [(32, 16)], [⟨31, 31, .st, 0⟩, ⟨11, 0, .st, 0⟩]⟩,
   ⟨0x114, [(32, 16)], [⟨11, 0, .rw, 0⟩]⟩,
   ⟨0x118, [(32, 16)], [⟨11, 0, .rw, 0⟩]⟩,
   ⟨0x11C, [(32, 16)], [⟨31, 31, .w1c, 0⟩, ⟨30, 30, .ro, 0⟩, ⟨11, 0, .ro, 0⟩]⟩,
   ⟨0x400, [(16, 16)], [⟨31, 0, .rw, 0⟩]⟩] ++
  [⟨0x404, [(16, 16)], [⟨31, 0, .rw, 0⟩]⟩,
   ⟨0x408, [(16, 16)], [⟨31, 31, .wo, 0⟩, ⟨15, 8, .rw, 0⟩, ⟨7, 0, .rw, 0⟩]⟩]

/-- The registers of the DDR window, in offset order. -/
def ddrRegs : List RegDesc :=
  [⟨0x0, [], [⟨31, 31, .st, 0⟩, ⟨27, 26, .st, 0⟩, ⟨25, 24, .st, 0⟩, ⟨7, 0, .ro, 0⟩]⟩,
   ⟨0x4, [], [⟨31, 31, .ro, 0⟩, ⟨30, 30, .w1c, 0⟩, ⟨29, 20, .rw, 0⟩, ⟨19, 0, .rw, 0⟩]⟩,
   ⟨0x8, [], [⟨31, 31, .w1c, 0⟩, ⟨30, 30, .ro, 0⟩, ⟨29, 0, .ro, 0⟩]⟩]

/-- The registers of the LINK window, in offset order. -/
def linkRegs : List RegDesc :=
  [⟨0x0, [], [⟨15, 0, .rw, 200⟩]⟩,
   ⟨0x4, [], [⟨31, 24, .st, 0⟩, ⟨15, 0, .st, 0⟩]⟩,
   ⟨0x100, [(16, 4)], [⟨31, 31, .st, 0⟩, ⟨30, 30, .st, 0⟩]⟩,
   ⟨0x104, [(16, 4)], [⟨31, 31, .ro, 0⟩, ⟨30, 30, .w1c, 0⟩, ⟨29, 29, .w1c, 0⟩, ⟨28, 28, .ro, 0⟩, ⟨23, 21, .ro, 0⟩, ⟨15, 0, .rw, 0⟩]⟩]

/-- The registers of the WAY window, in offset order. -/
def wayRegs : List RegDesc :=
  [⟨0x100, [(32, 16)], [⟨31, 31, .st, 0⟩, ⟨30, 27, .st, 0⟩, ⟨26, 22, .st, 0⟩, ⟨21, 21, .st, 0⟩, ⟨20, 20, .st, 0⟩]⟩,
   ⟨0x104, [(32, 16)], [⟨31, 0, .st, 0⟩]⟩,
   ⟨0x108, [(32, 16)], [⟨31, 16, .st, 0⟩, ⟨15, 0, .st, 1⟩]⟩,
   ⟨0x10C, [(32, 16)], [⟨31, 0, .rw, 2147483648⟩]⟩,
   ⟨0x110, [(32, 16)], [⟨31, 0, .rw, 2147483647⟩]⟩,
   ⟨0x114, [(32, 16)], [⟨31, 31, .wo, 0⟩, ⟨30, 30, .wo, 0⟩, ⟨2, 2, .ro, 0⟩, ⟨1, 1, .w1c, 0⟩, ⟨0, 0, .w1c, 0⟩]⟩,
   ⟨0x1000, [(512, 16), (4, 68)], [⟨31, 0, .ro, 0⟩]⟩]

/-- The registers of the TEST window, in offset order. -/
def testRegs : List RegDesc :=
  [⟨0x0, [], [⟨31, 31, .wo, 0⟩, ⟨30, 28, .rw, 0⟩, ⟨16, 0, .rw, 0⟩]⟩,
   ⟨0x4, [], [⟨31, 31, .ro, 0⟩, ⟨30, 30, .w1c, 0⟩, ⟨29, 29, .w1c, 0⟩, ⟨28, 28, .w1c, 0⟩, ⟨27, 24, .ro, 0⟩]⟩,
   ⟨0x8, [], [⟨31, 31, .ro, 0⟩, ⟨26, 16, .ro, 0⟩, ⟨10, 0, .ro, 0⟩]⟩,
   ⟨0xC, [], [⟨16, 0, .ro, 0⟩]⟩,
   ⟨0x10, [], [⟨31, 0, .ro, 0⟩]⟩,
   ⟨0x14, [], [⟨31, 31, .wo, 0⟩, ⟨30, 30, .ro, 0⟩, ⟨29, 29, .w1c, 0⟩, ⟨28, 28, .w1c, 0⟩, ⟨8, 0, .ro, 0⟩]⟩,
   ⟨0x100, [(4, 17)], [⟨31, 29, .ro, 0⟩, ⟨27, 21, .ro, 0⟩, ⟨20, 14, .ro, 0⟩, ⟨13, 7, .ro, 0⟩, ⟨6, 0, .ro, 0⟩]⟩]

/-- The registers of the DBG window, in offset order. -/
def dbgRegs : List RegDesc :=
  [⟨0x0, [], [⟨31, 31, .w1c, 0⟩, ⟨30, 30, .ro, 0⟩, ⟨29, 28, .ro, 2⟩, ⟨27, 26, .ro, 0⟩, ⟨19, 16, .ro, 0⟩, ⟨7, 4, .ro, 0⟩]⟩,
   ⟨0x4, [], [⟨1, 0, .st, 2⟩]⟩,
   ⟨0x10, [], [⟨31, 31, .wo, 0⟩, ⟨30, 30, .wo, 0⟩, ⟨9, 8, .rw, 0⟩, ⟨2, 0, .rw, 0⟩]⟩,
   ⟨0x20, [(4, 8)], [⟨31, 0, .ro, 0⟩]⟩,
   ⟨0x50, [], [⟨31, 31, .wo, 0⟩, ⟨3, 0, .rw, 0⟩]⟩,
   ⟨0x60, [], [⟨31, 0, .rw, 0⟩]⟩,
   ⟨0x64, [], [⟨7, 0, .rw, 0⟩]⟩,
   ⟨0x68, [], [⟨31, 0, .rw, 0⟩]⟩,
   ⟨0x1000, [(4, 784)], [⟨31, 0, .wo, 0⟩]⟩]

/-- The registers of the LINE window, in offset order. -/
def lineRegs : List RegDesc :=
  [⟨0x0, [], [⟨7, 7, .st, 0⟩, ⟨6, 6, .st, 0⟩, ⟨5, 4, .st, 0⟩, ⟨0, 0, .st, 0⟩]⟩,
   ⟨0x4, [], [⟨31, 24, .st, 32⟩, ⟨23, 0, .st, 0⟩]⟩,
   ⟨0x8, [], [⟨31, 0, .st, 0⟩]⟩,
   ⟨0xC, [], [⟨23, 0, .st, 0⟩]⟩,
   ⟨0x10, [], [⟨23, 0, .rw, 0⟩]⟩,
   ⟨0x14, [], [⟨31, 31, .w1c, 0⟩, ⟨30, 30, .w1c, 0⟩, ⟨29, 29, .w1c, 0⟩, ⟨28, 28, .ro, 0⟩, ⟨27, 27, .ro, 0⟩, ⟨23, 0, .ro, 0⟩]⟩,
   ⟨0x18, [], [⟨31, 0, .ro, 0⟩]⟩,
   ⟨0x1C, [], [⟨31, 0, .ro, 0⟩]⟩,
   ⟨0x40, [(4, 4)], [⟨31, 31, .rw, 0⟩, ⟨5, 0, .rw, 9⟩]⟩,
   ⟨0x50, [(4, 4)], [⟨31, 31, .ro, 0⟩, ⟨15, 0, .ro, 0⟩]⟩,
   ⟨0x80, [], [⟨31, 31, .st, 0⟩, ⟨30, 24, .st, 4⟩, ⟨23, 12, .st, 0⟩, ⟨11, 0, .st, 0⟩]⟩,
   ⟨0x84, [], [⟨31, 31, .ro, 0⟩, ⟨23, 12, .rw, 0⟩, ⟨11, 0, .rw, 0⟩]⟩]

end Sys2Proof.Machine

namespace Sys2Proof.Machine.R

/-! SYS -/
def SYS_DWIN (i : Nat) : Nat := 0x10000100 + 4 * i
def SYS_DWIN_BASE (i : Nat) : Fld := ⟨SYS_DWIN i, 3, 0⟩
def SYS_CRUN : Nat := 0x10000110
def SYS_CRUN_RUNH : Fld := ⟨SYS_CRUN, 3, 1⟩
def SYS_CRUN_RUN0 : Fld := ⟨SYS_CRUN, 0, 0⟩
def SYS_CPC (i : Nat) : Nat := 0x10000114 + 4 * i
def SYS_CPC_PC (i : Nat) : Fld := ⟨SYS_CPC i, 31, 1⟩

/-! PWR -/
def PWR_VIN : Nat := 0x10010000
def PWR_VIN_MV : Fld := ⟨PWR_VIN, 15, 0⟩
def PWR_VSTAT : Nat := 0x10010004
def PWR_VSTAT_UVW : Fld := ⟨PWR_VSTAT, 31, 31⟩
def PWR_VSTAT_OVW : Fld := ⟨PWR_VSTAT, 30, 30⟩
def PWR_DREQ : Nat := 0x10010010
def PWR_DREQ_REQ : Fld := ⟨PWR_DREQ, 24, 0⟩
def PWR_DSTAT : Nat := 0x10010014
def PWR_DSTAT_PDREF : Fld := ⟨PWR_DSTAT, 31, 31⟩
def PWR_DSTAT_ON : Fld := ⟨PWR_DSTAT, 24, 0⟩
def PWR_DBUSY : Nat := 0x10010018
def PWR_DBUSY_BUSY : Fld := ⟨PWR_DBUSY, 24, 0⟩
def PWR_MONF : Nat := 0x1001001C
def PWR_MONF_TRIP : Fld := ⟨PWR_MONF, 24, 0⟩
def PWR_HV (i : Nat) : Nat := 0x10010100 + 4 * i
def PWR_HV_SLOW (i : Nat) : Fld := ⟨PWR_HV i, 31, 31⟩
def PWR_HV_CUR (i : Nat) : Fld := ⟨PWR_HV i, 30, 24⟩
def PWR_HV_RFL (i : Nat) : Fld := ⟨PWR_HV i, 22, 16⟩
def PWR_HV_NOM (i : Nat) : Fld := ⟨PWR_HV i, 14, 8⟩
def PWR_HV_FLOOR (i : Nat) : Fld := ⟨PWR_HV i, 6, 0⟩
def PWR_GOV : Nat := 0x10010080
def PWR_GOV_STEP : Fld := ⟨PWR_GOV, 2, 0⟩
def PWR_STRAP : Nat := 0x10010208
def PWR_STRAP_PART : Fld := ⟨PWR_STRAP, 13, 12⟩
def PWR_STRAP_XSEL : Fld := ⟨PWR_STRAP, 11, 11⟩
def PWR_STRAP_SAFE : Fld := ⟨PWR_STRAP, 10, 9⟩
def PWR_STRAP_HOSTW : Fld := ⟨PWR_STRAP, 8, 8⟩
def PWR_STRAP_CHIPID : Fld := ⟨PWR_STRAP, 7, 5⟩
def PWR_STRAP_OSCDLY : Fld := ⟨PWR_STRAP, 4, 2⟩
def PWR_STRAP_BOOT : Fld := ⟨PWR_STRAP, 1, 0⟩
def PWR_MREQ : Nat := 0x10010200
def PWR_MREQ_GO : Fld := ⟨PWR_MREQ, 31, 31⟩
def PWR_MREQ_TGT : Fld := ⟨PWR_MREQ, 3, 0⟩
def PWR_MSTAT : Nat := 0x10010204
def PWR_MSTAT_BUSY : Fld := ⟨PWR_MSTAT, 31, 31⟩
def PWR_MSTAT_REF : Fld := ⟨PWR_MSTAT, 30, 30⟩
def PWR_MSTAT_RCAUSE : Fld := ⟨PWR_MSTAT, 27, 24⟩
def PWR_MSTAT_FROM : Fld := ⟨PWR_MSTAT, 15, 12⟩
def PWR_MSTAT_TO : Fld := ⟨PWR_MSTAT, 11, 8⟩
def PWR_MSTAT_MODE : Fld := ⟨PWR_MSTAT, 3, 0⟩
def PWR_WAKE : Nat := 0x1001021C
def PWR_WAKE_PIN : Fld := ⟨PWR_WAKE, 31, 31⟩
def PWR_WAKE_HOST : Fld := ⟨PWR_WAKE, 30, 30⟩
def PWR_WAKE_ALRM : Fld := ⟨PWR_WAKE, 29, 29⟩
def PWR_WAKE_ASEC : Fld := ⟨PWR_WAKE, 15, 0⟩
def PWR_RESUME : Nat := 0x10010220
def PWR_RESUME_ADDR : Fld := ⟨PWR_RESUME, 31, 1⟩
def PWR_BOOTADR : Nat := 0x10010224
def PWR_BOOTADR_GO : Fld := ⟨PWR_BOOTADR, 31, 31⟩
def PWR_BOOTADR_OFF : Fld := ⟨PWR_BOOTADR, 24, 3⟩
def PWR_RSTC : Nat := 0x1001020C
def PWR_RSTC_POR : Fld := ⟨PWR_RSTC, 31, 31⟩
def PWR_RSTC_VINF : Fld := ⟨PWR_RSTC, 30, 30⟩
def PWR_RSTC_VMIDF : Fld := ⟨PWR_RSTC, 29, 29⟩
def PWR_RSTC_PIN : Fld := ⟨PWR_RSTC, 28, 28⟩
def PWR_RSTC_SW : Fld := ⟨PWR_RSTC, 27, 27⟩
def PWR_RSTC_WDOG : Fld := ⟨PWR_RSTC, 26, 26⟩
def PWR_RSTC_LKV : Fld := ⟨PWR_RSTC, 8, 8⟩
def PWR_RSTC_LKC : Fld := ⟨PWR_RSTC, 3, 0⟩
def PWR_RST : Nat := 0x10010210
def PWR_RST_FULL : Fld := ⟨PWR_RST, 31, 31⟩
def PWR_WDOG : Nat := 0x10010214
def PWR_WDOG_EN : Fld := ⟨PWR_WDOG, 31, 31⟩
def PWR_WDOG_TMO : Fld := ⟨PWR_WDOG, 15, 0⟩
def PWR_WKICK : Nat := 0x10010218
def PWR_WKICK_KEY : Fld := ⟨PWR_WKICK, 15, 0⟩
def PWR_TAMP : Nat := 0x10010240
def PWR_TAMP_LATCH : Fld := ⟨PWR_TAMP, 31, 31⟩
def PWR_TAMP_COUNT : Fld := ⟨PWR_TAMP, 15, 8⟩
def PWR_TAMP_SRC : Fld := ⟨PWR_TAMP, 4, 0⟩
def PWR_TAMPEN : Nat := 0x10010244
def PWR_TAMPEN_EN : Fld := ⟨PWR_TAMPEN, 4, 0⟩
def PWR_THERM : Nat := 0x10010250
def PWR_THERM_WARN : Fld := ⟨PWR_THERM, 31, 31⟩
def PWR_THERM_TSTOP : Fld := ⟨PWR_THERM, 30, 30⟩
def PWR_THERM_SENS : Fld := ⟨PWR_THERM, 20, 16⟩
def PWR_THERM_TMAX : Fld := ⟨PWR_THERM, 15, 0⟩

/-! CLK -/
def CLK_PLL (i : Nat) : Nat := 0x10020000 + 8 * i
def CLK_PLL_EN (i : Nat) : Fld := ⟨CLK_PLL i, 31, 31⟩
def CLK_PLL_POSTDIV (i : Nat) : Fld := ⟨CLK_PLL i, 13, 12⟩
def CLK_PLL_REFDIV (i : Nat) : Fld := ⟨CLK_PLL i, 11, 9⟩
def CLK_PLL_FBDIV (i : Nat) : Fld := ⟨CLK_PLL i, 8, 0⟩
def CLK_PLLF (i : Nat) : Nat := 0x10020004 + 8 * i
def CLK_PLLF_FRAC (i : Nat) : Fld := ⟨CLK_PLLF i, 15, 0⟩
def CLK_SEL : Nat := 0x10020020
def CLK_SEL_ROADSRC : Fld := ⟨CLK_SEL, 1, 1⟩
def CLK_SEL_SYSSRC : Fld := ⟨CLK_SEL, 0, 0⟩
def CLK_HTGT : Nat := 0x10020024
def CLK_HTGT_TGT : Fld := ⟨CLK_HTGT, 6, 0⟩
def CLK_STAT : Nat := 0x10020048
def CLK_STAT_XAOK : Fld := ⟨CLK_STAT, 31, 31⟩
def CLK_STAT_XBOK : Fld := ⟨CLK_STAT, 30, 30⟩
def CLK_STAT_XFAIL : Fld := ⟨CLK_STAT, 29, 29⟩
def CLK_STAT_LOST : Fld := ⟨CLK_STAT, 7, 4⟩
def CLK_STAT_LOCK : Fld := ⟨CLK_STAT, 3, 0⟩
def CLK_FMCTL : Nat := 0x10020040
def CLK_FMCTL_GO : Fld := ⟨CLK_FMCTL, 31, 31⟩
def CLK_FMCTL_BUSY : Fld := ⟨CLK_FMCTL, 30, 30⟩
def CLK_FMCTL_DONE : Fld := ⟨CLK_FMCTL, 29, 29⟩
def CLK_FMCTL_TSEL : Fld := ⟨CLK_FMCTL, 28, 24⟩
def CLK_FMCTL_RSEL : Fld := ⟨CLK_FMCTL, 23, 22⟩
def CLK_FMCTL_GATE : Fld := ⟨CLK_FMCTL, 19, 0⟩
def CLK_FMRES : Nat := 0x10020044
def CLK_FMRES_COUNT : Fld := ⟨CLK_FMRES, 31, 0⟩

/-! SEC -/
def SEC_STAT : Nat := 0x10030014
def SEC_STAT_BUSY : Fld := ⟨SEC_STAT, 31, 31⟩
def SEC_STAT_KEYRDY : Fld := ⟨SEC_STAT, 30, 30⟩
def SEC_STAT_NVQ : Fld := ⟨SEC_STAT, 15, 8⟩
def SEC_STAT_SSTEP : Fld := ⟨SEC_STAT, 6, 0⟩
def SEC_KEYS : Nat := 0x10030004
def SEC_KEYS_VALID : Fld := ⟨SEC_KEYS, 23, 16⟩
def SEC_KEYS_REVOKED : Fld := ⟨SEC_KEYS, 15, 8⟩
def SEC_KEYS_PROG : Fld := ⟨SEC_KEYS, 7, 0⟩
def SEC_CTL : Nat := 0x10030010
def SEC_CTL_KREV : Fld := ⟨SEC_CTL, 7, 0⟩
def SEC_LCS : Nat := 0x10030000
def SEC_LCS_FERR : Fld := ⟨SEC_LCS, 31, 31⟩
def SEC_LCS_TREJ : Fld := ⟨SEC_LCS, 30, 30⟩
def SEC_LCS_TFUSE : Fld := ⟨SEC_LCS, 29, 29⟩
def SEC_LCS_FWFLOOR : Fld := ⟨SEC_LCS, 13, 8⟩
def SEC_LCS_LCS : Fld := ⟨SEC_LCS, 2, 0⟩
def SEC_DEVID (i : Nat) : Nat := 0x10030020 + 4 * i
def SEC_DEVID_ID (i : Nat) : Fld := ⟨SEC_DEVID i, 31, 0⟩

/-! EVC -/
def EVC_SRC (i : Nat) : Nat := 0x10041000 + 4 * i
def EVC_SRC_EN (i : Nat) : Fld := ⟨EVC_SRC i, 31, 31⟩
def EVC_SRC_LEVEL (i : Nat) : Fld := ⟨EVC_SRC i, 30, 30⟩
def EVC_SRC_MSIV (i : Nat) : Fld := ⟨EVC_SRC i, 29, 24⟩
def EVC_SRC_PRIO (i : Nat) : Fld := ⟨EVC_SRC i, 23, 20⟩
def EVC_SRC_GROUP (i : Nat) : Fld := ⟨EVC_SRC i, 19, 16⟩
def EVC_SRC_FILT (i : Nat) : Fld := ⟨EVC_SRC i, 15, 8⟩
def EVC_SRC_TMASK (i : Nat) : Fld := ⟨EVC_SRC i, 4, 0⟩
def EVC_DONE (i : Nat) : Nat := 0x10040104 + 16 * i
def EVC_DONE_SRC (i : Nat) : Fld := ⟨EVC_DONE i, 7, 0⟩
def EVC_PEND (i : Nat) : Nat := 0x10040200 + 4 * i
def EVC_PEND_P (i : Nat) : Fld := ⟨EVC_PEND i, 31, 0⟩
def EVC_SET (i : Nat) : Nat := 0x10040220 + 4 * i
def EVC_SET_S (i : Nat) : Fld := ⟨EVC_SET i, 31, 0⟩
def EVC_ACT (i : Nat) : Nat := 0x10040240 + 4 * i
def EVC_ACT_A (i : Nat) : Fld := ⟨EVC_ACT i, 31, 0⟩
def EVC_MOD (i : Nat) : Nat := 0x10040300 + 4 * i
def EVC_MOD_EN (i : Nat) : Fld := ⟨EVC_MOD i, 31, 31⟩
def EVC_MOD_COUNT (i : Nat) : Fld := ⟨EVC_MOD i, 23, 16⟩
def EVC_MOD_TIMER (i : Nat) : Fld := ⟨EVC_MOD i, 15, 0⟩
def EVC_FALLBACK : Nat := 0x10040040
def EVC_FALLBACK_FEN : Fld := ⟨EVC_FALLBACK, 31, 31⟩
def EVC_FALLBACK_TGT : Fld := ⟨EVC_FALLBACK, 2, 0⟩
def EVC_STAT : Nat := 0x10040044
def EVC_STAT_SPUR : Fld := ⟨EVC_STAT, 31, 16⟩
def EVC_STAT_BADDONE : Fld := ⟨EVC_STAT, 15, 0⟩
def EVC_CLAIM (i : Nat) : Nat := 0x10040100 + 16 * i
def EVC_CLAIM_VAL (i : Nat) : Fld := ⟨EVC_CLAIM i, 31, 31⟩
def EVC_CLAIM_PRIO (i : Nat) : Fld := ⟨EVC_CLAIM i, 27, 24⟩
def EVC_CLAIM_SRC (i : Nat) : Fld := ⟨EVC_CLAIM i, 7, 0⟩
def EVC_OFFER (i : Nat) : Nat := 0x10040108 + 16 * i
def EVC_OFFER_VAL (i : Nat) : Fld := ⟨EVC_OFFER i, 31, 31⟩
def EVC_OFFER_PRIO (i : Nat) : Fld := ⟨EVC_OFFER i, 27, 24⟩
def EVC_OFFER_SRC (i : Nat) : Fld := ⟨EVC_OFFER i, 7, 0⟩

/-! ROAD -/
def ROAD_TID (i : Nat) : Nat := 0x10050200 + 4 * i
def ROAD_TID_BASE (i : Nat) : Fld := ⟨ROAD_TID i, 27, 16⟩
def ROAD_TID_CNT (i : Nat) : Fld := ⟨ROAD_TID i, 12, 0⟩
def ROAD_ARB : Nat := 0x10050004
def ROAD_ARB_AGELIM : Fld := ⟨ROAD_ARB, 7, 0⟩
def ROAD_PROMO : Nat := 0x10050008
def ROAD_PROMO_COUNT : Fld := ⟨ROAD_PROMO, 31, 0⟩
def ROAD_LSTAT : Nat := 0x10050010
def ROAD_LSTAT_FAIL : Fld := ⟨ROAD_LSTAT, 14, 0⟩
def ROAD_RETRY : Nat := 0x10050014
def ROAD_RETRY_COUNT : Fld := ⟨ROAD_RETRY, 31, 0⟩
def ROAD_RT (i j : Nat) : Nat := 0x10051000 + 256 * i + 4 * j
def ROAD_RT_RING (i j : Nat) : Fld := ⟨ROAD_RT i j, 4, 4⟩
def ROAD_RT_PORT (i j : Nat) : Fld := ⟨ROAD_RT i j, 3, 0⟩
def ROAD_EPOCH : Nat := 0x10050018
def ROAD_EPOCH_SW : Fld := ⟨ROAD_EPOCH, 31, 31⟩
def ROAD_EPOCH_NSW : Fld := ⟨ROAD_EPOCH, 15, 0⟩
def ROAD_BR (i : Nat) : Nat := 0x10050300 + 4 * i
def ROAD_BR_AW (i : Nat) : Fld := ⟨ROAD_BR i, 31, 31⟩
def ROAD_BR_STATE (i : Nat) : Fld := ⟨ROAD_BR i, 30, 28⟩
def ROAD_BR_HOLD (i : Nat) : Fld := ⟨ROAD_BR i, 22, 16⟩
def ROAD_BR_ASLP (i : Nat) : Fld := ⟨ROAD_BR i, 15, 8⟩
def ROAD_BR_DROP (i : Nat) : Fld := ⟨ROAD_BR i, 7, 0⟩
def ROAD_CTRL : Nat := 0x10050000
def ROAD_CTRL_DTMO : Fld := ⟨ROAD_CTRL, 31, 24⟩
def ROAD_CTRL_TTMO : Fld := ⟨ROAD_CTRL, 15, 0⟩
def ROAD_DEAD (i : Nat) : Nat := 0x10050020 + 4 * i
def ROAD_DEAD_DEAD (i : Nat) : Fld := ⟨ROAD_DEAD i, 31, 0⟩
def ROAD_KILL : Nat := 0x10050028
def ROAD_KILL_NODE : Fld := ⟨ROAD_KILL, 5, 0⟩
def ROAD_DEADCNT : Nat := 0x1005002C
def ROAD_DEADCNT_COUNT : Fld := ⟨ROAD_DEADCNT, 31, 0⟩
def ROAD_PRBCFG (i : Nat) : Nat := 0x10050100 + 16 * i
def ROAD_PRBCFG_EN (i : Nat) : Fld := ⟨ROAD_PRBCFG i, 31, 31⟩
def ROAD_PRBCFG_TRACE (i : Nat) : Fld := ⟨ROAD_PRBCFG i, 30, 30⟩
def ROAD_PRBCFG_VCM (i : Nat) : Fld := ⟨ROAD_PRBCFG i, 29, 26⟩
def ROAD_PRBCFG_DIR (i : Nat) : Fld := ⟨ROAD_PRBCFG i, 25, 24⟩
def ROAD_PRBCFG_LINK (i : Nat) : Fld := ⟨ROAD_PRBCFG i, 23, 20⟩
def ROAD_PRBCFG_NEN (i : Nat) : Fld := ⟨ROAD_PRBCFG i, 19, 19⟩
def ROAD_PRBCFG_NODE (i : Nat) : Fld := ⟨ROAD_PRBCFG i, 15, 10⟩
def ROAD_PRBCFG_TYPEM (i : Nat) : Fld := ⟨ROAD_PRBCFG i, 9, 0⟩
def ROAD_PRBCNT (i : Nat) : Nat := 0x10050104 + 16 * i
def ROAD_PRBCNT_COUNT (i : Nat) : Fld := ⟨ROAD_PRBCNT i, 31, 0⟩
def ROAD_PRBFLT (i : Nat) : Nat := 0x10050108 + 16 * i
def ROAD_PRBFLT_COUNT (i : Nat) : Fld := ⟨ROAD_PRBFLT i, 31, 0⟩
def ROAD_TRIDX : Nat := 0x10050030
def ROAD_TRIDX_IDX : Fld := ⟨ROAD_TRIDX, 7, 0⟩
def ROAD_TRACE (i : Nat) : Nat := 0x10052000 + 4 * i
def ROAD_TRACE_W (i : Nat) : Fld := ⟨ROAD_TRACE i, 31, 0⟩

/-! SEQ -/
def SEQ_EDGE : Nat := 0x10060040
def SEQ_EDGE_NS : Fld := ⟨SEQ_EDGE, 17, 16⟩
def SEQ_EDGE_E3 : Fld := ⟨SEQ_EDGE, 15, 14⟩
def SEQ_EDGE_W3 : Fld := ⟨SEQ_EDGE, 13, 12⟩
def SEQ_EDGE_E2 : Fld := ⟨SEQ_EDGE, 11, 10⟩
def SEQ_EDGE_W2 : Fld := ⟨SEQ_EDGE, 9, 8⟩
def SEQ_EDGE_E1 : Fld := ⟨SEQ_EDGE, 7, 6⟩
def SEQ_EDGE_W1 : Fld := ⟨SEQ_EDGE, 5, 4⟩
def SEQ_EDGE_E0 : Fld := ⟨SEQ_EDGE, 3, 2⟩
def SEQ_EDGE_W0 : Fld := ⟨SEQ_EDGE, 1, 0⟩
def SEQ_DESC0 (i j : Nat) : Nat := 0x10061000 + 256 * i + 8 * j
def SEQ_DESC0_INV (i j : Nat) : Fld := ⟨SEQ_DESC0 i j, 31, 31⟩
def SEQ_DESC0_WM1 (i j : Nat) : Fld := ⟨SEQ_DESC0 i j, 20, 15⟩
def SEQ_DESC0_DIR (i j : Nat) : Fld := ⟨SEQ_DESC0 i j, 13, 13⟩
def SEQ_DESC0_BASE (i j : Nat) : Fld := ⟨SEQ_DESC0 i j, 12, 0⟩
def SEQ_DESC1 (i j : Nat) : Nat := 0x10061004 + 256 * i + 8 * j
def SEQ_DESC1_TLEN (i j : Nat) : Fld := ⟨SEQ_DESC1 i j, 12, 0⟩
def SEQ_AFLT (i : Nat) : Nat := 0x10060200 + 4 * i
def SEQ_AFLT_VAL (i : Nat) : Fld := ⟨SEQ_AFLT i, 31, 31⟩
def SEQ_AFLT_OPC (i : Nat) : Fld := ⟨SEQ_AFLT i, 30, 24⟩
def SEQ_AFLT_CODE (i : Nat) : Fld := ⟨SEQ_AFLT i, 23, 16⟩
def SEQ_AFLT_SLOTV (i : Nat) : Fld := ⟨SEQ_AFLT i, 15, 11⟩
def SEQ_AFLT_SLOT (i : Nat) : Fld := ⟨SEQ_AFLT i, 10, 9⟩
def SEQ_CDT (i : Nat) : Nat := 0x10060300 + 4 * i
def SEQ_CDT_EN (i : Nat) : Fld := ⟨SEQ_CDT i, 31, 31⟩
def SEQ_CDT_DSD (i : Nat) : Fld := ⟨SEQ_CDT i, 27, 27⟩
def SEQ_CDT_DSA (i : Nat) : Fld := ⟨SEQ_CDT i, 26, 26⟩
def SEQ_CDT_DSB (i : Nat) : Fld := ⟨SEQ_CDT i, 25, 25⟩
def SEQ_CDT_WFD (i : Nat) : Fld := ⟨SEQ_CDT i, 24, 24⟩
def SEQ_CDT_WFB (i : Nat) : Fld := ⟨SEQ_CDT i, 23, 23⟩
def SEQ_CDT_CTOK (i : Nat) : Fld := ⟨SEQ_CDT i, 22, 22⟩
def SEQ_CDT_INPL (i : Nat) : Fld := ⟨SEQ_CDT i, 21, 21⟩
def SEQ_CDT_ENTRY (i : Nat) : Fld := ⟨SEQ_CDT i, 8, 0⟩
def SEQ_CDTEFF : Nat := 0x10060340
def SEQ_CDTEFF_EFF : Fld := ⟨SEQ_CDTEFF, 15, 0⟩
def SEQ_FPCTL (i : Nat) : Nat := 0x10060220 + 4 * i
def SEQ_FPCTL_FLEN (i : Nat) : Fld := ⟨SEQ_FPCTL i, 31, 31⟩
def SEQ_FPCTL_FLAGADR (i : Nat) : Fld := ⟨SEQ_FPCTL i, 28, 16⟩
def SEQ_FPCTL_TRAP (i : Nat) : Fld := ⟨SEQ_FPCTL i, 9, 9⟩
def SEQ_FPCTL_FMASK (i : Nat) : Fld := ⟨SEQ_FPCTL i, 7, 4⟩
def SEQ_FPCTL_DAZ (i : Nat) : Fld := ⟨SEQ_FPCTL i, 3, 3⟩
def SEQ_FPCTL_FTZ (i : Nat) : Fld := ⟨SEQ_FPCTL i, 2, 2⟩
def SEQ_FPCTL_RM (i : Nat) : Fld := ⟨SEQ_FPCTL i, 1, 0⟩
def SEQ_FPST (i : Nat) : Nat := 0x10060230 + 4 * i
def SEQ_FPST_TVAL (i : Nat) : Fld := ⟨SEQ_FPST i, 31, 31⟩
def SEQ_FPST_TOPC (i : Nat) : Fld := ⟨SEQ_FPST i, 30, 24⟩
def SEQ_FPST_AF (i : Nat) : Fld := ⟨SEQ_FPST i, 0, 0⟩
def SEQ_PLDSRC : Nat := 0x10060480
def SEQ_PLDSRC_ADDR : Fld := ⟨SEQ_PLDSRC, 31, 3⟩
def SEQ_PLDCMD : Nat := 0x10060484
def SEQ_PLDCMD_HALF : Fld := ⟨SEQ_PLDCMD, 1, 1⟩
def SEQ_PLDCMD_GO : Fld := ⟨SEQ_PLDCMD, 0, 0⟩
def SEQ_PLDSTAT : Nat := 0x10060488
def SEQ_PLDSTAT_BUSY : Fld := ⟨SEQ_PLDSTAT, 31, 31⟩
def SEQ_PLDSTAT_DONE : Fld := ⟨SEQ_PLDSTAT, 30, 30⟩
def SEQ_PLDSTAT_ERR : Fld := ⟨SEQ_PLDSTAT, 29, 29⟩
def SEQ_PLDSTAT_ECAUSE : Fld := ⟨SEQ_PLDSTAT, 27, 24⟩
def SEQ_PLDSTAT_NWORDS : Fld := ⟨SEQ_PLDSTAT, 9, 0⟩
def SEQ_MATCH (i : Nat) : Nat := 0x10060400 + 4 * i
def SEQ_MATCH_EN (i : Nat) : Fld := ⟨SEQ_MATCH i, 31, 31⟩
def SEQ_MATCH_ROMA (i : Nat) : Fld := ⟨SEQ_MATCH i, 28, 16⟩
def SEQ_MATCH_TGT (i : Nat) : Fld := ⟨SEQ_MATCH i, 8, 0⟩
def SEQ_USTAT (i : Nat) : Nat := 0x10060060 + 4 * i
def SEQ_USTAT_VAL (i : Nat) : Fld := ⟨SEQ_USTAT i, 31, 31⟩
def SEQ_USTAT_UCAUSE (i : Nat) : Fld := ⟨SEQ_USTAT i, 30, 26⟩
def SEQ_USTAT_CORR (i : Nat) : Fld := ⟨SEQ_USTAT i, 25, 16⟩
def SEQ_USTAT_UPC (i : Nat) : Fld := ⟨SEQ_USTAT i, 12, 0⟩
def SEQ_UCTL : Nat := 0x10060050
def SEQ_UCTL_UTMO : Fld := ⟨SEQ_UCTL, 15, 0⟩
def SEQ_PRECTL : Nat := 0x10060054
def SEQ_PRECTL_EN : Fld := ⟨SEQ_PRECTL, 19, 16⟩
def SEQ_PRECTL_LVL3 : Fld := ⟨SEQ_PRECTL, 15, 12⟩
def SEQ_PRECTL_LVL2 : Fld := ⟨SEQ_PRECTL, 11, 8⟩
def SEQ_PRECTL_LVL1 : Fld := ⟨SEQ_PRECTL, 7, 4⟩
def SEQ_PRECTL_LVL0 : Fld := ⟨SEQ_PRECTL, 3, 0⟩
def SEQ_MSTAT (i : Nat) : Nat := 0x10060070 + 4 * i
def SEQ_MSTAT_HELD (i : Nat) : Fld := ⟨SEQ_MSTAT i, 7, 7⟩
def SEQ_MSTAT_KIND (i : Nat) : Fld := ⟨SEQ_MSTAT i, 6, 5⟩
def SEQ_MSTAT_LEVEL (i : Nat) : Fld := ⟨SEQ_MSTAT i, 4, 4⟩
def SEQ_MSTAT_NQ (i : Nat) : Fld := ⟨SEQ_MSTAT i, 3, 0⟩
def SEQ_CTRL : Nat := 0x10060000
def SEQ_CTRL_WDOG : Fld := ⟨SEQ_CTRL, 15, 8⟩
def SEQ_CTRL_SPLIT : Fld := ⟨SEQ_CTRL, 1, 0⟩
def SEQ_KEEPA (i : Nat) : Nat := 0x10060500 + 32 * i
def SEQ_KEEPA_MASK (i : Nat) : Fld := ⟨SEQ_KEEPA i, 31, 0⟩
def SEQ_KEEPB (i : Nat) : Nat := 0x10060504 + 32 * i
def SEQ_KEEPB_MASK (i : Nat) : Fld := ⟨SEQ_KEEPB i, 31, 0⟩
def SEQ_SPAN (i : Nat) : Nat := 0x10060508 + 32 * i
def SEQ_SPAN_LIM (i : Nat) : Fld := ⟨SEQ_SPAN i, 15, 0⟩
def SEQ_RCTL : Nat := 0x10060600
def SEQ_RCTL_WIN : Fld := ⟨SEQ_RCTL, 31, 16⟩
def SEQ_RCTL_NREC : Fld := ⟨SEQ_RCTL, 14, 12⟩
def SEQ_RCTL_REPMAX : Fld := ⟨SEQ_RCTL, 11, 8⟩
def SEQ_RCTL_LOGT : Fld := ⟨SEQ_RCTL, 3, 3⟩
def SEQ_RCTL_RULE1 : Fld := ⟨SEQ_RCTL, 2, 2⟩
def SEQ_RCTL_FOEN : Fld := ⟨SEQ_RCTL, 1, 1⟩
def SEQ_RCTL_RETEN : Fld := ⟨SEQ_RCTL, 0, 0⟩
def SEQ_RSTAT : Nat := 0x10060614
def SEQ_RSTAT_FOBUSY : Fld := ⟨SEQ_RSTAT, 31, 31⟩
def SEQ_RSTAT_UNREC : Fld := ⟨SEQ_RSTAT, 30, 30⟩
def SEQ_RSTAT_USTRM : Fld := ⟨SEQ_RSTAT, 29, 28⟩
def SEQ_RSTAT_FOHALL : Fld := ⟨SEQ_RSTAT, 27, 24⟩
def SEQ_RSTAT_LNKF : Fld := ⟨SEQ_RSTAT, 23, 23⟩
def SEQ_RSTAT_NPERM : Fld := ⟨SEQ_RSTAT, 15, 0⟩
def SEQ_CARRY (i : Nat) : Nat := 0x1006050C + 32 * i
def SEQ_CARRY_CEN (i : Nat) : Fld := ⟨SEQ_CARRY i, 31, 31⟩
def SEQ_CARRY_CWM1 (i : Nat) : Fld := ⟨SEQ_CARRY i, 29, 24⟩
def SEQ_CARRY_CB0 (i : Nat) : Fld := ⟨SEQ_CARRY i, 12, 0⟩
def SEQ_CARRYB (i : Nat) : Nat := 0x10060510 + 32 * i
def SEQ_CARRYB_CB1 (i : Nat) : Fld := ⟨SEQ_CARRYB i, 12, 0⟩
def SEQ_SPSTAT (i : Nat) : Nat := 0x10060580 + 4 * i
def SEQ_SPSTAT_PH (i : Nat) : Fld := ⟨SEQ_SPSTAT i, 31, 31⟩
def SEQ_SPSTAT_LRP (i : Nat) : Fld := ⟨SEQ_SPSTAT i, 30, 30⟩
def SEQ_SPSTAT_NLOG (i : Nat) : Fld := ⟨SEQ_SPSTAT i, 24, 16⟩
def SEQ_SPSTAT_SCNT (i : Nat) : Fld := ⟨SEQ_SPSTAT i, 13, 0⟩
def SEQ_RADR (i : Nat) : Nat := 0x10060590 + 4 * i
def SEQ_RADR_ADDR (i : Nat) : Fld := ⟨SEQ_RADR i, 31, 0⟩
def SEQ_LPT (i : Nat) : Nat := 0x100605A0 + 4 * i
def SEQ_LPT_VAL (i : Nat) : Fld := ⟨SEQ_LPT i, 31, 31⟩
def SEQ_LPT_LPH (i : Nat) : Fld := ⟨SEQ_LPT i, 30, 30⟩
def SEQ_LPT_LQ (i : Nat) : Fld := ⟨SEQ_LPT i, 29, 29⟩
def SEQ_LPT_LLINE (i : Nat) : Fld := ⟨SEQ_LPT i, 15, 0⟩
def SEQ_LADR (i : Nat) : Nat := 0x100605B0 + 4 * i
def SEQ_LADR_ADDR (i : Nat) : Fld := ⟨SEQ_LADR i, 31, 0⟩
def SEQ_MSCNT (i : Nat) : Nat := 0x100605C0 + 4 * i
def SEQ_MSCNT_COUNT (i : Nat) : Fld := ⟨SEQ_MSCNT i, 31, 0⟩
def SEQ_IMGMASK : Nat := 0x10060604
def SEQ_IMGMASK_MASK : Fld := ⟨SEQ_IMGMASK, 31, 0⟩
def SEQ_RAREA : Nat := 0x10060608
def SEQ_RAREA_STG : Fld := ⟨SEQ_RAREA, 24, 16⟩
def SEQ_RAREA_LCB : Fld := ⟨SEQ_RAREA, 8, 0⟩
def SEQ_HSUB : Nat := 0x10060610
def SEQ_HSUB_V : Fld := ⟨SEQ_HSUB, 31, 31⟩
def SEQ_HSUB_HALL : Fld := ⟨SEQ_HSUB, 3, 0⟩
def SEQ_HIMG (i : Nat) : Nat := 0x10060640 + 4 * i
def SEQ_HIMG_BASE (i : Nat) : Fld := ⟨SEQ_HIMG i, 11, 0⟩
def SEQ_HIMGCMD : Nat := 0x10060680
def SEQ_HIMGCMD_GO : Fld := ⟨SEQ_HIMGCMD, 31, 31⟩
def SEQ_HIMGCMD_BUSY : Fld := ⟨SEQ_HIMGCMD, 30, 30⟩
def SEQ_HIMGCMD_DONE : Fld := ⟨SEQ_HIMGCMD, 29, 29⟩
def SEQ_HIMGCMD_ERR : Fld := ⟨SEQ_HIMGCMD, 28, 28⟩
def SEQ_HIMGCMD_MISM : Fld := ⟨SEQ_HIMGCMD, 27, 27⟩
def SEQ_HIMGCMD_ECAUSE : Fld := ⟨SEQ_HIMGCMD, 26, 24⟩
def SEQ_HIMGCMD_OP : Fld := ⟨SEQ_HIMGCMD, 9, 8⟩
def SEQ_HIMGCMD_HALL : Fld := ⟨SEQ_HIMGCMD, 3, 0⟩
def SEQ_SAVE (i j : Nat) : Nat := 0x10060800 + 128 * i + 4 * j
def SEQ_SAVE_W (i j : Nat) : Fld := ⟨SEQ_SAVE i j, 31, 0⟩

/-! HALL -/
def HALL_UPSET (h : Nat) : Nat := 0x10100120 + 0x10000 * h
def HALL_UPSET_VAL (h : Nat) : Fld := ⟨HALL_UPSET h, 31, 31⟩
def HALL_UPSET_SRC (h : Nat) : Fld := ⟨HALL_UPSET h, 30, 28⟩
def HALL_UPSET_MULTI (h : Nat) : Fld := ⟨HALL_UPSET h, 27, 27⟩
def HALL_UPSET_PCOL (h : Nat) : Fld := ⟨HALL_UPSET h, 26, 20⟩
def HALL_UPSET_ROW (h : Nat) : Fld := ⟨HALL_UPSET h, 19, 14⟩
def HALL_UPSET_ADDR (h : Nat) : Fld := ⟨HALL_UPSET h, 12, 0⟩
def HALL_ECCCTL (h : Nat) : Nat := 0x10100110 + 0x10000 * h
def HALL_ECCCTL_ERAEN (h : Nat) : Fld := ⟨HALL_ECCCTL h, 15, 15⟩
def HALL_ECCCTL_ECOL (h : Nat) : Fld := ⟨HALL_ECCCTL h, 14, 8⟩
def HALL_ECCCTL_CNTEN (h : Nat) : Fld := ⟨HALL_ECCCTL h, 0, 0⟩
def HALL_ECCSTAT (h : Nat) : Nat := 0x10100114 + 0x10000 * h
def HALL_ECCSTAT_UCNT (h : Nat) : Fld := ⟨HALL_ECCSTAT h, 31, 20⟩
def HALL_ECCSTAT_CTOT (h : Nat) : Fld := ⟨HALL_ECCSTAT h, 19, 4⟩
def HALL_ECCSTAT_ECBAD (h : Nat) : Fld := ⟨HALL_ECCSTAT h, 0, 0⟩
def HALL_ECCLOG (h : Nat) : Nat := 0x10100118 + 0x10000 * h
def HALL_ECCLOG_ADDR (h : Nat) : Fld := ⟨HALL_ECCLOG h, 31, 19⟩
def HALL_ECCLOG_ROW (h : Nat) : Fld := ⟨HALL_ECCLOG h, 18, 13⟩
def HALL_ECCLOG_PCOL (h : Nat) : Fld := ⟨HALL_ECCLOG h, 12, 6⟩
def HALL_ECCLOG_PORT (h : Nat) : Fld := ⟨HALL_ECCLOG h, 5, 4⟩
def HALL_ECCLOG_VAL (h : Nat) : Fld := ⟨HALL_ECCLOG h, 0, 0⟩
def HALL_CCNT (h i : Nat) : Nat := 0x10100400 + 0x10000 * h + 4 * i
def HALL_CCNT_COUNT (h i : Nat) : Fld := ⟨HALL_CCNT h i, 15, 0⟩
def HALL_STEER (h : Nat) : Nat := 0x10100100 + 0x10000 * h
def HALL_STEER_V3 (h : Nat) : Fld := ⟨HALL_STEER h, 31, 31⟩
def HALL_STEER_RET3 (h : Nat) : Fld := ⟨HALL_STEER h, 30, 24⟩
def HALL_STEER_V2 (h : Nat) : Fld := ⟨HALL_STEER h, 23, 23⟩
def HALL_STEER_RET2 (h : Nat) : Fld := ⟨HALL_STEER h, 22, 16⟩
def HALL_STEER_V1 (h : Nat) : Fld := ⟨HALL_STEER h, 15, 15⟩
def HALL_STEER_RET1 (h : Nat) : Fld := ⟨HALL_STEER h, 14, 8⟩
def HALL_STEER_V0 (h : Nat) : Fld := ⟨HALL_STEER h, 7, 7⟩
def HALL_STEER_RET0 (h : Nat) : Fld := ⟨HALL_STEER h, 6, 0⟩
def HALL_STEERSET (h : Nat) : Nat := 0x10100104 + 0x10000 * h
def HALL_STEERSET_V3 (h : Nat) : Fld := ⟨HALL_STEERSET h, 31, 31⟩
def HALL_STEERSET_RET3 (h : Nat) : Fld := ⟨HALL_STEERSET h, 30, 24⟩
def HALL_STEERSET_V2 (h : Nat) : Fld := ⟨HALL_STEERSET h, 23, 23⟩
def HALL_STEERSET_RET2 (h : Nat) : Fld := ⟨HALL_STEERSET h, 22, 16⟩
def HALL_STEERSET_V1 (h : Nat) : Fld := ⟨HALL_STEERSET h, 15, 15⟩
def HALL_STEERSET_RET1 (h : Nat) : Fld := ⟨HALL_STEERSET h, 14, 8⟩
def HALL_STEERSET_V0 (h : Nat) : Fld := ⟨HALL_STEERSET h, 7, 7⟩
def HALL_STEERSET_RET0 (h : Nat) : Fld := ⟨HALL_STEERSET h, 6, 0⟩
def HALL_FLSTAT (h : Nat) : Nat := 0x10100130 + 0x10000 * h
def HALL_FLSTAT_TKTO (h : Nat) : Fld := ⟨HALL_FLSTAT h, 31, 31⟩
def HALL_FLSTAT_TKEDGE (h : Nat) : Fld := ⟨HALL_FLSTAT h, 30, 29⟩
def HALL_FLSTAT_MAXOCC (h : Nat) : Fld := ⟨HALL_FLSTAT h, 22, 16⟩
def HALL_FLSTAT_OCC (h : Nat) : Fld := ⟨HALL_FLSTAT h, 6, 0⟩
def HALL_STALL (h i : Nat) : Nat := 0x10100140 + 0x10000 * h + 4 * i
def HALL_STALL_COUNT (h i : Nat) : Fld := ⟨HALL_STALL h i, 31, 0⟩
def HALL_FHIST (h i : Nat) : Nat := 0x10100180 + 0x10000 * h + 4 * i
def HALL_FHIST_V (h i : Nat) : Fld := ⟨HALL_FHIST h i, 31, 31⟩
def HALL_FHIST_CNT (h i : Nat) : Fld := ⟨HALL_FHIST h i, 30, 28⟩
def HALL_FHIST_PCOL (h i : Nat) : Fld := ⟨HALL_FHIST h i, 27, 21⟩
def HALL_FHIST_MS (h i : Nat) : Fld := ⟨HALL_FHIST h i, 20, 0⟩
def HALL_RSTAT (h : Nat) : Nat := 0x10100190 + 0x10000 * h
def HALL_RSTAT_RBUSY (h : Nat) : Fld := ⟨HALL_RSTAT h, 31, 31⟩
def HALL_RSTAT_RPEND (h : Nat) : Fld := ⟨HALL_RSTAT h, 30, 30⟩
def HALL_RSTAT_OVF (h : Nat) : Fld := ⟨HALL_RSTAT h, 29, 29⟩
def HALL_RSTAT_PCOL (h : Nat) : Fld := ⟨HALL_RSTAT h, 22, 16⟩
def HALL_RSTAT_NRET (h : Nat) : Fld := ⟨HALL_RSTAT h, 2, 0⟩

/-! STAIR -/
def STAIR_CHCFG (i : Nat) : Nat := 0x10300100 + 32 * i
def STAIR_CHCFG_EN (i : Nat) : Fld := ⟨STAIR_CHCFG i, 31, 31⟩
def STAIR_CHCFG_STRM (i : Nat) : Fld := ⟨STAIR_CHCFG i, 30, 29⟩
def STAIR_CHCFG_DIR (i : Nat) : Fld := ⟨STAIR_CHCFG i, 28, 28⟩
def STAIR_CHCFG_FMT (i : Nat) : Fld := ⟨STAIR_CHCFG i, 27, 27⟩
def STAIR_CHCFG_EW (i : Nat) : Fld := ⟨STAIR_CHCFG i, 26, 24⟩
def STAIR_CHCFG_ORDER (i : Nat) : Fld := ⟨STAIR_CHCFG i, 23, 23⟩
def STAIR_CHCFG_SEXT (i : Nat) : Fld := ⟨STAIR_CHCFG i, 22, 22⟩
def STAIR_CHBASE (i : Nat) : Nat := 0x10300104 + 32 * i
def STAIR_CHBASE_OFF (i : Nat) : Fld := ⟨STAIR_CHBASE i, 24, 6⟩
def STAIR_CHRING (i : Nat) : Nat := 0x10300108 + 32 * i
def STAIR_CHRING_HSTR (i : Nat) : Fld := ⟨STAIR_CHRING i, 28, 16⟩
def STAIR_CHRING_RLEN (i : Nat) : Fld := ⟨STAIR_CHRING i, 12, 0⟩
def STAIR_CHWPOS (i : Nat) : Nat := 0x1030010C + 32 * i
def STAIR_CHWPOS_POS (i : Nat) : Fld := ⟨STAIR_CHWPOS i, 23, 0⟩
def STAIR_CHCPOS (i : Nat) : Nat := 0x10300110 + 32 * i
def STAIR_CHCPOS_POS (i : Nat) : Fld := ⟨STAIR_CHCPOS i, 23, 0⟩
def STAIR_CHLIMIT (i : Nat) : Nat := 0x10300114 + 32 * i
def STAIR_CHLIMIT_POS (i : Nat) : Fld := ⟨STAIR_CHLIMIT i, 23, 0⟩
def STAIR_CHSTAT (i : Nat) : Nat := 0x10300118 + 32 * i
def STAIR_CHSTAT_UERR (i : Nat) : Fld := ⟨STAIR_CHSTAT i, 31, 31⟩
def STAIR_CHSTAT_WTO (i : Nat) : Fld := ⟨STAIR_CHSTAT i, 30, 30⟩
def STAIR_CHSTAT_OPEN (i : Nat) : Fld := ⟨STAIR_CHSTAT i, 29, 29⟩
def STAIR_CTRL : Nat := 0x10300000
def STAIR_CTRL_SWAIT : Fld := ⟨STAIR_CTRL, 15, 0⟩
def STAIR_CHLPOS (i : Nat) : Nat := 0x1030011C + 32 * i
def STAIR_CHLPOS_POS (i : Nat) : Fld := ⟨STAIR_CHLPOS i, 23, 0⟩

/-! GAL -/
def GAL_ARB : Nat := 0x10310000
def GAL_ARB_AGELIM : Fld := ⟨GAL_ARB, 7, 0⟩
def GAL_PROMO : Nat := 0x10310004
def GAL_PROMO_COUNT : Fld := ⟨GAL_PROMO, 31, 0⟩
def GAL_ECCSTAT : Nat := 0x10310010
def GAL_ECCSTAT_UCNT : Fld := ⟨GAL_ECCSTAT, 31, 20⟩
def GAL_ECCSTAT_CCNT : Fld := ⟨GAL_ECCSTAT, 19, 0⟩
def GAL_ECCLOG : Nat := 0x10310014
def GAL_ECCLOG_VAL : Fld := ⟨GAL_ECCLOG, 31, 31⟩
def GAL_ECCLOG_UNC : Fld := ⟨GAL_ECCLOG, 30, 30⟩
def GAL_ECCLOG_WORD : Fld := ⟨GAL_ECCLOG, 21, 0⟩
def GAL_LCFG : Nat := 0x10310040
def GAL_LCFG_LEN : Fld := ⟨GAL_LCFG, 31, 31⟩
def GAL_LCFG_OCH : Fld := ⟨GAL_LCFG, 23, 16⟩
def GAL_LCFG_NSM1 : Fld := ⟨GAL_LCFG, 15, 14⟩
def GAL_LCFG_LEAD : Fld := ⟨GAL_LCFG, 13, 8⟩
def GAL_LCFG_LPU : Fld := ⟨GAL_LCFG, 7, 0⟩
def GAL_LHB : Nat := 0x10310044
def GAL_LHB_LHB : Fld := ⟨GAL_LHB, 17, 0⟩
def GAL_LSLOT : Nat := 0x10310048
def GAL_LSLOT_SSZ : Fld := ⟨GAL_LSLOT, 12, 0⟩
def GAL_LSTAT : Nat := 0x10310050
def GAL_LSTAT_LATE : Fld := ⟨GAL_LSTAT, 31, 24⟩
def GAL_LSTAT_NOCOV : Fld := ⟨GAL_LSTAT, 23, 23⟩
def GAL_LSTAT_RELLINE : Fld := ⟨GAL_LSTAT, 15, 0⟩
def GAL_LMRG : Nat := 0x10310054
def GAL_LMRG_VAL : Fld := ⟨GAL_LMRG, 31, 31⟩
def GAL_LMRG_MARGIN : Fld := ⟨GAL_LMRG, 23, 0⟩
def GAL_SEC : Nat := 0x10310080
def GAL_SEC_WIPE : Fld := ⟨GAL_SEC, 31, 31⟩
def GAL_SEC_BUSY : Fld := ⟨GAL_SEC, 30, 30⟩
def GAL_SEC_VERR : Fld := ⟨GAL_SEC, 29, 29⟩
def GAL_SEC_DONE : Fld := ⟨GAL_SEC, 28, 28⟩
def GAL_SEC_WCAUSE : Fld := ⟨GAL_SEC, 27, 24⟩
def GAL_MCTL : Nat := 0x103100C0
def GAL_MCTL_START : Fld := ⟨GAL_MCTL, 31, 31⟩
def GAL_MCTL_BUSY : Fld := ⟨GAL_MCTL, 30, 30⟩
def GAL_MCTL_DONE : Fld := ⟨GAL_MCTL, 29, 29⟩
def GAL_MCTL_FAIL : Fld := ⟨GAL_MCTL, 28, 28⟩
def GAL_MCTL_ERR : Fld := ⟨GAL_MCTL, 27, 27⟩
def GAL_MCTL_ALG : Fld := ⟨GAL_MCTL, 25, 24⟩
def GAL_MCTL_PRES : Fld := ⟨GAL_MCTL, 23, 23⟩
def GAL_MCTL_RGN : Fld := ⟨GAL_MCTL, 17, 16⟩
def GAL_MCTL_NFAIL : Fld := ⟨GAL_MCTL, 15, 0⟩
def GAL_MLOG : Nat := 0x103100C4
def GAL_MLOG_VAL : Fld := ⟨GAL_MLOG, 31, 31⟩
def GAL_MLOG_BANK : Fld := ⟨GAL_MLOG, 30, 26⟩
def GAL_MLOG_ROW : Fld := ⟨GAL_MLOG, 25, 14⟩
def GAL_MLOG_WORD : Fld := ⟨GAL_MLOG, 13, 9⟩
def GAL_MLOG_SPARE : Fld := ⟨GAL_MLOG, 8, 8⟩
def GAL_MLOG_BIT : Fld := ⟨GAL_MLOG, 6, 0⟩
def GAL_RPR (i : Nat) : Nat := 0x10310400 + 4 * i
def GAL_RPR_V (i : Nat) : Fld := ⟨GAL_RPR i, 31, 31⟩
def GAL_RPR_FUSE (i : Nat) : Fld := ⟨GAL_RPR i, 30, 30⟩
def GAL_RPR_BAD (i : Nat) : Fld := ⟨GAL_RPR i, 29, 29⟩
def GAL_RPR_ROW (i : Nat) : Fld := ⟨GAL_RPR i, 11, 0⟩
def GAL_DMASRC (i : Nat) : Nat := 0x10310200 + 16 * i
def GAL_DMASRC_LO (i : Nat) : Fld := ⟨GAL_DMASRC i, 31, 0⟩
def GAL_DMADST (i : Nat) : Nat := 0x10310204 + 16 * i
def GAL_DMADST_LO (i : Nat) : Fld := ⟨GAL_DMADST i, 31, 0⟩
def GAL_DMAHI (i : Nat) : Nat := 0x10310208 + 16 * i
def GAL_DMAHI_DHI (i : Nat) : Fld := ⟨GAL_DMAHI i, 15, 8⟩
def GAL_DMAHI_SHI (i : Nat) : Fld := ⟨GAL_DMAHI i, 7, 0⟩
def GAL_DMACTL (i : Nat) : Nat := 0x1031020C + 16 * i
def GAL_DMACTL_GO (i : Nat) : Fld := ⟨GAL_DMACTL i, 31, 31⟩
def GAL_DMACTL_BUSY (i : Nat) : Fld := ⟨GAL_DMACTL i, 30, 30⟩
def GAL_DMACTL_DONE (i : Nat) : Fld := ⟨GAL_DMACTL i, 29, 29⟩
def GAL_DMACTL_ERR (i : Nat) : Fld := ⟨GAL_DMACTL i, 28, 28⟩
def GAL_DMACTL_POSTED (i : Nat) : Fld := ⟨GAL_DMACTL i, 27, 27⟩
def GAL_DMACTL_RSTAT (i : Nat) : Fld := ⟨GAL_DMACTL i, 26, 23⟩
def GAL_DMACTL_LEN64 (i : Nat) : Fld := ⟨GAL_DMACTL i, 22, 0⟩

/-! BYW -/
def BYW_CLK (i : Nat) : Nat := 0x10400040 + 4 * i
def BYW_CLK_EN (i : Nat) : Fld := ⟨BYW_CLK i, 31, 31⟩
def BYW_CLK_SRC (i : Nat) : Fld := ⟨BYW_CLK i, 5, 4⟩
def BYW_CLK_DIV (i : Nat) : Fld := ⟨BYW_CLK i, 3, 0⟩
def BYW_CFGSRC : Nat := 0x10400000
def BYW_CFGSRC_ADDR : Fld := ⟨BYW_CFGSRC, 31, 3⟩
def BYW_CFGCMD : Nat := 0x10400004
def BYW_CFGCMD_RGN : Fld := ⟨BYW_CFGCMD, 5, 3⟩
def BYW_CFGCMD_PART : Fld := ⟨BYW_CFGCMD, 1, 1⟩
def BYW_CFGCMD_GO : Fld := ⟨BYW_CFGCMD, 0, 0⟩
def BYW_CFGSTAT : Nat := 0x10400008
def BYW_CFGSTAT_BUSY : Fld := ⟨BYW_CFGSTAT, 31, 31⟩
def BYW_CFGSTAT_DONE : Fld := ⟨BYW_CFGSTAT, 30, 30⟩
def BYW_CFGSTAT_ERR : Fld := ⟨BYW_CFGSTAT, 29, 29⟩
def BYW_CFGSTAT_CONFLICT : Fld := ⟨BYW_CFGSTAT, 28, 28⟩
def BYW_CFGSTAT_ECAUSE : Fld := ⟨BYW_CFGSTAT, 27, 24⟩
def BYW_CFGSTAT_NCONF : Fld := ⟨BYW_CFGSTAT, 23, 12⟩
def BYW_CFGSTAT_FRAME : Fld := ⟨BYW_CFGSTAT, 11, 0⟩
def BYW_RGNCTL : Nat := 0x1040000C
def BYW_RGNCTL_RUN : Fld := ⟨BYW_RGNCTL, 15, 8⟩
def BYW_RGNCTL_PINHOLD : Fld := ⟨BYW_RGNCTL, 7, 0⟩
def BYW_QPLAN : Nat := 0x10400080
def BYW_QPLAN_D : Fld := ⟨BYW_QPLAN, 19, 0⟩
def BYW_QPLANB : Nat := 0x10400084
def BYW_QPLANB_NENT : Fld := ⟨BYW_QPLANB, 24, 16⟩
def BYW_QPLANB_BM1 : Fld := ⟨BYW_QPLANB, 15, 0⟩
def BYW_QCFG (i : Nat) : Nat := 0x10400200 + 4 * i
def BYW_QCFG_EN (i : Nat) : Fld := ⟨BYW_QCFG i, 31, 31⟩
def BYW_QCFG_QCLK (i : Nat) : Fld := ⟨BYW_QCFG i, 2, 0⟩
def BYW_QSTAT : Nat := 0x10400300
def BYW_QSTAT_LDONE : Fld := ⟨BYW_QSTAT, 31, 16⟩
def BYW_QSTAT_NLATE : Fld := ⟨BYW_QSTAT, 15, 0⟩
def BYW_HMAP (i : Nat) : Nat := 0x10401000 + 4 * i
def BYW_HMAP_ENTRY (i : Nat) : Fld := ⟨BYW_HMAP i, 31, 0⟩
def BYW_CAPCTL : Nat := 0x10400100
def BYW_CAPCTL_ARM : Fld := ⟨BYW_CAPCTL, 31, 31⟩
def BYW_CAPCTL_RESUME : Fld := ⟨BYW_CAPCTL, 30, 30⟩
def BYW_CAPCTL_STOP : Fld := ⟨BYW_CAPCTL, 29, 29⟩
def BYW_CAPCTL_TRIG : Fld := ⟨BYW_CAPCTL, 28, 27⟩
def BYW_CAPCTL_CLK : Fld := ⟨BYW_CAPCTL, 26, 24⟩
def BYW_CAPCTL_CNT : Fld := ⟨BYW_CAPCTL, 15, 0⟩
def BYW_CAPSTAT : Nat := 0x10400104
def BYW_CAPSTAT_ARMED : Fld := ⟨BYW_CAPSTAT, 31, 31⟩
def BYW_CAPSTAT_TAKEN : Fld := ⟨BYW_CAPSTAT, 30, 30⟩
def BYW_CAPSTAT_STOPPED : Fld := ⟨BYW_CAPSTAT, 29, 29⟩
def BYW_CAPSTAT_ERR : Fld := ⟨BYW_CAPSTAT, 28, 28⟩
def BYW_RBADDR : Nat := 0x10400108
def BYW_RBADDR_WORD : Fld := ⟨BYW_RBADDR, 15, 0⟩
def BYW_RBDATA : Nat := 0x1040010C
def BYW_RBDATA_DATA : Fld := ⟨BYW_RBDATA, 31, 0⟩

/-! HOST -/
def HOST_LSTAT : Nat := 0x10500000
def HOST_LSTAT_UP : Fld := ⟨HOST_LSTAT, 31, 31⟩
def HOST_LSTAT_SPEED : Fld := ⟨HOST_LSTAT, 27, 24⟩
def HOST_LSTAT_WIDTH : Fld := ⟨HOST_LSTAT, 23, 20⟩
def HOST_LSTAT_L1 : Fld := ⟨HOST_LSTAT, 19, 19⟩
def HOST_LSTAT_FLR : Fld := ⟨HOST_LSTAT, 18, 18⟩
def HOST_OWIN : Nat := 0x10500004
def HOST_OWIN_BASE : Fld := ⟨HOST_OWIN, 24, 0⟩
def HOST_MBOX : Nat := 0x10500008
def HOST_MBOX_BASE : Fld := ⟨HOST_MBOX, 8, 0⟩
def HOST_QSQB (i : Nat) : Nat := 0x10500100 + 32 * i
def HOST_QSQB_LO (i : Nat) : Fld := ⟨HOST_QSQB i, 31, 12⟩
def HOST_QSQBH (i : Nat) : Nat := 0x10500104 + 32 * i
def HOST_QSQBH_HI (i : Nat) : Fld := ⟨HOST_QSQBH i, 31, 0⟩
def HOST_QCQB (i : Nat) : Nat := 0x10500108 + 32 * i
def HOST_QCQB_LO (i : Nat) : Fld := ⟨HOST_QCQB i, 31, 12⟩
def HOST_QCQBH (i : Nat) : Nat := 0x1050010C + 32 * i
def HOST_QCQBH_HI (i : Nat) : Fld := ⟨HOST_QCQBH i, 31, 0⟩
def HOST_QCFG (i : Nat) : Nat := 0x10500110 + 32 * i
def HOST_QCFG_EN (i : Nat) : Fld := ⟨HOST_QCFG i, 31, 31⟩
def HOST_QCFG_SZM1 (i : Nat) : Fld := ⟨HOST_QCFG i, 11, 0⟩
def HOST_QSQT (i : Nat) : Nat := 0x10500114 + 32 * i
def HOST_QSQT_TAIL (i : Nat) : Fld := ⟨HOST_QSQT i, 11, 0⟩
def HOST_QCQH (i : Nat) : Nat := 0x10500118 + 32 * i
def HOST_QCQH_HEAD (i : Nat) : Fld := ⟨HOST_QCQH i, 11, 0⟩
def HOST_QSTAT (i : Nat) : Nat := 0x1050011C + 32 * i
def HOST_QSTAT_QERR (i : Nat) : Fld := ⟨HOST_QSTAT i, 31, 31⟩
def HOST_QSTAT_FULL (i : Nat) : Fld := ⟨HOST_QSTAT i, 30, 30⟩
def HOST_QSTAT_HEAD (i : Nat) : Fld := ⟨HOST_QSTAT i, 11, 0⟩
def HOST_FWD (i : Nat) : Nat := 0x10500400 + 16 * i
def HOST_FWD_RESL (i : Nat) : Fld := ⟨HOST_FWD i, 31, 0⟩
def HOST_FWDH (i : Nat) : Nat := 0x10500404 + 16 * i
def HOST_FWDH_RESH (i : Nat) : Fld := ⟨HOST_FWDH i, 31, 0⟩
def HOST_FWDC (i : Nat) : Nat := 0x10500408 + 16 * i
def HOST_FWDC_GO (i : Nat) : Fld := ⟨HOST_FWDC i, 31, 31⟩
def HOST_FWDC_DETAIL (i : Nat) : Fld := ⟨HOST_FWDC i, 15, 8⟩
def HOST_FWDC_STATUS (i : Nat) : Fld := ⟨HOST_FWDC i, 7, 0⟩

/-! DDR -/
def DDR_CFG : Nat := 0x10600000
def DDR_CFG_EN : Fld := ⟨DDR_CFG, 31, 31⟩
def DDR_CFG_RATE : Fld := ⟨DDR_CFG, 27, 26⟩
def DDR_CFG_DENS : Fld := ⟨DDR_CFG, 25, 24⟩
def DDR_CFG_USIZE : Fld := ⟨DDR_CFG, 7, 0⟩
def DDR_STAT : Nat := 0x10600004
def DDR_STAT_READY : Fld := ⟨DDR_STAT, 31, 31⟩
def DDR_STAT_TFAIL : Fld := ⟨DDR_STAT, 30, 30⟩
def DDR_STAT_UCNT : Fld := ⟨DDR_STAT, 29, 20⟩
def DDR_STAT_CCNT : Fld := ⟨DDR_STAT, 19, 0⟩
def DDR_ECCLOG : Nat := 0x10600008
def DDR_ECCLOG_VAL : Fld := ⟨DDR_ECCLOG, 31, 31⟩
def DDR_ECCLOG_UNC : Fld := ⟨DDR_ECCLOG, 30, 30⟩
def DDR_ECCLOG_WORD : Fld := ⟨DDR_ECCLOG, 29, 0⟩

/-! LINK -/
def LINK_EWAIT : Nat := 0x10700000
def LINK_EWAIT_LIM : Fld := ⟨LINK_EWAIT, 15, 0⟩
def LINK_DRT : Nat := 0x10700004
def LINK_DRT_V : Fld := ⟨LINK_DRT, 31, 24⟩
def LINK_DRT_PORT : Fld := ⟨LINK_DRT, 15, 0⟩
def LINK_PCFG (i : Nat) : Nat := 0x10700100 + 16 * i
def LINK_PCFG_EN (i : Nat) : Fld := ⟨LINK_PCFG i, 31, 31⟩
def LINK_PCFG_EDGE (i : Nat) : Fld := ⟨LINK_PCFG i, 30, 30⟩
def LINK_PSTAT (i : Nat) : Nat := 0x10700104 + 16 * i
def LINK_PSTAT_UP (i : Nat) : Fld := ⟨LINK_PSTAT i, 31, 31⟩
def LINK_PSTAT_TFAIL (i : Nat) : Fld := ⟨LINK_PSTAT i, 30, 30⟩
def LINK_PSTAT_ETO (i : Nat) : Fld := ⟨LINK_PSTAT i, 29, 29⟩
def LINK_PSTAT_PEDGE (i : Nat) : Fld := ⟨LINK_PSTAT i, 28, 28⟩
def LINK_PSTAT_PCHIP (i : Nat) : Fld := ⟨LINK_PSTAT i, 23, 21⟩
def LINK_PSTAT_RETRY (i : Nat) : Fld := ⟨LINK_PSTAT i, 15, 0⟩

/-! WAY -/
def WAY_CFG (i : Nat) : Nat := 0x10800100 + 32 * i
def WAY_CFG_EN (i : Nat) : Fld := ⟨WAY_CFG i, 31, 31⟩
def WAY_CFG_SRC (i : Nat) : Fld := ⟨WAY_CFG i, 30, 27⟩
def WAY_CFG_SEL (i : Nat) : Fld := ⟨WAY_CFG i, 26, 22⟩
def WAY_CFG_LOEN (i : Nat) : Fld := ⟨WAY_CFG i, 21, 21⟩
def WAY_CFG_HIEN (i : Nat) : Fld := ⟨WAY_CFG i, 20, 20⟩
def WAY_BASE (i : Nat) : Nat := 0x10800104 + 32 * i
def WAY_BASE_BASE (i : Nat) : Fld := ⟨WAY_BASE i, 31, 0⟩
def WAY_STEP (i : Nat) : Nat := 0x10800108 + 32 * i
def WAY_STEP_WIN (i : Nat) : Fld := ⟨WAY_STEP i, 31, 16⟩
def WAY_STEP_STEP (i : Nat) : Fld := ⟨WAY_STEP i, 15, 0⟩
def WAY_LOTH (i : Nat) : Nat := 0x1080010C + 32 * i
def WAY_LOTH_LOTH (i : Nat) : Fld := ⟨WAY_LOTH i, 31, 0⟩
def WAY_HITH (i : Nat) : Nat := 0x10800110 + 32 * i
def WAY_HITH_HITH (i : Nat) : Fld := ⟨WAY_HITH i, 31, 0⟩
def WAY_CTL (i : Nat) : Nat := 0x10800114 + 32 * i
def WAY_CTL_SNAP (i : Nat) : Fld := ⟨WAY_CTL i, 31, 31⟩
def WAY_CTL_CLR (i : Nat) : Fld := ⟨WAY_CTL i, 30, 30⟩
def WAY_CTL_STOP (i : Nat) : Fld := ⟨WAY_CTL i, 2, 2⟩
def WAY_CTL_AHI (i : Nat) : Fld := ⟨WAY_CTL i, 1, 1⟩
def WAY_CTL_ALO (i : Nat) : Fld := ⟨WAY_CTL i, 0, 0⟩
def WAY_SNAP (i j : Nat) : Nat := 0x10801000 + 512 * i + 4 * j
def WAY_SNAP_V (i j : Nat) : Fld := ⟨WAY_SNAP i j, 31, 0⟩

/-! TEST -/
def TEST_BCMD : Nat := 0x10900000
def TEST_BCMD_GO : Fld := ⟨TEST_BCMD, 31, 31⟩
def TEST_BCMD_TEST : Fld := ⟨TEST_BCMD, 30, 28⟩
def TEST_BCMD_HMASK : Fld := ⟨TEST_BCMD, 16, 0⟩
def TEST_BSTAT : Nat := 0x10900004
def TEST_BSTAT_BUSY : Fld := ⟨TEST_BSTAT, 31, 31⟩
def TEST_BSTAT_DONE : Fld := ⟨TEST_BSTAT, 30, 30⟩
def TEST_BSTAT_FAIL : Fld := ⟨TEST_BSTAT, 29, 29⟩
def TEST_BSTAT_ERR : Fld := ⟨TEST_BSTAT, 28, 28⟩
def TEST_BSTAT_ECAUSE : Fld := ⟨TEST_BSTAT, 27, 24⟩
def TEST_BIRES : Nat := 0x10900008
def TEST_BIRES_VAL : Fld := ⟨TEST_BIRES, 31, 31⟩
def TEST_BIRES_NFAIL : Fld := ⟨TEST_BIRES, 26, 16⟩
def TEST_BIRES_FIRST : Fld := ⟨TEST_BIRES, 10, 0⟩
def TEST_BHRES : Nat := 0x1090000C
def TEST_BHRES_FAIL : Fld := ⟨TEST_BHRES, 16, 0⟩
def TEST_BSRES : Nat := 0x10900010
def TEST_BSRES_FAIL : Fld := ⟨TEST_BSRES, 31, 0⟩
def TEST_FUSE : Nat := 0x10900014
def TEST_FUSE_GO : Fld := ⟨TEST_FUSE, 31, 31⟩
def TEST_FUSE_BUSY : Fld := ⟨TEST_FUSE, 30, 30⟩
def TEST_FUSE_FFAIL : Fld := ⟨TEST_FUSE, 29, 29⟩
def TEST_FUSE_FERR : Fld := ⟨TEST_FUSE, 28, 28⟩
def TEST_FUSE_NBURN : Fld := ⟨TEST_FUSE, 8, 0⟩
def TEST_BCF (i : Nat) : Nat := 0x10900100 + 4 * i
def TEST_BCF_NF (i : Nat) : Fld := ⟨TEST_BCF i, 31, 29⟩
def TEST_BCF_COL3 (i : Nat) : Fld := ⟨TEST_BCF i, 27, 21⟩
def TEST_BCF_COL2 (i : Nat) : Fld := ⟨TEST_BCF i, 20, 14⟩
def TEST_BCF_COL1 (i : Nat) : Fld := ⟨TEST_BCF i, 13, 7⟩
def TEST_BCF_COL0 (i : Nat) : Fld := ⟨TEST_BCF i, 6, 0⟩

/-! DBG -/
def DBG_STAT : Nat := 0x10A00000
def DBG_STAT_TOKERR : Fld := ⟨DBG_STAT, 31, 31⟩
def DBG_STAT_TOKBUSY : Fld := ⟨DBG_STAT, 30, 30⟩
def DBG_STAT_LVL : Fld := ⟨DBG_STAT, 29, 28⟩
def DBG_STAT_HOW : Fld := ⟨DBG_STAT, 27, 26⟩
def DBG_STAT_HALTED : Fld := ⟨DBG_STAT, 19, 16⟩
def DBG_STAT_MSTAT : Fld := ⟨DBG_STAT, 7, 4⟩
def DBG_LVLSET : Nat := 0x10A00004
def DBG_LVLSET_LVL : Fld := ⟨DBG_LVLSET, 1, 0⟩
def DBG_TOKCMD : Nat := 0x10A00010
def DBG_TOKCMD_GO : Fld := ⟨DBG_TOKCMD, 31, 31⟩
def DBG_TOKCMD_NEWCH : Fld := ⟨DBG_TOKCMD, 30, 30⟩
def DBG_TOKCMD_REQLVL : Fld := ⟨DBG_TOKCMD, 9, 8⟩
def DBG_TOKCMD_SLOT : Fld := ⟨DBG_TOKCMD, 2, 0⟩
def DBG_CHAL (i : Nat) : Nat := 0x10A00020 + 4 * i
def DBG_CHAL_NONCE (i : Nat) : Fld := ⟨DBG_CHAL i, 31, 0⟩
def DBG_HALT : Nat := 0x10A00050
def DBG_HALT_RESUME : Fld := ⟨DBG_HALT, 31, 31⟩
def DBG_HALT_HREQ : Fld := ⟨DBG_HALT, 3, 0⟩
def DBG_MADDR : Nat := 0x10A00060
def DBG_MADDR_LO : Fld := ⟨DBG_MADDR, 31, 0⟩
def DBG_MADDRH : Nat := 0x10A00064
def DBG_MADDRH_HI : Fld := ⟨DBG_MADDRH, 7, 0⟩
def DBG_MDATA : Nat := 0x10A00068
def DBG_MDATA_DATA : Fld := ⟨DBG_MDATA, 31, 0⟩
def DBG_TOKBUF (i : Nat) : Nat := 0x10A01000 + 4 * i
def DBG_TOKBUF_DATA (i : Nat) : Fld := ⟨DBG_TOKBUF i, 31, 0⟩

/-! LINE -/
def LINE_CTRL : Nat := 0x10B00000
def LINE_CTRL_MASTER : Fld := ⟨LINE_CTRL, 7, 7⟩
def LINE_CTRL_DIRINV : Fld := ⟨LINE_CTRL, 6, 6⟩
def LINE_CTRL_SRC : Fld := ⟨LINE_CTRL, 5, 4⟩
def LINE_CTRL_EN : Fld := ⟨LINE_CTRL, 0, 0⟩
def LINE_ENC : Nat := 0x10B00004
def LINE_ENC_FILT : Fld := ⟨LINE_ENC, 31, 24⟩
def LINE_ENC_CPL : Fld := ⟨LINE_ENC, 23, 0⟩
def LINE_PER : Nat := 0x10B00008
def LINE_PER_PER : Fld := ⟨LINE_PER, 31, 0⟩
def LINE_START : Nat := 0x10B0000C
def LINE_START_DLY : Fld := ⟨LINE_START, 23, 0⟩
def LINE_MINP : Nat := 0x10B00010
def LINE_MINP_MINP : Fld := ⟨LINE_MINP, 23, 0⟩
def LINE_STAT : Nat := 0x10B00014
def LINE_STAT_QERR : Fld := ⟨LINE_STAT, 31, 31⟩
def LINE_STAT_OVSP : Fld := ⟨LINE_STAT, 30, 30⟩
def LINE_STAT_SYNCERR : Fld := ⟨LINE_STAT, 29, 29⟩
def LINE_STAT_REV : Fld := ⟨LINE_STAT, 28, 28⟩
def LINE_STAT_RUN : Fld := ⟨LINE_STAT, 27, 27⟩
def LINE_STAT_SCNT : Fld := ⟨LINE_STAT, 23, 0⟩
def LINE_GATE (i : Nat) : Nat := 0x10B00040 + 4 * i
def LINE_GATE_GEN (i : Nat) : Fld := ⟨LINE_GATE i, 31, 31⟩
def LINE_GATE_AHEAD (i : Nat) : Fld := ⟨LINE_GATE i, 5, 0⟩
def LINE_GSTAT (i : Nat) : Nat := 0x10B00050 + 4 * i
def LINE_GSTAT_WAIT (i : Nat) : Fld := ⟨LINE_GSTAT i, 31, 31⟩
def LINE_GSTAT_GLINE (i : Nat) : Fld := ⟨LINE_GSTAT i, 15, 0⟩
def LINE_GOVCTL : Nat := 0x10B00080
def LINE_GOVCTL_EN : Fld := ⟨LINE_GOVCTL, 31, 31⟩
def LINE_GOVCTL_HOLD : Fld := ⟨LINE_GOVCTL, 30, 24⟩
def LINE_GOVCTL_TARGET : Fld := ⟨LINE_GOVCTL, 23, 12⟩
def LINE_GOVCTL_GUARD : Fld := ⟨LINE_GOVCTL, 11, 0⟩
def LINE_GOVSTAT : Nat := 0x10B00084
def LINE_GOVSTAT_FRZ : Fld := ⟨LINE_GOVSTAT, 31, 31⟩
def LINE_GOVSTAT_NUP : Fld := ⟨LINE_GOVSTAT, 23, 12⟩
def LINE_GOVSTAT_NLOW : Fld := ⟨LINE_GOVSTAT, 11, 0⟩
def LINE_POS : Nat := 0x10B00018
def LINE_POS_POS : Fld := ⟨LINE_POS, 31, 0⟩
def LINE_TLAST : Nat := 0x10B0001C
def LINE_TLAST_TLAST : Fld := ⟨LINE_TLAST, 31, 0⟩

end Sys2Proof.Machine.R
end

