-- ==== Sys2Proof/Machine/Bits.lean ====
section
/-! DEFINITION. Bit fields of words, sparse banks in canonical form, byte order (R1, R2). -/

namespace Sys2Proof.Machine

/-- Bits [hi:lo] of a number (R1). -/
def bits (v hi lo : Nat) : Nat := v / 2 ^ lo % 2 ^ (hi + 1 - lo)

/-- The word whose bits [hi:lo] are 1. -/
def fieldMask (hi lo : Nat) : Word := BitVec.ofNat 32 ((2 ^ (hi + 1 - lo) - 1) * 2 ^ lo)

/-- v with its bits [hi:lo] replaced by the low bits of x. -/
def setBits (v : Word) (hi lo x : Nat) : Word :=
  (v &&& ~~~(fieldMask hi lo)) ||| (BitVec.ofNat 32 (x * 2 ^ lo) &&& fieldMask hi lo)

/-- The bits of a that the mask does not select, and the bits of b that it does. -/
def merge {n : Nat} (mask a b : BitVec n) : BitVec n := (a &&& ~~~mask) ||| (b &&& mask)

/-- One bit of a bit vector replaced. -/
def setBit {n : Nat} (v : BitVec n) (i : Nat) (b : Bool) : BitVec n :=
  if b then v ||| BitVec.ofNat n (2 ^ i) else v &&& ~~~(BitVec.ofNat n (2 ^ i))

/-- 1 for true, 0 for false. -/
def bn (b : Bool) : Nat := if b then 1 else 0

/-- Addition that stops at a maximum. -/
def satAdd (mx a b : Nat) : Nat := min mx (a + b)

/-- The signed value of the low w bits of v. -/
def sval (w v : Nat) : Int := if v % 2 ^ w < 2 ^ (w - 1) then (v % 2 ^ w : Nat) else (v % 2 ^ w : Nat) - (2 ^ w : Nat)

/-- The w-bit two's-complement pattern of an integer. -/
def wrapInt (w : Nat) (x : Int) : Nat := (x % (2 ^ w : Nat)).toNat

/-- The value of a list of bits, least significant first. -/
def ofBits : List Bool → Nat
  | [] => 0
  | b :: r => bn b + 2 * ofBits r

/-- The low w bits of a number, least significant first. -/
def toBits (w v : Nat) : List Bool := (List.range w).map v.testBit

/-- The number that little-endian bytes spell (R2). -/
def leNat : List Byte → Nat
  | [] => 0
  | b :: r => b.toNat + 256 * leNat r

/-- The n little-endian bytes of a number (R2). -/
def leBytes (n v : Nat) : List Byte := (List.range n).map (fun i => BitVec.ofNat 8 (v / 256 ^ i))

/-- n bytes of a list, filled up with zeros. -/
def padTo (n : Nat) (l : List Byte) : List Byte := (List.range n).map (fun i => l.getD i 0)

/-! Sparse banks: a list of (key, value) pairs in rising key order that lists no value equal to the default of its key. -/

/-- The value at a key; an unlisted key reads as its default. -/
def bankGet {α : Type} (dflt : Nat → α) : List (Nat × α) → Nat → α
  | [], k => dflt k
  | (a, v) :: r, k => if a = k then v else bankGet dflt r k

/-- Puts an entry in its place in the order. -/
def bankInsert {α : Type} : List (Nat × α) → Nat → α → List (Nat × α)
  | [], k, v => [(k, v)]
  | (a, w) :: r, k, v => if k < a then (k, v) :: (a, w) :: r else (a, w) :: bankInsert r k v

/-- Sets the value at a key and keeps the canonical form: writing the default removes the entry. -/
def bankSet {α : Type} [DecidableEq α] (dflt : Nat → α) (m : List (Nat × α)) (k : Nat) (v : α) : List (Nat × α) :=
  if v = dflt k then m.filter (fun p => p.1 ≠ k) else bankInsert (m.filter (fun p => p.1 ≠ k)) k v

/-- The canonical form of a bank. -/
abbrev BankWf {α : Type} [DecidableEq α] (dflt : Nat → α) (m : List (Nat × α)) : Prop :=
  (m.map Prod.fst).Pairwise (· < ·) ∧ ∀ p ∈ m, p.2 ≠ dflt p.1

/-- A bank without the entries whose keys lie in [lo, hi): they read as their defaults again. -/
def bankClear {α : Type} (m : List (Nat × α)) (lo hi : Nat) : List (Nat × α) :=
  m.filter (fun p => p.1 < lo ∨ hi ≤ p.1)

/-- The entries of a bank whose keys lie in [lo, hi). -/
def bankPart {α : Type} (m : List (Nat × α)) (lo hi : Nat) : List (Nat × α) :=
  m.filter (fun p => lo ≤ p.1 ∧ p.1 < hi)

/-- The first index below n for which p holds. -/
def findIdx (n : Nat) (p : Nat → Bool) : Option Nat := (List.range n).find? p

/-- Applies f to a state for each element of a list in order. -/
def forEach {σ α : Type} (l : List α) (s : σ) (f : σ → α → σ) : σ := l.foldl f s

end Sys2Proof.Machine
end

