-- ==== Sys2Proof/Machine/RegMap.lean ====
section
/-! DEFINITION. The register map as functions of a road address: the block of an address, its register's fields, its reset
value (R5, R7, R8, R24). -/

namespace Sys2Proof.Machine

/-- The base address of a block's window (R24). -/
def blockBase : Block → Nat
  | .sys => 0x10000000 | .pwr => 0x10010000 | .clk => 0x10020000 | .sec => 0x10030000
  | .evc => 0x10040000 | .road => 0x10050000 | .seq => 0x10060000
  | .hall h => 0x10100000 + 0x10000 * h.val
  | .stair => 0x10300000 | .gal => 0x10310000 | .byw => 0x10400000 | .host => 0x10500000
  | .ddr => 0x10600000 | .link => 0x10700000 | .way => 0x10800000 | .test => 0x10900000
  | .dbg => 0x10A00000 | .line => 0x10B00000

/-- Every block that has a window. -/
def allBlocks : List Block :=
  [.sys, .pwr, .clk, .sec, .evc, .road, .seq, .stair, .gal, .byw, .host, .ddr, .link, .way, .test, .dbg, .line]
    ++ (List.finRange 17).map Block.hall

/-- The block whose 64 KiB window holds a road address (R24); none for an unallocated window. -/
def blockOf (a : Nat) : Option Block := allBlocks.find? (fun b => a / 0x10000 = blockBase b / 0x10000)

/-- Whether a block has ST fields, and with them COMMIT, CSTAT and LOCK (R8, R296). -/
def hasCommit : Block → Bool
  | .sys | .evc | .test => false
  | _ => true

/-- COMMIT, CSTAT and LOCK (R8). -/
def commitRegs : List RegDesc :=
  [⟨0x7FF0, [], [⟨0, 0, .wo, 0⟩]⟩,
   ⟨0x7FF4, [], [⟨31, 16, .ro, 0⟩, ⟨15, 8, .ro, 0⟩, ⟨3, 3, .w1c, 0⟩, ⟨2, 2, .w1c, 0⟩, ⟨1, 1, .ro, 0⟩, ⟨0, 0, .ro, 0⟩]⟩,
   ⟨0x7FF8, [], [⟨0, 0, .w1s, 0⟩]⟩]

/-- The registers of a block's own chapter. -/
def chapterRegs : Block → List RegDesc
  | .sys => sysRegs | .pwr => pwrRegs | .clk => clkRegs | .sec => secRegs | .evc => evcRegs
  | .road => roadRegs | .seq => seqRegs | .hall _ => hallRegs | .stair => stairRegs | .gal => galRegs
  | .byw => bywRegs | .host => hostRegs | .ddr => ddrRegs | .link => linkRegs | .way => wayRegs
  | .test => testRegs | .dbg => dbgRegs | .line => lineRegs

/-- The registers of a block's window. -/
def blockRegs (b : Block) : List RegDesc := if hasCommit b then chapterRegs b ++ commitRegs else chapterRegs b

/-- Whether the distance x from a register array's first offset is one of its elements; the strides fall. -/
def dimsMatch : List (Nat × Nat) → Nat → Bool
  | [], x => x = 0
  | (s, n) :: r, x => x / s < n && dimsMatch r (x % s)

def RegDesc.covers (r : RegDesc) (off : Nat) : Bool := r.off ≤ off && dimsMatch r.dims (off - r.off)

/-- Whether a node n has a bridge register ROAD_BRn: node 0x06, node 0x0C and the nodes above 0x20 have none (R330). -/
def bridgedOffset (off : Nat) : Bool :=
  let n := (off - 0x300) / 4
  !(0x300 ≤ off && off < 0x400) || (n ≤ 0x20 && n ≠ 0x06 && n ≠ 0x0C)

/-- The register at a window offset, if one lies there; a reserved offset has none (R5). -/
def regIn (b : Block) (off : Nat) : Option RegDesc :=
  if b = .road && !bridgedOffset off then none else (blockRegs b).find? (fun r => r.covers off)

/-- The register at a road address. -/
def regAt (a : Nat) : Option RegDesc := (blockOf a).bind (fun b => regIn b (a - blockBase b))

def fieldsReset (fs : List FieldDesc) : Word :=
  fs.foldl (fun w f => w ||| BitVec.ofNat 32 (f.reset * 2 ^ f.lo)) 0

/-- The bits of a register whose fields have one of the given types. -/
def tyMask (fs : List FieldDesc) (p : RTy → Bool) : Word :=
  fs.foldl (fun w f => if p f.ty then w ||| fieldMask f.hi f.lo else w) 0

/-- The reset value that the register tables give; 0 at a reserved address (R5, R9). -/
def regReset (a : Nat) : Word := ((regAt a).map (fun r => fieldsReset r.fields)).getD 0

/-- The ST bits at an address. -/
def stMask (a : Nat) : Word := ((regAt a).map (fun r => tyMask r.fields (· == .st))).getD 0

def cstatAddr (b : Block) : Nat := blockBase b + 0x7FF4
def lockAddr (b : Block) : Nat := blockBase b + 0x7FF8

/-- The event source of a block's refused commits (R296). -/
def refusalSource : Block → Nat
  | .sys => 0x00 | .pwr => 0x01 | .clk => 0x02 | .sec => 0x03 | .evc => 0x04 | .road => 0x05 | .seq => 0x06
  | .hall h => 0x07 + h.val
  | .stair => 0x18 | .gal => 0x19 | .byw => 0x1A | .host => 0x1B | .ddr => 0x1C | .link => 0x1D | .way => 0x1E
  | .test => 0x1F | .dbg => 0x20 | .line => 0x21

/-- The bit of a block's power domain in the PWR_D registers (R31); none for AON. -/
def blockDomain : Block → Option Nat
  | .pwr => none
  | .hall h => some (8 + h.val)
  | .byw => some 1 | .host => some 2 | .ddr => some 3 | .link => some 4
  | _ => some 0

end Sys2Proof.Machine
end

