-- ==== Sys2Proof/Machine/Units.lean ====
section
/-! DEFINITION. What the units other than the array, the cores and the event controller hold beside their registers. -/

namespace Sys2Proof.Machine

/-- What the boot ROM has sent to the security engine, or will send next (R410, R420, R425). -/
inductive BootItem where
  /-- A life-cycle record. -/
  | record
  /-- A revocation record. -/
  | revocation
  /-- The NVS firmware image 0 or 1. -/
  | image (n : Fin 2)
  /-- An image that the host offered (R404). -/
  | host
  /-- None: the boot ROM waits for an offer (R404). -/
  | wait
deriving DecidableEq, Repr

/-- Why the part is in OFF (R377, R379, R469). -/
inductive OffCause where
  | vin | vmid | thermal
deriving DecidableEq, Repr

/-- The mode and reset controller and the power sequencer (R377 to R410). Masks have a bit for each domain, as in PWR_DSTAT. -/
structure PowerState where
  /-- The state that is asked of each domain. -/
  goal : BitVec 25 := 0
  /-- Domains being powered up, and powered down. -/
  rising : BitVec 25 := 0
  falling : BitVec 25 := 0
  /-- Hall domains whose group has started (R381). -/
  started : BitVec 25 := 0
  /-- Domains that the recovery logic has switched off (R383). -/
  forced : BitVec 25 := 0
  /-- The mode at entry to HALT. -/
  haltFrom : Nat := 0
  /-- Halt requests that wait for the part to leave BOOT or for a transition to end (R409, R434). -/
  haltReq : BitVec 4 := 0
  /-- A GAL_COMMIT with LEN = 1 was applied since CORE was reset or the part left PRINT (R402). -/
  galReady : Bool := false
  /-- The watchdog has expired once without a key since (R408). -/
  wdogOnce : Bool := false
  /-- A wake that arrived during entry to SLEEP or STANDBY (R403). -/
  wakeDue : Bool := false
  off : Option OffCause := none
  /-- RAMP: AON power-good, VMID good, the XTA wait and check done. -/
  aonGood : Bool := false
  vmidGood : Bool := false
  xtaDone : Bool := false
  /-- The frequency that the check of XTA measured, in kHz (R389). -/
  xtaKhz : Nat := 0
  /-- RAMP after STANDBY, which does not latch the straps again (R403). -/
  fromStandby : Bool := false
  /-- The level of DDR_VDD2L_PG (R465). -/
  ddrPg : Bool := false
  /-- The timekeeping count of AON as it was last read (R388, R407). -/
  aonTime : BitVec 64 := 0
  /-- RESET_N is held low. -/
  resetLow : Bool := false
  /-- The straps as read at AON power-good (R400). -/
  straps : Option Straps := none
  boot : Option BootItem := none
  /-- The mode request that waits for a self-test to end (R443). -/
  testReq : Option (BitVec 4) := none
  /-- Time that VIN, the sensors and the monitors have been out of range, as the samples bring it, is the samples' own. -/
  vinOut : Bool := false
  /-- Trim margins of the hall clocks, in steps (R393). -/
  trim : Vector Int 17 := Vector.replicate 17 0
  /-- The repair fuses, the rate floors and the other fuses that no register shows until reset; keys, state and floor stand in
  SEC_KEYS and SEC_LCS. -/
  rprFuse : List (Nat × Word) := []
  rfl : Vector (BitVec 7) 17 := Vector.replicate 17 0
deriving DecidableEq, Repr

/-- A request on the road that a target has served and whose response has not been delivered (R319). -/
structure OpenReq where
  tid : BitVec 12
  src : BitVec 6
  node : BitVec 6
  mgmt : Bool
  status : BitVec 4
  data : List Byte
  addr : BitVec 40
deriving DecidableEq, Repr

/-- The kinds of request packet (R318). -/
inductive PacketKind where
  | rd | wr | pwr | swr | mrd | mwr | msg
deriving DecidableEq, Repr

/-- A request of an engine of the part that waits at a bridge (R332), and its answer once it has come. -/
structure AskedReq where
  tid : BitVec 12
  src : Nat
  wr : Bool
  addr : Nat
  len : Nat
  answer : Option (BitVec 4 × List Byte) := none
deriving DecidableEq, Repr

/-- The road (R312 to R336). -/
structure RoadState where
  /-- Responses on their way. -/
  resp : List OpenReq := []
  /-- Requests that a target has accepted and answers later: forwarded to the host or to a link. -/
  waiting : List OpenReq := []
  /-- Requests held at bridges with AW = 1 (R332), oldest first. -/
  hold : List (BitVec 6 × PacketKind × Packet) := []
  asked : List AskedReq := []
  /-- Consecutive failed retries of the flit in transfer, by link × 2 + direction. -/
  retry : List (Nat × Nat) := []
  /-- TIDs whose late response is still to be sunk after a reset of the requester's side (R334). -/
  sunk : List (BitVec 12) := []
  /-- An epoch switch (R329): the markers that routers and ejection ports hold. -/
  markers : List (Nat × Nat × Nat) := []
  ejects : List (Nat × Nat) := []
deriving DecidableEq, Repr

/-- The pins of a region's bank (R346). -/
inductive PinPhase where
  | safe | held | logic
deriving DecidableEq, Repr

/-- The step of a configuration load (R344, R345). -/
inductive LoadPhase where
  | reading | verifying | starting
deriving DecidableEq, Repr

/-- A signature block (R418): the two lengths, the public key, the signature, and whether what follows each is zero. -/
structure SigBlock where
  pkLen : Nat := 0
  pk : List Byte := []
  sigLen : Nat := 0
  sig : List Byte := []
  padded : Bool := false
deriving DecidableEq, Repr

structure FabricLoad where
  part : Bool
  rgn : BitVec 3
  phase : LoadPhase
  /-- The key slot that the header names, and the signature block. -/
  slot : Nat := 0
  sig : SigBlock := {}
deriving DecidableEq, Repr

/-- A word of a queue's FIFO (R347, R349): the codes, the tag, the head-map entry. -/
structure QWord where
  data : Word
  tag : BitVec 4
  entry : Nat
deriving DecidableEq, Repr

/-- A queue controller (R347 to R354): the line it is in and whether that line is blank, the positions of the line already
taken, the word being packed with its count of codes, the words of the line already pushed, its FIFO, the next line to begin. -/
structure BywQueue where
  line : Option Nat := none
  blank : Bool := false
  pos : Nat := 0
  part : Word := 0
  parts : Nat := 0
  words : Nat := 0
  fifo : List QWord := []
  /-- The gathered blocks by t: the slot byte at which each starts, and its 64 bytes (R350). -/
  blocks : List (Nat × Nat × List Byte) := []
  next : Nat := 0
deriving DecidableEq, Repr

/-- An I/O cell (R341): its input, output and output-enable registers, with the bits of a double-data-rate register's two edges, the later
one as bit 1; its delay tap; the output and the enable that a partial load holds (R346). -/
structure IoCell where
  inp : BitVec 2 := 0
  out : BitVec 2 := 0
  oe : BitVec 2 := 0
  tap : BitVec 7 := 0
  kept : Bool × Bool := (false, false)
deriving DecidableEq, Repr

/-- The Byway fabric (R337 to R357). -/
structure BywState where
  /-- Configuration frames by frame address; an unlisted frame is cleared. -/
  frames : List (Nat × BitVec 2048) := []
  load : Option FabricLoad := none
  pins : Vector PinPhase 8 := Vector.replicate 8 .safe
  /-- Regions whose flip-flops are held clear. -/
  clear : BitVec 8 := 0xFF
  /-- The flip-flops of each region's 1,536 cells (R337). -/
  flops : Vector (BitVec 1536) 8 := Vector.replicate 8 0
  /-- The user memories by block × 4,096 + 9-bit unit, and the word that a port read last, by block × 2 + port; unlisted ones are 0 (R338). -/
  bram : List (Nat × BitVec 9) := []
  bramRd : List (Nat × BitVec 72) := []
  /-- I/O cells by bank × 20 + cell: the pairs 0 to 15, then the single-ended pins. -/
  cells : List (Nat × IoCell) := []
  /-- LNUM of each region, and the regions whose LSTB pulse their logic has not had (R353). -/
  lnum : Vector (BitVec 16) 8 := Vector.replicate 8 0
  lstb : BitVec 8 := 0
  queue : Vector BywQueue 48 := Vector.replicate 48 {}
  /-- Capture storage, and whether a line strobe has come since the capture was armed (R355). -/
  capture : List Word := []
  struck : Bool := false
  /-- Digest of the global frames that a partial header is compared with is the operand's; the running full image's digest. -/
  fullDigest : List Byte := []
  /-- Requests that the fabric has issued and not had answered. -/
  req : List (BitVec 12) := []
deriving DecidableEq, Repr

/-- A command that a queue runs (R365, R366): the entry, the bytes copied, and whether it is the firmware's. -/
structure HostCmd where
  e : Sqe
  moved : Nat := 0
  fw : Bool := false
deriving DecidableEq, Repr

/-- One pair of host queues (R363 to R367). -/
structure HostQueue where
  cmd : Option HostCmd := none
  cqTail : Nat := 0
  phase : Bool := true
deriving DecidableEq, Repr

/-- The HOST block (R358 to R367). -/
structure HostState where
  queue : Vector HostQueue 16 := Vector.replicate 16 {}
  /-- The queue served last. -/
  served : Nat := 15
  busMaster : Bool := false
  msixEn : Bool := false
  msixMask : Bool := false
  /-- The MSI-X table by word index; an unlisted vector-control word is 1, masked, any other 0. -/
  msixTab : List (Nat × Word) := []
  d3hot : Bool := false
  /-- Completion entries written to host memory since the interface was last reset: queue and the 16 bytes, newest last. Host memory itself
  lies outside the part. -/
  cqes : List (BitVec 4 × BitVec 128) := []
deriving DecidableEq, Repr

/-- The Ramufin ports (R372 to R375). -/
structure LinkState where
  /-- Consecutive failed retries of a port. -/
  fails : Vector Nat 4 := Vector.replicate 4 0
  /-- The next frame sequence number that a port expects, and the credits returned to it. -/
  fseq : Vector (BitVec 12) 4 := Vector.replicate 4 0
  cred : Vector (BitVec 16) 4 := Vector.replicate 4 0
  /-- A training attempt is in progress. -/
  training : BitVec 4 := 0
deriving DecidableEq, Repr

/-- The DDR block's start (R371, R465). -/
inductive DdrPhase where
  | off
  /-- VDD2H up, DDR_VDD2L_EN driven, waiting for DDR_VDD2L_PG. -/
  | waitPg
  /-- The rails are up, and EN is 0. -/
  | powered
  | training
  | ready
  | failed
  /-- DDR_VDD2L_EN dropped, waiting for DDR_VDD2L_PG to fall before VDD2H is removed. -/
  | waitFall
deriving DecidableEq, Repr

/-- What the lead mover keeps (R187 to R191): lines released and copied since the counters restarted, a copy in progress, the
times that margins still need, and the lines that are late. -/
structure LeadState where
  released : Nat := 0
  copied : Nat := 0
  copying : Bool := false
  /-- Lines that the queues have reported done. -/
  done : Nat := 0
  /-- Release and strobe times that await each other, in PLL_ROAD cycles since entry to PRINT (R190). -/
  relTimes : List (Nat × Int) := []
  strobeTimes : List (Nat × Int) := []
  /-- Lines whose strobe came before their copy was finished. -/
  late : List Nat := []
deriving DecidableEq, Repr

/-- The margin loop (R243): samples since the last lowering, clean samples in a row, a recovery since the previous sample. -/
structure GovState where
  sinceLow : Nat := 127
  clean : Nat := 0
  recovered : Bool := false
deriving DecidableEq, Repr

/-- The line timer (R232 to R235): the encoder inputs, the highest position, the level of LSYNC's last interval. -/
structure LineState where
  a : Bool := false
  b : Bool := false
  top : Int := 0
  /-- Strobes issued since entry to PRINT; LINE_STAT.SCNT is this number modulo 2^24. -/
  strobes : Nat := 0
  /-- The time of the latest strobe, in PLL_ROAD cycles since entry to PRINT. -/
  last : Nat := 0
  /-- LSYNC as an output (R235): the high pulses of 32 ns that it has driven. -/
  lsyncOut : Nat := 0
  /-- Strobe that an LSYNC pulse has earned and that LINE_STROBE issues. -/
  follow : Bool := false
deriving DecidableEq, Repr

/-- A wipe of the secure region (R193). -/
inductive WipePhase where
  | idle | clearing | readback
  /-- The read-back waits for CORE. -/
  | deferred
deriving DecidableEq, Repr

/-- The gallery's arbitration and its engines (R185, R193, R194). -/
structure GalState where
  /-- The requester that each bank served last, and the age counters by bank × 8 + requester. -/
  last : List (Nat × Nat) := []
  age : List (Nat × Nat) := []
  wipe : WipePhase := .idle
  /-- The last read-back failed; the cause of the last wipe. Both lie in AON and show in GAL_SEC. -/
  verr : Bool := false
  wcause : BitVec 4 := 0
  /-- The march run in progress: its algorithm, whether it preserves, its regions. -/
  march : Option (BitVec 2 × Bool × BitVec 2) := none
deriving DecidableEq, Repr

/-- A waymark unit's statistics (R437). -/
structure WayUnit where
  min : Word := 0
  max : Word := 0
  nsamp : BitVec 48 := 0
  bins : Vector (BitVec 48) 32 := Vector.replicate 32 0
  strobes : Nat := 0
deriving DecidableEq, Repr

/-- The TAP's instructions (R447). -/
inductive TapInstr where
  | idcode | extest | sample | extestPulse | extestTrain | clamp | highz | bypass | dbgacc | testacc
deriving DecidableEq, Repr

/-- The latest access through DBGACC or TESTACC (R451). -/
structure TapAccess where
  wr : Bool := false
  off : BitVec 16 := 0
  data : Word := 0
  resp : BitVec 2 := 0
  done : Bool := false
deriving DecidableEq, Repr

structure TapState where
  instr : TapInstr := .idcode
  boundary : BitVec 1536 := 0
  acc : TapAccess := {}
deriving DecidableEq, Repr

/-- What a verify request is for (R411): an image or a record of the boot ROM, a patch, a fabric image, a debug token. -/
inductive VerifyKind where
  | boot | patch | fabric | token
deriving DecidableEq, Repr

/-- The security engine (R411, R412): the steps of deriving the key and signing reports, and the verifies that wait. -/
structure SecState where
  /-- Steps of the derivation in progress. -/
  derive : Nat := 0
  /-- Queues whose report waits, the one in progress first. -/
  sign : List (Fin 16) := []
  /-- Digest and version of the running firmware, digests of the latest patch loads. -/
  fwVersion : Word := 0
  fwDigest : List Byte := []
  vendorDigest : List Byte := []
  custDigest : List Byte := []
  /-- The nonce of DBG_CHAL has not been consumed. -/
  nonce : Bool := false
  /-- NEWCH is ignored for 1 s after a failed token. -/
  blocked : Bool := false
  /-- The token buffer by word (R433). -/
  tok : List (Nat × Word) := []
  /-- The level and slot that the token in verification names. -/
  tokReq : Option (BitVec 2 × BitVec 3) := none
  /-- Fuses whose burn is in progress: the slots to revoke. -/
  burn : Option (BitVec 8) := none
  /-- The verify requests that wait, in the order of their arrival (R412). -/
  verifs : List VerifyKind := []
  /-- Verifies waited when the last step ended: they come before the next one. -/
  serve : Bool := false
deriving DecidableEq, Repr

end Sys2Proof.Machine
end

