-- ==== Sys2Proof/Machine/State.lean ====
section
/-! DEFINITION. The state of the part as plain data, its reset, and the reasons a step can stop. -/

namespace Sys2Proof.Machine

/-- An accepted array instruction with what the sequencer captured at its checks (R77, R118, R203). -/
structure Job where
  opc : BitVec 7
  sd : BitVec 5
  sa : BitVec 5
  sb : BitVec 5
  /-- The core register a result goes to is the issuing core's. -/
  core : CoreId
  /-- Its predicate (R74) and its Flivin address. -/
  pred : Pred := ⟨0, false⟩
  pc : Word
  /-- The captured descriptors of SD, SA and SB: word 0 and word 1. -/
  dD : Word × Word
  dA : Word × Word
  dB : Word × Word
  fpctl : Word
  /-- For a customer opcode, the decode entry it was checked with (R106). -/
  cdt : Word := 0
  level : Bool := false
  /-- For a LEVEL 1 instruction, the stop during which it was accepted: the stop's place in the log and its number (R211). -/
  stopAt : Nat := 0
  stopNo : Nat := 0
  /-- Its number in the replay log; entries number from 0 since the restart point. -/
  idx : Nat := 0
  /-- Whether its result has been delivered (R203). -/
  delivered : Bool := false
  /-- Re-issued from the log (R207). -/
  replay : Bool := false
deriving DecidableEq, Repr

/-- What becomes of an OR sample's result. -/
inductive SmpUse where
  /-- The condition latch only: a sample inside a micro-routine. -/
  | latch
  /-- P[SD] of the issuing core (R97, WPRED). -/
  | toPred (c : CoreId) (n : BitVec 5)
  /-- D[SD] of the issuing core (R97, WHOR). -/
  | toData (c : CoreId) (n : BitVec 5)
  /-- AF of the stream, and with TRAP the floating-point trap (R124, R125). -/
  | toFlag (trap : Bool) (opc : BitVec 7)
deriving DecidableEq, Repr

/-- An OR sample on its way (R69 to R71, R204): the halls' bits, the halls that have contributed, the halls that have
sent the release. -/
structure Smp where
  use : SmpUse
  bits : BitVec 16 := 0
  contrib : BitVec 16 := 0
  release : BitVec 16 := 0
  barrier : Bool := false
  idx : Nat := 0
  /-- Delivery suppressed: the log entry's result was delivered before the replay (R204). -/
  quiet : Bool := false
  /-- Further destinations of the same result: a routine's later WPRED and WHOR (R142). -/
  also : List SmpUse := []
deriving DecidableEq, Repr

/-- The sequencer's micro-state (R138). -/
structure Micro where
  upc : BitVec 13 := 0
  lc : Vector (BitVec 13) 4 := Vector.replicate 4 0
  bp : Vector (BitVec 13) 4 := Vector.replicate 4 0
  bstep : Vector (BitVec 2) 4 := Vector.replicate 4 0
  rstk : List (BitVec 13) := []
  hor : BitVec 16 := 0
  cval : Bool := false
  tb : BitVec 13 := 0
  tl : BitVec 13 := 0
  /-- An OR sample has been issued in this instruction (R137). -/
  sampled : Bool := false
  /-- Effective cycles issued in this instruction (R151). -/
  cycles : Nat := 0
  /-- A stair channel of the instruction is open (STRCH). -/
  chan : Option (BitVec 3) := none
  /-- The microword waits for the OR result (R137, R142). -/
  waitOr : Bool := false
  /-- The last microword issued was a safe point (R153). -/
  safe : Bool := false
  /-- A microword of the instruction has been issued: until then it holds its queue entry (R132). -/
  begun : Bool := false
  /-- The address that served the word issued last (R144, R147); none at the entry. -/
  prev : Option (BitVec 13) := none
  /-- A microword that has been sent and whose COND waits for the OR result (R137). -/
  hold : Option (BitVec 48) := none
  /-- An MSTONE entry waits for the commit, or an END for the halls' reports; the halls that have reported (R166). -/
  msWait : Bool := false
  endWait : Bool := false
  rep : BitVec 16 := 0
  /-- The entry that ends the open channel's transfer has been reported by every hall, or is the END's own (R166). -/
  reported : Bool := false
deriving DecidableEq, Repr

/-- The routine that occupies a stream. -/
inductive Run where
  | idle
  /-- A routine run microword by microword. -/
  | micro (j : Job)
  /-- MILESTONE between its MSTONE entry and the commit; the halls that have reported (R166). -/
  | mstone (j : Job) (rep : BitVec 16)
  /-- STRIN or STROUT: the halls whose transfer has been made, and the halls that have reported. -/
  | xfer (j : Job) (moved rep : BitVec 16)
deriving DecidableEq, Repr

/-- A stop of R155: the held routine with its micro-state, the held instructions, the activity depth d and the mode at the stop,
and the depth and mode after the held instructions. -/
structure HeldRec where
  kind : BitVec 2
  run : Run
  micro : Micro
  jobs : List Job
  depth : Nat
  ct : Bool
  issDepth : Nat
  issCt : Bool
  /-- Net pushes of microroutines in the span at the stop. -/
  mdepth : Int := 0
  /-- Log entries from this number on follow the stop; its number in the span. -/
  at_ : Nat := 0
  no : Nat := 0
  /-- A stop that a replay makes again although its resume has already happened: the activity-stack entries that the resume
  discards. -/
  past : Option Nat := none
deriving DecidableEq, Repr

/-- One stream of the sequencer. -/
structure Strm where
  /-- The descriptors F0 to F31, word 0 and word 1 (R76). -/
  desc : Vector (Word × Word) 32 := Vector.replicate 32 (0, 0)
  /-- Activity depth after the accepted instructions (R37, R93). -/
  depth : Nat := 0
  /-- The part of depth that microwords have pushed since the restart point, which a restart takes back. -/
  mdepth : Int := 0
  /-- A microcode fault or an overrun has stopped issue, and the stream restarts once its flights are empty (R149, R169, R202). -/
  abandon : Bool := false
  /-- Constant-time mode as the running instructions see it, as the next issued instruction sees it, and its value at the
  restart point (R102). -/
  ct : Bool := false
  ctIss : Bool := false
  ctRp : Bool := false
  /-- Its value at the last LEND commit. -/
  ctLp : Bool := false
  /-- Instructions not yet begun: re-issued log entries first, then the queue (R132). -/
  jobs : List Job := []
  run : Run := .idle
  micro : Micro := {}
  smp : Option Smp := none
  /-- Samples issued while that one is outstanding (R71). -/
  smpq : List Smp := []
  log : List Job := []
  /-- The span sum of R202. -/
  span : Nat := 0
  /-- Replays of the current span in a row (R209). -/
  replays : Nat := 0
  /-- Replays of the current span, for the waymark units (R211). -/
  reps : Nat := 0
  /-- An instruction other than AFD has been accepted since the last MILESTONE was (R471). -/
  dirty : Bool := false
  /-- The next level-0 instruction is the first after an accepted LEND MILESTONE (R237), and the same at the restart point. -/
  gateDue : Bool := false
  gateRp : Bool := false
  held : Option HeldRec := none
  /-- Stops made in this span. -/
  stops : Nat := 0
  /-- Stops that a replay re-establishes one after another, each once the work before it is done, with the LEVEL 1 entries
  that follow it (R211). -/
  rehold : List (HeldRec × List Job) := []
  /-- A preemption request waits for its stop (R152). -/
  preReq : Bool := false
  /-- A floating-point trap is due to the owning core: the opcode (R125). -/
  fpTrap : Option (BitVec 7) := none
  /-- The owning core is held by a floating-point instruction with TRAP = 1 (R125). -/
  fpHold : Bool := false
  /-- Sites of the faults that started the replay in progress: hall and column, 127 for a hall site (R212). -/
  sites : List (Nat × Nat) := []
deriving DecidableEq, Repr

/-- An entry that a hall is executing: its 80 bits, the cycles done, the addresses of the next cycle (R162). -/
structure HRun where
  e : BitVec 80
  left : Nat
  aadr : BitVec 13
  badr : BitVec 13
  wadr : BitVec 13
  lc3 : Nat
  /-- The cause of the stall that holds it (R163); 5 when none does. -/
  stall : Nat := 5
  /-- The present GET cycle has pushed its token (R164). -/
  pushed : Bool := false
deriving DecidableEq, Repr

/-- A logical hall as the sequencer sees it: its flight, the microwords on their way to it, its credit count. -/
structure HallQ where
  flight : List (BitVec 90) := []
  transit : List (BitVec 90) := []
  credit : Nat := 64
  /-- Credits on their way back (R160). -/
  returning : Nat := 0
  run : Option HRun := none
  /-- REP entries whose report is due (R167). -/
  repDue : Bool := false
  /-- The channel open in this hall's stair; 0 before its transfer starts, afterwards one more than the cycles moved (R176). -/
  chan : Option (BitVec 3 × Nat) := none
  /-- The age of the current wait for a channel has already raised WTO. -/
  waited : Bool := false
deriving DecidableEq, Repr

/-- What reaches the recovery logic: an upset report of a physical hall with the hall cycle that it belongs to and, for an indexed
mismatch, the mirror address (R47), or a fault that is permanent at once (R205). -/
inductive Report where
  | upset (h : HallId) (r : UpsetRep) (cyc : Nat) (mirror : Option Nat)
  | dead (h : HallId)
deriving DecidableEq, Repr

/-- An entry waiting to be written to the fault record (R225). -/
structure FRec where
  kind : BitVec 8
  phys : BitVec 8
  log : BitVec 8
  col : BitVec 8
  upset : Word
  ms : Word
  lline : BitVec 16
  strm : BitVec 16
  /-- Recovery time in ns; it depends on elapsed time, so the command that writes it brings no value (R168). -/
  ns : Word
  /-- The timekeeping count of AON at the event. -/
  time : BitVec 64
  /-- The halls whose map record is written first. -/
  maps : List (Fin 17)
deriving DecidableEq, Repr

/-- A hall failover in progress (R219). -/
structure FailOver where
  strm : StreamId
  hall : LHall
  imageDone : Bool := false
  rep : Word
deriving DecidableEq, Repr

/-- A column retirement (R215): the hall, the column, whether it is immediate, and its stage: 0 due, 1 waiting for the stair,
2 the refill runs, 3 waiting for its commit. The order of the list is the order in which a hall's columns are retired. -/
structure RetRec where
  hall : HallId
  col : Nat
  imm : Bool
  stage : Nat := 0
  /-- The recovery logic's copy of the report that led to it (R207, R225). -/
  word : Word := 0
deriving DecidableEq, Repr

/-- The array and its sequencer. -/
structure ArrayState where
  /-- PE memory: physical row words, keyed by (hall × 64 + row) × 8192 + address; an unlisted word is 0 (R35). -/
  pe : List (Nat × BitVec 76) := []
  /-- The scratch segment's row words (R79), same keys; an unlisted word is as scrGen says. -/
  scr : List (Nat × BitVec 76) := []
  /-- For each physical hall, 0 when its unlisted scratch words are 0, otherwise the number of the free values they hold: the half
  that routines at LEVEL 0 use, and the half of LEVEL 1 (R143). -/
  scrGen : Vector Nat 17 := Vector.replicate 17 0
  scrGen1 : Vector Nat 17 := Vector.replicate 17 0
  /-- Halls in which a new map has left unlisted scratch words undefined in all 76 bits (R59). -/
  scrRaw : BitVec 17 := 0
  /-- PE latches: 64-lane planes, keyed by ((hall × 2 + copy) × 64 + row) × 64 + plane; ACT is 1 when unlisted (R35). -/
  latch : List (Nat × BitVec 64) := []
  /-- The planes X and Y, same keys; an unlisted plane is as xyGen says. -/
  xy : List (Nat × BitVec 64) := []
  /-- For each physical hall, 0 when its unlisted X and Y planes are 0, otherwise the number of the free values they hold (R83). -/
  xyGen : Vector Nat 17 := Vector.replicate 17 0
  strm : Vector Strm 4 := Vector.replicate 4 {}
  hallq : Vector HallQ 16 := Vector.replicate 16 {}
  /-- Edge latches, keyed by receiving hall × 4 + latch (R164): tokens of data and parity, oldest first. -/
  edge : List (Nat × List (BitVec 512 × BitVec 64)) := []
  /-- Patch RAM, 1,024 words of 48 bits, and the verified tags (R130, R144). -/
  patch : List (Nat × BitVec 48) := []
  tags : BitVec 1024 := 0
  /-- Error patterns of stored microstore words, on their 48 bits and 7 check bits; an unlisted word is valid (R131). -/
  uErr : List (Nat × BitVec 55) := []
  /-- The half and the source address with which the patch load in progress was started (R145). -/
  pld : Nat × Nat := (0, 0)
  /-- The staged image of a patch load: the words and their targets (R145), and the key slot that the header names. -/
  stage : Option (List (Nat × BitVec 48)) := none
  stageSlot : Nat := 0
  /-- Its signature block (R418). -/
  stageSig : SigBlock := {}
  /-- A number that rises with every hall cycle, and its values at the correction that each HALLn_ECCLOG holds and at the upset that
  each HALLn_UPSET holds: what the rules on one cycle compare (R43, R55). -/
  cyc : Nat := 0
  logCyc : Vector Nat 17 := Vector.replicate 17 0
  upCyc : Vector Nat 17 := Vector.replicate 17 0
  /-- Streams blocked by a span overrun (bit 0) or an unrecovered fault (bit 1) until SEQ_AFLT.VAL is cleared (R103). -/
  block : List (Nat × Nat) := []
  /-- A captured change of SPLIT is quiescing (R171). -/
  quiesce : Bool := false
  /-- Reports that have reached the recovery logic and wait for UPSET_RECOVERY. -/
  reports : List Report := []
  failover : Option FailOver := none
  /-- Column retirements in progress or due (R215). -/
  retire : List RetRec := []
  /-- Streams whose replay waits for retirements. -/
  replayDue : List StreamId := []
  /-- Fault record entries waiting to be written. -/
  frecs : List FRec := []
  /-- The hall image command in progress: operation, logical hall (R224). -/
  himg : Option (BitVec 2 × LHall) := none
  /-- The halls whose image has passed a verify since it was last written (R223). -/
  verified : BitVec 16 := 0
deriving DecidableEq, Repr

/-- One direction of a Ramufin edge, one kind of token (R241): the tokens received since the base, the sequence number of the
first of them, how many are consumed, how many were at the last milestone; the number of the first token sent since the base, the
counts of tokens sent, and what has been given to the link, each token with its number, oldest first. -/
structure EdgePort where
  buf : List (BitVec 512) := []
  base : BitVec 16 := 0
  used : Nat := 0
  usedMs : Nat := 0
  sbase : BitVec 16 := 0
  sent : Nat := 0
  sentMs : Nat := 0
  out : List (BitVec 16 × BitVec 512) := []
deriving DecidableEq, Repr

/-- The event controller (R296 to R311); its registers are in the register bank. -/
structure EvcState where
  /-- The filtered source lines (R297). -/
  line : BitVec 256 := 0
  pend : BitVec 256 := 0
  act : BitVec 256 := 0
  /-- The owner of an active source: 0 to 3 the cores, 4 the host. -/
  owner : List (Nat × Nat) := []
  /-- The targets from which moderation holds a pending source, and the group that holds it (R306). -/
  held : List (Nat × BitVec 5) := []
  heldBy : List (Nat × Nat) := []
  /-- Events held by each group since its last release. -/
  count : List (Nat × Nat) := []
  /-- MSI-X vectors whose message waits to be sent (R311). -/
  msix : BitVec 64 := 0
deriving DecidableEq, Repr

/-- What a core is doing. -/
inductive CoreMode where
  /-- Held in reset by SYS_CRUN or by the mode (R273). -/
  | reset
  | run
  /-- Stopped in WAIT (R310). -/
  | wait
  /-- Stopped by a double fault (R278). -/
  | dead
deriving DecidableEq, Repr

/-- A load that has not written its destination yet (R262): the register, the value, whether it is a pair, and how many of the
following instructions are still in its delay slots; for one whose data has not come (R263), its TID, size and sign extension. -/
structure PendingLoad where
  dst : DReg
  lo : Word
  hi : Option Word
  slots : Nat
  tid : Option (BitVec 12) := none
  size : Nat := 4
  sx : Bool := false
deriving DecidableEq, Repr

/-- One Flivin core (R247, R272). -/
structure CoreState where
  mode : CoreMode := .reset
  /-- Stopped by a halt (R434). -/
  halted : Bool := false
  d : Vector Word 16 := Vector.replicate 16 0
  a : Vector Word 8 := Vector.replicate 8 0
  ac : Vector (BitVec 72) 4 := Vector.replicate 4 0
  /-- P7 to P0; P0 reads 1 (R249). -/
  p : BitVec 8 := 1
  pc : Word := 0
  /-- The return stack, newest entry first (R265). -/
  rs : List Word := []
  /-- SR but for RSD, which the depth of rs gives. -/
  sr : Word := 0x80000000
  cfg : Word := 0
  vtb : Word := 0
  tcause : Word := 0
  taddr : Word := 0
  tsp : Word := 0
  /-- The 64-bit PLL_SYS cycle count behind CYCL. -/
  cyc : BitVec 64 := 0
  cych : Word := 0
  fpcr : Word := 0
  fpsr : Word := 0
  loads : List PendingLoad := []
  /-- Predicates and data registers that an array instruction will write (R98). -/
  pendP : BitVec 8 := 0
  pendD : BitVec 16 := 0
  /-- Imprecise traps that wait for an instruction boundary: the entry and the data address (R275). -/
  impr : List (BitVec 5 × Word) := []
  /-- A trap of an instruction in the delay slot of a load that has not delivered: entry, return address, data address, IMPR (R264). -/
  due : Option (BitVec 5 × Word × Word × Bool) := none
  /-- The source whose entry has been made while no instruction of its handler has run (R304). -/
  entering : Option Nat := none
deriving DecidableEq, Repr

/-- The response that the last register command, response packet or access from outside got: the road status and the data (R319). -/
structure Resp where
  status : BitVec 4
  data : List Byte
deriving DecidableEq, Repr

/-- The part: everything but the queue of waiting commands. -/
structure Dev where
  /-- Active values of the control registers, keyed by road address; an unlisted register holds its reset value. -/
  regs : List (Nat × Word) := []
  /-- Staged values of ST fields (R9), same form. -/
  staged : List (Nat × Word) := []
  /-- Captured sets that wait to be applied, keyed by window base (R10). -/
  captured : List (Nat × List (Nat × Word)) := []
  /-- Memory by road address: gallery, NVS, TCMs, DRAM; an unlisted byte reads as 0. -/
  mem : List Host.Cell := []
  /-- Error patterns of stored gallery words, by offset / 8, and of DRAM words, by offset / 8, on data and check bits; an
  unlisted word is valid (R183, R369). -/
  galErr : List (Nat × BitVec 72) := []
  dramErr : List (Nat × BitVec 72) := []
  /-- Free values used so far. -/
  free : Nat := 0
  resp : Resp := ⟨0, []⟩
  /-- A fatal fault whose LOCKOUT entry is due: the cause of PWR_RSTC.LKC (R406). -/
  fatal : Option (BitVec 4) := none
  arr : ArrayState := {}
  evc : EvcState := {}
  core : Vector CoreState 4 := Vector.replicate 4 {}
  /-- NEWS and express tokens of the four Ramufin ports (R241). -/
  news : Vector EdgePort 4 := Vector.replicate 4 {}
  express : Vector EdgePort 4 := Vector.replicate 4 {}
  pow : PowerState := {}
  road : RoadState := {}
  byw : BywState := {}
  host : HostState := {}
  link : LinkState := {}
  ddr : DdrPhase := .off
  lead : LeadState := {}
  gov : GovState := {}
  line : LineState := {}
  gal : GalState := {}
  way : Vector WayUnit 16 := Vector.replicate 16 {}
  tap : TapState := {}
  /-- The self-test that runs: its number and the halls under test (R441, R443). -/
  test : Option (BitVec 3 × BitVec 17) := none
  sec : SecState := {}
deriving DecidableEq, Repr

/-- Why the part would stop for good: never. An error that the spec describes is the command's effect (a refusal record, an
error response, a trap of a core, an entry of LOCKOUT), so no meaning raises a fault. -/
inductive Fault
deriving DecidableEq, Repr

/-- Why a command has no outcome in the model. -/
inductive Refusal where
  /-- Raised by the dispatch alone, for a command whose meaning is not written: safe, nothing is claimed of it. -/
  | notModelled (mnemonic : String)
deriving DecidableEq, Repr

/-- The part and the commands that wait for it, first in, first out. -/
structure State where
  dev : Dev
  pending : List Instr
deriving DecidableEq, Repr

/-- The part right after VIN has come within range at its first power-on: RAMP, every domain but AON off (R377, R401, R409). -/
def State.reset : State := ⟨{}, []⟩

end Sys2Proof.Machine
end

