-- ==== Sys2Proof/Machine/RegOps.lean ====
section
/-! DEFINITION. Control registers: active and staged values, fields, writes by type, locks, captures (R3 to R16). -/

namespace Sys2Proof.Machine

/-- The active value of a register. -/
def Dev.reg (d : Dev) (a : Nat) : Word := bankGet regReset d.regs a

/-- Sets a register as hardware does, whatever its type. -/
def Dev.setReg (d : Dev) (a : Nat) (v : Word) : Dev := { d with regs := bankSet regReset d.regs a v }

/-- The active value of a field. -/
def Dev.fld (d : Dev) (f : Fld) : Nat := bits (d.reg f.addr).toNat f.hi f.lo

/-- Whether a field is not 0. -/
def Dev.flag (d : Dev) (f : Fld) : Bool := d.fld f ≠ 0

/-- Sets a field as hardware does. -/
def Dev.setFld (d : Dev) (f : Fld) (x : Nat) : Dev := d.setReg f.addr (setBits (d.reg f.addr) f.hi f.lo x)

/-- Sets a one-bit field. -/
def Dev.setFlag (d : Dev) (f : Fld) (b : Bool) : Dev := d.setFld f (bn b)

/-- Adds to a counter field, which saturates. -/
def Dev.addFld (d : Dev) (f : Fld) (n : Nat) : Dev := d.setFld f (satAdd (2 ^ (f.hi + 1 - f.lo) - 1) (d.fld f) n)

/-- The staged value of a register: its ST bits as staged, its other bits as they are. -/
def Dev.stagedReg (d : Dev) (a : Nat) : Word := merge (stMask a) (d.reg a) (bankGet regReset d.staged a)

def Dev.setStaged (d : Dev) (a : Nat) (v : Word) : Dev := { d with staged := bankSet regReset d.staged a v }

def Dev.stagedFld (d : Dev) (f : Fld) : Nat := bits (d.stagedReg f.addr).toNat f.hi f.lo

/-- Sets an ST field in both its copies, as the recovery logic does (R60, R219). -/
def Dev.setBoth (d : Dev) (f : Fld) (x : Nat) : Dev :=
  let d := d.setFld f x
  d.setStaged f.addr (setBits (bankGet regReset d.staged f.addr) f.hi f.lo x)

/-- The captured set of a block (R10): the staged bank's entries of its window at the capture. -/
def Dev.capture? (d : Dev) (b : Block) : Option (List (Nat × Word)) :=
  (d.captured.find? (fun p => p.1 = blockBase b)).map Prod.snd

def Dev.setCapture (d : Dev) (b : Block) (c : List (Nat × Word)) : Dev :=
  { d with captured := bankInsert (d.captured.filter (fun p => p.1 ≠ blockBase b)) (blockBase b) c }

def Dev.dropCapture (d : Dev) (b : Block) : Dev :=
  { d with captured := d.captured.filter (fun p => p.1 ≠ blockBase b) }

/-- A field of a captured set. -/
def capFld (c : List (Nat × Word)) (f : Fld) : Nat := bits (bankGet regReset c f.addr).toNat f.hi f.lo

def capFlag (c : List (Nat × Word)) (f : Fld) : Bool := capFld c f ≠ 0

/-- The staged values of a block's window. -/
def Dev.windowStaged (d : Dev) (b : Block) : List (Nat × Word) :=
  bankPart d.staged (blockBase b) (blockBase b + 0x8000)

/-- Whether a set differs from the active values at a register. -/
def Dev.differs (d : Dev) (c : List (Nat × Word)) (a : Nat) : Bool :=
  (bankGet regReset c a &&& stMask a) ≠ (d.reg a &&& stMask a)

/-- The addresses of a block at which a set or the active bank holds something other than the reset value. -/
def Dev.touched (d : Dev) (b : Block) (c : List (Nat × Word)) : List Nat :=
  c.map Prod.fst ++ (bankPart d.regs (blockBase b) (blockBase b + 0x8000)).map Prod.fst

/-- BLOCK_CSTAT.PEND (R8): a staged value differs from its active value. -/
def Dev.pend (d : Dev) (b : Block) : Bool :=
  (d.touched b (d.windowStaged b)).any (d.differs (d.windowStaged b))

/-- Makes a set the active values of a block's ST fields. -/
def Dev.applySet (d : Dev) (b : Block) (c : List (Nat × Word)) : Dev :=
  forEach (d.touched b c) d (fun d a => d.setReg a (merge (stMask a) (d.reg a) (bankGet regReset c a)))

def Dev.locked (d : Dev) (b : Block) : Bool := (d.reg (lockAddr b)).getLsbD 0

/-- Every value of a window back at its reset, staged and active (R9), its captures dropped and its lock open. -/
def Dev.resetWindow (d : Dev) (b : Block) : Dev :=
  { d with regs := bankClear d.regs (blockBase b) (blockBase b + 0x10000),
           staged := bankClear d.staged (blockBase b) (blockBase b + 0x10000),
           captured := d.captured.filter (fun p => p.1 ≠ blockBase b) }

/-- A software write to a register with the given fields (R3, R4, R5, R15): RW fields take the value, W1C bits written 1
clear, W1S bits written 1 set, ST fields change the staged value only, LK fields follow the lock. -/
def Dev.writeFields (d : Dev) (b : Block) (a : Nat) (fs : List FieldDesc) (v : Word) : Dev :=
  let old := d.reg a
  let rw := tyMask fs (fun t => t == .rw || (t == .lk && !d.locked b))
  let w1c := tyMask fs (· == .w1c)
  let w1s := tyMask fs (· == .w1s)
  let st := tyMask fs (· == .st)
  let new := ((merge rw old v) &&& ~~~(w1c &&& v)) ||| (w1s &&& v)
  let d := d.setReg a new
  if st = 0 then d else d.setStaged a (merge st (bankGet regReset d.staged a) v)

/-- Whether a write meets a locked LK field. -/
def Dev.lockHit (d : Dev) (b : Block) (fs : List FieldDesc) : Bool :=
  d.locked b && fs.any (fun f => f.ty == .lk)

/-- The mode of the part (R401). -/
def Dev.mode (d : Dev) : Nat := d.fld R.PWR_MSTAT_MODE

/-- Whether a power domain is on, by its bit in PWR_DSTAT. -/
def Dev.domOn (d : Dev) (k : Nat) : Bool := (d.reg R.PWR_DSTAT).getLsbD k

/-- Whether the registers of a block can be reached: its power domain is on. -/
def Dev.blockOn (d : Dev) (b : Block) : Bool :=
  match blockDomain b with
  | none => true
  | some k => d.domOn k

/-- A fresh free value: its number, and the state with the counter advanced. -/
def Dev.fresh (d : Dev) : Nat × Dev := (d.free, { d with free := d.free + 1 })

end Sys2Proof.Machine
end

