-- ==== Sys2Proof/Machine/Events.lean ====
section
/-! DEFINITION. The event controller's shared operations: a source becomes pending, is held by moderation, forwarded to the
host, offered, claimed and ended (R296 to R311). -/

namespace Sys2Proof.Machine

def Dev.srcEn (d : Dev) (n : Nat) : Bool := d.flag (R.EVC_SRC_EN n)
def Dev.srcTargets (d : Dev) (n : Nat) : BitVec 5 := BitVec.ofNat 5 (d.fld (R.EVC_SRC_TMASK n))
def Dev.evcHeld (d : Dev) (n : Nat) : BitVec 5 := bankGet (fun _ => 0) d.evc.held n
def Dev.evcOwner (d : Dev) (n : Nat) : Nat := bankGet (fun _ => 5) d.evc.owner n
def Dev.evcCount (d : Dev) (g : Nat) : Nat := bankGet (fun _ => 0) d.evc.count g

def Dev.setHeld (d : Dev) (n : Nat) (m : BitVec 5) : Dev :=
  { d with evc := { d.evc with held := bankSet (fun _ => 0) d.evc.held n m } }
def Dev.evcHeldBy (d : Dev) (n : Nat) : Nat := bankGet (fun _ => 0) d.evc.heldBy n
def Dev.setHeldBy (d : Dev) (n g : Nat) : Dev :=
  { d with evc := { d.evc with heldBy := bankSet (fun _ => 0) d.evc.heldBy n g } }
def Dev.setOwner (d : Dev) (n o : Nat) : Dev :=
  { d with evc := { d.evc with owner := bankSet (fun _ => 5) d.evc.owner n o } }
def Dev.setCount (d : Dev) (g c : Nat) : Dev :=
  { d with evc := { d.evc with count := bankSet (fun _ => 0) d.evc.count g c } }
def Dev.setPend (d : Dev) (n : Nat) (b : Bool) : Dev := { d with evc := { d.evc with pend := setBit d.evc.pend n b } }
def Dev.setAct (d : Dev) (n : Nat) (b : Bool) : Dev := { d with evc := { d.evc with act := setBit d.evc.act n b } }

/-- A core can take events: not held in reset, not stopped by a double fault, not halted (R308). -/
def Dev.canTake (d : Dev) (c : Nat) : Bool :=
  match d.core[c]? with
  | some k => k.mode ≠ .reset && k.mode ≠ .dead && !k.halted
  | none => false

/-- The target that EVC_FALLBACK gives a source none of whose cores can take it (R308). -/
def Dev.fallback (d : Dev) (n : Nat) : Option Nat :=
  let m := d.srcTargets n
  if m.toNat % 16 ≠ 0 && !((List.range 4).any (fun c => m.getLsbD c && d.canTake c)) && d.flag R.EVC_FALLBACK_FEN
    && (d.fld R.EVC_FALLBACK_TGT ≠ 4 || d.domOn 2)
  then some (d.fld R.EVC_FALLBACK_TGT) else none

/-- Sources that an event of the part drives (R296); the others pend through EVC_SET alone. -/
def sourceHasLine (n : Nat) : Bool :=
  [(0x01, 0x03), (0x05, 0x1E), (0x20, 0x21), (0x28, 0x2C), (0x30, 0x39), (0x40, 0x62), (0x80, 0xD5), (0xD8, 0xDD), (0xE0, 0xE5),
    (0xE8, 0xE9)].any (fun p => decide (p.1 ≤ n ∧ n ≤ p.2))

/-- The domain other than AON and CORE in which a source's block lies, as a bit of PWR_DSTAT. -/
def sourceDomain (n : Nat) : Option Nat :=
  if 0x07 ≤ n ∧ n ≤ 0x17 then some (8 + (n - 7))
  else if n = 0x1A ∨ (0x80 ≤ n ∧ n ≤ 0xBF) ∨ n = 0xD4 ∨ n = 0xD5 then some 1
  else if n = 0x1B ∨ (0x40 ≤ n ∧ n ≤ 0x62) then some 2
  else if n = 0x1C ∨ n = 0xDC then some 3
  else if n = 0x1D ∨ (0xD8 ≤ n ∧ n ≤ 0xDB) then some 4
  else none

/-- A source whose block is in a domain that is off reads as 0 (R297), and so does an output of the fabric while no region runs (R357). -/
def Dev.sourcePowered (d : Dev) (n : Nat) : Bool :=
  (match sourceDomain n with | some k => d.domOn k | none => true) &&
    !(decide (0x80 ≤ n ∧ n < 0xC0) && d.fld R.BYW_RGNCTL_RUN = 0)

/-- The lines of the sources in a domain that goes off fall (R297). -/
def Dev.darkLines (d : Dev) (k : Nat) : Dev :=
  forEach (List.range 256) d (fun d n =>
    if sourceDomain n = some k then { d with evc := { d.evc with line := setBit d.evc.line n false } } else d)

/-- The source is requested of the host alone: it is the only target, or the fallback gives the source to it (R308, R311). -/
def Dev.hostAlone (d : Dev) (n : Nat) : Bool := d.srcTargets n = 16 || d.fallback n = some 4

/-- Asks the HOST block for the source's MSI-X vector (R311): with the host alone the request is the claim. -/
def Dev.toHost (d : Dev) (n : Nat) : Dev :=
  let ask (d : Dev) : Dev :=
    { d with evc := { d.evc with msix := setBit d.evc.msix (d.fld (R.EVC_SRC_MSIV n)) true } }
  if !d.srcEn n then d
  else if d.hostAlone n then
    if d.evc.act.getLsbD n then d else (((ask d).setPend n false).setAct n true).setOwner n 4
  else if (d.srcTargets n).getLsbD 4 then ask d else d

/-- Forwards a pending source to the host unless moderation holds it from there. -/
def Dev.askHost (d : Dev) (n : Nat) : Dev := if (d.evcHeld n).getLsbD 4 then d else d.toHost n

/-- Pending sources that are now the host's alone (R308): the request is the claim. -/
def Dev.scanFallback (d : Dev) : Dev :=
  forEach (List.range 256) d (fun d n => if d.evc.pend.getLsbD n && d.hostAlone n then d.askHost n else d)

/-- Releases what a group holds (R306): each source is offered, or forwarded, as though it had just become pending. -/
def Dev.releaseGroup (d : Dev) (g : Nat) : Dev :=
  let ns := (d.evc.held.map Prod.fst).filter (fun n => d.evcHeldBy n = g)
  (forEach ns d (fun d n => ((d.setHeld n 0).setHeldBy n 0).toHost n)).setCount g 0

/-- The targets from which moderation holds a source that becomes pending: every one but a core in WAIT, whether or not TMASK names
it yet; none when TMASK names only such cores (R306, R307). -/
def Dev.heldTargets (d : Dev) (n : Nat) : BitVec 5 :=
  let m : BitVec 5 := (List.range 4).foldl (fun m c =>
    if d.core[c]?.map (·.mode) = some CoreMode.wait then setBit m c false else m) 0x1F
  if m &&& d.srcTargets n = 0 then 0 else m

/-- A source becomes pending (R298), is merged while it is pending, and is held while its group is moderated (R306). -/
def Dev.pendSource (d : Dev) (n : Nat) : Dev :=
  if d.evc.pend.getLsbD n then d else
  let d := d.setPend n true
  let g := d.fld (R.EVC_SRC_GROUP n)
  if g ≠ 0 && d.flag (R.EVC_MOD_EN g) && n ≠ 0x2C then
    let m := d.heldTargets n
    let d := ((d.setHeld n m).setHeldBy n (if m = 0 then 0 else g)).setCount g (d.evcCount g + bn (m ≠ 0))
    if max 1 (d.fld (R.EVC_MOD_COUNT g)) ≤ d.evcCount g then d.releaseGroup g else d
  else d.toHost n

/-- An enabled level source whose filtered line is 1 and that is not active becomes pending (R298). -/
def Dev.levelDue (d : Dev) (n : Nat) : Bool :=
  d.srcEn n && d.flag (R.EVC_SRC_LEVEL n) && d.evc.line.getLsbD n && !d.evc.act.getLsbD n

def Dev.levelScan (d : Dev) (n : Nat) : Dev := if d.levelDue n then d.pendSource n else d

/-- The filtered line of a source takes a new value (R297, R298). -/
def Dev.sourceLine (d : Dev) (n : Nat) (v : Bool) : Dev :=
  let old := d.evc.line.getLsbD n
  let d := { d with evc := { d.evc with line := setBit d.evc.line n v } }
  if v && !old && d.srcEn n && !d.flag (R.EVC_SRC_LEVEL n) then d.pendSource n else d.levelScan n

/-- A block raises an event: a pulse on the source's line. The EVC lies in CORE, so nothing is raised while CORE is off. -/
def Dev.raise (d : Dev) (n : Nat) : Dev :=
  if d.domOn 0 then if d.evc.line.getLsbD n then d else (d.sourceLine n true).sourceLine n false else d

/-- Whether a source can be core c's offer (R300, R308). -/
def Dev.offerable (d : Dev) (c n : Nat) : Bool :=
  d.srcEn n && d.evc.pend.getLsbD n && !d.evc.act.getLsbD n && !(d.evcHeld n).getLsbD c &&
    ((d.srcTargets n).getLsbD c || d.fallback n = some c)

/-- Core c's offer (R300): the highest PRIO, and among equals the lowest number. A core that cannot take events has none. -/
def Dev.offer (d : Dev) (c : Nat) : Option Nat :=
  if d.canTake c then
    ((List.range 256).filter (d.offerable c)).foldl
      (fun best n =>
        match best with
        | none => some n
        | some m => if d.fld (R.EVC_SRC_PRIO m) < d.fld (R.EVC_SRC_PRIO n) then some n else some m) none
  else none

/-- A claim takes the core's offer (R301); without an offer it counts a spurious claim. -/
def Dev.claim (d : Dev) (c : Nat) : Option Nat × Dev :=
  match d.offer c with
  | some n => (some n, ((d.setPend n false).setAct n true).setOwner n c)
  | none => (none, d.addFld R.EVC_STAT_SPUR 1)

/-- The word that a read of CLAIM or OFFER returns (R296). -/
def Dev.claimWord (d : Dev) : Option Nat → Word
  | none => 0
  | some n => BitVec.ofNat 32 (2 ^ 31 + d.fld (R.EVC_SRC_PRIO n) * 2 ^ 24 + n)

/-- A source stops being active: it is unowned, and a level source whose line is still 1 pends again (R302). One that pended
while it was active and that the host alone can claim is requested again. -/
def Dev.endSource (d : Dev) (n : Nat) : Dev :=
  let d := (d.setAct n false).setOwner n 5
  if d.evc.pend.getLsbD n && !(d.evcHeld n).getLsbD 4 && d.hostAlone n then d.toHost n else d.levelScan n

/-- EVC_DONE (R302). -/
def Dev.doneSource (d : Dev) (o n : Nat) : Dev :=
  if d.evc.act.getLsbD n && d.evcOwner n = o then d.endSource n else d.addFld R.EVC_STAT_BADDONE 1

/-- The sources active with an owner. -/
def Dev.ownedBy (d : Dev) (o : Nat) : List Nat := (List.range 256).filter (fun n => d.evc.act.getLsbD n && d.evcOwner n = o)

/-- A core returns to reset or stops on a double fault: its sources become inactive and pend again (R309). -/
def Dev.dropOwner (d : Dev) (c : Nat) : Dev :=
  (forEach (d.ownedBy c) d (fun d n => ((d.setAct n false).setOwner n 5).pendSource n)).scanFallback

/-- The host's sources end when the HOST domain is reset or at a Function Level Reset (R309). -/
def Dev.dropHost (d : Dev) : Dev :=
  forEach (d.ownedBy 4) d Dev.endSource

/-- A refused commit or command raises the block's configuration event (R14). -/
def Dev.refuseEvent (d : Dev) (b : Block) : Dev := d.raise (refusalSource b)

end Sys2Proof.Machine
end

