-- ==== Sys2Proof/Machine/Pe.lean ====
section
/-! DEFINITION. PE memory and latches of a hall: the row-word code, column steering, decoded reads, encoded writes, the
correction counters, upset reports (R34 to R60). -/

namespace Sys2Proof.Machine

/-! The row-word code (R49, R50). -/

/-- The codes of lanes 0 to 63 (R50). -/
def laneCodes : List (BitVec 8) :=
  [0x07, 0x0B, 0x0D, 0x0E, 0x13, 0x15, 0x16, 0x19, 0x1A, 0x1C, 0x23, 0x25, 0x26, 0x29, 0x2A, 0x2C] ++
  [0x31, 0x32, 0x34, 0x38, 0x43, 0x45, 0x46, 0x49, 0x4A, 0x4C, 0x51, 0x52, 0x54, 0x58, 0x61, 0x62] ++
  [0x64, 0x68, 0x70, 0x83, 0x85, 0x86, 0x89, 0x8A, 0x8C, 0x91, 0x92, 0x94, 0x98, 0xA1, 0xA2, 0xA4] ++
  [0xA8, 0xB0, 0xC1, 0xC2, 0xC4, 0xC8, 0xD0, 0xE0, 0x1F, 0x2F, 0x37, 0x3B, 0x3D, 0x3E, 0xF1, 0xF2]

/-- h(j) of the 72 logical columns (R49). -/
def colCodes : List (BitVec 8) := laneCodes ++ [0x01, 0x02, 0x04, 0x08, 0x10, 0x20, 0x40, 0x80]

/-- The exclusive OR of the codes of the columns from j on that read 1. -/
def xorCodes : List (BitVec 8) → Nat → Nat → BitVec 8
  | [], _, _ => 0
  | c :: r, w, j => (if w.testBit j then c else 0) ^^^ xorCodes r w (j + 1)

/-- The syndrome of a row word (R49). -/
def rowSyndrome (w : BitVec 72) : BitVec 8 := xorCodes colCodes w.toNat 0

/-- The row word of 64 lane bits: the lanes and their check bits (R49). -/
def rowEncode (x : BitVec 64) : BitVec 72 := (xorCodes laneCodes x.toNat 0).append x

/-- The column whose code is s. -/
def colOfCode (s : BitVec 8) : Option Nat := findIdx 72 (fun j => colCodes[j]? = some s)

/-- A decoded row word: the bits used, the logical columns inverted, whether it was uncorrectable. -/
structure Decoded where
  word : BitVec 72
  fixed : List Nat
  bad : Bool
deriving DecidableEq, Repr

/-- The row decoder (R51), and in erasure mode with column e (R53). -/
def rowDecode (era : Option Nat) (w : BitVec 72) : Decoded :=
  let s := rowSyndrome w
  let flip (l : List Nat) : Decoded := ⟨l.foldl (fun w j => w ^^^ BitVec.ofNat 72 (2 ^ j)) w, l, false⟩
  if s = 0 then ⟨w, [], false⟩ else
  match colOfCode s, era with
  | some j, _ => flip [j]
  | none, none => ⟨w, [], true⟩
  | none, some e =>
    match colOfCode (s ^^^ (colCodes.getD e 0)) with
    | some j => if j = e then ⟨w, [], true⟩ else flip (if e < j then [e, j] else [j, e])
    | none => ⟨w, [], true⟩

/-! Column steering (R56). -/

/-- The retired columns of a STEER word, in the order of its entries. -/
def steerList (v : Word) : List Nat :=
  (List.range 4).filterMap (fun k => if v.getLsbD (8 * k + 7) then some (bits v.toNat (8 * k + 6) (8 * k)) else none)

/-- The STEER word of a list of retired columns, contiguous from V0 (R215). -/
def steerWord (l : List Nat) : Word :=
  BitVec.ofNat 32 (((l.take 4).mapIdx (fun k r => (128 + r % 128) * 256 ^ k)).sum)

/-- The retired columns of a physical hall, under its active map. -/
def Dev.retired (d : Dev) (h : Nat) : List Nat := steerList (d.reg (R.HALL_STEER h))

/-- The physical column that serves logical column j (R56); the list is in ascending order. -/
def physCol (ret : List Nat) (j : Nat) : Nat := ret.foldl (fun p r => if r ≤ p then p + 1 else p) j

/-- The logical column that physical column p serves, if any. -/
def servedCol (ret : List Nat) (p : Nat) : Option Nat := findIdx 72 (fun j => physCol ret j = p)

/-- A number without its bit r. -/
def dropBit (v r : Nat) : Nat := v % 2 ^ r + v / 2 ^ (r + 1) * 2 ^ r

/-- A number with a 0 put in at bit r. -/
def gapBit (v r : Nat) : Nat := v % 2 ^ r + v / 2 ^ r * 2 ^ (r + 1)

/-- The logical row word of 76 physical bits. -/
def steerIn (ret : List Nat) (raw : BitVec 76) : BitVec 72 :=
  BitVec.ofNat 72 (ret.foldr (fun r v => dropBit v r) raw.toNat)

/-- The physical bits of a logical row word, 0 in retired and spare columns. -/
def steerOut (ret : List Nat) (w : BitVec 72) : BitVec 76 :=
  BitVec.ofNat 76 (ret.foldl gapBit w.toNat)

/-- The physical columns that serve a logical column. -/
def servingMask (ret : List Nat) : BitVec 76 := steerOut ret (BitVec.allOnes 72)

/-! Storage. -/

/-- The physical hall of a logical hall (R21, R472). -/
def Dev.phys (d : Dev) (h : Nat) : Nat :=
  if d.flag R.SEQ_HSUB_V && d.fld R.SEQ_HSUB_HALL = h then 16 else h

def peKey (h row a : Nat) : Nat := (h * 64 + row) * 8192 + a

/-- The physical row word at an address. In the scratch segment an unlisted word is 0 since the clear of R35, or undefined: any
lanes, with the check bits that a write gives them, or after a change of the map any 76 bits (R59). -/
def Dev.peRaw (d : Dev) (h row a : Nat) : BitVec 76 :=
  if a < 0x1F00 then bankGet (fun _ => 0) d.arr.pe (peKey h row a)
  else
    let g := ((if a < 0x1F80 then d.arr.scrGen else d.arr.scrGen1)[h]?).getD 0
    match d.arr.scr.find? (fun p => p.1 = peKey h row a) with
    | some p => p.2
    | none =>
      if g = 0 then 0
      else if d.arr.scrRaw.getLsbD h then
        (Config.freeScratch g (peKey h row a)).append ((Config.freePlane g (peKey h row a)).setWidth 12)
      else steerOut (d.retired h) (rowEncode (Config.freeScratch g (peKey h row a)))

def Dev.setPeRaw (d : Dev) (h row a : Nat) (v : BitVec 76) : Dev :=
  if a < 0x1F00 then { d with arr := { d.arr with pe := bankSet (fun _ => 0) d.arr.pe (peKey h row a) v } }
  else { d with arr := { d.arr with
    scr := bankInsert (d.arr.scr.filter (fun p => p.1 ≠ peKey h row a)) (peKey h row a) v } }

/-- An instruction leaves the scratch segment of a hall undefined (R79); one at LEVEL 1 leaves the half of LEVEL 0 to the routine
that is held (R143, R157). -/
def Dev.looseScratch (d : Dev) (h : Nat) (level : Bool := false) : Dev :=
  let (n, d) := d.fresh
  { d with arr := { d.arr with
      scr := d.arr.scr.filter (fun p => p.1 < peKey h 0 0 || peKey (h + 1) 0 0 ≤ p.1 || (level && p.1 % 8192 < 0x1F80)),
      scrGen := if level then d.arr.scrGen else if hh : h < 17 then d.arr.scrGen.set h (n + 1) hh else d.arr.scrGen,
      scrGen1 := if hh : h < 17 then d.arr.scrGen1.set h (n + 1) hh else d.arr.scrGen1 } }

/-- The scratch words of a hall that no list holds take new values in all their bits, unless they are 0 (R59). -/
def Dev.looseScratchRaw (d : Dev) (h : Nat) : Dev :=
  let (n, d) := d.fresh
  let g (v : Vector Nat 17) : Vector Nat 17 := if hh : h < 17 then (if v[h] = 0 then v else v.set h (n + 1) hh) else v
  { d with arr := { d.arr with scrGen := g d.arr.scrGen, scrGen1 := g d.arr.scrGen1, scrRaw := setBit d.arr.scrRaw h true } }

/-- The latch planes of R34. -/
inductive Plane where
  | x | y | c | act | oow
  | stack (k : Nat)
  | idx (k : Nat)
deriving DecidableEq, Repr

def planeNo : Plane → Nat
  | .x => 0 | .y => 1 | .c => 2 | .act => 3 | .oow => 4
  | .stack k => 8 + k % 8
  | .idx k => 16 + k % 16

/-- The shadow of a plane (R155). -/
def shadowNo (p : Plane) : Nat := 32 + planeNo p

def latchKey (h copy row plane : Nat) : Nat := ((h * 2 + copy) * 64 + row) * 64 + plane

/-- ACT is 1 after the hall's start, every other latch 0 (R35). -/
def latchReset (k : Nat) : BitVec 64 := if k % 64 = 3 then BitVec.allOnes 64 else 0

/-- A latch plane by number. An unlisted X or Y plane is 0 since the hall's reset, or undefined (R83); the undefined value is
the same in both copies, which a fault alone can make differ (R40). -/
def Dev.latchNo (d : Dev) (h copy row n : Nat) : BitVec 64 :=
  if 2 ≤ n then bankGet latchReset d.arr.latch (latchKey h copy row n) else
  let g := (d.arr.xyGen[h]?).getD 0
  match d.arr.xy.find? (fun p => p.1 = latchKey h copy row n) with
  | some p => p.2
  | none => if g = 0 then 0 else Config.freePlane g (latchKey h 0 row n)

def Dev.latch (d : Dev) (h copy row : Nat) (p : Plane) : BitVec 64 := d.latchNo h copy row (planeNo p)

def Dev.setLatchNo (d : Dev) (h copy row n : Nat) (v : BitVec 64) : Dev :=
  if 2 ≤ n then { d with arr := { d.arr with latch := bankSet latchReset d.arr.latch (latchKey h copy row n) v } }
  else { d with arr := { d.arr with
    xy := bankInsert (d.arr.xy.filter (fun p => p.1 ≠ latchKey h copy row n)) (latchKey h copy row n) v } }

def Dev.setLatch (d : Dev) (h copy row : Nat) (p : Plane) (v : BitVec 64) : Dev := d.setLatchNo h copy row (planeNo p) v

/-- Sets a plane in both twin copies. -/
def Dev.setTwin (d : Dev) (h row : Nat) (p : Plane) (v : BitVec 64) : Dev :=
  (d.setLatch h 0 row p v).setLatch h 1 row p v

/-- Gives X and Y of a hall new values that the generation g names: 0 for zero, otherwise free values (R83, R101). -/
def Dev.setXyGen (d : Dev) (h g : Nat) : Dev :=
  { d with arr := { d.arr with
      xy := bankClear d.arr.xy (latchKey h 0 0 0) (latchKey (h + 1) 0 0 0),
      xyGen := if hh : h < 17 then d.arr.xyGen.set h g hh else d.arr.xyGen } }

/-- X and Y are undefined in every PE of a hall after an instruction (R83). -/
def Dev.looseXy (d : Dev) (h : Nat) : Dev :=
  let (n, d) := d.fresh
  d.setXyGen h (n + 1)

/-- The start of a hall's domain clears its memory and resets its latches (R35). -/
def Dev.clearHall (d : Dev) (h : Nat) : Dev :=
  let d := d.setXyGen h 0
  { d with arr := { d.arr with
      pe := bankClear d.arr.pe (peKey h 0 0) (peKey (h + 1) 0 0),
      scr := bankClear d.arr.scr (peKey h 0 0) (peKey (h + 1) 0 0),
      scrGen := if hh : h < 17 then d.arr.scrGen.set h 0 hh else d.arr.scrGen,
      scrGen1 := if hh : h < 17 then d.arr.scrGen1.set h 0 hh else d.arr.scrGen1,
      scrRaw := setBit d.arr.scrRaw h false,
      latch := bankClear d.arr.latch (latchKey h 0 0 0) (latchKey (h + 1) 0 0 0) } }

/-- Row words of a hall that a new map leaves undefined (R59): every bit of them is free; an all-zero word stays. -/
def Dev.looseRows (d : Dev) (h : Nat) : Dev :=
  forEach (bankPart d.arr.pe (peKey h 0 0) (peKey (h + 1) 0 0) ++ bankPart d.arr.scr (peKey h 0 0) (peKey (h + 1) 0 0)) d (fun d e =>
    if e.2 = 0 then d else
    let (n, d) := d.fresh
    let (m, d) := d.fresh
    d.setPeRaw h (e.1 / 8192 % 64) (e.1 % 8192) ((Config.freeWord n).append ((Config.freeWord m).setWidth 12))) |>.looseScratchRaw h

/-! Decoding reads (R51 to R55). -/

/-- The erased logical column of a hall, when erasure mode is on and ECOL names a serving column (R53, R54). -/
def Dev.erased (d : Dev) (h : Nat) : Option Nat :=
  if d.flag (R.HALL_ECCCTL_ERAEN h) then servedCol (d.retired h) (d.fld (R.HALL_ECCCTL_ECOL h)) else none

/-- ECBAD (R54): erasure mode asks for a column that serves nothing. -/
def Dev.checkEcol (d : Dev) (h : Nat) : Dev :=
  if d.flag (R.HALL_ECCCTL_ERAEN h) && d.erased h = none then d.setFlag (R.HALL_ECCSTAT_ECBAD h) true else d

/-- The row word at an address as its decoder sees it. -/
def Dev.peDecode (d : Dev) (h row a : Nat) : Decoded := rowDecode (d.erased h) (steerIn (d.retired h) (d.peRaw h row a))

/-- The 64 lane bits that a decoded read gives. -/
def Dev.peRead (d : Dev) (h row a : Nat) : BitVec 64 := (d.peDecode h row a).word.setWidth 64

/-- The ports of HALLn_ECCLOG. -/
inductive Port where
  | ra | rb | w | stair
deriving DecidableEq, Repr

def portNo : Port → Nat
  | .ra => 0 | .rb => 1 | .w => 2 | .stair => 3

/-- Counts one corrected bit of a physical column under CNTEN (R55). -/
def Dev.countFix (d : Dev) (h p : Nat) : Dev :=
  if d.flag (R.HALL_ECCCTL_CNTEN h) then (d.addFld (R.HALL_ECCSTAT_CTOT h) 1).addFld (R.HALL_CCNT_COUNT h p) 1 else d

/-- The place of a logged correction in the order of R55: port, row, column. -/
def logRank (v : Word) : Nat := bits v.toNat 5 4 * 2 ^ 13 + bits v.toNat 18 13 * 2 ^ 7 + bits v.toNat 12 6

/-- HALLn_ECCLOG takes a correction of a later cycle, or one of the same cycle that comes first in the order of R55. -/
def Dev.logFix (d : Dev) (h row a : Nat) (port : Port) (p : Nat) : Dev :=
  if hh : h < 17 then
    let v : Word := BitVec.ofNat 32 (a * 2 ^ 19 + row * 2 ^ 13 + p * 2 ^ 6 + portNo port * 2 ^ 4 + 1)
    let at_ := d.arr.logCyc[h]
    if at_ < d.arr.cyc || (at_ = d.arr.cyc && logRank v < logRank (d.reg (R.HALL_ECCLOG h))) then
      let d := d.setReg (R.HALL_ECCLOG h) v
      { d with arr := { d.arr with logCyc := d.arr.logCyc.set h d.arr.cyc } }
    else d
  else d

/-- Counts and logs what one decode found (R55): UCNT, the corrected bits, ECCLOG with the lowest physical column. -/
def Dev.logDecode (d : Dev) (h row a : Nat) (port : Port) (r : Decoded) : Dev :=
  if r.bad then d.addFld (R.HALL_ECCSTAT_UCNT h) 1 else
  let ps := r.fixed.map (physCol (d.retired h))
  let d := forEach ps d (fun d p => d.countFix h p)
  match ps with
  | [] => d
  | p :: _ => d.logFix h row a port p

/-- A hall cycle begins, or the cycle with a given number. -/
def Dev.atCyc (d : Dev) (n : Nat) : Dev := { d with arr := { d.arr with cyc := n } }
def Dev.tick (d : Dev) : Dev := d.atCyc (d.arr.cyc + 1)

/-- The word of a report in the layout of HALLn_UPSET with VAL set (R43). -/
def upsetWord (r : UpsetRep) : Word :=
  BitVec.ofNat 32 (2 ^ 31 + r.src.toNat * 2 ^ 28 + bn r.multi * 2 ^ 27 + r.pcol.toNat * 2 ^ 20 + r.row.toNat * 2 ^ 14 + r.addr.toNat)

/-- A report that another PE or source of the same cycle joins (R43). Two uncorrectable words that the ports RA and RB of one row read
in one cycle come from one source, and no PE is named: the model lets them set no MULTI (DESIGN CHOICE, log entry 87). -/
def joinRep (old new : UpsetRep) : UpsetRep :=
  { old with multi := old.multi || new.multi || old.src ≠ new.src || old.row ≠ new.row }

/-- The report of this cycle that a hall has made, if any. -/
def Dev.repNow (d : Dev) (h : HallId) : Option UpsetRep :=
  d.arr.reports.findSome? (fun x => match x with
    | .upset g r c _ => if g = h && c = d.arr.cyc then some r else none
    | .dead _ => none)

/-- HALLn_UPSET takes the first upset since VAL was cleared, and MULTI from its own cycle. -/
def Dev.takeUpset (d : Dev) (h : HallId) (r : UpsetRep) : Dev :=
  if !d.flag (R.HALL_UPSET_VAL h.val) || d.arr.cyc ≤ d.arr.upCyc[h] then
    let d := d.setReg (R.HALL_UPSET h.val) (upsetWord r)
    { d with arr := { d.arr with upCyc := d.arr.upCyc.set h d.arr.cyc } }
  else d

/-- A hall raises an upset (R41, R43): the register takes the first one, and the recovery logic gets one report for each cycle. -/
def Dev.upset (d : Dev) (h : Nat) (r : UpsetRep) (mirror : Option Nat := none) : Dev :=
  if hh : h < 17 then
    match d.repNow ⟨h, hh⟩ with
    | none =>
      let d := d.takeUpset ⟨h, hh⟩ r
      { d with arr := { d.arr with reports := d.arr.reports ++ [.upset ⟨h, hh⟩ r d.arr.cyc mirror] } }
    | some o =>
      let d := if d.flag (R.HALL_UPSET_VAL h) && d.arr.cyc ≠ d.arr.upCyc[h] then d else d.takeUpset ⟨h, hh⟩ (joinRep o r)
      { d with arr := { d.arr with reports := d.arr.reports.map (fun x => match x with
        | .upset g q c m => if g = ⟨h, hh⟩ && c = d.arr.cyc then .upset g (joinRep q r) c m else x
        | .dead g => .dead g) } }
  else d

/-- An uncorrectable row word raises an upset with SRC 0x1 (R41). The spec names no reporting column: PCOL is free. -/
def Dev.upsetWordRead (d : Dev) (h row a : Nat) : Dev :=
  let (n, d) := d.fresh
  d.upset h ⟨1, false, (Config.freeWord n).setWidth 7, BitVec.ofNat 6 row, BitVec.ofNat 13 a⟩

/-- Accounts for one decoded read: the counters, and an upset when the word was uncorrectable and raises one. -/
def Dev.account (d : Dev) (h row a : Nat) (port : Port) (raises : Bool) : Dev :=
  let r := d.peDecode h row a
  let d := d.logDecode h row a port r
  if r.bad && raises then d.upsetWordRead h row a else d

/-- A write through W (R52): the word is read and decoded, the lanes of the mask take their new bits, and the whole word
is encoded and written back. Where the write does not raise an upset an uncorrectable old word is only counted. -/
def Dev.peStore (d : Dev) (raises : Bool) (h row a : Nat) (mask x : BitVec 64) : Dev :=
  let ret := d.retired h
  let r := d.peDecode h row a
  let new := merge mask (r.word.setWidth 64) x
  let raw := merge (servingMask ret) (d.peRaw h row a) (steerOut ret (rowEncode new))
  let d := d.logDecode h row a .w r
  let d := if r.bad && raises then d.upsetWordRead h row a else d
  d.setPeRaw h row a raw

/-- A write of a PE-side micro-op: it raises an upset when some lane keeps its old bit. -/
def Dev.peWrite (d : Dev) (h row a : Nat) (mask x : BitVec 64) : Dev := d.peStore (mask ≠ BitVec.allOnes 64) h row a mask x

/-- A debug write of one row's lanes: encoded, with nothing counted (R170). -/
def Dev.pePut (d : Dev) (h row a : Nat) (x : BitVec 64) : Dev :=
  let ret := d.retired h
  d.setPeRaw h row a (merge (servingMask ret) (d.peRaw h row a) (steerOut ret (rowEncode x)))

end Sys2Proof.Machine
end

