-- ==== Sys2Proof/Machine/Memory.lean ====
section
/-! DEFINITION. Memory by road address: bytes in canonical form, and the words of the gallery and the DRAM with their error
patterns (R2, R183, R186). -/

namespace Sys2Proof.Machine

/-- What an unlisted byte reads as: 0 (DESIGN CHOICE: the spec gives RAM no contents after power-on). -/
def byteReset (_ : Nat) : Byte := 0

/-- One byte of memory. -/
def Dev.byte (d : Dev) (a : Nat) : Byte := bankGet byteReset d.mem a

def Dev.setByte (d : Dev) (a : Nat) (v : Byte) : Dev := { d with mem := bankSet byteReset d.mem a v }

/-- The canonical form of memory. -/
abbrev Memory.wf (m : List Host.Cell) : Prop := BankWf byteReset m

/-- n bytes from an address. -/
def Dev.bytes (d : Dev) (a n : Nat) : List Byte := (List.range n).map (fun i => d.byte (a + i))

def Dev.setBytes (d : Dev) (a : Nat) (l : List Byte) : Dev :=
  forEach l.zipIdx d (fun d p => d.setByte (a + p.2) p.1)

/-- A little-endian word of 4 bytes (R2). -/
def Dev.word32 (d : Dev) (a : Nat) : Word := BitVec.ofNat 32 (leNat (d.bytes a 4))

def Dev.setWord32 (d : Dev) (a : Nat) (v : Word) : Dev := d.setBytes a (leBytes 4 v.toNat)

/-- A little-endian word of 8 bytes. -/
def Dev.word64 (d : Dev) (a : Nat) : BitVec 64 := BitVec.ofNat 64 (leNat (d.bytes a 8))

def Dev.setWord64 (d : Dev) (a : Nat) (v : BitVec 64) : Dev := d.setBytes a (leBytes 8 v.toNat)

end Sys2Proof.Machine
end

