-- ==== Sys2Proof/Machine/Gallery.lean ====
section
/-! DEFINITION. Gallery words with ECC: reads and writes by each kind of access, the error counters and the log (R183 to R187). -/

namespace Sys2Proof.Machine

def galBase : Nat := 0x40000000

def Dev.galErrOf (d : Dev) (i : Nat) : BitVec 72 := bankGet (fun _ => 0) d.galErr i
def Dev.setGalErr (d : Dev) (i : Nat) (e : BitVec 72) : Dev := { d with galErr := bankSet (fun _ => 0) d.galErr i e }

/-- The number of wrong bits of a stored word. -/
def errWeight (e : BitVec 72) : Nat := ((List.range 72).filter e.getLsbD).length

/-- What a read of a stored word finds. -/
inductive EccFind where
  | good | corrected | uncorrectable
deriving DecidableEq, Repr

/-- A SECDED word of the gallery or the DRAM: the data delivered and what the read found (R183). An error of three or more bits
is treated as the open constant says. -/
def secdedRead (beyond : BitVec 72 → Nat) (x : BitVec 64) (e : BitVec 72) : BitVec 64 × EccFind :=
  let raw := x ^^^ e.setWidth 64
  match errWeight e with
  | 0 => (x, .good)
  | 1 => (x, .corrected)
  | 2 => (raw, .uncorrectable)
  | _ =>
    let b := beyond e
    if b = 0 || 73 < b then (raw, .uncorrectable)
    else if b = 73 then (raw, .good)
    else ((raw ^^^ (BitVec.ofNat 72 (2 ^ (b - 1))).setWidth 64), .corrected)

/-- The gallery word of index i (offset / 8) as a read finds it. -/
def Dev.galWord (d : Dev) (i : Nat) : BitVec 64 × EccFind :=
  secdedRead Config.galleryBeyond (d.word64 (galBase + 8 * i)) (d.galErrOf i)

/-- Counts and logs what an access found (R186): UCNT and the data-error event, or CCNT. -/
def Dev.galCount (d : Dev) (i : Nat) (r : EccFind) (reading : Bool) : Dev :=
  match r with
  | .good => d
  | .corrected =>
    if reading then (d.addFld R.GAL_ECCSTAT_CCNT 1).setReg R.GAL_ECCLOG (BitVec.ofNat 32 (2 ^ 31 + i)) else d
  | .uncorrectable =>
    ((d.addFld R.GAL_ECCSTAT_UCNT 1).setReg R.GAL_ECCLOG (BitVec.ofNat 32 (2 ^ 31 + 2 ^ 30 + i))).raise 0x38

/-- A whole-word write replaces the word (R186). -/
def Dev.galPut (d : Dev) (i : Nat) (x : BitVec 64) : Dev := (d.setWord64 (galBase + 8 * i) x).setGalErr i 0

/-- The words that n bytes at gallery offset a touch. -/
def wordsOf (a n : Nat) : List Nat := if n = 0 then [] else (List.range ((a % 8 + n + 7) / 8)).map (fun k => a / 8 + k)

/-- n bytes of the gallery as the reads of their words find them, whether one was uncorrectable, and the counters. -/
def Dev.galRead (d : Dev) (a n : Nat) : List Byte × Bool × Dev :=
  let ws := wordsOf a n
  let all := ws.flatMap (fun i => leBytes 8 (d.galWord i).1.toNat)
  let bad := ws.any (fun i => (d.galWord i).2 == .uncorrectable)
  ((all.drop (a % 8)).take n, bad, forEach ws d (fun d i => d.galCount i (d.galWord i).2 true))

/-- The word with the bytes of l from byte offset a that fall in word i replaced. -/
def mergeWord (i a : Nat) (l : List Byte) (old : BitVec 64) : BitVec 64 :=
  BitVec.ofNat 64 (leNat ((leBytes 8 old.toNat).mapIdx (fun k b =>
    if a ≤ 8 * i + k && 8 * i + k < a + l.length then l.getD (8 * i + k - a) b else b)))

/-- Whether l at offset a covers the whole word i. -/
def coversWord (i a n : Nat) : Bool := a ≤ 8 * i && 8 * i + 8 ≤ a + n

/-- A write of bytes at gallery offset a, word by word. A partial write of an uncorrectable word is not performed when strict
(the road port), and merges into the word as read otherwise (the lead mover); R184, R186. Whether one was refused. -/
def Dev.galWrite (d : Dev) (strict : Bool) (a : Nat) (l : List Byte) : Bool × Dev :=
  (wordsOf a l.length).foldl (fun (r : Bool × Dev) i =>
    let d := r.2
    if coversWord i a l.length then (r.1, d.galPut i (mergeWord i a l 0)) else
    let w := d.galWord i
    let d := d.galCount i w.2 true
    if w.2 == .uncorrectable && strict then (true, d) else (r.1, d.galPut i (mergeWord i a l w.1))) (false, d)

/-- A gallery offset lies in the ordinary gallery, the landing or the secure region (R183): 0, 1, 2; 3 beyond. -/
def galRegion (a : Nat) : Nat :=
  if a < 0x1600000 then 0 else if a < 0x1680000 then 1 else if a < 0x1700000 then 0 else if a < 0x1800000 then 2 else 3

/-- n bytes at offset a lie in one region; the ordinary gallery's two parts are joined by no access (R184). -/
def galInside (a n : Nat) : Bool :=
  galRegion a ≠ 3 && (n = 0 || (galRegion a = galRegion (a + n - 1) &&
    !(a < 0x1600000 && 0x1680000 ≤ a + n - 1)))

end Sys2Proof.Machine
end

