-- ==== Sys2Proof/Machine/SoftFloat.lean ====
section
/-! DEFINITION. Binary floating point by exact arithmetic on dyadic numbers and one rounding (R116, R119, R286). -/

namespace Sys2Proof.Machine

/-- A binary interchange format: its precision in bits and its exponent field's width (R116). -/
structure Fmt where
  p : Nat
  ew : Nat
deriving DecidableEq, Repr

def half : Fmt := ⟨11, 5⟩
def single : Fmt := ⟨24, 8⟩
def double : Fmt := ⟨53, 11⟩

def Fmt.width (f : Fmt) : Nat := f.p + f.ew
def Fmt.bias (f : Fmt) : Nat := 2 ^ (f.ew - 1) - 1
/-- The exponent of the unit of a subnormal: emin − (p − 1). -/
def Fmt.qmin (f : Fmt) : Int := 2 - (f.bias : Int) - (f.p : Int)
/-- The pattern of +∞. -/
def Fmt.inf (f : Fmt) : Nat := (2 ^ f.ew - 1) * 2 ^ (f.p - 1)
/-- The pattern of the largest finite number M. -/
def Fmt.maxFin (f : Fmt) : Nat := f.inf - 1
/-- The canonical quiet NaN (R116, R288). -/
def Fmt.qnan (f : Fmt) : Nat := f.inf + 2 ^ (f.p - 2)
def Fmt.sign (f : Fmt) (s : Bool) : Nat := bn s * 2 ^ (f.width - 1)

inductive RMode where
  | rne | rtz | rdn | rup
deriving DecidableEq, Repr

/-- The rounding mode of a two-bit RM field (R117, R287). -/
def rmodeOf (n : Nat) : RMode :=
  match n % 4 with
  | 0 => .rne | 1 => .rtz | 2 => .rdn | _ => .rup

/-- Exception flags: inexact, underflow, overflow, division by zero, invalid. -/
structure FFlags where
  nx : Bool := false
  uf : Bool := false
  of : Bool := false
  dz : Bool := false
  nv : Bool := false
deriving DecidableEq, Repr

def FFlags.or (a b : FFlags) : FFlags := ⟨a.nx || b.nx, a.uf || b.uf, a.of || b.of, a.dz || b.dz, a.nv || b.nv⟩

/-- An operand: a NaN, an infinity, or (−1)^neg × m × 2^e. -/
inductive FVal where
  | nan (quiet : Bool)
  | inf (neg : Bool)
  | fin (neg : Bool) (m : Nat) (e : Int)
deriving DecidableEq, Repr

/-- The value of a pattern; with daz a subnormal reads as zero of its sign (R120). -/
def unpack (f : Fmt) (daz : Bool) (v : Nat) : FVal :=
  let frac := v % 2 ^ (f.p - 1)
  let ex := v / 2 ^ (f.p - 1) % 2 ^ f.ew
  let neg := v.testBit (f.width - 1)
  if ex = 2 ^ f.ew - 1 then (if frac = 0 then .inf neg else .nan (frac.testBit (f.p - 2)))
  else if ex = 0 then .fin neg (if daz then 0 else frac) f.qmin
  else .fin neg (frac + 2 ^ (f.p - 1)) (f.qmin + ex - 1)

/-- m × 2^e in units of 2^q, rounded in the given mode for a magnitude of the given sign; whether it was inexact. -/
def roundUnits (rm : RMode) (neg : Bool) (m : Nat) (e q : Int) : Nat × Bool :=
  if q ≤ e then (m * 2 ^ (e - q).toNat, false) else
  let sh := (q - e).toNat
  let k := m / 2 ^ sh
  let r := m % 2 ^ sh
  if r = 0 then (k, false) else
  let up := match rm with
    | .rne => decide (2 ^ sh < 2 * r) || (decide (2 * r = 2 ^ sh) && k % 2 = 1)
    | .rtz => false
    | .rdn => neg
    | .rup => !neg
  (k + bn up, true)

/-- Rounds the exact nonzero number (−1)^neg × m × 2^e to the format (R119): overflow, tininess after rounding, underflow,
inexact; with ftz a tiny result is zero of its sign with UF and NX (R120). -/
def roundTo (f : Fmt) (rm : RMode) (ftz : Bool) (neg : Bool) (m : Nat) (e : Int) : Nat × FFlags :=
  let top : Int := (Nat.log2 m : Int) + e
  let q : Int := top + 1 - f.p
  let free := roundUnits rm neg m e q
  let tiny := decide (q < f.qmin) && !(decide (q + 1 = f.qmin) && free.1 = 2 ^ f.p)
  if tiny && ftz then (f.sign neg, { uf := true, nx := true }) else
  let qd := if q < f.qmin then f.qmin else q
  let del := roundUnits rm neg m e qd
  let pat := (qd - f.qmin).toNat * 2 ^ (f.p - 1) + del.1
  if f.inf ≤ pat then
    let big := match rm with
      | .rne => f.inf
      | .rtz => f.maxFin
      | .rdn => if neg then f.inf else f.maxFin
      | .rup => if neg then f.maxFin else f.inf
    (f.sign neg + big, { of := true, nx := true })
  else (f.sign neg + pat, { nx := del.2, uf := tiny && del.2 })

def canonNan (f : Fmt) (inv : Bool) : Nat × FFlags := (f.qnan, { nv := inv })

/-- The sign of an exact zero sum of operands of opposite sign (R119). -/
def zeroSum (f : Fmt) (rm : RMode) : Nat × FFlags := (f.sign (rm == .rdn), {})

/-- The exact sum of two finite numbers, rounded once. A sum of two zeros of one sign keeps the sign. -/
def addFin (f : Fmt) (rm : RMode) (ftz : Bool) (s1 : Bool) (m1 : Nat) (e1 : Int) (s2 : Bool) (m2 : Nat) (e2 : Int) : Nat × FFlags :=
  let e := min e1 e2
  let v (s : Bool) (m : Nat) (x : Int) : Int := (if s then -1 else 1) * ((m * 2 ^ (x - e).toNat : Nat) : Int)
  let t := v s1 m1 e1 + v s2 m2 e2
  if t = 0 then (if m1 = 0 && m2 = 0 && s1 == s2 then (f.sign s1, {}) else zeroSum f rm)
  else roundTo f rm ftz (decide (t < 0)) t.natAbs e

def fpAdd (f : Fmt) (rm : RMode) (ftz daz : Bool) (a b : Nat) : Nat × FFlags :=
  match unpack f daz a, unpack f daz b with
  | .nan q, .nan q' => canonNan f (!(q && q'))
  | .nan q, _ => canonNan f (!q)
  | _, .nan q => canonNan f (!q)
  | .inf s, .inf t => if s == t then (f.sign s + f.inf, {}) else canonNan f true
  | .inf s, _ => (f.sign s + f.inf, {})
  | _, .inf s => (f.sign s + f.inf, {})
  | .fin s m e, .fin t n x => addFin f rm ftz s m e t n x

/-- The pattern with its sign inverted. -/
def fpFlip (f : Fmt) (a : Nat) : Nat := if a.testBit (f.width - 1) then a - 2 ^ (f.width - 1) else a + 2 ^ (f.width - 1)

def fpSub (f : Fmt) (rm : RMode) (ftz daz : Bool) (a b : Nat) : Nat × FFlags := fpAdd f rm ftz daz a (fpFlip f b)

def fpMul (f : Fmt) (rm : RMode) (ftz daz : Bool) (a b : Nat) : Nat × FFlags :=
  match unpack f daz a, unpack f daz b with
  | .nan q, .nan q' => canonNan f (!(q && q'))
  | .nan q, _ => canonNan f (!q)
  | _, .nan q => canonNan f (!q)
  | .inf s, .inf t => (f.sign (s != t) + f.inf, {})
  | .inf s, .fin t m _ => if m = 0 then canonNan f true else (f.sign (s != t) + f.inf, {})
  | .fin t m _, .inf s => if m = 0 then canonNan f true else (f.sign (s != t) + f.inf, {})
  | .fin s m e, .fin t n x =>
    if m * n = 0 then (f.sign (s != t), {}) else roundTo f rm ftz (s != t) (m * n) (e + x)

/-- a × b + c with one rounding (R99); a product of 0 and ∞ is invalid whatever the addend (R121). -/
def fpFma (f : Fmt) (rm : RMode) (ftz daz : Bool) (a b c : Nat) : Nat × FFlags :=
  let x := unpack f daz a
  let y := unpack f daz b
  let z := unpack f daz c
  let snan : FVal → Bool := fun v => v == .nan false
  let isNan : FVal → Bool := fun v => v == .nan true || v == .nan false
  let zeroInf := match x, y with
    | .inf _, .fin _ m _ => m = 0
    | .fin _ m _, .inf _ => m = 0
    | _, _ => false
  if zeroInf || snan x || snan y || snan z then canonNan f true
  else if isNan x || isNan y || isNan z then canonNan f false
  else match x, y, z with
    | .fin s m e, .fin t n u, .fin v k w => addFin f rm ftz (s != t) (m * n) (e + u) v k w
    | .fin _ _ _, .fin _ _ _, .inf v => (f.sign v + f.inf, {})
    | .inf s, .inf t, .inf v => if (s != t) == v then (f.sign v + f.inf, {}) else canonNan f true
    | .inf s, .fin t _ _, .inf v => if (s != t) == v then (f.sign v + f.inf, {}) else canonNan f true
    | .fin s _ _, .inf t, .inf v => if (s != t) == v then (f.sign v + f.inf, {}) else canonNan f true
    | .inf s, .inf t, _ => (f.sign (s != t) + f.inf, {})
    | .inf s, .fin t _ _, _ => (f.sign (s != t) + f.inf, {})
    | .fin s _ _, .inf t, _ => (f.sign (s != t) + f.inf, {})
    | _, _, _ => canonNan f false

/-- The order of two numbers, −0 and +0 equal; none when either is a NaN. -/
def fpCompare (f : Fmt) (daz : Bool) (a b : Nat) : Option Ordering :=
  let val (s : Bool) (m : Nat) : Int := if s then -(m : Int) else (m : Int)
  match unpack f daz a, unpack f daz b with
  | .nan _, _ => none
  | _, .nan _ => none
  | .inf s, .inf t => some (compare (val s 1) (val t 1))
  | .inf s, _ => some (if s then .lt else .gt)
  | _, .inf s => some (if s then .gt else .lt)
  | .fin s m e, .fin t n x =>
    let q := min e x
    some (compare (val s (m * 2 ^ (e - q).toNat)) (val t (n * 2 ^ (x - q).toNat)))

def isSnan (f : Fmt) (a : Nat) : Bool := unpack f false a == .nan false
def isNan (f : Fmt) (a : Nat) : Bool := unpack f false a == .nan false || unpack f false a == .nan true

/-- Compare for equality: quiet, a signalling NaN is invalid (R121). -/
def fpEq (f : Fmt) (daz : Bool) (a b : Nat) : Bool × FFlags :=
  (fpCompare f daz a b == some .eq, { nv := isSnan f a || isSnan f b })

/-- Less than, and less or equal: any NaN is invalid (R121). -/
def fpLt (f : Fmt) (daz : Bool) (a b : Nat) : Bool × FFlags :=
  (fpCompare f daz a b == some .lt, { nv := isNan f a || isNan f b })
def fpLe (f : Fmt) (daz : Bool) (a b : Nat) : Bool × FFlags :=
  (fpCompare f daz a b == some .lt || fpCompare f daz a b == some .eq, { nv := isNan f a || isNan f b })

/-- Conversion between formats. -/
def fpConvert (src dst : Fmt) (rm : RMode) (ftz daz : Bool) (a : Nat) : Nat × FFlags :=
  match unpack src daz a with
  | .nan q => canonNan dst (!q)
  | .inf s => (dst.sign s + dst.inf, {})
  | .fin s m e => if m = 0 then (dst.sign s, {}) else roundTo dst rm ftz s m e

/-- Conversion from an integer. -/
def fpOfInt (f : Fmt) (rm : RMode) (x : Int) : Nat × FFlags :=
  if x = 0 then (0, {}) else roundTo f rm false (decide (x < 0)) x.natAbs 0

/-- Conversion to an integer between lo and hi: out of range gives the nearer bound with NV, a NaN gives 0 with NV (R121). -/
def fpToInt (f : Fmt) (rm : RMode) (daz : Bool) (lo hi : Int) (nanResult : Int) (a : Nat) : Int × FFlags :=
  match unpack f daz a with
  | .nan _ => (nanResult, { nv := true })
  | .inf s => (if s then lo else hi, { nv := true })
  | .fin s m e =>
    let r := roundUnits rm s m e 0
    let v : Int := if s then -(r.1 : Int) else (r.1 : Int)
    if hi < v then (hi, { nv := true }) else if v < lo then (lo, { nv := true }) else (v, { nx := r.2 })

end Sys2Proof.Machine
end

