-- ==== Sys2Proof/Machine/Lanes.lean ====
section
/-! DEFINITION. What each array instruction computes in one PE: functions of the field values (R85 to R92, R107 to R129). -/

namespace Sys2Proof.Machine

/-- The inputs of one PE: the widths of FD, FA and FB, the values of FA and FB, FD before, and C. -/
structure LaneIn where
  wd : Nat
  wa : Nat
  wb : Nat
  a : Nat
  b : Nat
  d : Nat
  c : Bool
deriving DecidableEq, Repr

/-- What one PE gets: FD, and the carry out when the instruction defines one. -/
structure LaneOut where
  d : Nat
  c : Option Bool := none
deriving DecidableEq, Repr

/-! Moves and logic (R85, R86). -/

def laneMov (i : LaneIn) : LaneOut := ⟨i.a % 2 ^ i.wd, none⟩
def laneMovs (i : LaneIn) : LaneOut := ⟨wrapInt i.wd (sval i.wa i.a), none⟩
def laneNot (i : LaneIn) : LaneOut := ⟨2 ^ i.wd - 1 - i.a % 2 ^ i.wd, none⟩
def laneAnd (i : LaneIn) : LaneOut := ⟨i.a &&& i.b, none⟩
def laneOr (i : LaneIn) : LaneOut := ⟨i.a ||| i.b, none⟩
def laneXor (i : LaneIn) : LaneOut := ⟨i.a ^^^ i.b, none⟩
def laneAndn (i : LaneIn) : LaneOut := ⟨i.a &&& (2 ^ i.wd - 1 - i.b % 2 ^ i.wd), none⟩
def laneSet (i : LaneIn) : LaneOut := ⟨2 ^ i.wd - 1, none⟩
def laneClr (_ : LaneIn) : LaneOut := ⟨0, none⟩

/-! Sums and differences with their carry out (R107). -/

def laneSum (i : LaneIn) (x cin : Nat) : LaneOut :=
  ⟨(i.a + x + cin) % 2 ^ i.wd, some (decide (2 ^ i.wd ≤ i.a + x + cin))⟩
def laneAdd (i : LaneIn) : LaneOut := laneSum i i.b 0
def laneAdc (i : LaneIn) : LaneOut := laneSum i i.b (bn i.c)
def laneSub (i : LaneIn) : LaneOut := laneSum i (2 ^ i.wd - 1 - i.b) 1
def laneSbc (i : LaneIn) : LaneOut := laneSum i (2 ^ i.wd - 1 - i.b) (bn i.c)
def laneNeg (i : LaneIn) : LaneOut := ⟨(2 ^ i.wd - i.a) % 2 ^ i.wd, some (decide (i.a = 0))⟩

/-! Saturating forms, compares, minimum and maximum (R109, R110). -/

/-- The w-bit pattern of x clamped to the signed range (R109). -/
def clampSigned (w : Nat) (x : Int) : Nat :=
  wrapInt w (max (-(2 ^ (w - 1) : Nat)) (min ((2 ^ (w - 1) : Nat) - 1) x))

def laneAddsu (i : LaneIn) : LaneOut := ⟨min (2 ^ i.wd - 1) (i.a + i.b), none⟩
def laneSubsu (i : LaneIn) : LaneOut := ⟨i.a - i.b, none⟩
def laneAddss (i : LaneIn) : LaneOut := ⟨clampSigned i.wd (sval i.wd i.a + sval i.wd i.b), none⟩
def laneSubss (i : LaneIn) : LaneOut := ⟨clampSigned i.wd (sval i.wd i.a - sval i.wd i.b), none⟩
def laneCmpeq (i : LaneIn) : LaneOut := ⟨bn (decide (i.a = i.b)), none⟩
def laneCmpltu (i : LaneIn) : LaneOut := ⟨bn (decide (i.a < i.b)), none⟩
def laneCmplts (i : LaneIn) : LaneOut := ⟨bn (decide (sval i.wa i.a < sval i.wb i.b)), none⟩
def laneMinu (i : LaneIn) : LaneOut := ⟨if i.b < i.a then i.b else i.a, none⟩
def laneMaxu (i : LaneIn) : LaneOut := ⟨if i.a < i.b then i.b else i.a, none⟩
def laneMins (i : LaneIn) : LaneOut := ⟨if sval i.wd i.b < sval i.wd i.a then i.b else i.a, none⟩
def laneMaxs (i : LaneIn) : LaneOut := ⟨if sval i.wd i.a < sval i.wd i.b then i.b else i.a, none⟩

/-! Multiplication and the division step (R87, R88, R111, R113). -/

def laneMulu (i : LaneIn) : LaneOut := ⟨i.a * i.b % 2 ^ i.wd, none⟩
def laneMuls (i : LaneIn) : LaneOut := ⟨wrapInt i.wd (sval i.wa i.a * sval i.wb i.b), none⟩

/-- DSTEP (R88): the new remainder FD and the new quotient register FB. -/
def laneDstep (i : LaneIn) : Nat × Nat :=
  let t := 2 * i.d + bn (i.b.testBit (i.wb - 1))
  let q := 2 * i.b % 2 ^ i.wb
  if i.a ≤ t then ((t - i.a) % 2 ^ i.wd, q + (1 - q % 2)) else (t % 2 ^ i.wd, q - q % 2)

/-! Shifts by a count k (R89). -/

def laneShl (k : Nat) (i : LaneIn) : LaneOut := ⟨if i.wd ≤ k then 0 else i.a * 2 ^ k % 2 ^ i.wd, none⟩
def laneShru (k : Nat) (i : LaneIn) : LaneOut := ⟨if i.wd ≤ k then 0 else i.a / 2 ^ k, none⟩
def laneShrs (k : Nat) (i : LaneIn) : LaneOut := ⟨wrapInt i.wd (sval i.wd i.a / (2 ^ (min k i.wd) : Nat)), none⟩
def laneRol (k : Nat) (i : LaneIn) : LaneOut :=
  let r := k % i.wd
  ⟨(i.a * 2 ^ r + i.a / 2 ^ (i.wd - r)) % 2 ^ i.wd, none⟩

/-! Floating point (R99, R117 to R123). -/

/-- The captured SEQ_FPCTL of an instruction (R117). -/
structure FpCtl where
  flen : Bool
  flagAdr : Nat
  trap : Bool
  fmask : Nat
  daz : Bool
  ftz : Bool
  rm : RMode
deriving DecidableEq, Repr

def fpCtlOf (w : Word) : FpCtl :=
  ⟨w.getLsbD 31, bits w.toNat 28 16, w.getLsbD 9, bits w.toNat 7 4, w.getLsbD 3, w.getLsbD 2, rmodeOf (bits w.toNat 1 0)⟩

/-- The flags as the four bits of a flag field: NX, UF, OF, NV (R117). -/
def flagBits (f : FFlags) : Nat := bn f.nx + 2 * bn f.uf + 4 * bn f.of + 8 * bn f.nv

def laneFadd (f : Fmt) (k : FpCtl) (i : LaneIn) : Nat × FFlags := fpAdd f k.rm k.ftz k.daz i.a i.b
def laneFsub (f : Fmt) (k : FpCtl) (i : LaneIn) : Nat × FFlags := fpSub f k.rm k.ftz k.daz i.a i.b
def laneFmul (f : Fmt) (k : FpCtl) (i : LaneIn) : Nat × FFlags := fpMul f k.rm k.ftz k.daz i.a i.b
def laneFma (f : Fmt) (k : FpCtl) (i : LaneIn) : Nat × FFlags := fpFma f k.rm k.ftz k.daz i.a i.b i.d
def laneFceq (f : Fmt) (k : FpCtl) (i : LaneIn) : Nat × FFlags := let r := fpEq f k.daz i.a i.b; (bn r.1, r.2)
def laneFclt (f : Fmt) (k : FpCtl) (i : LaneIn) : Nat × FFlags := let r := fpLt f k.daz i.a i.b; (bn r.1, r.2)
def laneFcle (f : Fmt) (k : FpCtl) (i : LaneIn) : Nat × FFlags := let r := fpLe f k.daz i.a i.b; (bn r.1, r.2)
def laneFcvt (src dst : Fmt) (k : FpCtl) (i : LaneIn) : Nat × FFlags := fpConvert src dst k.rm k.ftz k.daz i.a
def laneFcvtFromInt (f : Fmt) (k : FpCtl) (i : LaneIn) : Nat × FFlags := fpOfInt f k.rm (sval i.wa i.a)
def laneFcvtToInt (f : Fmt) (k : FpCtl) (i : LaneIn) : Nat × FFlags :=
  let r := fpToInt f k.rm k.daz (-(2 ^ (i.wd - 1) : Nat)) ((2 ^ (i.wd - 1) : Nat) - 1) 0 i.a
  (wrapInt i.wd r.1, r.2)

/-- The array floating-point function of an opcode 0x58 to 0x6B (R99). -/
def laneFp (opc : Nat) (k : FpCtl) (i : LaneIn) : Nat × FFlags :=
  match opc with
  | 0x58 => laneFadd half k i | 0x59 => laneFsub half k i | 0x5A => laneFmul half k i | 0x5B => laneFma half k i
  | 0x5C => laneFceq half k i | 0x5D => laneFclt half k i | 0x5E => laneFcle half k i
  | 0x5F => laneFcvt half single k i
  | 0x60 => laneFadd single k i | 0x61 => laneFsub single k i | 0x62 => laneFmul single k i | 0x63 => laneFma single k i
  | 0x64 => laneFceq single k i | 0x65 => laneFclt single k i | 0x66 => laneFcle single k i
  | 0x67 => laneFcvt single half k i
  | 0x68 => laneFcvtFromInt half k i | 0x69 => laneFcvtFromInt single k i
  | 0x6A => laneFcvtToInt half k i | _ => laneFcvtToInt single k i

/-- The integer function of an opcode that writes FD from FA, FB, FD and C of the same PE (R85). -/
def laneInt (opc k : Nat) (i : LaneIn) : LaneOut :=
  match opc with
  | 0x00 => laneMov i | 0x01 => laneNot i | 0x02 => laneAnd i | 0x03 => laneOr i | 0x04 => laneXor i | 0x05 => laneAndn i
  | 0x06 => laneSet i | 0x07 => laneClr i | 0x08 => laneMovs i
  | 0x10 => laneAdd i | 0x11 => laneAdc i | 0x12 => laneSub i | 0x13 => laneSbc i
  | 0x14 => laneAddsu i | 0x15 => laneAddss i | 0x16 => laneSubsu i | 0x17 => laneSubss i | 0x18 => laneNeg i
  | 0x19 => laneCmpeq i | 0x1A => laneCmpltu i | 0x1B => laneCmplts i
  | 0x1C => laneMinu i | 0x1D => laneMaxu i | 0x1E => laneMins i | 0x1F => laneMaxs i
  | 0x20 => laneMulu i | 0x21 => laneMuls i
  | 0x28 | 0x2C => laneShl k i | 0x29 | 0x2D => laneShru k i | 0x2A | 0x2E => laneShrs k i | 0x2B | 0x2F => laneRol k i
  | 0x38 => ⟨if i.b = 1 then i.a else i.d, none⟩
  | 0x39 => ⟨if i.b = 0 then i.a else i.d, none⟩
  | _ => laneMov i

end Sys2Proof.Machine
end

