-- ==== Sys2Proof/Machine/ArrayForms.lean ====
section
/-! DEFINITION. The forms of the array instructions: descriptors, slots, width rules, overlap, cost (R76 to R82, R85, R99). -/

namespace Sys2Proof.Machine

/-! Stream configuration (R19, R62). -/

/-- The number of streams for a value of SPLIT (R171). -/
def streamsOf (split : Nat) : Nat := if split = 1 then 2 else if split = 2 then 4 else 1

def Dev.numStreams (d : Dev) : Nat := streamsOf (d.fld R.SEQ_CTRL_SPLIT)

/-- Halls per stream. -/
def Dev.perStream (d : Dev) : Nat := 16 / d.numStreams

/-- The logical halls of stream s, from west to east. -/
def Dev.streamHalls (d : Dev) (s : Nat) : List Nat := (List.range d.perStream).map (fun i => s * d.perStream + i)

/-- The stream that a logical hall belongs to. -/
def Dev.streamOf (d : Dev) (h : Nat) : Nat := h / d.perStream

/-- The logical hall that a physical hall serves, if any (R21). -/
def Dev.logicalOf (d : Dev) (p : Nat) : Option Nat := findIdx 16 (fun h => d.phys h = p)

/-- Whether core c owns a stream: stream c, in a configuration that has it (R19). -/
def Dev.ownsStream (d : Dev) (c : CoreId) : Bool := c.val < d.numStreams

def Dev.st (d : Dev) (s : StreamId) : Strm := d.arr.strm[s]

def Dev.setSt (d : Dev) (s : StreamId) (x : Strm) : Dev :=
  { d with arr := { d.arr with strm := d.arr.strm.set s x } }

def Dev.modSt (d : Dev) (s : StreamId) (f : Strm → Strm) : Dev := d.setSt s (f (d.st s))

def Dev.hq (d : Dev) (h : LHall) : HallQ := d.arr.hallq[h]

def Dev.setHq (d : Dev) (h : LHall) (x : HallQ) : Dev :=
  { d with arr := { d.arr with hallq := d.arr.hallq.set h x } }

def Dev.modHq (d : Dev) (h : LHall) (f : HallQ → HallQ) : Dev := d.setHq h (f (d.hq h))

/-- Applies f to each logical hall of a stream. -/
def Dev.forHalls (d : Dev) (s : Nat) (f : Dev → LHall → Dev) : Dev :=
  forEach (d.streamHalls s) d (fun d h => if hh : h < 16 then f d ⟨h, hh⟩ else d)

def Dev.stream? (d : Dev) (s : Nat) : Option StreamId := if h : s < 4 then (if s < d.numStreams then some ⟨s, h⟩ else none) else none

/-! Descriptors (R76 to R80). -/

def descWidth (w0 : Word) : Nat := bits w0.toNat 20 15 + 1
def descDown (w0 : Word) : Bool := w0.getLsbD 13
def descBase (w0 : Word) : Nat := bits w0.toNat 12 0
def descInv (w0 : Word) : Bool := w0.getLsbD 31
def descTlen (w1 : Word) : Nat := bits w1.toNat 12 0

/-- A descriptor is invalid (R78). -/
def descInvalid (w0 w1 : Word) : Bool :=
  let base := descBase w0
  let wm1 := descWidth w0 - 1
  let tlen := descTlen w1
  (!descDown w0 && 0x1EFF < base + wm1) || (descDown w0 && (0x1EFF < base || base < wm1)) || 4096 < tlen ||
    (tlen ≠ 0 && descDown w0) || (tlen ≠ 0 && 0x1EFF < base + 2 * tlen - 1)

/-- What AFD stores (R76, R77): the defined bits of the two words, with INV as the sequencer finds it. -/
def descLoad (w0 w1 : Word) : Word × Word :=
  let a := w0 &&& 0x001FBFFF
  let b := w1 &&& 0x00001FFF
  (if descInvalid a b then a ||| 0x80000000 else a, b)

/-- The addresses of a field's bits, bit 0 first (R80). -/
def fieldAddrs (w0 : Word) : List Nat :=
  (List.range (descWidth w0)).map (fun i => if descDown w0 then descBase w0 - i else descBase w0 + i)

/-- The interval of addresses that a field covers. -/
def fieldLow (w0 : Word) : Nat := if descDown w0 then descBase w0 - (descWidth w0 - 1) else descBase w0
def fieldHigh (w0 : Word) : Nat := if descDown w0 then descBase w0 else descBase w0 + (descWidth w0 - 1)

/-- Two intervals of addresses share an address. -/
def shareAddr (a b : Nat × Nat) : Bool := a.1 ≤ b.2 && b.1 ≤ a.2

def fieldSpan (w0 : Word) : Nat × Nat := (fieldLow w0, fieldHigh w0)

/-- The table region: the window and its mirror (R96). -/
def tableSpan (w0 w1 : Word) : Nat × Nat := (descBase w0, descBase w0 + 2 * descTlen w1 - 1)

/-- Identical fields (R81). -/
def sameField (a b : Word) : Bool := (a &&& 0x001FBFFF) = (b &&& 0x001FBFFF)

/-- A written field against a source field (R81): disjoint, or identical where that is allowed. -/
def fieldsClash (inPlace : Bool) (d s : Word) : Bool :=
  if sameField d s then !inPlace else shareAddr (fieldSpan d) (fieldSpan s)

/-! Slots (R73, R85). -/

/-- What an instruction reads a slot as. -/
inductive SlotUse where
  | unused | desc
  /-- P1 to P7 (R97). -/
  | pred
  /-- D0 to D15. -/
  | dreg
  | chan | mode
  /-- MILESTONE's options: bits 4 to 1 must be 0 (R101). -/
  | opt
  | count
deriving DecidableEq, Repr

structure Slots where
  d : SlotUse
  a : SlotUse
  b : SlotUse
deriving DecidableEq, Repr

/-- The slots of a vendor opcode (R85, R99); none for a reserved opcode. -/
def vendorSlots (opc : Nat) : Option Slots :=
  if opc ∈ [0x00, 0x01, 0x08, 0x18] then some ⟨.desc, .desc, .unused⟩
  else if (0x02 ≤ opc ∧ opc ≤ 0x05) ∨ (0x10 ≤ opc ∧ opc ≤ 0x17) ∨ (0x19 ≤ opc ∧ opc ≤ 0x22) then some ⟨.desc, .desc, .desc⟩
  else if opc ∈ [0x06, 0x07] then some ⟨.desc, .unused, .unused⟩
  else if 0x28 ≤ opc ∧ opc ≤ 0x2F then some ⟨.desc, .desc, .count⟩
  else if 0x30 ≤ opc ∧ opc ≤ 0x37 then some ⟨.desc, .desc, .unused⟩
  else if opc ∈ [0x38, 0x39, 0x48] then some ⟨.desc, .desc, .desc⟩
  else if opc ∈ [0x40, 0x44, 0x45] then some ⟨.unused, .unused, .unused⟩
  else if 0x41 ≤ opc ∧ opc ≤ 0x43 then some ⟨.unused, .desc, .unused⟩
  else if opc = 0x4C then some ⟨.count, .dreg, .dreg⟩
  else if opc ∈ [0x50, 0x51] then some ⟨.pred, .desc, .unused⟩
  else if opc ∈ [0x52, 0x53] then some ⟨.dreg, .desc, .unused⟩
  else if (0x58 ≤ opc ∧ opc ≤ 0x5E) ∨ (0x60 ≤ opc ∧ opc ≤ 0x66) then some ⟨.desc, .desc, .desc⟩
  else if opc = 0x5F ∨ (0x67 ≤ opc ∧ opc ≤ 0x6B) then some ⟨.desc, .desc, .unused⟩
  else if opc = 0x6C then some ⟨.desc, .unused, .chan⟩
  else if opc = 0x6D then some ⟨.unused, .desc, .chan⟩
  else if opc = 0x6E then some ⟨.opt, .unused, .unused⟩
  else if opc = 0x6F then some ⟨.mode, .unused, .unused⟩
  else none

/-- The slots of a customer opcode: descriptors where its decode entry marks them, plain numbers elsewhere (R105). -/
def customerSlots (cdt : Word) : Slots :=
  let u (b : Bool) : SlotUse := if b then .desc else .count
  ⟨u (cdt.getLsbD 27), u (cdt.getLsbD 26), u (cdt.getLsbD 25)⟩

/-- A value is out of range for a register, channel or mode slot (fault 0x04). -/
def slotRange (u : SlotUse) (v : Nat) : Bool :=
  match u with
  | .pred => v = 0 || 7 < v
  | .dreg => 15 < v
  | .chan => 7 < v
  | .mode => 1 < v
  | _ => false

/-- The width rules of R85 and R99, and R95's bound on wa; true when they are met. -/
def widthsOk (opc wd wa wb : Nat) : Bool :=
  match opc with
  | 0x01 | 0x18 => wa = wd
  | 0x02 | 0x03 | 0x04 | 0x05 | 0x10 | 0x11 | 0x12 | 0x13 | 0x14 | 0x15 | 0x16 | 0x17 | 0x1C | 0x1D | 0x1E | 0x1F =>
    wa = wd && wb = wd
  | 0x19 | 0x1A | 0x1B => wa = wb && wd = 1
  | 0x20 | 0x21 => wd ≤ wa + wb
  | 0x22 => wd = wa + 1
  | 0x28 | 0x29 | 0x2A | 0x2B | 0x2C | 0x2D | 0x2E | 0x2F | 0x30 | 0x31 | 0x32 | 0x33 | 0x34 | 0x35 | 0x36 | 0x37 => wa = wd
  | 0x38 | 0x39 => wa = wd && wb = 1
  | 0x41 | 0x42 | 0x43 => wa = 1
  | 0x48 => wa ≤ 12
  | 0x58 | 0x59 | 0x5A | 0x5B => wd = 16 && wa = 16 && wb = 16
  | 0x60 | 0x61 | 0x62 | 0x63 => wd = 32 && wa = 32 && wb = 32
  | 0x5C | 0x5D | 0x5E => wd = 1 && wa = 16 && wb = 16
  | 0x64 | 0x65 | 0x66 => wd = 1 && wa = 32 && wb = 32
  | 0x5F => wd = 32 && wa = 16
  | 0x67 => wd = 16 && wa = 32
  | 0x68 => wd = 16 && 2 ≤ wa
  | 0x69 => wd = 32 && 2 ≤ wa
  | 0x6A => 2 ≤ wd && wa = 16
  | 0x6B => 2 ≤ wd && wa = 32
  | _ => true

/-- Instructions whose In place column reads yes (R85, R99). -/
def inPlaceOk (opc : Nat) : Bool :=
  !(opc ∈ [0x19, 0x1A, 0x1B, 0x20, 0x21, 0x22, 0x48, 0x5B, 0x63] || (0x5C ≤ opc && opc ≤ 0x5F) || (0x64 ≤ opc && opc ≤ 0x6B))

def isFp (opc : Nat) : Bool := 0x58 ≤ opc && opc ≤ 0x6B
def isCustomer (opc : Nat) : Bool := 0x70 ≤ opc

/-- The instruction writes the field named by SD: it has a destination descriptor. -/
def writesFd (opc : Nat) (cdt : Word) : Bool :=
  if isCustomer opc then cdt.getLsbD 24 else ((vendorSlots opc).map (fun s => s.d == .desc)).getD false

/-- The instruction writes the field named by SB: DSTEP, or a customer opcode with WFB. -/
def writesFb (opc : Nat) (cdt : Word) : Bool := if isCustomer opc then cdt.getLsbD 23 else opc = 0x22

def jobSlots (opc : Nat) (cdt : Word) : Option Slots := if isCustomer opc then some (customerSlots cdt) else vendorSlots opc

/-- The fields that a job writes (R200), its floating-point flag field among them. -/
def Job.writes (j : Job) : List (Nat × Nat) :=
  let o := j.opc.toNat
  (if writesFd o j.cdt then [fieldSpan j.dD.1] else []) ++ (if writesFb o j.cdt then [fieldSpan j.dB.1] else []) ++
    (if isFp o && (fpCtlOf j.fpctl).flen then [((fpCtlOf j.fpctl).flagAdr, (fpCtlOf j.fpctl).flagAdr + 3)] else [])

/-- The fields that a job reads, its table region among them: LOOKUP's, and that of a customer routine whose SB names a table (R96,
R142). A customer routine may read the field of SD too unless its decode entry says that it writes it (R105). -/
def Job.reads (j : Job) : List (Nat × Nat) :=
  let o := j.opc.toNat
  match jobSlots o j.cdt with
  | none => []
  | some s =>
    (if s.a == .desc then [fieldSpan j.dA.1] else []) ++
      (if s.b == .desc then [if o = 0x48 then tableSpan j.dB.1 j.dB.2 else fieldSpan j.dB.1] else []) ++
      (if isCustomer o && s.b == .desc && descTlen j.dB.2 ≠ 0 then [tableSpan j.dB.1 j.dB.2] else []) ++
      (if o ∈ [0x22, 0x38, 0x39, 0x5B, 0x63] || (isCustomer o && s.d == .desc && !writesFd o j.cdt) then [fieldSpan j.dD.1] else []) ++
      (if isFp o && (fpCtlOf j.fpctl).flen then [((fpCtlOf j.fpctl).flagAdr, (fpCtlOf j.fpctl).flagAdr + 3)] else [])

/-- The instruction reads SB's field as a table (R94, R96, R142): LOOKUP, or a routine run microword by microword whose slot SB is a
descriptor. -/
def Job.readsTable (micro : Bool) (j : Job) : Bool :=
  descTlen j.dB.2 ≠ 0 && (j.opc = 0x48 || (micro && ((jobSlots j.opc.toNat j.cdt).map (fun s => s.b == .desc)).getD false))

def spansMeet (l m : List (Nat × Nat)) : Bool := l.any (fun a => m.any (shareAddr a))

/-- The hall cycles of a vendor instruction (R85, R99); g counts the multiplier groups performed by an early-exit MULU,
none in constant-time mode (R87). -/
def vendorCost (opc wd wa wb : Nat) (g : Option Nat) : Nat :=
  match opc with
  | 0x10 | 0x11 | 0x12 | 0x13 | 0x18 => wd + 2
  | 0x14 | 0x15 | 0x16 | 0x17 | 0x1C | 0x1D | 0x1E | 0x1F => 2 * wd + 3
  | 0x19 | 0x1A | 0x1B => wa + 2
  | 0x20 =>
    match g with
    | some g => wb + wd + 2 + min wb (8 * g) * (wa + 2)
    | none => wb * (wa + 2) + wd + 2
  | 0x21 => wb * (wa + 2) + wd + 2
  | 0x22 => wb + 2 * wd + 4
  | 0x30 | 0x31 | 0x32 | 0x33 | 0x34 | 0x35 | 0x36 | 0x37 | 0x38 | 0x39 => wd + 2
  | 0x40 | 0x44 | 0x45 => 1
  | 0x41 | 0x42 | 0x43 => 2
  | 0x48 => wa + wd + 3
  | 0x4C | 0x6F => 0
  | 0x50 | 0x51 | 0x52 | 0x53 => wa + 2
  | 0x58 | 0x59 => 184
  | 0x60 | 0x61 => 396
  | 0x5A => 212
  | 0x62 => 716
  | 0x5B => 368
  | 0x63 => 1148
  | 0x5C | 0x5D | 0x5E => 26
  | 0x64 | 0x65 | 0x66 => 44
  | 0x5F => 40
  | 0x67 => 96
  | 0x68 => 7 * wa + 40
  | 0x69 => 7 * wa + 60
  | 0x6A => 6 * wd + 40
  | 0x6B => 7 * wd + 56
  | 0x6C => 8 * wd + 4
  | 0x6D => 8 * wa + 4
  | 0x6E => 12
  | _ => wd + 1

end Sys2Proof.Machine
end

