-- ==== Sys2Proof/Machine/ArrayExec.lean ====
section
/-! DEFINITION. What a vendor array instruction does to the PEs of its stream: every PE of every row of every hall, as though in
one common clock (R168). -/

namespace Sys2Proof.Machine

/-! Fields of one row. -/

/-- The 64-lane planes of a field in one row, bit 0 first, as decoded reads give them. -/
def Dev.rowField (d : Dev) (h row : Nat) (addrs : List Nat) : List (BitVec 64) := addrs.map (d.peRead h row)

/-- The value of a field in one lane. -/
def laneVal (ps : List (BitVec 64)) (l : Nat) : Nat := ofBits (ps.map (fun p => p.getLsbD l))

/-- A plane from its lanes. -/
def packLanes (f : Nat → Bool) : BitVec 64 := BitVec.ofNat 64 (ofBits ((List.range 64).map f))

/-- Writes a field in the lanes of a mask, one plane in each cycle from the present one. -/
def Dev.writePlanes (d : Dev) (h row : Nat) (addrs : List Nat) (mask : BitVec 64) (ps : List (BitVec 64)) : Dev :=
  (forEach (addrs.zip ps) d (fun d p => (d.peWrite h row p.1 mask p.2).tick)).atCyc d.arr.cyc

/-- The planes of a w-bit value given lane by lane. -/
def planesOf (w : Nat) (f : Nat → Nat) : List (BitVec 64) := (List.range w).map (fun i => packLanes (fun l => (f l).testBit i))

/-- Accounts for the decoded reads of a field in one row (R55), one bit in each cycle from the present one. The spec does not give the
microwords of the vendor routines but ADD's: the model counts one decode of each source bit for each instruction, also where a routine
reads a bit again (a multiplier's FA, FD of SEL and DSTEP) (DESIGN CHOICE, log entry 84). -/
def Dev.accountField (d : Dev) (h row : Nat) (addrs : List Nat) (port : Port) : Dev :=
  (forEach addrs d (fun d a => (d.account h row a port true).tick)).atCyc d.arr.cyc

def Dev.act (d : Dev) (h row : Nat) : BitVec 64 := d.latch h 0 row .act

/-- Sets C in the active PEs of a row, each copy under its own ACT (R36). -/
def Dev.setCarry (d : Dev) (h row : Nat) (v : Nat → BitVec 64) : Dev :=
  forEach [0, 1] d (fun d k => d.setLatch h k row .c (merge (d.latch h k row .act) (d.latch h k row .c) (v k)))

/-- C is undefined in the active PEs after an instruction whose C column reads undef (R84). -/
def Dev.looseCarry (d : Dev) (h row g : Nat) : Dev :=
  d.setCarry h row (fun _ => Config.freePlane g (latchKey h 0 row 2))

/-- Applies f to every row of every hall of a stream, in order; rows are named by physical hall. The rows work in the same
cycles. -/
def Dev.forRows (d : Dev) (s : Nat) (f : Dev → Nat → Nat → Nat → Dev) : Dev :=
  (forEach (d.streamHalls s) d.tick (fun d h => forEach (List.range 64) d (fun d row => f d h (d.phys h) row))).atCyc (d.arr.cyc + 65)

/-- X and Y, and the scratch segment, are undefined after a vendor routine (R79, R83). -/
def Dev.looseEnd (d : Dev) (s : Nat) : Dev :=
  let level := ((d.arr.strm[s]?).map (·.held.isSome)).getD false
  forEach (d.streamHalls s) d (fun d h => (d.looseXy (d.phys h)).looseScratch (d.phys h) level)

/-! The twin compare (R40). -/

/-- The lanes of a row in which a duplicated plane differs between the copies. -/
def Dev.twinDiffers (d : Dev) (ph row : Nat) : BitVec 64 :=
  let planes := [.x, .y, .c, .act, .oow] ++ (List.range 8).map Plane.stack ++ (List.range 13).map Plane.idx
  planes.foldl (fun v p => v ||| (d.latch ph 0 row p ^^^ d.latch ph 1 row p)) 0

/-- The comparators of a hall in a cycle that began in the state d0: a difference at its start or at its end raises an upset with
SRC 0x0 and the cycle's write address. R can differ only where a latch that it is formed from did at the start. -/
def Dev.twinCheck (d d0 : Dev) (ph : Nat) (wadr : BitVec 13) : Dev :=
  match (List.range 64).flatMap (fun row =>
    let v := d.twinDiffers ph row ||| d0.twinDiffers ph row
    ((List.range 64).filter (fun l => v.getLsbD l)).map (fun l => (row, l))) with
  | [] => d
  | (row, l) :: r => d.upset ph ⟨0, !r.isEmpty, BitVec.ofNat 7 (physCol (d.retired ph) l), BitVec.ofNat 6 row, wadr⟩

/-- The compare of the first cycle of a vendor routine that acts whole, in every hall of its stream. The spec gives the microwords of
no such routine: the write address of its first cycle is free. -/
def Dev.twinStream (d : Dev) (s : Nat) : Dev :=
  let (n, d) := d.fresh
  forEach (d.streamHalls s) d.tick (fun d h => d.twinCheck d (d.phys h) ((Config.freeWord n).setWidth 13))

/-! Instructions of one PE. -/

/-- C after an instruction that this chapter marks out, same or undef (R84). -/
inductive CarryUse where
  | out | same | undef
deriving DecidableEq, Repr

def carryUse (opc : Nat) : CarryUse :=
  if opc ∈ [0x10, 0x11, 0x12, 0x13, 0x18] then .out
  else if opc ≤ 0x08 ∨ (0x28 ≤ opc ∧ opc ≤ 0x39) ∨ (0x40 ≤ opc ∧ opc ≤ 0x45) ∨ opc = 0x6C ∨ opc = 0x6D then .same
  else .undef

/-- The inputs of one lane of a row. -/
def laneIn (wd wa wb : Nat) (pa pb pd : List (BitVec 64)) (c : BitVec 64) (l : Nat) : LaneIn :=
  ⟨wd, wa, wb, laneVal pa l, laneVal pb l, laneVal pd l, c.getLsbD l⟩

/-- An integer instruction in one row: FD in the active PEs, then C (R83, R84). -/
def Dev.rowInt (d : Dev) (j : Job) (k g h row : Nat) : Dev :=
  let o := j.opc.toNat
  let aD := fieldAddrs j.dD.1
  let aA := fieldAddrs j.dA.1
  let aB := fieldAddrs j.dB.1
  let us := (vendorSlots o).getD ⟨.unused, .unused, .unused⟩
  let pa := if us.a == .desc then d.rowField h row aA else []
  let pb := if us.b == .desc then d.rowField h row aB else []
  let pd := d.rowField h row aD
  let out (copy : Nat) : Nat → LaneOut := fun l =>
    laneInt o k (laneIn aD.length aA.length aB.length pa pb pd (d.latch h copy row .c) l)
  let act := d.act h row
  let d := if us.a == .desc then d.accountField h row aA .ra else d
  let d := if us.b == .desc then d.accountField h row aB .rb else d
  let carry (copy : Nat) : BitVec 64 := packLanes (fun l => (out copy l).c.getD false)
  let d := d.writePlanes h row aD act (planesOf aD.length (fun l => (out 0 l).d))
  match carryUse o with
  | .out => d.setCarry h row carry
  | .same => d
  | .undef => d.looseCarry h row g

/-- DSTEP in one row: FD and FB (R88). -/
def Dev.rowDstep (d : Dev) (j : Job) (g h row : Nat) : Dev :=
  let aD := fieldAddrs j.dD.1
  let aA := fieldAddrs j.dA.1
  let aB := fieldAddrs j.dB.1
  let pa := d.rowField h row aA
  let pb := d.rowField h row aB
  let pd := d.rowField h row aD
  let out : Nat → Nat × Nat := fun l => laneDstep (laneIn aD.length aA.length aB.length pa pb pd 0 l)
  let act := d.act h row
  let d := (d.accountField h row aA .ra).accountField h row aB .rb
  let d := d.writePlanes h row aD act (planesOf aD.length (fun l => (out l).1))
  let d := d.writePlanes h row aB act (planesOf aB.length (fun l => (out l).2))
  d.looseCarry h row g

/-! Neighbour transfers (R62 to R65, R90). -/

/-- The mode of a stream's west or east edge, or of the north and south edges (R66). -/
def Dev.edgeWest (d : Dev) (s : Nat) : Nat := bits (d.reg R.SEQ_EDGE).toNat (4 * s + 1) (4 * s)
def Dev.edgeEast (d : Dev) (s : Nat) : Nat := bits (d.reg R.SEQ_EDGE).toNat (4 * s + 3) (4 * s + 2)
def Dev.edgeNS (d : Dev) : Nat := d.fld R.SEQ_EDGE_NS

/-- The direction of a GET: its low two bits N, S, E, W and whether it is express (R85, R140). -/
structure Dir where
  side : Nat
  express : Bool
deriving DecidableEq, Repr

def dirOf (n : Nat) : Dir := ⟨n % 4, n / 4 % 2 = 1⟩
def Dir.dist (x : Dir) : Nat := if x.express then 8 else 1

/-- The plane that arrives from lanes k to the east: each lane takes lane + k, the top k lanes take the low lanes of y. -/
def fromEast (k : Nat) (x y : BitVec 64) : BitVec 64 :=
  BitVec.ofNat 64 (x.toNat / 2 ^ k + y.toNat % 2 ^ k * 2 ^ (64 - k))

/-- The plane that arrives from lanes k to the west: each lane takes lane − k, the low k lanes take the top lanes of y. -/
def fromWest (k : Nat) (x y : BitVec 64) : BitVec 64 :=
  BitVec.ofNat 64 (x.toNat * 2 ^ k % 2 ^ 64 + y.toNat / 2 ^ (64 - k))

/-- The row's lanes of an edge token as the neighbour's edge lanes: the token holds k bits of each row (R164, R165). -/
def tokenEast (k : Nat) (t : BitVec 512) (row : Nat) : BitVec 64 := BitVec.ofNat 64 (t.toNat / 2 ^ (k * row) % 2 ^ k)
def tokenWest (k : Nat) (t : BitVec 512) (row : Nat) : BitVec 64 :=
  BitVec.ofNat 64 (t.toNat / 2 ^ (k * row) % 2 ^ k * 2 ^ (64 - k))

/-- The plane that the PEs of row r of logical hall h receive in one cycle from direction x, when src gives the plane that
each hall and row presents, and tok the token of a Ramufin edge (R63, R65, R90). -/
def Dev.neighbour (d : Dev) (s h row : Nat) (x : Dir) (src : Nat → Nat → BitVec 64) (tok : BitVec 512) : BitVec 64 :=
  let k := x.dist
  let first := s * d.perStream
  let last := first + d.perStream - 1
  match x.side with
  | 0 => if k ≤ row then src h (row - k) else if d.edgeNS = 1 then src h (row + 64 - k) else 0
  | 1 => if row + k < 64 then src h (row + k) else if d.edgeNS = 1 then src h (row + k - 64) else 0
  | 2 => fromEast k (src h row)
      (if h < last then src (h + 1) row else if d.edgeEast s = 1 then src first row
       else if d.edgeEast s = 2 then tokenEast k tok row else 0)
  | _ => fromWest k (src h row)
      (if first < h then src (h - 1) row else if d.edgeWest s = 1 then src last row
       else if d.edgeWest s = 2 then tokenWest k tok row else 0)

/-- A GET in one row of logical hall h (physical p): each active PE takes the source PE's FA as it stood in d0 (R91). -/
def Dev.rowGet (d d0 : Dev) (s : Nat) (j : Job) (toks : List (BitVec 512)) (h p row : Nat) : Dev :=
  let aD := fieldAddrs j.dD.1
  let aA := fieldAddrs j.dA.1
  let x := dirOf (j.opc.toNat - 0x30)
  let ps := aA.mapIdx (fun i a => d0.neighbour s h row x (fun h r => d0.peRead (d0.phys h) r a) (toks.getD i 0))
  (d.accountField p row aA .ra).writePlanes p row aD (d.act p row) ps

/-! Activity (R36, R93). The stack is held with its top at entry 0. -/

def Dev.pushAct (d : Dev) (h copy row : Nat) : Dev :=
  let d0 := d
  let d := forEach (List.range 7) d (fun d k => d.setLatch h copy row (.stack (k + 1)) (d0.latch h copy row (.stack k)))
  d.setLatch h copy row (.stack 0) (d0.latch h copy row .act)

def Dev.popAct (d : Dev) (h copy row : Nat) : Dev :=
  let d0 := d
  let d := d.setLatch h copy row .act (d0.latch h copy row (.stack 0))
  let d := forEach (List.range 7) d (fun d k => d.setLatch h copy row (.stack k) (d0.latch h copy row (.stack (k + 1))))
  d.setLatch h copy row (.stack 7) 0

/-- One activity micro-op in one copy of a row (R140): n is its code, a its operand plane. R140 gives the codes 0 to 5; 6 and 7 raise no
fault, and the model lets them act as 5 (DESIGN CHOICE, log entry 90). -/
def Dev.actOp (d : Dev) (n h copy row : Nat) (a : BitVec 64) : Dev :=
  let act := d.latch h copy row .act
  match n with
  | 0 => d.setLatch h copy row .act (BitVec.allOnes 64)
  | 1 => d.setLatch h copy row .act a
  | 2 => (d.pushAct h copy row).setLatch h copy row .act (act &&& a)
  | 3 => (d.pushAct h copy row).setLatch h copy row .act (act &&& ~~~a)
  | 4 => d.popAct h copy row
  | _ => d.setLatch h copy row .act (d.latch h copy row (.stack 0) &&& ~~~act)  -- 6 and 7, too, act as 5: log entry 90

/-- An activity instruction in one row: the opcodes 0x40 to 0x45 in the order of the micro-op's codes. -/
def Dev.rowAct (d : Dev) (j : Job) (h row : Nat) : Dev :=
  let n := j.opc.toNat - 0x40
  let a := fieldAddrs j.dA.1
  let reads := 1 ≤ n && n ≤ 3
  let x := if reads then d.peRead h row (a.getD 0 0) else 0
  let d := if reads then d.accountField h row a .ra else d
  (d.actOp n h 0 row x).actOp n h 1 row x

/-! Table lookup (R44 to R46, R95). -/

/-- The raw bit of a lane at an address, with no row-word correction (R44). -/
def Dev.rawBit (d : Dev) (h row a l : Nat) : Bool := (steerIn (d.retired h) (d.peRaw h row a)).getLsbD l

/-- Sets one 13-bit index in a row's lanes of a mask, in one copy. -/
def Dev.setIdx (d : Dev) (h copy row : Nat) (mask : BitVec 64) (f : Nat → Nat) : Dev :=
  forEach (List.range 13) d (fun d i =>
    d.setLatch h copy row (.idx i) (merge mask (d.latch h copy row (.idx i)) (packLanes (fun l => (f l).testBit i))))

/-- The index of a lane in one copy. -/
def Dev.idxOf (d : Dev) (h copy row l : Nat) : Nat :=
  ofBits ((List.range 13).map (fun i => (d.latch h copy row (.idx i)).getLsbD l))

/-- LOOKUP in one row (R95): IDX := v × wd, held at 0x1FFF; OOW when the entry's last bit lies outside the window; otherwise
the entry, each bit checked against the mirror. The entry's last bit is read first. In each cycle a mismatch gives 0 and a report with
SRC 0x2 (R45). -/
def Dev.rowLookup (d : Dev) (j : Job) (g h row : Nat) : Dev :=
  let aD := fieldAddrs j.dD.1
  let aA := fieldAddrs j.dA.1
  let wd := aD.length
  let b := descBase j.dB.1
  let len := descTlen j.dB.2
  let pa := d.rowField h row aA
  let act := d.act h row
  let idx : Nat → Nat := fun l => min (laneVal pa l * wd) 0x1FFF
  let out : Nat → Bool := fun l => len ≤ wd - 1 + idx l
  let ok : Nat → Nat → Bool := fun i l => d.rawBit h row (b + i + idx l) l != d.rawBit h row (b + len + i + idx l) l
  let res : Nat → Nat := fun l =>
    if out l then 0 else ofBits ((List.range wd).map (fun i => ok i l && d.rawBit h row (b + i + idx l) l))
  let wrong (i : Nat) : List Nat := (List.range 64).filter (fun l => act.getLsbD l && !out l && !ok i l)
  let d := d.accountField h row aA .ra
  let d := forEach [0, 1] d (fun d k =>
    let m := d.latch h k row .act
    (d.setIdx h k row m idx).setLatch h k row .oow (merge m (d.latch h k row .oow) (packLanes out)))
  let c0 := d.arr.cyc
  let d := (forEach ((wd - 1) :: List.range wd).zipIdx d (fun d p =>
    match wrong p.1 with
    | [] => d
    | l :: r => (d.atCyc (c0 + p.2)).upset h ⟨2, !r.isEmpty, BitVec.ofNat 7 (physCol (d.retired h) l), BitVec.ofNat 6 row,
        BitVec.ofNat 13 (b + p.1 + idx l)⟩ (some (b + len + p.1 + idx l)))).atCyc c0
  (d.writePlanes h row aD act (planesOf wd res)).looseCarry h row g

/-! OR contributions and floating point (R69, R97, R122, R124). -/

/-- The hall bit of AGOR and HOR: the OR of FA over the active PEs of a hall. -/
def Dev.hallOr (d : Dev) (j : Job) (p : Nat) : Bool :=
  (List.range 64).any (fun row =>
    (((d.rowField p row (fieldAddrs j.dA.1)).foldl (· ||| ·) 0) &&& d.act p row) ≠ 0)

/-- The results and flags of a floating-point instruction in one row. -/
def Dev.fpRow (d : Dev) (j : Job) (h row : Nat) : Nat → Nat × FFlags :=
  let o := j.opc.toNat
  let aD := fieldAddrs j.dD.1
  let aA := fieldAddrs j.dA.1
  let aB := fieldAddrs j.dB.1
  let pa := d.rowField h row aA
  let pb := if o = 0x5F || 0x67 ≤ o then [] else d.rowField h row aB
  let pd := d.rowField h row aD
  fun l => laneFp o (fpCtlOf j.fpctl) (laneIn aD.length aA.length aB.length pa pb pd 0 l)

/-- A floating-point instruction in one row: FD, and with FLEN the flags ORed into the flag field, in the active PEs. -/
def Dev.rowFp (d : Dev) (j : Job) (g h row : Nat) : Dev :=
  let o := j.opc.toNat
  let k := fpCtlOf j.fpctl
  let aD := fieldAddrs j.dD.1
  let r := d.fpRow j h row
  let act := d.act h row
  let d := d.accountField h row (fieldAddrs j.dA.1) .ra
  let d := if o = 0x5F || 0x67 ≤ o then d else d.accountField h row (fieldAddrs j.dB.1) .rb
  let d := if o = 0x5B || o = 0x63 then d.accountField h row aD .rb else d
  let d := d.writePlanes h row aD act (planesOf aD.length (fun l => (r l).1))
  let fa := (List.range 4).map (fun i => k.flagAdr + i)
  let d := if k.flen then
      let old := d.rowField h row fa
      let d := d.accountField h row fa .ra
      d.writePlanes h row fa act (planesOf 4 (fun l => laneVal old l ||| flagBits (r l).2))
    else d
  d.looseCarry h row g

/-- The hall bit of a floating-point sample: some active PE raised a flag that FMASK selects (R124). -/
def Dev.hallFlags (d : Dev) (j : Job) (p : Nat) : Bool :=
  let k := fpCtlOf j.fpctl
  (List.range 64).any (fun row =>
    let r := d.fpRow j p row
    (List.range 64).any (fun l => (d.act p row).getLsbD l && (flagBits (r l).2 &&& k.fmask) ≠ 0))

/-- The groups an early-exit MULU performs: one more than the highest 8-bit group of FB in which an active PE holds a 1 (R112). -/
def Dev.muluGroups (d : Dev) (s : Nat) (j : Job) : Nat :=
  let aB := fieldAddrs j.dB.1
  let live (i : Nat) : Bool := (d.streamHalls s).any (fun h =>
    (List.range 64).any (fun row =>
      ((((aB.drop (8 * i)).take 8).map (d.peRead (d.phys h) row)).foldl (· ||| ·) 0 &&& d.act (d.phys h) row) ≠ 0))
  ((List.range ((aB.length + 7) / 8)).filter live).foldl (fun m i => max m (i + 1)) 0

/-- The PE effect of a vendor instruction that needs neither the stairs nor a commit. toks are the tokens of a Ramufin edge. -/
def Dev.vendorEffect (d : Dev) (s : Nat) (j : Job) (toks : List (BitVec 512)) : Dev :=
  let o := j.opc.toNat
  let d0 := d
  let (g, d) := d.fresh
  let k := if 0x2C ≤ o && o ≤ 0x2F then j.sb.toNat + 32 else j.sb.toNat
  let d :=
    if o = 0x22 then d.forRows s (fun d _ p row => d.rowDstep j g p row)
    else if 0x30 ≤ o && o ≤ 0x37 then d.forRows s (fun d h p row => d.rowGet d0 s j toks h p row)
    else if 0x40 ≤ o && o ≤ 0x45 then d.forRows s (fun d _ p row => d.rowAct j p row)
    else if o = 0x48 then d.forRows s (fun d _ p row => d.rowLookup j g p row)
    else if 0x50 ≤ o && o ≤ 0x53 then d.forRows s (fun d _ p row =>
      (d.accountField p row (fieldAddrs j.dA.1) .ra).looseCarry p row g)
    else if isFp o then d.forRows s (fun d _ p row => d.rowFp j g p row)
    else d.forRows s (fun d _ p row => d.rowInt j k g p row)
  d.looseEnd s

/-- The bits that the halls of a stream contribute to the OR sample of an instruction (R69, R124). -/
def Dev.orBits (d : Dev) (s : Nat) (j : Job) : BitVec 16 :=
  (d.streamHalls s).foldl (fun v h =>
    setBit v h (if isFp j.opc.toNat then d.hallFlags j (d.phys h) else d.hallOr j (d.phys h))) 0

end Sys2Proof.Machine
end

