-- ==== Sys2Proof/Machine/CoreBase.lean ====
section
/-! DEFINITION. The registers of a Flivin core, its traps and its entry sequence (R244 to R250, R262 to R278). -/

namespace Sys2Proof.Machine

def Dev.co (d : Dev) (c : CoreId) : CoreState := d.core[c]
def Dev.setCo (d : Dev) (c : CoreId) (x : CoreState) : Dev := { d with core := d.core.set c x }
def Dev.modCo (d : Dev) (c : CoreId) (f : CoreState → CoreState) : Dev := d.setCo c (f (d.co c))

/-! Registers. -/

def CoreState.rd (k : CoreState) (n : DReg) : Word := k.d[n.toFin]
def CoreState.wrd (k : CoreState) (n : DReg) (v : Word) : CoreState := { k with d := k.d.set n.toNat v n.isLt }
def CoreState.ra (k : CoreState) (n : AReg) : Word := k.a[n.toFin]
def CoreState.wra (k : CoreState) (n : AReg) (v : Word) : CoreState := { k with a := k.a.set n.toNat v n.isLt }
def CoreState.rac (k : CoreState) (n : BitVec 2) : BitVec 72 := k.ac[n.toFin]
def CoreState.wac (k : CoreState) (n : BitVec 2) (v : BitVec 72) : CoreState := { k with ac := k.ac.set n.toNat v n.isLt }

/-- A predicate; P0 reads 1 (R249). -/
def CoreState.rp (k : CoreState) (n : PReg) : Bool := n = 0 || k.p.getLsbD n.toNat

/-- Writes P1 to P7; nothing names P0 as a destination (R249, R255). -/
def CoreState.wrp (k : CoreState) (n : PReg) (b : Bool) : CoreState := if n = 0 then k else { k with p := setBit k.p n.toNat b }

/-- The 64-bit value of a pair (R248). -/
def CoreState.rpair (k : CoreState) (n : DReg) : BitVec 64 := (k.rd (n ||| 1)).append (k.rd n)
def CoreState.wpair (k : CoreState) (n : DReg) (v : BitVec 64) : CoreState :=
  (k.wrd n (v.setWidth 32)).wrd (n ||| 1) ((v >>> 32).setWidth 32)

/-! SR (R272). -/

def CoreState.sys (k : CoreState) : Bool := k.sr.getLsbD 31
def CoreState.sec (k : CoreState) : Bool := k.sr.getLsbD 30
def CoreState.ie (k : CoreState) : Bool := k.sr.getLsbD 29
def CoreState.lvl (k : CoreState) : Nat := bits k.sr.toNat 27 24

/-- SR as it reads and as a frame saves it: RSD is the return stack's depth. -/
def CoreState.srWord (k : CoreState) : Word := setBits k.sr 20 16 k.rs.length

def CoreState.setSys (k : CoreState) (b : Bool) : CoreState := { k with sr := setBit k.sr 31 b }
def CoreState.setIe (k : CoreState) (b : Bool) : CoreState := { k with sr := setBit k.sr 29 b }
def CoreState.setLvl (k : CoreState) (n : Nat) : CoreState := { k with sr := setBits k.sr 27 24 n }

/-! Instruction and frame addresses. -/

/-- A core can fetch at an address: its own I-TCM, or the boot ROM in system mode (R245). -/
def CoreState.fetchable (k : CoreState) (a : Word) : Bool :=
  (0x08000000 ≤ a.toNat && a.toNat < 0x08008000) || (k.sys && a.toNat < 0x10000)

/-- The road address of a byte in a core's own TCMs, through the alias or the core's own range (R23, R244). -/
def ownTcm (c : CoreId) (a : Nat) : Option Nat :=
  let off := a % 0x01000000
  if a / 0x01000000 = 8 || a / 0x01000000 = 12 + c.val then
    if off < 0x8000 || (0x10000 ≤ off && off < 0x30000) then some (0x0C000000 + c.val * 0x01000000 + off) else none
  else none

/-! Traps and entry (R274 to R278). -/

/-- The trap entries of R275. -/
inductive Trap where
  | illegal | privilege | fetch | bus | misaligned | mac | rsOver | rsUnder | array | arrayFp | fp | sysc | bkpt
deriving DecidableEq, Repr

def trapNo : Trap → BitVec 5
  | .illegal => 1 | .privilege => 2 | .fetch => 3 | .bus => 4 | .misaligned => 5 | .mac => 6 | .rsOver => 7 | .rsUnder => 8
  | .array => 9 | .arrayFp => 10 | .fp => 11 | .sysc => 12 | .bkpt => 13

/-- A double fault (R278): the core stops, its sources are given up (R309), the event is raised, and for C0 it is fatal. -/
def Dev.doubleFault (d : Dev) (c : CoreId) : Dev :=
  let d := (d.modCo c (fun k => { k with mode := .dead })).dropOwner c.val
  let d := d.raise (0x30 + c.val)
  if c = 0 then { d with fatal := some 2 } else d

/-- Steps 1, 2 and 4 of R276: the frame of return address and SR below TSP, and the vector; f makes step 3. A TSP that is not
8-byte aligned, a frame outside the core's TCMs or an unfetchable vector is a double fault (R278). -/
def Dev.enter (d : Dev) (c : CoreId) (ret : Word) (entry : Nat) (f : CoreState → CoreState) : Dev :=
  let k := d.co c
  let sp := k.tsp - 8
  match ownTcm c sp.toNat with
  | none => d.doubleFault c
  | some ra =>
    if sp.toNat % 8 ≠ 0 then d.doubleFault c else
    let d := (d.setWord32 ra ret).setWord32 (ra + 4) k.srWord
    let vec := k.vtb + BitVec.ofNat 32 (8 * entry)
    let k := (f { k with tsp := sp }).setSys true
    let k := { k with pc := vec, cyc := k.cyc + 6 }
    let d := d.setCo c k
    if k.fetchable vec then d else d.doubleFault c

/-- The words that a load of size bytes delivers. -/
def loadWords (size : Nat) (sx : Bool) (l : List Byte) : Word × Option Word :=
  let n := leNat l
  match size with
  | 1 => (if sx then (BitVec.ofNat 8 n).signExtend 32 else BitVec.ofNat 32 n, none)
  | 2 => (if sx then (BitVec.ofNat 16 n).signExtend 32 else BitVec.ofNat 32 n, none)
  | 4 => (BitVec.ofNat 32 n, none)
  | _ => (BitVec.ofNat 32 n, some (BitVec.ofNat 32 (n / 2 ^ 32)))

/-- Writes a load's destination. -/
def CoreState.land (k : CoreState) (l : PendingLoad) : CoreState :=
  match l.hi with
  | none => k.wrd l.dst l.lo
  | some h => (k.wrd l.dst l.lo).wrd (l.dst ||| 1) h

/-- The loads that have delivered their data complete (R264). -/
def CoreState.drain (k : CoreState) : CoreState :=
  { (k.loads.filter (·.tid.isNone)).foldl CoreState.land k with loads := k.loads.filter (·.tid.isSome) }

/-- A load's delay slots have not ended, and one of those has not delivered its data either (R263, R264). -/
def CoreState.inSlots (k : CoreState) : Bool := k.loads.any (fun l => decide (0 < l.slots))
def CoreState.awaits (k : CoreState) : Bool := k.loads.any (fun l => decide (0 < l.slots) && l.tid.isSome)

/-- The entry of a trap (R275, R276): loads in flight complete first; IE is cleared; TCAUSE and TADDR are recorded. -/
def Dev.takeTrap (d : Dev) (c : CoreId) (n : BitVec 5) (ret taddr : Word) (impr : Bool) : Dev :=
  let d := d.modCo c CoreState.drain
  d.enter c ret n.toNat (fun k =>
    { k.setIe false with
      tcause := BitVec.ofNat 32 (bn impr * 2 ^ 31 + n.toNat),
      taddr := taddr, entering := none })

/-- A trap: it is entered at once, or once the load whose delay slot it lies in has delivered (R264). -/
def Dev.trap (d : Dev) (c : CoreId) (t : Trap) (ret taddr : Word) (impr : Bool) : Dev :=
  if (d.co c).awaits then d.modCo c (fun k => { k with due := some (trapNo t, ret, taddr, impr) })
  else d.takeTrap c (trapNo t) ret taddr impr

/-- The data of an outstanding load has come (R263): it is written at the end of the delay slots, or now if they have ended. -/
def CoreState.delivered (k : CoreState) (tid : BitVec 12) (l : List Byte) : CoreState :=
  let fill (x : PendingLoad) : PendingLoad :=
    if x.tid = some tid then
      { x with tid := none, lo := (loadWords x.size x.sx l).1, hi := (loadWords x.size x.sx l).2 }
    else x
  let xs := k.loads.map fill
  let now := xs.filter (fun x => x.tid.isNone && x.slots = 0)
  { now.foldl CoreState.land k with loads := xs.filter (fun x => !(x.tid.isNone && x.slots = 0)) }

/-- A trap that waited for a load is entered (R264). -/
def Dev.trapDue (d : Dev) (c : CoreId) : Dev :=
  match (d.co c).due with
  | some (n, ret, taddr, impr) =>
    if (d.co c).awaits then d else (d.modCo c (fun k => { k with due := none })).takeTrap c n ret taddr impr
  | none => d

/-- The answer to a core's load: its data, or an error that leaves the destination unchanged (R275). -/
def Dev.loadAnswer (d : Dev) (c : CoreId) (tid : BitVec 12) (st : BitVec 4) (l : List Byte) : Dev :=
  if !((d.co c).loads.any (fun x => x.tid = some tid)) then d else
  (d.modCo c (fun k => if st = 0 then k.delivered tid l else
    { k with loads := k.loads.filter (fun x => x.tid ≠ some tid) })).trapDue c

/-- A precise trap at the instruction (return address: the instruction). -/
def Dev.trapHere (d : Dev) (c : CoreId) (t : Trap) : Dev := d.trap c t (d.co c).pc 0 false

/-- An imprecise trap reaches the core and waits for an instruction boundary (R275). -/
def Dev.imprecise (d : Dev) (c : CoreId) (t : Trap) (addr : Word) : Dev :=
  d.modCo c (fun k => { k with impr := k.impr ++ [(trapNo t, addr)] })

/-- Leaves reset (R250, R272): every register at its reset value, system mode, SEC in C0. -/
def coreStart (c : CoreId) (pc : Word) : CoreState :=
  { mode := .run, pc := pc, sr := if c = 0 then 0xC0000000 else 0x80000000 }

def Dev.respond (d : Dev) (st : BitVec 4) (l : List Byte) : Dev := { d with resp := ⟨st, l⟩ }

/-! One instruction. -/

/-- The end of an instruction that took n cycles (R256, R262): the loads whose second delay slot it was write their
destinations, over what it wrote there itself; one without its data goes on (R263). -/
def CoreState.retire (k : CoreState) (n : Nat) : CoreState :=
  let ends (l : PendingLoad) : Bool := decide (l.slots ≤ 1) && l.tid.isNone
  let due := k.loads.filter ends
  let rest := (k.loads.filter (fun l => !ends l)).map (fun l => { l with slots := l.slots - 1 })
  { due.foldl CoreState.land k with loads := rest, cyc := k.cyc + BitVec.ofNat 64 n, entering := none }

/-- Goes on at the instruction that follows, len bytes further. -/
def CoreState.advance (k : CoreState) (len n : Nat) : CoreState :=
  { k.retire n with pc := k.pc + BitVec.ofNat 32 len }

/-- Goes on at another address; a taken branch costs one further cycle (R256). -/
def CoreState.jump (k : CoreState) (target : Word) (n : Nat) : CoreState :=
  { k.retire n with pc := target &&& 0xFFFFFFFE }

/-- A core can take an instruction: running, not halted, with no trap waiting for the boundary (R264, R275), and not held by a
floating-point instruction with TRAP = 1 (R125). -/
def Dev.coreReady (d : Dev) (c : CoreId) : Bool :=
  (d.co c).mode = .run && !(d.co c).halted && (d.co c).impr.isEmpty && (d.co c).due.isNone && !d.arr.strm[c].fpHold

/-- A load past its delay slots still owes its data to a register (R263). -/
def CoreState.owes (k : CoreState) (x : DReg) : Bool :=
  k.loads.any (fun l => l.slots = 0 && (l.dst = x || (l.size = 8 && (l.dst ||| 1) = x)))

/-- A register that an array instruction or a late load will write holds an instruction that names it (R98, R258, R263). -/
def CoreState.pends (k : CoreState) (ps : List PReg) (ds : List DReg) : Bool :=
  ps.any (fun p => k.pendP.getLsbD p.toNat) || ds.any (fun x => k.pendD.getLsbD x.toNat || k.owes x)

/-- What every instruction of len bytes passes first: the core takes instructions, the fetch of both halfwords succeeds (R245), no
named register is pending. Otherwise the instruction does not execute: nothing changes, or the fetch-error trap is taken. -/
def Dev.instr (d : Dev) (c : CoreId) (len : Nat) (ps : List PReg) (ds : List DReg) (f : Dev → Dev) : Dev :=
  let k := d.co c
  if !d.coreReady c then d
  else if !k.fetchable k.pc || !k.fetchable (k.pc + BitVec.ofNat 32 (len - 2)) then d.trap c .fetch k.pc k.pc false
  else if k.pends ps ds then d
  else f d

/-- The condition of a 32-bit form (R257). -/
def CoreState.holds (k : CoreState) (p : Pred) : Bool := k.rp p.p != p.neg

/-- A 32-bit form: when its predicate is 0 it takes its cycle and does nothing else (R257). -/
def Dev.pred (d : Dev) (c : CoreId) (p : Pred) (f : Dev → Dev) : Dev :=
  if (d.co c).holds p then f d else d.modCo c (fun k => k.advance 4 1)

/-- The registers that an instruction names, whether its encoding is legal, and whether it is for system mode alone. -/
structure Names where
  ps : List PReg := []
  ds : List DReg := []
  legal : Bool := true
  sysOnly : Bool := false
deriving DecidableEq, Repr

/-- The traps that do not depend on the predicate (R255), then f. -/
def Dev.lawful (d : Dev) (c : CoreId) (n : Names) (f : Dev → Dev) : Dev :=
  if !n.legal then d.trapHere c .illegal
  else if n.sysOnly && !(d.co c).sys then d.trapHere c .privilege
  else f d

/-- A 16-bit form: its registers are waited for (R258), and it always executes (R251). -/
def Dev.op16 (d : Dev) (c : CoreId) (n : Names) (f : Dev → Dev) : Dev :=
  d.instr c 2 [] [] (fun d => d.lawful c n (fun d => if (d.co c).pends n.ps n.ds then d else f d))

/-- A 32-bit form: its predicate and registers are waited for, and it executes when the condition holds (R257, R258). -/
def Dev.op32 (d : Dev) (c : CoreId) (p : Pred) (n : Names) (f : Dev → Dev) : Dev :=
  d.instr c 4 [] [] (fun d => d.lawful c n (fun d => if (d.co c).pends (p.p :: n.ps) n.ds then d else d.pred c p f))

end Sys2Proof.Machine
end

