-- ==== Sys2Proof/Machine/Seq.lean ====
section
/-! DEFINITION. The sequencer's acceptance of an array instruction: blocking codes, the checks of R103, the line gate, the
queue and the replay log (R73 to R77, R97 to R106, R123, R132, R156, R200, R203, R217, R237, R241). -/

namespace Sys2Proof.Machine

/-- What the sequencer answers to an issued instruction. -/
inductive Verdict103 where
  /-- The core stalls at the instruction: a full queue, a quiesce, the line gate. -/
  | stall
  | refuse (code : Nat) (slot slotv : Nat)
  | accept
deriving DecidableEq, Repr

/-- The lowest blocking code of a blocked stream (R103). -/
def Dev.blockCode (d : Dev) (s : StreamId) : Option Nat :=
  let afl := d.flag (R.SEQ_AFLT_VAL s)
  let blk := bankGet (fun _ => 0) d.arr.block s
  if d.flag (R.SEQ_USTAT_VAL s) then some 0x0E
  else if afl && blk.testBit 0 then some 0x10
  else if d.flag (R.SEQ_SPSTAT_LRP s) then some 0x13
  else if afl && blk.testBit 1 then some 0x19
  else none

/-- Records the first array fault of a stream and raises its event (R103, R296). -/
def Dev.arrayFault (d : Dev) (s : StreamId) (opc code slot slotv : Nat) : Dev :=
  let d := if d.flag (R.SEQ_AFLT_VAL s) then d else
    d.setReg (R.SEQ_AFLT s) (BitVec.ofNat 32 (2 ^ 31 + opc * 2 ^ 24 + code * 2 ^ 16 + slotv * 2 ^ 11 + slot * 2 ^ 9))
  d.raise (0x28 + s.val)

/-- A patch RAM word's verified tag, by microstore address (R144). -/
def Dev.tag (d : Dev) (a : Nat) : Bool := 0x1C00 ≤ a && d.arr.tags.getLsbD (a - 0x1C00)

/-- A decode entry is effective (R104). -/
def Dev.cdtEffective (d : Dev) (n : Nat) : Bool :=
  d.flag (R.SEQ_CDT_EN n) && d.tag (0x1E00 + d.fld (R.SEQ_CDT_ENTRY n))

/-- The MILESTONEs that a stream has accepted and not yet committed, oldest first. -/
def Strm.openMilestones (x : Strm) : List Job := x.log.filter (fun j => j.opc = 0x6E)

/-- The phase of the span to which an instruction accepted now belongs (R199). -/
def Dev.phaseAtIssue (d : Dev) (s : StreamId) : Bool := d.flag (R.SEQ_SPSTAT_PH s) != ((d.st s).openMilestones.length % 2 = 1)

/-- The segments kept in that span; segment 31 never is (R198, R199). -/
def Dev.keptAtIssue (d : Dev) (s : StreamId) : Nat :=
  (if d.phaseAtIssue s then d.fld (R.SEQ_KEEPB_MASK s) else d.fld (R.SEQ_KEEPA_MASK s)) % 2 ^ 31

/-- An interval of addresses touches a segment of a mask. -/
def hitsSegments (mask : Nat) (a : Nat × Nat) : Bool :=
  (List.range 32).any (fun k => mask.testBit k && shareAddr a (256 * k, 256 * k + 255))

/-- A channel is enabled for an instruction of stream s (R176). -/
def Dev.chanEnabled (d : Dev) (s : StreamId) (ch : Nat) (dirOut : Bool) : Bool :=
  d.flag (R.STAIR_CHCFG_EN ch) && d.fld (R.STAIR_CHCFG_STRM ch) = s.val && d.flag (R.STAIR_CHCFG_DIR ch) == dirOut

/-- A channel is bound to a stream: it is enabled and names it (R181). -/
def Dev.chanBound (d : Dev) (s : StreamId) (ch : Nat) : Bool :=
  d.flag (R.STAIR_CHCFG_EN ch) && d.fld (R.STAIR_CHCFG_STRM ch) = s.val

/-- The PU per hall that a transfer of a w-bit field moves (R178). -/
def Dev.chanUnits (d : Dev) (ch w : Nat) : Nat :=
  if d.flag (R.STAIR_CHCFG_FMT ch) then 2 ^ d.fld (R.STAIR_CHCFG_EW ch) else w

def Run.job? : Run → Option Job
  | .idle => none
  | .micro j => some j
  | .mstone j _ => some j
  | .xfer j _ _ => some j

/-- The instructions that a stream has accepted and not completed. -/
def Strm.waiting (x : Strm) : List Job :=
  x.run.job?.toList ++ x.jobs ++ (match x.held with | some h => h.run.job?.toList ++ h.jobs | none => []) ++
    x.rehold.flatMap (fun p => p.1.jobs ++ p.2)

/-- The WPOS that a channel will hold once every accepted instruction of the stream has completed (R217). -/
def Dev.projectedWpos (d : Dev) (s : StreamId) (ch : Nat) : Nat :=
  ((d.st s).waiting.filter (fun j => (j.opc = 0x6C || j.opc = 0x6D) && j.sb.toNat = ch)).foldl
    (fun p j => p + d.chanUnits ch (descWidth (if j.opc = 0x6C then j.dD.1 else j.dA.1)))
    (d.fld (R.STAIR_CHWPOS_POS ch))

/-- A lead-ring channel of the stream would stand between lines at a LEND (R217, fault 0x14). -/
def Dev.leadMisaligned (d : Dev) (s : StreamId) : Bool :=
  d.flag R.GAL_LCFG_LEN && (List.range 8).any (fun ch =>
    d.chanBound s ch && (d.fld R.GAL_LCFG_OCH).testBit ch && d.projectedWpos s ch % d.fld R.GAL_LCFG_LPU ≠ 0)

/-- The tokens of a kind that a port has consumed or sent since its base, with those of the waiting instructions: the GETs of
the given side on this edge (R241). -/
def Dev.edgeCount (d : Dev) (s : StreamId) (port : Nat) (express : Bool) : Nat × Nat :=
  let e := ((if express then d.express[port]? else d.news[port]?).getD {})
  let gets (side : Nat) : Nat := ((d.st s).waiting.filter (fun j =>
    0x30 ≤ j.opc.toNat && j.opc.toNat ≤ 0x37 && dirOf (j.opc.toNat - 0x30) = ⟨side, express⟩)).foldl
      (fun n j => n + descWidth j.dD.1) 0
  let east := port = 2
  (e.used + gets (if east then 2 else 3), e.sent + gets (if east then 3 else 2))

/-- A GET would take a Ramufin edge's token count above its buffer (R241, fault 0x15). -/
def Dev.edgeOverrun (d : Dev) (s : StreamId) (opc wd : Nat) : Bool :=
  0x30 ≤ opc && opc ≤ 0x37 &&
    let x := dirOf (opc - 0x30)
    let cap := if x.express then 512 else 4096
    let beyond (port : Nat) (consumes : Bool) : Bool :=
      let n := d.edgeCount s port x.express
      cap < (if consumes then n.1 else n.2) + wd
    2 ≤ x.side && ((d.edgeEast s.val = 2 && beyond 2 (x.side = 2)) || (d.edgeWest s.val = 2 && beyond 0 (x.side = 3)))

/-- The fields, tables and flag fields of the held routine and the held instructions (R156). -/
def HeldRec.all (h : HeldRec) : List Job := h.run.job?.toList ++ h.jobs

/-- The LEVEL 1 conflict of R156, fault 0x0F. -/
def Dev.heldConflict (h : HeldRec) (j : Job) : Bool :=
  let o := j.opc.toNat
  let others := h.all
  let theirs := others.flatMap (fun k => k.writes ++ k.reads)
  spansMeet j.writes theirs || spansMeet j.reads (others.flatMap Job.writes) || o = 0x6E ||
    ((o = 0x6C || o = 0x6D) && others.any (fun k => (k.opc = 0x6C || k.opc = 0x6D) && k.sb = j.sb))

/-- The depth below which a LEVEL 1 instruction may not pop (R156). -/
def Strm.floor (x : Strm) : Nat := match x.held with | some h => h.depth | none => 0

/-- The first nonzero unused slot (fault 0x01), the first slot out of range (0x04), the first invalid descriptor (0x05). -/
def firstSlot (l : List (Nat × Bool × Nat)) : Option (Nat × Nat) := (l.find? (fun p => p.2.1)).map (fun p => (p.1, p.2.2))

/-- The checks of R103 in their order, on an instruction with its captured words; none when all pass. The model names SB, with its value,
for a nonzero SB of an FCVT form, whose slots R99 lists without dashes; and lets the two written fields of a customer opcode with WFD,
WFB and INPL be identical (R105 allows identity to a source only): DESIGN CHOICES, log entries 88 and 89. -/
def Dev.check103 (d : Dev) (s : StreamId) (j : Job) : Option (Nat × Nat × Nat) :=
  let o := j.opc.toNat
  let x := d.st s
  let vd := j.sd.toNat
  let va := j.sa.toNat
  let vb := j.sb.toNat
  let plain (c : Nat) : Option (Nat × Nat × Nat) := some (c, 0, 0)
  match jobSlots o j.cdt with
  | none => plain 0x01
  | some us =>
    let each (f : SlotUse → Nat → Bool) : Option (Nat × Nat) :=
      firstSlot [(1, f us.d vd, vd), (2, f us.a va, va), (3, f us.b vb, vb)]
    match each (fun u v => u == .unused && v ≠ 0) with
    | some (n, v) => some (0x01, n, v)
    | none =>
    if us.d == .opt && 2 ≤ vd then plain 0x01
    else if isCustomer o && !d.cdtEffective (o - 0x70) then plain 0x02
    else if isCustomer o && x.ctIss && !j.cdt.getLsbD 22 then plain 0x03
    else match each (fun u v => slotRange u v) with
    | some (n, v) => some (0x04, n, v)
    | none =>
    let inv (u : SlotUse) (w : Word) : Bool := u == .desc && descInv w
    match firstSlot [(1, inv us.d j.dD.1, vd), (2, inv us.a j.dA.1, va), (3, inv us.b j.dB.1, vb)] with
    | some (n, v) => some (0x05, n, v)
    | none =>
    let wd := descWidth j.dD.1
    let wa := descWidth j.dA.1
    let wb := descWidth j.dB.1
    let inPlace := if isCustomer o then j.cdt.getLsbD 21 else inPlaceOk o
    let clashA := us.a == .desc && fieldsClash inPlace j.dD.1 j.dA.1
    let clashB := us.b == .desc && o ≠ 0x48 && fieldsClash inPlace j.dD.1 j.dB.1
    let clashD := (writesFd o j.cdt && (clashA || clashB)) ||
      (writesFb o j.cdt && ((us.a == .desc && fieldsClash inPlace j.dB.1 j.dA.1) ||
        (us.d == .desc && fieldsClash inPlace j.dB.1 j.dD.1)))
    let fp := fpCtlOf j.fpctl
    let flagField := (fp.flagAdr, fp.flagAdr + 3)
    let heldDepth := x.floor
    if !isCustomer o && !widthsOk o wd wa wb then plain 0x06
    else if clashD then plain 0x07
    else if o = 0x48 && (descTlen j.dB.2 = 0 || shareAddr (tableSpan j.dB.1 j.dB.2) (fieldSpan j.dD.1) ||
      shareAddr (tableSpan j.dB.1 j.dB.2) (fieldSpan j.dA.1)) then plain 0x08
    else if (o = 0x42 || o = 0x43) && 8 ≤ x.depth then plain 0x09
    else if (o = 0x44 || o = 0x45) && x.depth ≤ heldDepth then plain 0x0A
    else if o = 0x6E && x.depth ≠ 0 then plain 0x0B
    else if (o = 0x6C || o = 0x6D) && !d.chanEnabled s vb (o = 0x6D) then plain 0x0C
    else if isFp o && fp.flen && (0x1EFC < fp.flagAdr || shareAddr flagField (fieldSpan j.dD.1) ||
      shareAddr flagField (fieldSpan j.dA.1) || (us.b == .desc && shareAddr flagField (fieldSpan j.dB.1))) then plain 0x0D
    else if j.writes.any (hitsSegments (d.keptAtIssue s)) then plain 0x11
    else if 256 ≤ x.log.length && o ≠ 0x4C then plain 0x12
    else if o = 0x6E && vd % 2 = 1 && d.leadMisaligned s then plain 0x14
    else if d.edgeOverrun s o wd then plain 0x15
    else match x.held with
      | some h => if o ≠ 0x4C && Dev.heldConflict h j then plain 0x0F else none
      | none => none

/-- ACTPOP and ACTELSE at a LEVEL 1 depth need an entry above d for the pop; ACTELSE reads the top entry, which must exist. -/
def depthAfter (opc depth : Nat) : Nat :=
  if opc = 0x42 || opc = 0x43 then depth + 1 else if opc = 0x44 then depth - 1 else depth

/-- The strobe count that the line gate compares with (R237). -/
def Dev.gateOpen (d : Dev) (s : StreamId) : Bool :=
  let lends := ((d.st s).openMilestones.filter (fun j => j.sd.getLsbD 0)).length
  let g := d.fld (R.LINE_GSTAT_GLINE s) + lends
  let strobes := if d.mode = 8 then d.fld R.LINE_STAT_SCNT else 0
  let x := (strobes + d.fld (R.LINE_GATE_AHEAD s) + 2 ^ 32 - g) % 2 ^ 16
  0 < x && x < 2 ^ 15

/-- The queue of a stream (R132): an instruction holds its entry until its first microword issues. Entries that a replay issues again
come from the log. The spec does not say whether held instructions keep their entries while LEVEL 1 instructions are accepted (R155,
R156): the model lets them keep none, so that a handler has all 8 (DESIGN CHOICE, log entry 94). -/
def Strm.queued (x : Strm) : Nat :=
  (x.jobs.filter (fun j => !j.replay)).length + (match x.run with | .micro j => bn (!x.micro.begun && !j.replay) | _ => 0)

/-- The line gate keeps the next level-0 instruction of a stream (R237). -/
def Dev.gateStops (d : Dev) (s : StreamId) : Bool :=
  !d.arr.quiesce && d.flag (R.LINE_GATE_GEN s) && (d.st s).gateDue && (d.st s).held.isNone && !d.gateOpen s

/-- The activity depth of the PEs: that after the accepted instructions, less what the waiting ones will change. -/
def Strm.runDepth (x : Strm) : Nat :=
  let pushes := (x.jobs.filter (fun j => j.opc = 0x42 || j.opc = 0x43)).length
  let pops := (x.jobs.filter (fun j => j.opc = 0x44)).length
  x.depth + pops - pushes

/-- A hall of the stream is under test 0x2 or 0x3 (R443). -/
def Dev.underTest (d : Dev) (s : StreamId) : Bool :=
  match d.test with
  | some (t, m) => (t = 2 || t = 3) && (d.streamHalls s.val).any (fun h => m.getLsbD (d.phys h))
  | none => false

/-- The sequencer's answer to an issued instruction. -/
def Dev.judge (d : Dev) (s : StreamId) (j : Job) : Verdict103 :=
  let x := d.st s
  if d.arr.quiesce || !x.rehold.isEmpty || d.underTest s then .stall else
  match d.blockCode s with
  | some c => .refuse c 0 0
  | none =>
    match d.check103 s j with
    | some (c, n, v) => .refuse c n v
    | none =>
      if j.opc = 0x4C then .accept
      else if d.gateStops s then .stall
      else if 8 ≤ x.queued then .stall else .accept

/-- An issued instruction with the words that the sequencer captures with it (R77, R118). -/
def Dev.makeJob (d : Dev) (s : StreamId) (opc : Nat) (a : AOp) : Job :=
  let x := d.st s
  let o := opc % 128
  { opc := BitVec.ofNat 7 o, sd := a.sd, sa := a.sa, sb := a.sb, core := a.core, pred := a.pred,
    pc := (d.co a.core).pc,
    dD := x.desc[a.sd.toFin], dA := x.desc[a.sa.toFin], dB := x.desc[a.sb.toFin],
    fpctl := d.reg (R.SEQ_FPCTL s),
    cdt := if isCustomer o then d.reg (R.SEQ_CDT (o - 0x70)) else 0,
    level := x.held.isSome,
    stopAt := (x.held.map (·.at_)).getD 0, stopNo := (x.held.map (·.no)).getD 0,
    idx := match x.log.getLast? with | some l => l.idx + 1 | none => 0 }

/-- Acceptance (R132, R203): the log and the queue take the instruction, and what later checks go by advances. -/
def Dev.enqueue (d : Dev) (s : StreamId) (j : Job) : Dev :=
  let o := j.opc.toNat
  let lend := o = 0x6E && j.sd.getLsbD 0
  let d := d.modSt s (fun x => { x with
    jobs := x.jobs ++ [j],
    log := x.log ++ [j],
    depth := depthAfter o x.depth,
    ctIss := if o = 0x6F then j.sd = 1 else x.ctIss,
    dirty := o ≠ 0x6E,
    gateDue := if j.level then x.gateDue else lend })
  if j.level then d else d.setFlag (R.LINE_GSTAT_WAIT s) false

/-- AFD acts when it is accepted (R77). -/
def Dev.loadDescriptor (d : Dev) (s : StreamId) (n : BitVec 5) (w0 w1 : Word) : Dev :=
  d.modSt s (fun x => { x with desc := x.desc.set n.toNat (descLoad w0 w1) n.isLt })

end Sys2Proof.Machine
end

