-- ==== Sys2Proof/Machine/SeqRun.lean ====
section
/-! DEFINITION. A stream runs its accepted instructions one after another: starting the next routine, OR samples and their
delivery, the stops that leave a routine partly done (R75, R97, R98, R124, R125, R132, R204). -/

namespace Sys2Proof.Machine

/-! Ramufin tokens (R164, R241). -/

/-- The port whose tokens a GET of a direction consumes in a stream, when its edge is a Ramufin edge. -/
def Dev.tokenPort (d : Dev) (s : StreamId) (x : Dir) : Option (Fin 4) :=
  if x.side = 2 && d.edgeEast s.val = 2 && s.val + 1 = d.numStreams then some 2
  else if x.side = 3 && d.edgeWest s.val = 2 && s = 0 then some 0 else none

/-- The port over which a GET of a direction sends its own edge lanes. -/
def Dev.sendPort (d : Dev) (s : StreamId) (x : Dir) : Option (Fin 4) :=
  if x.side = 3 && d.edgeEast s.val = 2 && s.val + 1 = d.numStreams then some 2
  else if x.side = 2 && d.edgeWest s.val = 2 && s = 0 then some 0 else none

def Dev.edgePort (d : Dev) (express : Bool) (p : Fin 4) : EdgePort := if express then d.express[p] else d.news[p]

def Dev.setEdgePort (d : Dev) (express : Bool) (p : Fin 4) (e : EdgePort) : Dev :=
  if express then { d with express := d.express.set p e } else { d with news := d.news.set p e }

/-- The next n tokens that a GET would consume; none while fewer have arrived (R68). -/
def Dev.tokens (d : Dev) (s : StreamId) (x : Dir) (n : Nat) : Option (List (BitVec 512)) :=
  match d.tokenPort s x with
  | none => some []
  | some p =>
    let e := d.edgePort x.express p
    let l := (e.buf.drop e.used).take n
    if l.length = n then some l else none

/-- Gives a token to a port's link under its sequence number (R241). -/
def EdgePort.send (e : EdgePort) (t : BitVec 512) : EdgePort :=
  { e with sent := e.sent + 1, out := e.out ++ [(e.sbase + BitVec.ofNat 16 e.sent, t)] }

def Dev.sendToken (d : Dev) (express : Bool) (p : Fin 4) (t : BitVec 512) : Dev :=
  d.setEdgePort express p ((d.edgePort express p).send t)

/-- The counts of a port start again at the present point, which is its new restart point (R241). -/
def EdgePort.rebase (e : EdgePort) : EdgePort :=
  { e with buf := e.buf.drop e.used, base := e.base + BitVec.ofNat 16 e.used, used := 0, usedMs := 0,
           sbase := e.sbase + BitVec.ofNat 16 e.sent, sent := 0, sentMs := 0 }

/-- The edge lanes that a hall presents when row gives each row's X: k bits of each of 64 rows, the low lanes for a transfer that
moves west (R164). -/
def lanesToken (k : Nat) (low : Bool) (row : Nat → BitVec 64) : BitVec 512 :=
  BitVec.ofNat 512 ((List.range 64).foldl (fun n r =>
    let x := (row r).toNat
    n + (if low then x % 2 ^ k else x / 2 ^ (64 - k)) * 2 ^ (k * r)) 0)

/-- The tokens that a vendor GET sends over a Ramufin edge: FA's bits in the edge lanes of the stream's outer hall. -/
def Dev.ownTokens (d : Dev) (s : StreamId) (j : Job) : List (BitVec 512) :=
  let x := dirOf (j.opc.toNat - 0x30)
  match d.sendPort s x with
  | none => []
  | some p =>
    let h := d.phys (s.val * d.perStream + (if p = 2 then d.perStream - 1 else 0))
    (fieldAddrs j.dA.1).map (fun a => lanesToken x.dist (x.side = 2) (fun r => d.peRead h r a))

/-- Consumes n tokens and sends the stream's own. -/
def Dev.useTokens (d : Dev) (s : StreamId) (x : Dir) (n : Nat) (own : List (BitVec 512)) : Dev :=
  let d := match d.tokenPort s x with
    | none => d
    | some p => d.setEdgePort x.express p { d.edgePort x.express p with used := (d.edgePort x.express p).used + n }
  match d.sendPort s x with
  | none => d
  | some p => forEach own d (fun d t => d.sendToken x.express p t)

/-! Starting the next instruction (R75, R132). -/

/-- Every hall of a stream has an empty flight and runs no entry. -/
def Dev.flightsEmpty (d : Dev) (s : StreamId) : Bool :=
  (d.streamHalls s).all (fun h => match d.arr.hallq[h]? with
    | some q => q.flight.isEmpty && q.transit.isEmpty && q.run.isNone
    | none => true)

/-- A match register redirects a ROM address (R147): the lowest-numbered enabled register that names it. -/
def Dev.matchOf (d : Dev) (a : Nat) : Option Nat :=
  (findIdx 32 (fun n => d.flag (R.SEQ_MATCH_EN n) && d.fld (R.SEQ_MATCH_ROMA n) = a)).map
    (fun n => 0x1C00 + d.fld (R.SEQ_MATCH_TGT n))

/-- The entry address of a vendor routine; the spec gives ADD's. -/
def vendorEntry (opc : BitVec 7) : BitVec 13 := if opc = 0x10 then 0x0120 else Config.romEntry opc

/-- The microstore ROM; the spec gives the three words of ADD. -/
def romWord (a : BitVec 13) : BitVec 48 :=
  if a = 0x0120 then 0x0918038E0000 else if a = 0x0123 then 0x0911712F6496 else if a = 0x0122 then 0x000000008000
  else Config.rom a

def Dev.uErrOf (d : Dev) (a : Nat) : BitVec 55 := bankGet (fun _ => 0) d.arr.uErr a

/-- What a fetch of a microstore word with an error pattern finds (R131). -/
def microFind (e : BitVec 55) : EccFind :=
  match errWeight (e.setWidth 72) with
  | 0 => .good
  | 1 => .corrected
  | 2 => .uncorrectable
  | _ => if Config.microBeyond e = 0 || 56 < Config.microBeyond e then .uncorrectable
         else if Config.microBeyond e = 56 then .good else .corrected

/-- The bits that its fetch delivers wrong. -/
def microWrong (e : BitVec 55) : BitVec 55 :=
  match errWeight (e.setWidth 72) with
  | 0 => 0
  | 1 => 0
  | 2 => e
  | _ => if microFind e = .corrected then e ^^^ BitVec.ofNat 55 (2 ^ (Config.microBeyond e - 1)) else e

/-- A corrected fetch is counted (R131, R150). -/
def Dev.countMicro (d : Dev) (s : StreamId) (a : Nat) : Dev :=
  if microFind (d.uErrOf a) = .corrected then d.addFld (R.SEQ_USTAT_CORR s.val) 1 else d

/-- A vendor routine is run microword by microword when its entry is redirected or holds an uncorrectable word, or, for ADD, when
any of its words is redirected or not valid; every other vendor routine has the whole effect that the instruction's own rule gives
it, as the list of steps has it: each instruction's step is whole and indivisible (95, log entry 20). AMODE issues no microword
(R132). -/
def Dev.redirected (d : Dev) (opc : BitVec 7) : Bool :=
  if opc = 0x6F then false
  else if opc = 0x10 then [0x0120, 0x0122, 0x0123].any (fun a => (d.matchOf a).isSome || d.uErrOf a ≠ 0)
  else (d.matchOf (vendorEntry opc).toNat).isSome || microFind (d.uErrOf (vendorEntry opc).toNat) = .uncorrectable

/-- An instruction that takes an OR sample (R69, R87, R124). -/
def Dev.samples (d : Dev) (s : StreamId) (j : Job) : Bool :=
  let o := j.opc.toNat
  (0x50 ≤ o && o ≤ 0x53) || isFp o || (o = 0x20 && !(d.st s).ct)

/-- The hall cycles of a vendor instruction in the state in which it runs. -/
def Dev.jobCost (d : Dev) (s : StreamId) (j : Job) : Nat :=
  let o := j.opc.toNat
  let g := if o = 0x20 && !(d.st s).ct then some (d.muluGroups s j) else none
  vendorCost o (descWidth j.dD.1) (descWidth j.dA.1) (descWidth j.dB.1) g

/-- The instruction runs microword by microword. -/
def Dev.isMicro (d : Dev) (j : Job) : Bool := isCustomer j.opc.toNat || d.redirected j.opc

/-- The routine would exceed the span limit, which SPAN_OVERRUN then stops (R202). MILESTONE's microwords do not count. -/
def Dev.overSpan (d : Dev) (s : StreamId) (j : Job) : Bool :=
  !d.isMicro j && j.opc ≠ 0x6E && d.fld (R.SEQ_SPAN_LIM s) < (d.st s).span + d.jobCost s j

/-- The routine would exceed the routine limit before its last microword, which ROUTINE_TIMEOUT then stops (R151). The last word of
every vendor routine is taken to cost one hall cycle, as ADD's END does (DEDUCED, log entry 98). -/
def Dev.overTime (d : Dev) (s : StreamId) (j : Job) : Bool :=
  let lim := d.fld R.SEQ_UCTL_UTMO
  !d.isMicro j && lim ≠ 0 && lim * 256 < d.jobCost s j - 1

/-- The tokens of the Ramufin edge that a GET takes; an instruction that is no GET takes none. -/
def Dev.jobTokens (d : Dev) (s : StreamId) (j : Job) : Option (List (BitVec 512)) :=
  let o := j.opc.toNat
  if 0x30 ≤ o && o ≤ 0x37 then d.tokens s (dirOf (o - 0x30)) (descWidth j.dD.1) else some []

/-- A MILESTONE of the stream that contains a logical hall is accepted and has not committed, for which commands wait (R471). -/
def Dev.milestoneOpen (d : Dev) (l : Nat) : Bool := ((d.stream? (d.streamOf l)).map (fun s => !(d.st s).openMilestones.isEmpty)).getD false

/-- A hall image command has a hall of the stream, whose stair has one use at a time (R174, R471). -/
def Dev.imaging (d : Dev) (s : StreamId) : Bool :=
  (d.arr.himg.map (fun p => d.streamOf p.2.val)) = some s.val

/-- A preemption request keeps the stream from going on. Requests wait while a change of SPLIT quiesces (R171). -/
def Dev.stopDue (d : Dev) (s : StreamId) : Bool := (d.st s).preReq && !d.arr.quiesce

/-- No routine runs, no result that must come first is outstanding, and no recovery has the stream. -/
def Dev.issueFree (d : Dev) (s : StreamId) : Bool :=
  let x := d.st s
  x.run == .idle && !(x.smp.map (·.barrier)).getD false && !x.abandon && !d.stopDue s &&
    !(d.arr.replayDue.contains s) && (d.arr.failover.map (·.strm)) ≠ some s &&
    d.arr.retire.all (fun r => r.stage = 3 || (d.logicalOf r.hall.val).map d.streamOf ≠ some s.val)

/-- The same with every flight empty: the state in which a routine that acts whole can begin. -/
def Dev.streamIdle (d : Dev) (s : StreamId) : Bool := d.issueFree s && d.flightsEmpty s

/-- The instruction can begin now. A routine that runs microword by microword follows the one before it without a gap (R132). -/
def Dev.canStart (d : Dev) (s : StreamId) (j : Job) : Bool :=
  d.issueFree s && (d.isMicro j || d.flightsEmpty s) && !(d.imaging s && (j.opc = 0x6C || j.opc = 0x6D)) && !d.overSpan s j && !d.overTime s j && (d.isMicro j || (d.jobTokens s j).isSome) &&
    (!d.samples s j || (d.st s).smp.isNone)

/-- The micro-state at the entry of an instruction (R138): the latch's valid bit and the return micro-stack are cleared. -/
def Micro.enter (m : Micro) (upc : BitVec 13) : Micro :=
  { m with upc := upc, rstk := [], cval := false, sampled := false, cycles := 0, chan := none, waitOr := false,
             safe := false, begun := false, prev := none, hold := none, msWait := false, endWait := false, rep := 0, reported := false }

/-- The use of an instruction's OR sample. -/
def Job.smpUse (j : Job) : SmpUse :=
  let o := j.opc.toNat
  if o = 0x50 || o = 0x51 then .toPred j.core j.sd
  else if o = 0x52 || o = 0x53 then .toData j.core j.sd
  else .toFlag (fpCtlOf j.fpctl).trap j.opc

/-- An undefined micro-state, each element a free value (R138, R172). -/
def Dev.looseMicro (d : Dev) : Micro × Dev :=
  let (n, d) := d.fresh
  let (k, d) := d.fresh
  let (t, d) := d.fresh
  let (r, d) := d.fresh
  let a := Config.freeWord n
  let b := Config.freeWord k
  let c := Config.freeWord t
  let e := Config.freeWord r
  let part (v : BitVec 64) (i : Nat) : BitVec 13 := (v >>> (13 * i)).setWidth 13
  ({ lc := Vector.ofFn (fun i => part a i.val), bp := Vector.ofFn (fun i => part b i.val),
     bstep := Vector.ofFn (fun i => (a >>> (52 + 2 * i.val)).setWidth 2),
     tb := part c 0, tl := part c 1, upc := part c 2, cval := c.getLsbD 39, hor := (c >>> 40).setWidth 16,
     rstk := (List.range (min 4 ((c >>> 56).toNat % 8))).map (part e) }, d)

/-- A vendor routine leaves in the counters, the pointers, TB and TL what its microwords put there (R138): free values, but for ADD,
whose words the spec gives. At its entry the condition latch is not valid and the return micro-stack is empty. -/
def Dev.vendorMicro (d : Dev) (s : StreamId) (j : Job) : Dev :=
  if j.opc = 0x10 then
    let past (w0 : Word) : BitVec 13 :=
      BitVec.ofNat 13 (if descDown w0 then descBase w0 + 8192 - descWidth w0 else descBase w0 + descWidth w0)
    let st (w0 : Word) : BitVec 2 := if descDown w0 then 3 else 1
    d.modSt s (fun x => { x with micro := { x.micro.enter 0x0122 with
      lc := x.micro.lc.set 0 0,
      bp := ((x.micro.bp.set 0 (past j.dA.1)).set 1 (past j.dB.1)).set 2 (past j.dD.1),
      bstep := ((x.micro.bstep.set 0 (st j.dA.1)).set 1 (st j.dB.1)).set 2 (st j.dD.1) } })
  else
    let (m, d) := d.looseMicro
    d.modSt s (fun x => { x with micro := { x.micro.enter m.upc with lc := m.lc, bp := m.bp, bstep := m.bstep, tb := m.tb, tl := m.tl, hor := x.micro.hor } })

/-- Runs a vendor instruction whole (R75): its effect on the PEs, its OR sample, its cost in the span sum. -/
def Dev.runVendor (d : Dev) (s : StreamId) (j : Job) : Dev :=
  let o := j.opc.toNat
  let cost := d.jobCost s j
  let toks := (d.jobTokens s j).getD []
  let takes := (0x50 ≤ o && o ≤ 0x53) || isFp o
  let bits := if takes then d.orBits s.val j else 0
  let halls := (d.streamHalls s.val).foldl (fun v h => setBit v h true) (0 : BitVec 16)
  let own := d.ownTokens s j
  let d := d.twinStream s.val
  let d := d.vendorEffect s.val j toks
  let d := if 0x30 ≤ o && o ≤ 0x37 then d.useTokens s (dirOf (o - 0x30)) (descWidth j.dD.1) own else d
  (d.vendorMicro s j).modSt s (fun x => { x with
    span := x.span + cost,
    smp := if takes then some ⟨j.smpUse, bits, halls, 0, o = 0x51 || o = 0x53, j.idx, j.delivered, []⟩ else x.smp })

/-- The STREAM channel of a transfer opens (R176). -/
def Dev.openChan (d : Dev) (s : StreamId) (ch : Nat) : Dev :=
  let d := d.setFlag (R.STAIR_CHSTAT_OPEN ch) true
  d.forHalls s.val (fun d h => d.modHq h (fun q => { q with chan := some (BitVec.ofNat 3 ch, 0), waited := false }))

def Dev.closeChan (d : Dev) (s : StreamId) (ch : Nat) : Dev :=
  let d := d.setFlag (R.STAIR_CHSTAT_OPEN ch) false
  d.forHalls s.val (fun d h => d.modHq h (fun q => { q with chan := none, waited := false }))

/-- Begins an instruction that can start. A vendor routine that runs whole fetches its entry word. -/
def Dev.begin (d : Dev) (s : StreamId) (j : Job) : Dev :=
  let o := j.opc.toNat
  if d.isMicro j then
    let e := if isCustomer o then BitVec.ofNat 13 (0x1E00 + bits j.cdt.toNat 8 0) else vendorEntry j.opc
    d.modSt s (fun x => { x with run := .micro j, micro := x.micro.enter e })
  else if o = 0x6F then d.modSt s (fun x => { x with ct := j.sd = 1 })
  else
  let d := d.countMicro s (vendorEntry j.opc).toNat
  if o = 0x6E then ((d.twinStream s.val).vendorMicro s j).modSt s (fun x => { x with run := .mstone j 0 })
  else if o = 0x6C || o = 0x6D then
    (((d.twinStream s.val).vendorMicro s j).modSt s (fun x => { x with run := .xfer j 0 0, span := x.span + d.jobCost s j })).openChan
      s j.sb.toNat
  else d.runVendor s j

/-- Enters a routine that runs microword by microword (R130, R132, R138). -/
def Dev.enterRoutine (d : Dev) (s : StreamId) (j : Job) (entry : BitVec 13) : Dev :=
  d.modSt s (fun x => { x with run := .micro j, micro := x.micro.enter entry })

/-- Starts the next waiting instruction when it can start (R132). -/
def Dev.startNext (d : Dev) (s : StreamId) : Dev :=
  match (d.st s).jobs with
  | [] => d
  | j :: r => if d.canStart s j then (d.modSt s (fun x => { x with jobs := r })).begin s j else d

/-- ROUTINE_START (R132): as startNext, but ADD, whose three words the spec gives, runs microword by microword, so that it can be
stopped between them (R154). -/
def Dev.startQueued (d : Dev) (s : StreamId) : Dev :=
  match (d.st s).jobs with
  | [] => d
  | j :: r =>
    if j.opc = 0x10 && !d.isMicro j && d.issueFree s then
      (d.modSt s (fun x => { x with jobs := r })).enterRoutine s j (vendorEntry j.opc)
    else d.startNext s

/-- The target register of AGOR or HOR is pending in the issuing core from its issue (R98). -/
def Dev.markPending (d : Dev) (j : Job) : Dev :=
  let o := j.opc.toNat
  d.modCo j.core (fun k =>
    if o = 0x50 || o = 0x51 then { k with pendP := setBit k.pendP (j.sd.toNat % 8) true }
    else if o = 0x52 || o = 0x53 then { k with pendD := setBit k.pendD (j.sd.toNat % 16) true } else k)

/-- A floating-point instruction with TRAP = 1 holds its core at the next instruction (R125). -/
def Dev.markHold (d : Dev) (s : StreamId) (j : Job) : Dev :=
  if isFp j.opc.toNat && (fpCtlOf j.fpctl).trap then d.modSt s (fun x => { x with fpHold := true }) else d

/-- One array instruction as its core reaches it (R20, R74, R75, R103, R279): the core that owns no stream takes the
illegal-instruction trap; a false condition costs its cycle; a refusal is recorded and takes the array-fault trap; an accepted
instruction is queued and runs at once when the stream is idle. -/
def Dev.arrayIssue (d : Dev) (opc : Nat) (a : AOp) : Dev :=
  let c := a.core
  d.instr c 4 [] [] (fun d =>
    if !d.ownsStream c then d.trapHere c .illegal
    else if (d.co c).pendP.getLsbD a.pred.p.toNat then d
    else d.pred c a.pred (fun d =>
      let s : StreamId := c
      let j := d.makeJob s opc a
      if opc = 0x4C && ((d.co c).pendD.getLsbD (a.sa.toNat % 16) || (d.co c).pendD.getLsbD (a.sb.toNat % 16)) then d
      else if (opc = 0x50 || opc = 0x51) && (d.co c).pendP.getLsbD (a.sd.toNat % 8) then d
      else if (opc = 0x52 || opc = 0x53) && (d.co c).pendD.getLsbD (a.sd.toNat % 16) then d
      else match d.judge s j with
      | .stall =>
        if d.gateStops s then
          d.setFlag (R.LINE_GSTAT_WAIT s) true else d
      | .refuse code n v => (d.arrayFault s opc code n v).trapHere c .array
      | .accept =>
        let k := d.co c
        if opc = 0x4C then
          (d.loadDescriptor s a.sd (k.rd (a.sa.setWidth 4)) (k.rd (a.sb.setWidth 4))).modCo c (fun k => k.advance 4 1)
        else
          let idle := (d.st s).jobs.isEmpty
          let d := (((d.enqueue s j).markPending j).markHold s j).modCo c (fun k => k.advance 4 1)
          if idle then d.startNext s else d))

/-! OR results (R69 to R71, R98, R204). -/

/-- A report of an upset of a stream waits at the recovery logic: nothing is delivered meanwhile (R204). -/
def Dev.upsetPending (d : Dev) (s : StreamId) : Bool :=
  d.arr.reports.any (fun r =>
    let h := match r with | .upset h _ _ _ => h | .dead h => h
    (d.logicalOf h.val).map d.streamOf = some s.val)

/-- Marks a log entry delivered (R203). -/
def Strm.setDelivered (x : Strm) (i : Nat) : Strm :=
  { x with log := x.log.map (fun j => if j.idx = i then { j with delivered := true } else j) }

/-- Writes a result to a core's register, which is then no longer pending. -/
def Dev.deliver (d : Dev) (s : StreamId) (m : Smp) : Dev :=
  match m.use with
  | .latch => d
  | .toPred c n => d.modCo c (fun k =>
      let k := { k with pendP := setBit k.pendP (n.toNat % 8) false }
      k.wrp (n.setWidth 3) (m.bits ≠ 0))
  | .toData c n => d.modCo c (fun k =>
      let k := { k with pendD := setBit k.pendD (n.toNat % 16) false }
      k.wrd (n.setWidth 4) (m.bits.setWidth 32))
  | .toFlag trap opc =>
    let d := if m.bits ≠ 0 then d.setFlag (R.SEQ_FPST_AF s) true else d
    if trap then d.modSt s (fun x => if m.bits ≠ 0 then { x with fpTrap := some opc } else { x with fpHold := false }) else d

/-- A hall's release of a sample (R204): its upset window has passed. -/
def Dev.releaseOr (d : Dev) (s : StreamId) (h : LHall) : Dev :=
  d.modSt s (fun x => { x with smp := x.smp.map (fun m => { m with release := setBit m.release h.val true }) })

/-- The halls of a stream as a 16-bit mask. -/
def Dev.hallMask (d : Dev) (s : StreamId) : BitVec 16 := (d.streamHalls s.val).foldl (fun v h => setBit v h true) 0

/-- The OR result is formed when every hall of the stream has contributed and released, and no upset is pending (R70, R204): it
enters the condition latch, and is delivered once. The next sample then has the tree (R71). -/
def Dev.formOr (d : Dev) (s : StreamId) : Dev :=
  match (d.st s).smp with
  | none => d
  | some m =>
    let all := d.hallMask s
    if (m.contrib &&& all) = all && (m.release &&& all) = all && !d.upsetPending s then
      let d := d.modSt s (fun x => { x with
        smp := x.smpq.head?,
        smpq := x.smpq.tail,
        micro := { x.micro with hor := m.bits, cval := x.smpq.isEmpty, waitOr := x.micro.waitOr && !x.smpq.isEmpty } })
      if m.quiet || m.use == .latch then d
      else (forEach m.also (d.deliver s m) (fun d u => d.deliver s { m with use := u })).modSt s (fun x => x.setDelivered m.idx)
    else d

end Sys2Proof.Machine
end

