-- ==== Sys2Proof/Machine/Stair.lean ====
section
/-! DEFINITION. The stairs: where a channel's transfer lies, the two formats, moving a hall's share, flow conditions
(R173 to R181). -/

namespace Sys2Proof.Machine

/-- The gallery offset of byte b of hall h's transfer that starts at position p (R178). -/
def Dev.chanByte (d : Dev) (ch h p b : Nat) : Nat :=
  let ring := d.fld (R.STAIR_CHRING_RLEN ch) * 512
  d.fld (R.STAIR_CHBASE_OFF ch) * 64 + h * d.fld (R.STAIR_CHRING_HSTR ch) * 512 +
    (if ring = 0 then p * 512 + b else (p * 512 + b) % ring)

/-- The PE of element n under ORDER (R179): its row and lane. -/
def elemPe (order : Bool) (n : Nat) : Nat × Nat := if order then (n % 64, n / 64) else (n / 64, n % 64)

/-- The element number of a PE. -/
def peElem (order : Bool) (row lane : Nat) : Nat := if order then 64 * lane + row else 64 * row + lane

/-- A hall's transfer as 64-bit words in gallery order: the word of each block of 8 bytes. The ring length is a multiple of 64
bytes, so no word wraps. -/
def Dev.chanWord (d : Dev) (ch h p i : Nat) : Nat := d.chanByte ch h p (8 * i) / 8

/-- Bit k of a transfer's data. -/
def Dev.chanBit (d : Dev) (ch h p k : Nat) : Bool := (d.galWord (d.chanWord ch h p (k / 64))).1.getLsbD (k % 64)

/-- The plane that STRIN gives bit i of a w-bit field in one row (R179). -/
def Dev.chanInPlane (d : Dev) (ch h p i row : Nat) : BitVec 64 :=
  if d.flag (R.STAIR_CHCFG_FMT ch) then
    let e := 2 ^ d.fld (R.STAIR_CHCFG_EW ch)
    let order := d.flag (R.STAIR_CHCFG_ORDER ch)
    packLanes (fun l =>
      let n := peElem order row l
      if i < e then d.chanBit ch h p (n * e + i)
      else d.flag (R.STAIR_CHCFG_SEXT ch) && d.chanBit ch h p (n * e + e - 1))
  else packLanes (fun l => d.chanBit ch h p (i * 4096 + row * 64 + l))

/-- The words of a transfer of T PU. -/
def transferWords (t : Nat) : Nat := t * 64

/-- Counts the reads of a transfer's words (R186): an uncorrectable word is delivered as read and sets UERR. -/
def Dev.chanCount (d : Dev) (ch h p t : Nat) : Dev :=
  forEach (List.range (transferWords t)) d (fun d i =>
    let w := d.chanWord ch h p i
    let r := (d.galWord w).2
    let d := d.galCount w r true
    if r == .uncorrectable then d.setFlag (R.STAIR_CHSTAT_UERR ch) true else d)

/-- Applies f to each row in the cycles of a transfer of w bits (R173): eight rows at a time, one bit in each cycle. -/
def Dev.stairRows (d : Dev) (w : Nat) (f : Dev → Nat → Dev) : Dev :=
  (forEach (List.range 64) d (fun e row => f (e.atCyc (d.arr.cyc + row / 8 * w)) row)).atCyc (d.arr.cyc + 8 * w)

/-- STRIN in one hall (R100, R179): FD of its active PEs takes the next w bits; the writes count as covering every lane
of a row (R52, R173), so none raises an upset; an inactive PE keeps its bit. -/
def Dev.strinHall (d : Dev) (j : Job) (h : Nat) : Dev :=
  let ch := j.sb.toNat
  let aD := fieldAddrs j.dD.1
  let p := d.fld (R.STAIR_CHWPOS_POS ch)
  let d0 := d
  let ph := d.phys h
  let d := (d.chanCount ch h p (d.chanUnits ch aD.length)).tick
  d.stairRows aD.length (fun d row =>
    forEach aD.zipIdx d (fun d q => (d.peStore false ph row q.1 (d.act ph row) (d0.chanInPlane ch h p q.2 row)).tick))

/-- Bit k of the data that STROUT sends, when src gives bit i of FA in a row and lane (R179). -/
def outBit (fmt order : Bool) (e wa : Nat) (src : Nat → Nat → Nat → Bool) (k : Nat) : Bool :=
  if fmt then
    let pe := elemPe order (k / e)
    k % e < wa && src (k % e) pe.1 pe.2
  else src (k / 4096) (k % 4096 / 64) (k % 64)

/-- STROUT in one hall: FA of every PE, whatever its ACT, to the gallery; its reads are decoded and counted (R173). -/
def Dev.stroutHall (d : Dev) (j : Job) (h : Nat) : Dev :=
  let ch := j.sb.toNat
  let aA := fieldAddrs j.dA.1
  let p := d.fld (R.STAIR_CHWPOS_POS ch)
  let t := d.chanUnits ch aA.length
  let ph := d.phys h
  let d0 := d
  let rows : List (List (BitVec 64)) := (List.range 64).map (fun row => d0.rowField ph row aA)
  let src (i row l : Nat) : Bool := ((rows.getD row []).getD i 0).getLsbD l
  let d := d.tick.stairRows aA.length (fun d row => d.accountField ph row aA .stair)
  let fmt := d.flag (R.STAIR_CHCFG_FMT ch)
  let order := d.flag (R.STAIR_CHCFG_ORDER ch)
  let e := 2 ^ d.fld (R.STAIR_CHCFG_EW ch)
  forEach (List.range (transferWords t)) d (fun d i =>
    d.galPut (d.chanWord ch h p i)
      (BitVec.ofNat 64 (ofBits ((List.range 64).map (fun b => outBit fmt order e aA.length src (64 * i + b))))))

/-- The flow condition of a transfer at the working position (R180), on differences modulo 2^24. -/
def Dev.flowOk (d : Dev) (j : Job) : Bool :=
  let ch := j.sb.toNat
  let p := d.fld (R.STAIR_CHWPOS_POS ch)
  let lim := d.fld (R.STAIR_CHLIMIT_POS ch)
  if j.opc = 0x6C then d.chanUnits ch (descWidth j.dD.1) ≤ (lim + 2 ^ 24 - p) % 2 ^ 24
  else (p + d.chanUnits ch (descWidth j.dA.1) + 2 ^ 24 - lim) % 2 ^ 24 ≤ d.fld (R.STAIR_CHRING_RLEN ch)

/-- The gallery region of a channel is under a destructive march: its transfers wait (R195). -/
def Dev.chanMarched (d : Dev) (ch : Nat) : Bool :=
  (match d.gal.march with | some (_, pres, rgn) => !pres && rgn.getLsbD 0 | none => false) && d.flag (R.STAIR_CHCFG_EN ch)

/-- WPOS after a transfer that every hall has completed (R178). -/
def Dev.advanceChan (d : Dev) (j : Job) : Dev :=
  let ch := j.sb.toNat
  let t := d.chanUnits ch (descWidth (if j.opc = 0x6C then j.dD.1 else j.dA.1))
  d.setFld (R.STAIR_CHWPOS_POS ch) ((d.fld (R.STAIR_CHWPOS_POS ch) + t) % 2 ^ 24)

/-- One plane unit of a hall in plane format as the 64 words it occupies (R179): word r holds row r. -/
def Dev.planeUnit (d : Dev) (ph a : Nat) : List (BitVec 64) := (List.range 64).map (fun row => d.peRead ph row a)

/-- Writes a plane unit into every PE of a hall: each write covers every lane of its row (R173). -/
def Dev.writeUnit (d : Dev) (ph a : Nat) (ws : List (BitVec 64)) : Dev :=
  d.tick.stairRows 1 (fun d row => d.peWrite ph row a (BitVec.allOnes 64) (ws.getD row 0))

/-- Decodes a plane unit for the stair: each row is counted in its cycle (R55, R173). -/
def Dev.countUnit (d : Dev) (ph a : Nat) (raises : Bool) : Dev :=
  d.tick.stairRows 1 (fun d row => d.account ph row a .stair raises)

end Sys2Proof.Machine
end

