-- ==== Sys2Proof/Machine/MicroHall.lean ====
section
/-! DEFINITION. A hall executes flight entries: the entry's fields, one hall cycle of each PE-side micro-op, stalls, edge tokens
(R38, R44 to R46, R69, R71, R139, R140, R161 to R165). -/

namespace Sys2Proof.Machine

/-! Flight entries (R161). -/

def feOp (e : BitVec 80) : Nat := bits e.toNat 5 0
def feTt (e : BitVec 80) : Nat := bits e.toNat 13 6
def feAadr (e : BitVec 80) : BitVec 13 := e.extractLsb' 14 13
def feAstep (e : BitVec 80) : BitVec 2 := e.extractLsb' 27 2
def feBadr (e : BitVec 80) : BitVec 13 := e.extractLsb' 29 13
def feBstep (e : BitVec 80) : BitVec 2 := e.extractLsb' 42 2
def feWadr (e : BitVec 80) : BitVec 13 := e.extractLsb' 44 13
def feWstep (e : BitVec 80) : BitVec 2 := e.extractLsb' 57 2
def feXarg (e : BitVec 80) : Nat := bits e.toNat 71 59
def feCnt (e : BitVec 80) : Nat := bits e.toNat 75 72
def feLast (e : BitVec 80) : Bool := e.getLsbD 77
def feRep (e : BitVec 80) : Bool := e.getLsbD 78

/-- Even parity of 8 bits from bit k. -/
def parityBit (v : Nat) (k : Nat) : Bool := ((List.range 8).filter (fun i => v.testBit (k + i))).length % 2 = 1

/-- The ten parity bits above the 80 data bits. -/
def withParity (e : BitVec 80) : BitVec 90 :=
  (BitVec.ofNat 10 (ofBits ((List.range 10).map (fun k => parityBit e.toNat (8 * k))))).append e

/-- A stored entry's parity agrees with its data. -/
def parityOk (x : BitVec 90) : Bool := withParity (x.setWidth 80) = x

/-- A pointer's address after n cycles: the step is 0b00 none, 0b01 +1, 0b11 −1; addresses wrap modulo 8,192. -/
def stepBy (a : BitVec 13) (st : BitVec 2) (n : Nat) : BitVec 13 :=
  if st = 1 then a + BitVec.ofNat 13 n else if st = 3 then a - BitVec.ofNat 13 n else a

/-! OP1 forms (R140). -/

/-- The form reads RA, the form reads RB, the form writes. -/
def usesRa (op : Nat) : Bool :=
  op ∈ [0x01, 0x02, 0x04, 0x28, 0x2A, 0x2B, 0x2D, 0x31] || (0x08 ≤ op && op ≤ 0x0D) || (0x10 ≤ op && op ≤ 0x15) ||
    (0x18 ≤ op && op ≤ 0x1D) || (0x20 ≤ op && op ≤ 0x27)
def usesRb (op : Nat) : Bool := op ∈ [0x29, 0x2A, 0x2C, 0x2D] || (0x08 ≤ op && op ≤ 0x0D) || (0x18 ≤ op && op ≤ 0x1D)
def usesW (op : Nat) : Bool := op ∈ [0x06, 0x30] || (0x08 ≤ op && op ≤ 0x0D) || (0x10 ≤ op && op ≤ 0x15) || (0x20 ≤ op && op ≤ 0x27)

/-- A defined OP1 code. -/
def op1Ok (op : Nat) : Bool :=
  op ≤ 0x0D || (0x10 ≤ op && op ≤ 0x15) || (0x18 ≤ op && op ≤ 0x1D) || (0x20 ≤ op && op ≤ 0x2D) || op = 0x30 || op = 0x31

/-- R of a truth table, plane by plane: bit (4a + 2b + C) of TT. -/
def ttPlane (tt : Nat) (a b c : BitVec 64) : BitVec 64 :=
  (List.range 8).foldl (fun r i =>
    if tt.testBit i then
      r ||| ((if i.testBit 2 then a else ~~~a) &&& (if i.testBit 1 then b else ~~~b) &&& (if i.testBit 0 then c else ~~~c))
    else r) 0

/-- The carry rule v (R140). -/
def carryRule (v : Nat) (a b c r : BitVec 64) : BitVec 64 :=
  match v with
  | 1 => (a &&& b) ||| (a &&& c) ||| (b &&& c)
  | 2 => r
  | 3 => a
  | 4 => 0
  | 5 => BitVec.allOnes 64
  | _ => c

/-! Edge latches (R164). -/

def Dev.edgeLatch (d : Dev) (h lat : Nat) : List (BitVec 512 × BitVec 64) := bankGet (fun _ => []) d.arr.edge (4 * h + lat)
def Dev.setEdgeLatch (d : Dev) (h lat : Nat) (l : List (BitVec 512 × BitVec 64)) : Dev :=
  { d with arr := { d.arr with edge := bankSet (fun _ => []) d.arr.edge (4 * h + lat) l } }

/-- The latch that a GET of a direction consumes: 0 NEWS from west, 1 NEWS from east, 2 and 3 express. -/
def Dir.latchNo (x : Dir) : Nat := 2 * bn x.express + bn (x.side = 2)

/-- What lies at one end of a GET: another hall, a Ramufin port, or nothing (zero mode). -/
inductive EdgeEnd where
  | hall (h : Nat)
  | port (p : Fin 4)
  | zero
deriving DecidableEq, Repr

/-- The hall, or other end, to the east (true) or west of a hall of stream s (R65, R164). -/
def Dev.edgeEnd (d : Dev) (s : StreamId) (h : Nat) (east : Bool) : EdgeEnd :=
  let first := s.val * d.perStream
  let last := first + d.perStream - 1
  if east then
    if h < last then .hall (h + 1) else if d.edgeEast s.val = 1 then .hall first
    else if d.edgeEast s.val = 2 && s.val + 1 = d.numStreams then .port 2 else .zero
  else
    if first < h then .hall (h - 1) else if d.edgeWest s.val = 1 then .hall last
    else if d.edgeWest s.val = 2 && s = 0 then .port 0 else .zero

/-- A token with its parity: one even-parity bit for each 8 data bits (R164). -/
def tokenParity (t : BitVec 512) : BitVec 64 := BitVec.ofNat 64 (ofBits ((List.range 64).map (fun k => parityBit t.toNat (8 * k))))

/-- The edge lanes of X that a hall presents: k bits of each of 64 rows, the low lanes for a transfer that moves west. -/
def Dev.edgeLanes (d : Dev) (ph k : Nat) (low : Bool) : BitVec 512 := lanesToken k low (fun row => d.latch ph 0 row .x)

/-! One hall cycle (R38, R140). -/

/-- The hall's channel and its progress. -/
def HallQ.chanCycle (q : HallQ) : Option (Nat × Nat) :=
  match q.chan with
  | some (ch, n + 1) => some (ch.toNat, n)
  | _ => none

/-- The field width that the open channel's transfer moves: FD of an in channel, FA of an out channel. -/
def Dev.chanWidth (d : Dev) (s : StreamId) (ch : Nat) : Nat :=
  match (d.st s).run.job? with
  | some j => descWidth (if d.flag (R.STAIR_CHCFG_DIR ch) then j.dA.1 else j.dD.1)
  | none => 1

/-- The cycle is one of a GET that draws data across hall edges (R164). -/
def crossGet (op : Nat) : Bool := 0x20 ≤ op && op ≤ 0x27 && 2 ≤ op % 4

/-- The token that a cross-edge GET of hall h needs next has not arrived (R163). -/
def Dev.tokenMissing (d : Dev) (s : StreamId) (h : LHall) (op : Nat) : Bool :=
  let x := dirOf op
  match d.edgeEnd s h.val (x.side = 2) with
  | .hall _ => (d.edgeLatch h.val x.latchNo).isEmpty
  | .port p => ((d.edgePort x.express p).buf.drop (d.edgePort x.express p).used).isEmpty
  | .zero => false

/-- The edge latch into which a cross-edge GET of hall h pushes is full (R164). -/
def Dev.latchFull (d : Dev) (s : StreamId) (h : LHall) (op : Nat) : Bool :=
  let x := dirOf op
  match d.edgeEnd s h.val (x.side ≠ 2) with
  | .hall g => 4 ≤ (d.edgeLatch g x.latchNo).length
  | _ => false

/-- The cause for which the next cycle of an entry stalls (R163), if any; pushed tells whether its token has been pushed. -/
def Dev.cycleStall (d : Dev) (s : StreamId) (h : LHall) (op : Nat) (pushed : Bool := false) : Option Nat :=
  if crossGet op then
    if d.tokenMissing s h op || (!pushed && d.latchFull s h op) then some 1 else none
  else if op = 0x01 then
    match (d.st s).smp with
    | some m => if m.contrib.getLsbD h.val then some 2 else none
    | none => none
  else if op = 0x30 || op = 0x31 then
    match (d.hq h).chanCycle with
    | some (ch, k) => if 8 * d.chanWidth s ch ≤ k || d.chanMarched ch then some 3 else none
    | none => some 3
  else none

/-- A cross-edge GET cycle pushes the hall's edge lanes at its start, also when it then waits for its own token (R164). -/
def Dev.pushToken (d : Dev) (s : StreamId) (h ph : Nat) (x : Dir) : Dev :=
  let own := d.edgeLanes ph x.dist (x.side = 2)
  match d.edgeEnd s h (x.side ≠ 2) with
  | .hall g => d.setEdgeLatch g x.latchNo (d.edgeLatch g x.latchNo ++ [(own, tokenParity own)])
  | .port p => d.sendToken x.express p own
  | .zero => d

/-- The push of a cycle that has not pushed and finds room. -/
def Dev.pushFor (d : Dev) (s : StreamId) (h : LHall) (r : HRun) : Dev :=
  if crossGet (feOp r.e) && !r.pushed && !d.latchFull s h (feOp r.e) then
    (d.pushToken s h.val (d.phys h.val) (dirOf (feOp r.e))).modHq h (fun q => { q with run := some { r with pushed := true } })
  else d

/-- A cross-edge GET cycle consumes a token (R164). -/
def Dev.exchange (d : Dev) (s : StreamId) (h ph : Nat) (x : Dir) : BitVec 512 × Dev :=
  match d.edgeEnd s h (x.side = 2) with
  | .hall _ =>
    match d.edgeLatch h x.latchNo with
    | [] => (0, d)
    | (t, p) :: r =>
      let d := d.setEdgeLatch h x.latchNo r
      (t, if p = tokenParity t then d else d.upset ph ⟨3, false, 0, 0, 0⟩)
  | .port p =>
    let e := d.edgePort x.express p
    (((e.buf.drop e.used).head?).getD 0, d.setEdgePort x.express p { e with used := e.used + 1 })
  | .zero => (0, d)

/-- The neighbour plane of one row in a GET cycle, from the X planes at the start of the cycle. -/
def Dev.cyclePlane (d : Dev) (ph row : Nat) (x : Dir) (tok : BitVec 512) : BitVec 64 :=
  let k := x.dist
  let src (r : Nat) : BitVec 64 := d.latch ph 0 r .x
  match x.side with
  | 0 => if k ≤ row then src (row - k) else if d.edgeNS = 1 then src (row + 64 - k) else 0
  | 1 => if row + k < 64 then src (row + k) else if d.edgeNS = 1 then src (row + k - 64) else 0
  | 2 => fromEast k (src row) (tokenEast k tok row)
  | _ => fromWest k (src row) (tokenWest k tok row)

/-- Sets C under ACT in one copy of a row (R36). -/
def Dev.setC (d : Dev) (h copy row : Nat) (v : BitVec 64) : Dev :=
  d.setLatch h copy row .c (merge (d.latch h copy row .act) (d.latch h copy row .c) v)

/-- The ALU forms in one row: LOGIC, LOGICY and TEST (op from 0x08 to 0x1D). a and b0 are the read data. -/
def Dev.aluRow (d : Dev) (op tt h row : Nat) (wadr : Nat) (a b0 : BitVec 64) : Dev :=
  let v := op % 8
  let b (k : Nat) : BitVec 64 := if 0x10 ≤ op && op ≤ 0x15 then d.latch h k row .y else b0
  let r (k : Nat) : BitVec 64 := ttPlane tt a (b k) (d.latch h k row .c)
  let d0 := d
  let d := forEach [0, 1] d (fun d k =>
    let d := if v = 0 then d else d.setC h k row (carryRule v a (b k) (d0.latch h k row .c) (r k))
    if 0x18 ≤ op then d.setLatch h k row .y (r k) else d)
  if 0x18 ≤ op then d else d.peWrite h row wadr (d0.act h row) (r 0)

/-- The latch loads LDX and LDY (0x28 to 0x2D), in every PE. -/
def Dev.loadRow (d : Dev) (op tt h row : Nat) (a b : BitVec 64) : Dev :=
  forEach [0, 1] d (fun d k =>
    let v := match op % 8 with
      | 0 | 3 => a
      | 1 | 4 => b
      | _ => ttPlane tt a b (d.latch h k row .c)
    d.setLatch h k row (if op ≤ 0x2A then .x else .y) v)

/-- An indexed read in one row (R44 to R46): base tb, length tl, entry bit j; the plane a receives. -/
def Dev.indexRow (d : Dev) (h row tb tl j : Nat) : BitVec 64 × Dev :=
  let act := d.act h row
  let i0 := d.idxOf h 0 row
  let i1 := d.idxOf h 1 row
  let out (l : Nat) : Bool := act.getLsbD l && (tl ≤ j + i0 l || tl ≤ j + i1 l)
  let ra (l : Nat) : Bool := d.rawBit h row ((tb + j + i0 l) % 8192) l
  let rb (l : Nat) : Bool := d.rawBit h row ((tb + tl + j + i1 l) % 8192) l
  let reads (l : Nat) : Bool := act.getLsbD l && !out l
  let wrong := (List.range 64).filter (fun l => reads l && ra l == rb l)
  let a := packLanes (fun l => reads l && ra l && !rb l)
  let d := forEach [0, 1] d (fun d k => d.setLatch h k row .oow (d.latch h k row .oow ||| packLanes out))
  match wrong with
  | [] => (a, d)
  | l :: r => (a, d.upset h ⟨2, !r.isEmpty, BitVec.ofNat 7 (physCol (d.retired h) l), BitVec.ofNat 6 row,
      BitVec.ofNat 13 ((tb + j + i0 l) % 8192)⟩ (some ((tb + tl + j + i0 l) % 8192)))

/-- Puts one bit of a transfer into the gallery (R178). -/
def Dev.putChanBit (d : Dev) (ch h p k : Nat) (v : Bool) : Dev :=
  let w := d.chanWord ch h p (k / 64)
  d.galPut w (setBit (d.word64 (galBase + 8 * w)) (k % 64) v)

/-- Sends one row's plane as bit i of a field of w bits to the channel (R179): the element's higher bits are 0. -/
def Dev.sendRow (d : Dev) (ch h p i w row : Nat) (a : BitVec 64) : Dev :=
  if d.flag (R.STAIR_CHCFG_FMT ch) then
    let e := 2 ^ d.fld (R.STAIR_CHCFG_EW ch)
    forEach (List.range 64) d (fun d l =>
      let n := peElem (d.flag (R.STAIR_CHCFG_ORDER ch)) row l
      let d := if i < e then d.putChanBit ch h p (n * e + i) (a.getLsbD l) else d
      if i + 1 = w then forEach (List.range e) d (fun d k => if w ≤ k then d.putChanBit ch h p (n * e + k) false else d) else d)
  else d.galPut (d.chanWord ch h p (i * 64 + row)) a

/-- One hall cycle of an entry in every row of a hall (R38, R140). -/
def Dev.hallCycle (d : Dev) (s : StreamId) (h : LHall) (r : HRun) : Dev :=
  let op := feOp r.e
  let tt := feTt r.e
  let ph := d.phys h.val
  let a := r.aadr.toNat
  let b := r.badr.toNat
  let w := r.wadr.toNat
  let d0 := d
  let ch := ((d.hq h).chanCycle).getD (0, 0)
  let cw := d.chanWidth s ch.1
  let pos := d.fld (R.STAIR_CHWPOS_POS ch.1)
  let x := dirOf op
  let get := 0x20 ≤ op && op ≤ 0x27
  let (tok, d) := if get && 2 ≤ x.side then d.exchange s h.val ph x else (0, d)
  let d := if op = 0x01 then d.modSt s (fun y => { y with smp := y.smp.map (fun m =>
      { m with contrib := setBit m.contrib h.val true,
               bits := setBit m.bits h.val ((List.range 64).any (fun row =>
                 (ttPlane tt (d0.peRead ph row a) (d0.latch ph 0 row .y) (d0.latch ph 0 row .c) &&& d0.act ph row) ≠ 0)) }) })
    else d
  let d := if op = 0x30 || op = 0x31 then
      d.modHq h (fun q => { q with chan := q.chan.map (fun p => (p.1, p.2 + 1)) }) else d
  let rows := if op = 0x30 || op = 0x31 then (List.range 8).map (fun i => 8 * (ch.2 / cw) + i) else List.range 64
  forEach rows d (fun d row =>
    let va := if usesRa op then d0.peRead ph row a else 0
    let vb := if usesRb op then d0.peRead ph row b else 0
    let reads := usesRa op && !(op = 0x02 && !(1 ≤ tt && tt ≤ 3))
    let d := if reads then d.account ph row a (if op = 0x31 then .stair else .ra) true else d
    let d := if usesRb op then d.account ph row b .rb true else d
    let act := d0.act ph row
    if op = 0x02 then (d.actOp (tt % 8) ph 0 row va).actOp (tt % 8) ph 1 row va
    else if op = 0x03 then forEach [0, 1] d (fun d k =>
      let m := d.latch ph k row .act
      (d.setIdx ph k row m (fun _ => 0)).setLatch ph k row .oow (d.latch ph k row .oow &&& ~~~m))
    else if op = 0x04 then forEach [0, 1] d (fun d k =>
      d.setIdx ph k row (d0.latch ph k row .act &&& va) (fun l => min (d0.idxOf ph k row l + r.lc3) 0x1FFF))
    else if op = 0x05 then (d.indexRow ph row a (feXarg r.e) b).2
    else if op = 0x06 then
      let (v, d) := d.indexRow ph row a (feXarg r.e) b
      d.peWrite ph row w act (v &&& ~~~(d.latch ph 0 row .oow))
    else if op = 0x07 then forEach [0, 1] d (fun d k =>
      let m := d0.latch ph k row .act
      let d := (d.setLatch ph k row .x 0).setLatch ph k row .y 0
      ((d.setC ph k row 0).setIdx ph k row m (fun _ => 0)).setLatch ph k row .oow (d0.latch ph k row .oow &&& ~~~m))
    else if (0x08 ≤ op && op ≤ 0x0D) || (0x10 ≤ op && op ≤ 0x15) || (0x18 ≤ op && op ≤ 0x1D) then d.aluRow op tt ph row w va vb
    else if get then
      (d.setTwin ph row .x va).peWrite ph row w act (d0.cyclePlane ph row x tok)
    else if 0x28 ≤ op && op ≤ 0x2D then d.loadRow op tt ph row va vb
    else if op = 0x30 then d.peStore false ph row w act (d0.chanInPlane ch.1 h.val pos (ch.2 % cw) row)
    else if op = 0x31 then d.sendRow ch.1 h.val pos (ch.2 % cw) cw row va
    else d)

/-- The hall has executed an instruction's last microword: X, Y and the scratch segment are undefined in it (R79, R83). -/
def Dev.lastDone (d : Dev) (s : StreamId) (h : LHall) : Dev :=
  let ph := d.phys h.val
  (d.looseXy ph).looseScratch ph (d.st s).held.isSome

/-! Abandoning a stream (R149, R202, R207, R210). -/

/-- The use of a stream by a hall ends: its flight, its entry, its channel and its report are discarded, its credit is 64. -/
def HallQ.flush (_ : HallQ) : HallQ := {}

/-- The same while the credits are still out. -/
def HallQ.stop (q : HallQ) : HallQ := { q with flight := [], transit := [], run := none, repDue := false, chan := none, waited := false }

/-- The report concerns a hall of stream s. -/
def Dev.reportOf (d : Dev) (s : StreamId) (r : Report) : Bool :=
  let h := match r with | .upset h _ _ _ => h | .dead h => h
  (d.logicalOf h.val).map d.streamOf = some s.val

/-- Steps 1 and 2 of R207: the stream is stopped; flights, entries, transfers, edge latches and OR contributions are discarded. -/
def Dev.stopStream (d : Dev) (s : StreamId) : Dev :=
  let d := forEach (List.range 8) d (fun d ch => if d.chanBound s ch then d.setFlag (R.STAIR_CHSTAT_OPEN ch) false else d)
  let d := forEach (d.streamHalls s.val) d (fun d h => forEach (List.range 4) d (fun d lat => d.setEdgeLatch h lat []))
  let d := d.forHalls s.val (fun d h => d.modHq h HallQ.stop)
  let d := { d with arr := { d.arr with reports := d.arr.reports.filter (fun r => !d.reportOf s r) } }
  d.modSt s (fun x => { x with
    run := .idle, smp := none, smpq := [], abandon := false,
    micro := { x.micro with hold := none, waitOr := false, msWait := false, endWait := false, rep := 0, chan := none, rstk := [], cval := false } })

/-- The counts of a stream's Ramufin ports return to the values at its restart point (R241). -/
def EdgePort.rewind (e : EdgePort) : EdgePort := { e with used := e.usedMs, sent := e.sentMs }

/-- The Ramufin ports of a stream's own edges. -/
def Dev.streamPorts (d : Dev) (s : StreamId) : List (Fin 4) :=
  (if s = 0 && d.edgeWest 0 = 2 then [0] else []) ++ (if s.val + 1 = d.numStreams && d.edgeEast s.val = 2 then [2] else [])

/-- Applies f to the NEWS and the express side of some ports. -/
def Dev.modPorts (d : Dev) (ps : List (Fin 4)) (f : EdgePort → EdgePort) : Dev :=
  forEach [false, true] d (fun d e => forEach ps d (fun d p => d.setEdgePort e p (f (d.edgePort e p))))

/-- In every PE of a stream ACT is 1 and X, Y, C, IDX and OOW are 0 in both copies. -/
def Dev.clearLatches (d : Dev) (s : StreamId) : Dev :=
  forEach (d.streamHalls s.val) d (fun d h =>
    let ph := d.phys h
    forEach (List.range 64) (d.setXyGen ph 0) (fun d row =>
      let d := ((d.setTwin ph row .act (BitVec.allOnes 64)).setTwin ph row .c 0).setTwin ph row .oow 0
      forEach (List.range 13) d (fun d i => d.setTwin ph row (.idx i) 0)))

/-- Step 5 of R207: the stream's state is that of its restart point. The log and the jobs are as the caller leaves them. -/
def Dev.resetPoint (d : Dev) (s : StreamId) : Dev :=
  let d := forEach (List.range 8) d (fun d ch =>
    if d.chanBound s ch then d.setFld (R.STAIR_CHWPOS_POS ch) (d.fld (R.STAIR_CHCPOS_POS ch)) else d)
  let d := ((d.forHalls s.val (fun d h => d.modHq h HallQ.flush)).clearLatches s).modPorts (d.streamPorts s) EdgePort.rewind
  d.modSt s (fun x => { x with span := 0, ct := x.ctRp, depth := (x.depth - x.mdepth).toNat, mdepth := 0 })

/-- Steps 1, 2 and 5 of R207: the stream stands at its restart point. -/
def Dev.restart (d : Dev) (s : StreamId) : Dev := (d.stopStream s).resetPoint s

/-- The restart of an abandoned stream once its halls have completed what was issued. -/
def Dev.restartDue (d : Dev) (s : StreamId) : Dev :=
  if (d.st s).abandon && d.flightsEmpty s then d.restart s else d

/-- Runs up to n cycles of the entry that a hall executes, until a cycle stalls (R162, R163). -/
def Dev.runCycles (s : StreamId) (h : LHall) : Nat → Dev → Dev
  | 0, d => d
  | n + 1, d =>
    match (d.hq h).run with
    | none => d
    | some r0 =>
      let d := d.pushFor s h r0
      let r := { r0 with pushed := r0.pushed || (crossGet (feOp r0.e) && ((d.hq h).run.map (·.pushed)).getD false) }
      match d.cycleStall s h (feOp r.e) r.pushed with
      | some c => d.modHq h (fun q => { q with run := some { r with stall := c } })
      | none =>
        let d := (d.tick.hallCycle s h r).twinCheck d (d.phys h.val) r.wadr
        let r' := { r with left := r.left - 1, stall := 5, pushed := false,
                           aadr := stepBy r.aadr (feAstep r.e) 1, badr := stepBy r.badr (feBstep r.e) 1,
                           wadr := stepBy r.wadr (feWstep r.e) 1, lc3 := min (2 * r.lc3) 0x1FFF }
        if r.left ≤ 1 then
          let d := d.modHq h (fun q => { q with run := none, repDue := q.repDue || feRep r.e,
                                                chan := if feLast r.e then none else q.chan })
          (if feLast r.e then d.lastDone s h else d).restartDue s
        else Dev.runCycles s h n (d.modHq h (fun q => { q with run := some r' }))

/-- Counts n stalled cycles of a cause, and a free number more (R163): how many cycles a stall lasts is timing (R168). -/
def Dev.countStall (d : Dev) (h : LHall) (c n : Nat) : Dev :=
  let (k, d) := d.fresh
  d.addFld (R.HALL_STALL_COUNT (d.phys h.val) c) (n + (Config.freeWord k).toNat)

/-- HALL_ENTRY_START (R160 to R162): the entry leaves the flight, its credit starts back, its parity is checked, and its cycles
run until one stalls. A wait at an empty flight counts under cause 0. -/
def Dev.startEntry (d : Dev) (s : StreamId) (h : LHall) : Dev :=
  let q := d.hq h
  match q.flight, q.run with
  | x :: r, none =>
    if q.repDue then d else
    let e : BitVec 80 := x.setWidth 80
    let d := d.countStall h 0 0
    let d := if parityOk x then d else d.tick.upset (d.phys h.val) ⟨4, false, 0, 0, 0⟩
    let run : HRun := ⟨e, feCnt e + 1, feAadr e, feBadr e, feWadr e, feXarg e, 5, false⟩
    Dev.runCycles s h (feCnt e + 1)
      (d.modHq h (fun q => { q with flight := r, returning := q.returning + 1, run := some run }))
  | _, _ => d

/-- STALL_END (R163): the stall condition of a hall ends and its entry continues. -/
def Dev.endStall (d : Dev) (s : StreamId) (h : LHall) : Dev :=
  match (d.hq h).run with
  | some r =>
    if r.stall = 5 || (d.cycleStall s h (feOp r.e) r.pushed).isSome then d.pushFor s h r
    else Dev.runCycles s h r.left ((d.countStall h r.stall 1).modHq h (fun q => { q with run := some { r with stall := 5 } }))
  | none => d

end Sys2Proof.Machine
end

