-- ==== Sys2Proof/Machine/MicroExec.lean ====
section
/-! DEFINITION. The sequencer issues microwords: fetch with match registers and tags, the next address, sequencer-side
micro-ops, microcode faults (R131, R133 to R151). -/

namespace Sys2Proof.Machine

/-! The microword (R134, R135). -/

def mwNext (w : BitVec 48) : BitVec 13 := w.extractLsb' 35 13
def mwCond (w : BitVec 48) : Nat := bits w.toNat 34 31
def mwCyc (w : BitVec 48) : Nat := [1, 2, 3, 4, 6, 8, 12, 16].getD (bits w.toNat 30 28) 1
def mwSafe (w : BitVec 48) : Bool := w.getLsbD 27
def mwOp1 (w : BitVec 48) : Nat := bits w.toNat 26 21
def mwOp2 (w : BitVec 48) : Nat := bits w.toNat 20 15
def mwArg (w : BitVec 48) : BitVec 15 := w.extractLsb' 0 15

/-- The half of the patch RAM that an address lies in: 1 vendor, 2 customer; 0 for ROM (R130). -/
def patchHalf (a : BitVec 13) : Nat := if a.toNat < 0x1C00 then 0 else if a.toNat < 0x1E00 then 1 else 2

/-- The address whose word is served for a fetch (R147). -/
def Dev.served (d : Dev) (a : BitVec 13) : BitVec 13 :=
  if patchHalf a = 0 then match d.matchOf a.toNat with | some t => BitVec.ofNat 13 t | none => a else a

/-- The microstore word that a fetch at an address delivers (R130, R131). -/
def Dev.storeWord (d : Dev) (a : BitVec 13) : BitVec 48 :=
  (if patchHalf a = 0 then romWord a else bankGet (fun _ => 0) d.arr.patch a.toNat) ^^^ (microWrong (d.uErrOf a.toNat)).setWidth 48

def Micro.lcAt (m : Micro) (n : Nat) : BitVec 13 := m.lc.toList.getD n 0
def Micro.setLc (m : Micro) (n : Nat) (v : BitVec 13) : Micro :=
  if h : n < 4 then { m with lc := m.lc.set n v h } else m
def Micro.bpAt (m : Micro) (n : Nat) : BitVec 13 := m.bp.toList.getD n 0
def Micro.stepAt (m : Micro) (n : Nat) : BitVec 2 := m.bstep.toList.getD n 0
def Micro.setBp (m : Micro) (n : Nat) (v : BitVec 13) (st : BitVec 2) : Micro :=
  if h : n < 4 then { m with bp := m.bp.set n v h, bstep := m.bstep.set n st h } else m

/-! Slots as a routine reads them (R142). -/

def Job.desc (j : Job) (s : Nat) : Word × Word := if s = 0 then j.dD else if s = 1 then j.dA else j.dB

/-- The instruction reads slot s as a descriptor. -/
def Job.readsDesc (j : Job) (s : Nat) : Bool :=
  match jobSlots j.opc.toNat j.cdt with
  | some us => (if s = 0 then us.d else if s = 1 then us.a else us.b) == .desc
  | none => false

/-- lo(s): the address of bit 0 and the step toward bit w − 1. -/
def slotLo (w0 : Word) : BitVec 13 × BitVec 2 := (BitVec.ofNat 13 (descBase w0), if descDown w0 then 3 else 1)

/-- hi(s): the address of bit w − 1 and the step toward bit 0. -/
def slotHi (w0 : Word) : BitVec 13 × BitVec 2 :=
  (BitVec.ofNat 13 (if descDown w0 then descBase w0 - (descWidth w0 - 1) else descBase w0 + (descWidth w0 - 1)),
   if descDown w0 then 1 else 3)

/-! Microcode faults (R149). -/

/-- The condition reads the OR result. -/
def condOr (c : Nat) : Bool := c = 6 || c = 7

/-- The word samples the OR tree. -/
def mwSamples (w : BitVec 48) : Bool := mwOp1 w = 0x01

/-- The effective cycle count of a word (R135, R142). -/
def effCycles (m : Micro) (w : BitVec 48) : Nat := if mwOp2 w = 0x1E then min (mwCyc w) (m.lcAt 0).toNat else mwCyc w

/-- The cause of a microcode fault at a word, in the order of the causes (R149). A reserved COND code faults also where OP2 is END or RET
and COND is ignored (DESIGN CHOICE, log entry 91). -/
def microFault (j : Job) (m : Micro) (w : BitVec 48) : Option Nat :=
  let op2 := mwOp2 w
  let goes := op2 ≠ 0x01 && op2 ≠ 0x03
  let sampled := m.sampled || (mwSamples w && effCycles m w ≠ 0)
  let slot := if 0x10 ≤ op2 && op2 ≤ 0x1B then some ((op2 - 0x10) % 3)
    else if op2 = 0x1F then some 2
    else if 0x20 ≤ op2 && op2 ≤ 0x2B then some ((op2 - 0x20) % 3)
    else if 0x2C ≤ op2 && op2 ≤ 0x37 then some ((op2 - 0x2C) % 3) else none
  if !op1Ok (mwOp1 w) || 0x3D ≤ op2 || 0x0B ≤ mwCond w || (mwOp1 w = 0x02 && bits (mwArg w).toNat 7 3 ≠ 0) then some 0x01
  else if op2 = 0x02 && 4 ≤ m.rstk.length then some 0x04
  else if op2 = 0x03 && m.rstk.isEmpty then some 0x05
  else if ((goes && condOr (mwCond w)) || op2 = 0x38 || op2 = 0x39) && !sampled then some 0x06
  else if 0x0C ≤ op2 && op2 ≤ 0x0F && 0x1F80 ≤ (mwArg w).toNat % 8192 then some 0x07
  else if (slot.map (fun s => !j.readsDesc s)).getD false || (op2 = 0x38 && j.sd = 0) then some 0x0A
  else none

/-- The cause of a fault on the fetch of the next microword (R131, R144, R149). -/
def Dev.fetchFault (d : Dev) (m : Micro) : Option Nat :=
  let a := d.served m.upc
  let crosses := match m.prev with
    | some b => patchHalf a ≠ 0 && patchHalf b ≠ 0 && patchHalf a ≠ patchHalf b
    | none => false
  if patchHalf a ≠ 0 && !d.tag a.toNat then some 0x02 else if crosses then some 0x03
  else if microFind (d.uErrOf a.toNat) = .uncorrectable then some 0x09 else none

/-! A fault of the sequencer (R149, R202). -/

/-- The registers that discarded array instructions would have written keep their values and are no longer pending. The spec does
not say what the core sees of them: the values are free (R98, R149). -/
def Dev.loosePending (d : Dev) (c : CoreId) : Dev :=
  let k := d.co c
  let (n, d) := d.fresh
  let v := Config.freeWord n
  let k := forEach (List.range 8) k (fun k i => if k.pendP.getLsbD i then k.wrp (BitVec.ofNat 3 i) (v.getLsbD (32 + i)) else k)
  let k := forEach (List.range 16) k (fun k i =>
    if k.pendD.getLsbD i then k.wrd (BitVec.ofNat 4 i) ((Config.freeWord n).setWidth 32) else k)
  let d := d.setCo c { k with pendP := 0, pendD := 0 }
  if k.pendP = 0 && k.pendD = 0 then { d with free := n } else d

/-- What a stream that is stopped without replay discards (R149, R210): the log and the queue, a stop in force, its counts of the span. -/
def Strm.discard (x : Strm) : Strm :=
  { x with jobs := [], log := [], depth := 0, mdepth := 0, ctIss := x.ctRp, replays := 0, reps := 0, held := none, rehold := [], stops := 0,
           preReq := false, fpHold := false, dirty := false, sites := [], gateDue := x.gateRp }

/-- The stream restarts without replay (R210): the log and the queue are emptied, a stop in force ends. -/
def Dev.restartEmpty (d : Dev) (s : StreamId) : Dev := ((d.restart s).loosePending s).modSt s Strm.discard

/-- A fault of the sequencer stops issue (R149, R169, R202): the routine and the queue are discarded, what the halls have still to
execute completes in them, and the stream restarts when its flights are empty. -/
def Dev.abandonStream (d : Dev) (s : StreamId) : Dev :=
  if d.flightsEmpty s then d.restartEmpty s
  else (d.loosePending s).modSt s (fun x => { x.discard with
    run := .idle, abandon := true, smp := x.smp.map (fun m => { m with quiet := true }), smpq := x.smpq.map (fun m => { m with quiet := true }) })

/-- A microcode fault of a stream (R149, R150): recorded, the routine abandoned, the core told, the stream restarted. -/
def Dev.microcodeFault (d : Dev) (s : StreamId) (cause upc : Nat) : Dev :=
  let opc := (((d.st s).run.job?).map (fun j => j.opc.toNat)).getD 0
  let d := if d.flag (R.SEQ_USTAT_VAL s) then d else
    ((d.setFlag (R.SEQ_USTAT_VAL s) true).setFld (R.SEQ_USTAT_UCAUSE s) cause).setFld (R.SEQ_USTAT_UPC s) upc
  ((d.arrayFault s opc 0x0E 0 0).imprecise s .array 0).abandonStream s

/-! Issue (R133, R135, R136, R142, R161). -/

/-- OP1 takes its parameters from ARG (R139). -/
def takesArg (op : Nat) : Bool := op ≠ 0x00 && op ≠ 0x03 && op ≠ 0x07

/-- The flight entry of a word (R161). -/
def flightEntry (m : Micro) (j : Job) (w : BitVec 48) (eff : Nat) (rep last : Bool) : BitVec 80 :=
  let op := mwOp1 w
  let arg := (mwArg w).toNat
  let rap := bits arg 9 8
  let rbp := bits arg 11 10
  let wp := bits arg 13 12
  let step := arg.testBit 14
  let ix := op = 0x05 || op = 0x06
  let st (n : Nat) : Nat := if step then (m.stepAt n).toNat else 0
  let aadr := if ix then m.tb.toNat else if usesRa op then (m.bpAt rap).toNat else 0
  let xarg := if ix then m.tl.toNat else if op = 0x04 then (m.lcAt 3).toNat
    else if op = 0x30 || op = 0x31 then j.sb.toNat % 8 else 0
  BitVec.ofNat 80 (op + arg % 256 * 2 ^ 6 + aadr * 2 ^ 14 + (if usesRa op then st rap else 0) * 2 ^ 27 +
    (if usesRb op || ix then (m.bpAt rbp).toNat else 0) * 2 ^ 29 + (if usesRb op || ix then st rbp else 0) * 2 ^ 42 +
    (if usesW op then (m.bpAt wp).toNat else 0) * 2 ^ 44 + (if usesW op then st wp else 0) * 2 ^ 57 +
    xarg * 2 ^ 59 + (eff - 1) * 2 ^ 72 + bn (mwSafe w) * 2 ^ 76 + bn last * 2 ^ 77 + bn rep * 2 ^ 78)

/-- The pointers and LC3 after the cycles of a word (R139, R140). -/
def stepPointers (m : Micro) (w : BitVec 48) (eff : Nat) : Micro :=
  let op := mwOp1 w
  let arg := (mwArg w).toNat
  let named := [bits arg 9 8, bits arg 11 10, bits arg 13 12].dedup
  let m := if takesArg op && arg.testBit 14 then
      forEach named m (fun m n => m.setBp n (stepBy (m.bpAt n) (m.stepAt n) eff) (m.stepAt n)) else m
  if op = 0x04 then m.setLc 3 (BitVec.ofNat 13 (min ((m.lcAt 3).toNat * 2 ^ eff) 0x1FFF)) else m

/-- OP2 on the sequencer's own state (R142, R143). SETUP and SETUPHI take LC0 from the descriptor whose number SD holds also where SD is
not read as a descriptor, and CALL in a word served through a match register pushes the ROM address + 1, not the patch word's
(DESIGN CHOICES, log entries 92 and 93). -/
def op2Micro (level : Bool) (j : Job) (m : Micro) (w : BitVec 48) (eff : Nat) : Micro :=
  let o := mwOp2 w
  let arg := (mwArg w).toNat
  let lo (s n : Nat) (m : Micro) : Micro := let p := slotLo (j.desc s).1; m.setBp n p.1 p.2
  let hi (s n : Nat) (m : Micro) : Micro := let p := slotHi (j.desc s).1; m.setBp n p.1 p.2
  let width (s : Nat) : BitVec 13 := BitVec.ofNat 13 (descWidth (j.desc s).1)
  let setup (f : Nat → Nat → Micro → Micro) : Micro :=
    let m := if j.readsDesc 1 then f 1 0 m else m
    let m := if j.readsDesc 2 then f 2 1 m else m
    let m := if j.readsDesc 0 then f 0 2 m else m
    m.setLc 0 (width 0)
  if o = 0x02 then { m with rstk := (m.upc + 1) :: m.rstk }
  else if 0x04 ≤ o && o ≤ 0x07 then m.setLc (o - 4) (if m.lcAt (o - 4) = 0 then 0 else m.lcAt (o - 4) - 1)
  else if 0x08 ≤ o && o ≤ 0x0B then m.setLc (o - 8) (BitVec.ofNat 13 arg)
  else if 0x0C ≤ o && o ≤ 0x0F then
    let a := arg % 8192
    m.setBp (o - 0x0C) (BitVec.ofNat 13 (if level && 0x1F00 ≤ a && a ≤ 0x1F7F then a + 0x80 else a)) (BitVec.ofNat 2 (bits arg 14 13))
  else if 0x10 ≤ o && o ≤ 0x1B then m.setLc ((o - 0x10) / 3) (width ((o - 0x10) % 3))
  else if o = 0x1C then setup lo
  else if o = 0x1D then setup hi
  else if o = 0x1E then m.setLc 0 (m.lcAt 0 - BitVec.ofNat 13 eff)
  else if o = 0x1F then { m with tb := BitVec.ofNat 13 (descBase j.dB.1), tl := BitVec.ofNat 13 (descTlen j.dB.2) }
  else if 0x20 ≤ o && o ≤ 0x2B then lo ((o - 0x20) % 3) ((o - 0x20) / 3) m
  else if 0x2C ≤ o && o ≤ 0x37 then hi ((o - 0x2C) % 3) ((o - 0x2C) / 3) m
  else m

/-- The value of a condition that does not wait (R137). -/
def condValue (ct : Bool) (j : Job) (m : Micro) (c : Nat) : Bool :=
  if c = 1 then true
  else if 2 ≤ c && c ≤ 5 then m.lcAt (c - 2) ≠ 0
  else if c = 6 then m.hor ≠ 0
  else if c = 7 then m.hor = 0
  else if c = 8 then ct
  else if c = 9 then (fpCtlOf j.fpctl).trap
  else if c = 10 then (fpCtlOf j.fpctl).flen
  else false

/-- Forms the next address of a word whose OP2 has acted (R136). -/
def nextAddress (ct : Bool) (j : Job) (m : Micro) (w : BitVec 48) : Micro :=
  let go (n : BitVec 13) (m : Micro) : Micro :=
    { m with upc := n, hold := none }
  if mwOp2 w = 0x03 then go (m.rstk.headD 0) { m with rstk := m.rstk.tail }
  else go (mwNext w ||| (if condValue ct j m (mwCond w) then 1 else 0)) m

/-- One more destination of a sample's result. -/
def Smp.addUse (m : Smp) (u : SmpUse) : Smp := if m.use = .latch then { m with use := u } else { m with also := m.also ++ [u] }

/-- WPRED or WHOR (R142): the result in the latch is delivered, or the outstanding sample gets its use. -/
def Dev.useResult (d : Dev) (s : StreamId) (j : Job) (use : SmpUse) : Dev :=
  let x := d.st s
  let d := match use with
    | .toPred c n => d.modCo c (fun k => { k with pendP := if n.toNat % 8 = 0 then k.pendP else setBit k.pendP (n.toNat % 8) true })
    | .toData c n => d.modCo c (fun k => { k with pendD := setBit k.pendD (n.toNat % 16) true })
    | _ => d
  if x.micro.cval then
    (if j.delivered then d else d.deliver s ⟨use, x.micro.hor, 0, 0, false, j.idx, false, []⟩).modSt s (fun x => x.setDelivered j.idx)
  else d.modSt s (fun x =>
    match x.smpq.getLast? with
    | some m => { x with smpq := x.smpq.dropLast ++ [m.addUse use] }
    | none => { x with smp := x.smp.map (fun m => m.addUse use) })

/-- A stream's routine may issue its next microword (R132, R133, R160, R166). -/
def Dev.canIssue (d : Dev) (s : StreamId) : Bool :=
  let x := d.st s
  let m := x.micro
  (match x.run with | .micro _ => true | _ => false) && !m.waitOr && !m.msWait && !m.endWait &&
    (m.hold.isNone || m.cval) &&
    !(d.stopDue s && (d.numStreams = 1 || m.safe) && m.chan.isNone && (x.run.job?.map (·.opc)) ≠ some 0x6E) &&
    (d.streamHalls s.val).all (fun h => match d.arr.hallq[h]? with | some q => q.credit ≠ 0 | none => true) &&
    !(d.arr.replayDue.contains s) && (d.arr.failover.map (·.strm)) ≠ some s && !d.upsetPending s

/-- The sum of the routine's cycles exceeds the limit (R151). -/
def Dev.timedOut (d : Dev) (s : StreamId) : Bool :=
  let lim := d.fld R.SEQ_UCTL_UTMO
  lim ≠ 0 && lim * 256 < (d.st s).micro.cycles

/-- The instruction ends (R136): the stream is idle and its channels close. A floating-point routine that took no sample has no
result to hold its core for (R125). -/
def Dev.endRoutine (d : Dev) (s : StreamId) : Dev :=
  let d := match (d.st s).micro.chan with
    | some ch => d.closeChan s ch.toNat
    | none => d
  let fp := ((d.st s).run.job?.map (fun j => isFp j.opc.toNat && (fpCtlOf j.fpctl).trap)).getD false
  let d := if fp && !(d.st s).micro.sampled then d.modSt s (fun x => { x with fpHold := false }) else d
  d.modSt s (fun x => { x with run := .idle, micro := { x.micro with chan := none, endWait := false, rep := 0 } })

/-- The activity-stack fault of a word whose pushes would pass depth 8, or whose pops would pass depth 0 or the depth of a stop (R37,
R156): its OP1 is not performed. The spec names no fault of a microword for it: the model records the code of R103 and traps as for a
fault of the sequencer, and the routine goes on (DESIGN CHOICE, log entry 85). -/
def Dev.stackFault (d : Dev) (s : StreamId) (w : BitVec 48) (eff : Nat) : Option Nat :=
  let x := d.st s
  let n := bits (mwArg w).toNat 2 0
  if mwOp1 w ≠ 0x02 then none
  else if (n = 2 || n = 3) && 8 < x.runDepth + eff then some 0x09
  else if n = 4 && x.runDepth < x.floor + eff then some 0x0A
  else none

/-- The pushes less the pops of a word (R37). -/
def wordPushes (w : BitVec 48) (eff : Nat) : Int :=
  let n := bits (mwArg w).toNat 2 0
  if mwOp1 w ≠ 0x02 then 0 else if n = 2 || n = 3 then eff else if n = 4 then -(eff : Int) else 0

/-- A word without its PE-side micro-op. -/
def wordNop (w : BitVec 48) : BitVec 48 := w &&& ~~~(BitVec.ofNat 48 (0x3F * 2 ^ 21))

/-- The GET cycles of a word over a Ramufin edge would take its count of tokens above the buffer (R241). -/
def Dev.wordOverEdge (d : Dev) (s : StreamId) (w : BitVec 48) (eff : Nat) : Bool :=
  let op := mwOp1 w
  let x := dirOf op
  let cap := if x.express then 512 else 4096
  let above (p : Option (Fin 4)) (f : EdgePort → Nat) : Bool := match p with | some p => cap < f (d.edgePort x.express p) + eff | none => false
  crossGet op && (above (d.tokenPort s x) (·.used) || above (d.sendPort s x) (·.sent))

/-- What a word leaves in the sequencer's state: the pointers after its cycles, OP2, and whether its condition waits (R135 to R137). -/
def Dev.wordMicro (d : Dev) (s : StreamId) (j : Job) (w : BitVec 48) (eff : Nat) : Micro :=
  let m := stepPointers (d.st s).micro w eff
  let m := if mwSamples w && 0 < eff then { m with sampled := true, cval := false } else m
  { op2Micro j.level j m w eff with cycles := m.cycles + eff, safe := mwSafe w, begun := true, prev := some (d.served (d.st s).micro.upc) }

/-- The word's condition waits for the OR result (R137). -/
def wordHolds (m : Micro) (w : BitVec 48) : Bool := condOr (mwCond w) && mwOp2 w ≠ 0x01 && mwOp2 w ≠ 0x03 && !m.cval

/-- The word ends the transfer of the open channel: the next one is END (R166). -/
def Dev.endsTransfer (d : Dev) (s : StreamId) (j : Job) (w : BitVec 48) (eff : Nat) : Bool :=
  let m := d.wordMicro s j w eff
  let n := nextAddress (d.st s).ct j m w
  (m.chan.isSome || mwOp2 w = 0x3C) && 0 < eff && mwOp2 w ≠ 0x01 && mwOp2 w ≠ 0x3B && !wordHolds m w &&
    (d.fetchFault n).isNone && mwOp2 (d.storeWord (d.served n.upc)) = 0x01

/-- Sends a word's entry to every hall of the stream (R133, R160, R161); one of no cycles is not sent (R142). -/
def Dev.sendEntry (d : Dev) (s : StreamId) (e : BitVec 90) (eff : Nat) : Dev :=
  if eff = 0 then d else d.forHalls s.val (fun d h =>
    d.modHq h (fun q => { q with transit := q.transit ++ [e], credit := q.credit - 1 }))

/-- The OR samples of a word, one for each of its cycles (R135, R140). A floating-point routine's result goes where R124 sends it. -/
def Dev.takeSamples (d : Dev) (s : StreamId) (j : Job) (w : BitVec 48) (eff : Nat) : Dev :=
  if !mwSamples w then d else
  let use : SmpUse := if isFp j.opc.toNat then j.smpUse else .latch
  let new := List.replicate eff (⟨use, 0, 0, 0, false, j.idx, j.delivered, []⟩ : Smp)
  d.modSt s (fun x => if x.smp.isNone then { x with smp := new.head?, smpq := new.tail } else { x with smpq := x.smpq ++ new })

/-- OP2 where it acts outside the micro-state (R142). -/
def Dev.op2Outside (d : Dev) (s : StreamId) (j : Job) (o : Nat) : Dev :=
  if o = 0x38 then d.useResult s j (.toPred j.core j.sd)
  else if o = 0x39 then d.useResult s j (.toData j.core j.sd)
  else if o = 0x3A then d.modSt s (fun x => { x with micro := { x.micro with waitOr := x.smp.isSome } })
  else if o = 0x3B then d.modSt s (fun x => { x with micro := { x.micro with msWait := true, rep := 0 } })
  else if o = 0x3C then (d.openChan s (j.sb.toNat % 8)).modSt s (fun x =>
    { x with micro := { x.micro with chan := some (BitVec.ofNat 3 j.sb.toNat) } })
  else d

/-- A word that has passed its checks is issued (R133, R135, R136). -/
def Dev.sendWord (d : Dev) (s : StreamId) (j : Job) (w0 : BitVec 48) (eff : Nat) : Dev :=
  let fault := d.stackFault s w0 eff
  let w := if fault.isSome then wordNop w0 else w0
  let o := mwOp2 w
  let m := (d.st s).micro
  let waits := o = 0x01 && m.chan.isSome && !m.reported
  let ends := d.endsTransfer s j w eff
  let next := d.wordMicro s j w eff
  let d := d.sendEntry s (withParity (flightEntry m j w eff (waits || ends || o = 0x3B) (o = 0x01))) eff
  let d := d.modSt s (fun x => { x with
    span := if j.opc = 0x6E then x.span else x.span + eff,
    depth := ((x.depth : Int) + wordPushes w eff).toNat, mdepth := x.mdepth + wordPushes w eff, micro := next })
  let d := (d.takeSamples s j w eff).op2Outside s j o
  let d := match fault with
    | some c => (d.arrayFault s j.opc.toNat c 0 0).imprecise s .array 0
    | none => d
  if o = 0x01 then
    if waits then d.modSt s (fun x => { x with micro := { x.micro with endWait := true, reported := true, rep := 0 } }) else d.endRoutine s
  else if wordHolds (d.st s).micro w then
    d.modSt s (fun x => { x with micro := { x.micro with hold := some w } })
  else
    let d := d.modSt s (fun x => { x with micro := nextAddress x.ct j x.micro w })
    if ends then d.modSt s (fun x => { x with micro := { x.micro with endWait := true, rep := 0 } }) else d

/-- A routine's GET would take the tokens of a Ramufin edge above its buffer (R241). R241 refuses an instruction for it; a routine's
cycles are known only as they come: the model stops it as a fault of the sequencer with code 0x15 (DESIGN CHOICE, log entry 86). -/
def Dev.edgeFault (d : Dev) (s : StreamId) (j : Job) : Dev :=
  ((d.arrayFault s j.opc.toNat 0x15 0 0).imprecise s .array 0).abandonStream s

/-- MICROWORD_ISSUE (R133). A condition that waited for the OR result is resolved first (R137). -/
def Dev.issueWord (d : Dev) (s : StreamId) : Dev :=
  if !d.canIssue s then d else
  match (d.st s).run with
  | .micro j =>
    let d := match (d.st s).micro.hold with
      | some w => d.modSt s (fun x => { x with micro := nextAddress x.ct j x.micro w })
      | none => d
    if d.timedOut s then d else
    let m := (d.st s).micro
    match d.fetchFault m with
    | some c => d.microcodeFault s c m.upc.toNat
    | none =>
    let w := d.storeWord (d.served m.upc)
    let eff := effCycles m w
    let e := d.countMicro s (d.served m.upc).toNat
    match microFault j m w with
    | some c => e.microcodeFault s c m.upc.toNat
    | none =>
    if (j.opc ≠ 0x6E && d.fld (R.SEQ_SPAN_LIM s) < (d.st s).span + eff) || (mwOp2 w = 0x3C && d.imaging s) then d
    else if d.wordOverEdge s w eff then e.edgeFault s j
    else e.sendWord s j w eff
  | _ => d

/-- MICROWORD_ARRIVE (R159): the oldest microword on its way to a hall enters its flight. -/
def Dev.arriveWord (d : Dev) (h : LHall) : Dev :=
  match (d.hq h).transit with
  | [] => d
  | x :: r =>
    if 64 ≤ (d.hq h).flight.length then d else
    let d := d.modHq h (fun q => { q with transit := r, flight := q.flight ++ [x] })
    let ph := d.phys h.val
    let n := (d.hq h).flight.length
    if d.fld (R.HALL_FLSTAT_MAXOCC ph) < n then d.setFld (R.HALL_FLSTAT_MAXOCC ph) n else d

/-- CREDIT_RETURN (R160). -/
def Dev.returnCredit (d : Dev) (h : LHall) : Dev :=
  if (d.hq h).returning = 0 then d else
  d.modHq h (fun q => { q with returning := q.returning - 1, credit := min 64 (q.credit + 1) })

end Sys2Proof.Machine
end

