-- ==== Sys2Proof/Machine/Image.lean ====
section
/-! DEFINITION. Signed images and key slots (R411, R414, R415, R417, R419). -/

namespace Sys2Proof.Machine

/-- The life-cycle state (R421): 0 BLANK, 1 FACTORY, 2 SEALED, 3 RETURNED, 4 SCRAPPED. -/
def Dev.lcs (d : Dev) : Nat := d.fld R.SEC_LCS_LCS

/-- The table of R415: the slots that a life-cycle state admits. -/
def slotAdmitted (lcs k : Nat) : Bool :=
  match lcs with
  | 0 => k ∈ [0, 1, 4, 7]
  | 1 => k ∈ [0, 1, 2, 3, 4, 5, 7]
  | 2 => k ∈ [0, 1, 2, 3, 4, 5]
  | 3 => k ∈ [0, 1, 4, 7]
  | _ => false

/-- A slot is valid (R415): programmed, not revoked, admitted. Slot 7's key lies in the boot ROM and is always programmed. -/
def Dev.slotValid (d : Dev) (k : Nat) : Bool :=
  (k = 7 || (d.fld R.SEC_KEYS_PROG).testBit k) && !(d.fld R.SEC_KEYS_REVOKED).testBit k && slotAdmitted d.lcs k

/-- The slots that authorise a kind of image (R414). -/
def slotAuthorises (kind k : Nat) : Bool :=
  k = 7 || (kind ∈ [1, 2, 4, 5] && k ∈ [0, 1]) || (kind ∈ [3, 4, 5] && k ∈ [2, 3])

/-- The fields of an image header (R417). -/
structure Header where
  magic : Nat
  format : Nat
  kind : Nat
  slot : Nat
  bodyLen : Nat
  target : Nat
  count : Nat
  version : Nat
  entry : Nat
  flags : Nat
  digest : List Byte
deriving DecidableEq, Repr

def le (l : List Byte) (off n : Nat) : Nat := leNat ((l.drop off).take n)

def parseHeader (l : List Byte) : Header :=
  ⟨le l 0 4, le l 4 2, le l 6 1, le l 7 1, le l 8 4, le l 12 4, le l 16 4, le l 20 4, le l 24 4, le l 28 4, (l.drop 32).take 32⟩

/-- MAGIC, FORMAT and KIND, BODYLEN a multiple of 8 (R417, R419). -/
def Header.plainOk (h : Header) (kind : Nat) : Bool :=
  h.magic = 0x4D495A49 && h.format = 1 && h.kind = kind && h.bodyLen % 8 = 0

/-- The signature block at the head of some bytes (R418). -/
def parseSig (l : List Byte) : SigBlock :=
  let n := le l 1795 2
  ⟨le l 0 2, (l.drop 2).take 1793, n, (l.drop 1797).take (min n 1280), ((l.drop (1797 + n)).take (1339 - n)).all (· = 0)⟩

/-- The block has the layout of R418: the key's length, a signature of 1 to 1,280 bytes, zeros after it. -/
def SigBlock.ok (b : SigBlock) : Bool := b.pkLen = 1793 && 1 ≤ b.sigLen && b.sigLen ≤ 1280 && b.padded

/-- The 3,136 bytes of a block (R418). -/
def SigBlock.bytes (b : SigBlock) : List Byte :=
  leBytes 2 b.pkLen ++ padTo 1793 b.pk ++ leBytes 2 b.sigLen ++ padTo 1339 b.sig

/-- Step 2 of R419: the slot is valid and authorises the kind. -/
def Dev.keyOk (d : Dev) (kind slot : Nat) : Bool := slotAuthorises kind slot && d.slotValid slot

/-- NVQ and BUSY tell of the verifies that wait and of a signature in progress (R412). -/
def Dev.syncVerify (d : Dev) : Dev :=
  (d.setFld R.SEC_STAT_NVQ d.sec.verifs.length).setFlag R.SEC_STAT_BUSY (!d.sec.verifs.isEmpty || !d.sec.sign.isEmpty)

def Dev.setVerifs (d : Dev) (l : List VerifyKind) : Dev :=
  ({ d with sec := { d.sec with verifs := l, serve := d.sec.serve && !l.isEmpty } } : Dev).syncVerify

/-- A verify request reaches the security engine, which serves them in the order of their arrival (R412). -/
def Dev.verifyRequest (d : Dev) (k : VerifyKind) : Dev := d.setVerifs (d.sec.verifs ++ [k])

/-- The engine serves a request of this kind next. -/
def Dev.verifyFirst (d : Dev) (k : VerifyKind) : Bool := d.sec.verifs.head? = some k

/-- A verify ends (R411): event source 0xE8. -/
def Dev.verifyEnd (d : Dev) : Dev := (d.setVerifs (d.sec.verifs.drop 1)).raise 0xE8

/-- A request whose work has gone is withdrawn. -/
def Dev.dropVerify (d : Dev) (k : VerifyKind) : Dev :=
  if d.sec.verifs.contains k then d.setVerifs (d.sec.verifs.filter (· ≠ k)) else d

end Sys2Proof.Machine
end

