-- ==== Sys2Proof/Machine/Clocks.lean ====
section
/-! DEFINITION. The reference clock, the frequencies of the PLLs, and time counted on PLL_ROAD (R190, R390, R391). -/

namespace Sys2Proof.Machine

/-- STRAP_XSEL: XTB is the reference (R390). -/
def Dev.xtbRef (d : Dev) : Bool := (d.pow.straps.map (·.xsel)).getD false

/-- The reference frequency in Hz (R390); XTA's is the one that its check measured. -/
def Dev.refHz (d : Dev) : Nat := if d.xtbRef then 399998976 else d.pow.xtaKhz * 1000

/-- The highest output of a PLL in Hz. -/
def pllLimit (n : Nat) : Nat := if n = 2 then 1250000000 else if n = 3 then 800000000 else 1000000000

/-- The output frequency of a PLL as a fraction: Hz times the denominator, and the denominator. -/
def pllOut (ref reg frac : Nat) : Nat × Nat :=
  (ref * (bits reg 8 0 * 65536 + frac), 65536 * (bits reg 11 9 + 1) * 2 ^ bits reg 13 12)

/-- The frequency of PLL_ROAD as a fraction of Hz. -/
def Dev.roadHz (d : Dev) : Nat × Nat := pllOut d.refHz (d.reg (R.CLK_PLL 1)).toNat (d.fld (R.CLK_PLLF_FRAC 1))

/-- A count of PLL_ROAD cycles in ns, rounded toward minus infinity (R190). -/
def Dev.roadNs (d : Dev) (n : Int) : Int := (n * (10 ^ 9 * d.roadHz.2 : Nat)) / (d.roadHz.1 : Int)

/-- The PLL_ROAD cycle nearest to a time in units of 1/256 ns, the earlier of two (R233). -/
def Dev.roadCycle (d : Dev) (t : Nat) : Nat :=
  let b := 256 * 10 ^ 9 * d.roadHz.2
  (2 * t * d.roadHz.1 + b - 1) / (2 * b)

end Sys2Proof.Machine
end

