-- ==== Sys2Proof/Machine/Waymark.lean ====
section
/-! DEFINITION. The waymark units: samples, windows, clears and snapshots (R436 to R440). -/

namespace Sys2Proof.Machine

def Dev.modWay (d : Dev) (w : Nat) (f : WayUnit → WayUnit) : Dev :=
  if h : w < 16 then { d with way := d.way.set w (f d.way[w]) } else d

/-- A 48-bit count that saturates (R437). -/
def satCount (c : BitVec 48) : BitVec 48 := if c = BitVec.allOnes 48 then c else c + 1

/-- The bin of a sample (R437). -/
def wayBin (base : Int) (step : Nat) (s : Int) : Nat :=
  if s < base then 0 else if (s - base) / step ≤ 29 then 1 + ((s - base) / step).toNat else 31

/-- The unit takes samples: it is enabled, and its window is not over (R438). -/
def Dev.wayTakes (d : Dev) (w : Nat) : Bool :=
  d.flag (R.WAY_CFG_EN w) && !d.flag (R.WAY_CTL_STOP w) &&
    (d.fld (R.WAY_STEP_WIN w) = 0 || ((d.way[w]?).map (·.strobes)).getD 0 < d.fld (R.WAY_STEP_WIN w))

/-- One sample of a unit's source (R437, R438). -/
def Dev.wayTake (d : Dev) (w : Nat) (s : Int) : Dev :=
  if !d.wayTakes w then d else
  let base := sval 32 (d.reg (R.WAY_BASE w)).toNat
  let b := wayBin base (d.fld (R.WAY_STEP_STEP w)) s
  let v := BitVec.ofInt 32 s
  let d := d.modWay w (fun u =>
    let first := u.nsamp = 0
    { u with min := if first || s < u.min.toInt then v else u.min,
             max := if first || u.max.toInt < s then v else u.max,
             nsamp := satCount u.nsamp,
             bins := if h : b < 32 then u.bins.set b (satCount u.bins[b]) else u.bins })
  let lo := d.flag (R.WAY_CFG_LOEN w) && s < sval 32 (d.reg (R.WAY_LOTH w)).toNat
  let hi := d.flag (R.WAY_CFG_HIEN w) && sval 32 (d.reg (R.WAY_HITH w)).toNat < s
  let d := if lo then d.setFlag (R.WAY_CTL_ALO w) true else d
  let d := if hi then d.setFlag (R.WAY_CTL_AHI w) true else d
  if lo || hi then d.raise (0xC0 + w) else d

/-- A sample of a source reaches every unit that watches it (R436). -/
def Dev.wayDeliver (d : Dev) (src sel : Nat) (s : Int) : Dev :=
  forEach (List.range 16) d (fun d w =>
    if d.fld (R.WAY_CFG_SRC w) = src && d.fld (R.WAY_CFG_SEL w) = sel then d.wayTake w s else d)

/-- A line strobe counts in the window of every unit (R438). -/
def Dev.wayStrobe (d : Dev) : Dev :=
  forEach (List.range 16) d (fun d w =>
    if d.flag (R.WAY_CFG_EN w) then d.modWay w (fun u => { u with strobes := u.strobes + 1 }) else d)

/-- A unit's window has ended (R438). -/
def Dev.wayWindowEnd (d : Dev) (w : Nat) : Dev :=
  let win := d.fld (R.WAY_STEP_WIN w)
  if d.flag (R.WAY_CFG_EN w) && win ≠ 0 && !d.flag (R.WAY_CTL_STOP w) && win ≤ ((d.way[w]?).map (·.strobes)).getD 0
  then (d.setFlag (R.WAY_CTL_STOP w) true).raise (0xC0 + w) else d

/-- CLR (R439). -/
def Dev.wayClear (d : Dev) (w : Nat) : Dev := (d.modWay w (fun _ => {})).setFlag (R.WAY_CTL_STOP w) false

/-- SNAP (R439): all statistics to the snapshot registers. MIN and MAX are undefined while NSAMP is 0 (R437). -/
def Dev.waySnap (d : Dev) (w : Nat) : Dev :=
  match d.way[w]? with
  | none => d
  | some u =>
    let (n, d) := if u.nsamp = 0 then d.fresh else (0, d)
    let free := Config.freeWord n
    let d := d.setReg (R.WAY_SNAP w 0) (if u.nsamp = 0 then free.setWidth 32 else u.min)
    let d := d.setReg (R.WAY_SNAP w 1) (if u.nsamp = 0 then (free >>> 32).setWidth 32 else u.max)
    let put (d : Dev) (j : Nat) (c : BitVec 48) : Dev :=
      (d.setReg (R.WAY_SNAP w j) (c.setWidth 32)).setReg (R.WAY_SNAP w (j + 1)) ((c >>> 32).setWidth 32)
    forEach (List.range 32) (put d 2 u.nsamp) (fun d b => put d (4 + 2 * b) (u.bins[b]?.getD 0))

/-- Writes to WAY_CTLw: SNAP first, then CLR (R439), then the W1C flags. -/
def Dev.wayControl (d : Dev) (w : Nat) (v : Word) : Dev :=
  let d := if v.getLsbD 31 then d.waySnap w else d
  let d := if v.getLsbD 30 then d.wayClear w else d
  let d := if v.getLsbD 1 then d.setFlag (R.WAY_CTL_AHI w) false else d
  if v.getLsbD 0 then d.setFlag (R.WAY_CTL_ALO w) false else d

end Sys2Proof.Machine
end

