-- ==== Sys2Proof/Machine/Lead.lean ====
section
/-! DEFINITION. The lead mover, the landing margin and the margin loop (R187 to R191, R243, R384). -/

namespace Sys2Proof.Machine

/-- Sets a hall's supply code; SLOW is 1 below the rate floor (R385). -/
def Dev.setCur (d : Dev) (h c : Nat) : Dev :=
  (d.setFld (R.PWR_HV_CUR h) c).setFlag (R.PWR_HV_SLOW h) (c < d.fld (R.PWR_HV_RFL h))

/-- A stream is bound to a lead-ring channel. -/
def Dev.inLead (d : Dev) (s : Nat) : Bool :=
  (List.range 8).any (fun ch => (d.fld R.GAL_LCFG_OCH).testBit ch && d.flag (R.STAIR_CHCFG_EN ch) && d.fld (R.STAIR_CHCFG_STRM ch) = s)

/-- The physical halls that the margin loop acts on (R243). -/
def Dev.govHalls (d : Dev) : List Nat := ((List.range 16).filter (fun h => d.inLead (d.streamOf h))).map d.phys

/-- A replay, retirement or failover occurs in a stream: the loop's next sample sees it (R243). -/
def Dev.noteRecovery (d : Dev) (s : Nat) : Dev := if d.inLead s then { d with gov := { d.gov with recovered := true } } else d

/-- One sample of the margin loop (R243). -/
def Dev.govSample (d : Dev) (m : Int) : Dev :=
  if !d.flag R.LINE_GOVCTL_EN || d.mode ≠ 8 then d else
  let hold := d.fld R.LINE_GOVCTL_HOLD
  let bad := m < d.fld R.LINE_GOVCTL_GUARD * 16 || d.gov.recovered
  let hs := d.govHalls
  let g := d.gov
  let since := g.sinceLow + 1
  if bad then
    let d := forEach hs d (fun d h => d.setCur h (d.fld (R.PWR_HV_NOM h)))
    { ((d.setFlag R.LINE_GOVSTAT_FRZ true).addFld R.LINE_GOVSTAT_NUP 1) with gov := ⟨since, 0, false⟩ }
  else
    let clean := g.clean + 1
    let low := !d.flag R.LINE_GOVSTAT_FRZ && (d.fld R.LINE_GOVCTL_TARGET * 16 : Nat) ≤ m && hold ≤ g.sinceLow &&
      hs.any (fun h => d.fld (R.PWR_HV_FLOOR h) < d.fld (R.PWR_HV_CUR h))
    let d := if low then
        (forEach hs d (fun d h =>
          if d.fld (R.PWR_HV_FLOOR h) < d.fld (R.PWR_HV_CUR h) then
            d.setCur h (max (d.fld (R.PWR_HV_FLOOR h)) (d.fld (R.PWR_HV_CUR h) - d.fld R.PWR_GOV_STEP)) else d)).addFld
          R.LINE_GOVSTAT_NLOW 1
      else d
    let d := if hold ≤ clean then d.setFlag R.LINE_GOVSTAT_FRZ false else d
    { d with gov := ⟨if low then 0 else since, clean, false⟩ }

/-- A landing margin is measured (R190): GAL_LMRG, the waymark units, the margin loop. -/
def Dev.marginSample (d : Dev) (m : Int) : Dev :=
  let sat := max (-(2 ^ 23 - 1)) (min (2 ^ 23 - 1) m)
  let d := d.setReg R.GAL_LMRG (BitVec.ofNat 32 (2 ^ 31 + wrapInt 24 sat))
  (d.wayDeliver 0 0 m).govSample m

/-- The channels of the lead ring. -/
def Dev.leadChannels (d : Dev) : List Nat := (List.range 8).filter (fun ch => (d.fld R.GAL_LCFG_OCH).testBit ch)

/-- Lines that CPOS covers in every channel beyond those already released (R189), on differences modulo 2^24. -/
def Dev.newlyReleased (d : Dev) : Nat :=
  let lpu := d.fld R.GAL_LCFG_LPU
  if !d.flag R.GAL_LCFG_LEN || lpu = 0 then 0 else
  (d.leadChannels.map (fun ch =>
    let x := (d.fld (R.STAIR_CHCPOS_POS ch) + 2 ^ 24 - d.lead.released * lpu % 2 ^ 24) % 2 ^ 24
    if x < 2 ^ 23 then x / lpu else 0)).min?.getD 0

/-- Line k is released at time t, in PLL_ROAD cycles since entry to PRINT: its margin is measured when the strobe of line k − LEAD has come (R190). -/
def Dev.releaseLine (d : Dev) (t : Int) : Dev :=
  let k := d.lead.released
  let lead := d.fld R.GAL_LCFG_LEAD
  let d := { d with lead := { d.lead with released := k + 1 } }
  let d := d.setFld R.GAL_LSTAT_RELLINE ((k + 1) % 2 ^ 16)
  if k < lead then d else
  match d.lead.strobeTimes.find? (fun p => p.1 = (k - lead) % 2 ^ 24) with
  | some p =>
    { d with lead := { d.lead with strobeTimes := d.lead.strobeTimes.filter (fun q => q.1 ≠ (k - lead) % 2 ^ 24) } }.marginSample
      (d.roadNs (p.2 - t))
  | none => { d with lead := { d.lead with relTimes := d.lead.relTimes ++ [(k % 2 ^ 24, t)] } }

/-- The lines that a commit has released (R189). -/
def Dev.noteReleases (d : Dev) (t : Int) : Dev := forEach (List.range d.newlyReleased) d (fun d _ => d.releaseLine t)

/-- Strobe i at time t on the margin of line i + LEAD (R190). -/
def Dev.marginStrobe (d : Dev) (i : Nat) (t : Int) : Dev :=
  let k := (i + d.fld R.GAL_LCFG_LEAD) % 2 ^ 24
  match d.lead.relTimes.find? (fun p => p.1 = k) with
  | some p =>
    { d with lead := { d.lead with relTimes := d.lead.relTimes.filter (fun q => q.1 ≠ k) } }.marginSample (d.roadNs (t - p.2))
  | none => { d with lead := { d.lead with strobeTimes := d.lead.strobeTimes ++ [(i % 2 ^ 24, t)] } }

/-- Strobe i on its line: late when the mover has not finished copying line i (R191). -/
def Dev.lateStrobe (d : Dev) (i : Nat) : Dev :=
  if i < d.lead.copied then d else
  ({ d with lead := { d.lead with late := d.lead.late ++ [i] } }.addFld R.GAL_LSTAT_LATE 1).raise 0x36

def Dev.landingSlots (d : Dev) : Nat := d.fld R.GAL_LCFG_NSM1 + 1

/-- LEAD_COPY_START (R189). -/
def Dev.leadStart (d : Dev) : Dev :=
  let k := d.lead.copied
  if d.flag R.GAL_LCFG_LEN && !d.lead.copying && k < d.lead.released &&
      (k < d.landingSlots || k < d.lead.done + d.landingSlots)
  then { d with lead := { d.lead with copying := true } } else d

/-- The channel of the lead ring whose stream contains a hall. -/
def Dev.leadChannelOf (d : Dev) (h : Nat) : Option Nat :=
  d.leadChannels.find? (fun ch => d.fld (R.STAIR_CHCFG_STRM ch) = d.streamOf h)

/-- The share of a hall in the line being copied (R189), by its positions modulo 2^24 (R177); a read delivers each word as read
(R186). -/
def Dev.leadHall (d : Dev) (k h : Nat) : Dev :=
  let n := d.fld R.GAL_LHB_LHB
  let dst := 0x1600000 + k % d.landingSlots * d.fld R.GAL_LSLOT_SSZ * 64 + h * n
  match d.leadChannelOf h with
  | none => ((d.galWrite false dst (List.replicate n 0)).2).setFlag R.GAL_LSTAT_NOCOV true
  | some ch =>
    let word (i : Nat) : Nat := d.chanWord ch h ((k * d.fld R.GAL_LCFG_LPU + i / 64) % 2 ^ 24) (i % 64)
    let l := ((List.range ((n + 7) / 8)).flatMap (fun i => leBytes 8 (d.galWord (word i)).1.toNat)).take n
    let d0 := d
    let d := forEach (List.range ((n + 7) / 8)) d (fun d i => d.galCount (word i) (d0.galWord (word i)).2 true)
    (d.galWrite false dst l).2

/-- LEAD_COPY_DONE (R189). -/
def Dev.leadDone (d : Dev) : Dev :=
  if !d.lead.copying then d else
  let k := d.lead.copied
  let d := forEach (List.range 16) d (fun d h => d.leadHall k h)
  let d := forEach d.leadChannels d (fun d ch =>
    d.setFld (R.STAIR_CHLIMIT_POS ch) ((k + 1) * d.fld R.GAL_LCFG_LPU % 2 ^ 24))
  { d with lead := { d.lead with copied := k + 1, copying := false } }

end Sys2Proof.Machine
end

