-- ==== Sys2Proof/Machine/Road.lean ====
section
/-! DEFINITION. The road's shape and its bridges: nodes, routers, links, the default route, bridge states, dead nodes
(R312 to R335). -/

namespace Sys2Proof.Machine

/-- The nodes of each router in port order, a dual-port node twice (R312, R314). -/
def routerNodes : List (List Nat) :=
  [[0x00, 0x01, 0x04, 0x05], [0x02, 0x03, 0x0E, 0x0F], [0x06, 0x06, 0x0C, 0x0D], [0x07, 0x09, 0x09], [0x08, 0x20],
   [0x0A, 0x0B], [0x10, 0x11, 0x12, 0x13], [0x14, 0x15, 0x16, 0x17], [0x18, 0x19, 0x1A, 0x1B], [0x1C, 0x1D, 0x1E, 0x1F]]

/-- The nodes that exist (R312). -/
def allNodes : List Nat := List.range 0x21

/-- The router of a node. -/
def nodeRouter (n : Nat) : Nat := (findIdx 10 (fun r => ((routerNodes[r]?).getD []).contains n)).getD 0

/-- The first endpoint port of a node at its router. -/
def endpointPort (n : Nat) : Nat :=
  let l := (routerNodes[nodeRouter n]?).getD []
  (findIdx l.length (fun i => l[i]? = some n)).getD 0

/-- The main links (R314). -/
def linkEnds : List (Nat × Nat) :=
  [(0, 1), (0, 2), (1, 2), (2, 3), (2, 4), (3, 4), (4, 5), (2, 5), (0, 6), (6, 7), (7, 2), (1, 9), (9, 8), (8, 2), (3, 5)]

/-- The links of a router in ascending number. -/
def routerLinks (r : Nat) : List Nat :=
  (List.range 15).filter (fun k => match linkEnds[k]? with | some (a, b) => a = r || b = r | none => false)

/-- The router at the other end of a link. -/
def linkPeer (r k : Nat) : Nat := match linkEnds[k]? with | some (a, b) => if a = r then b else a | none => r

/-- The link that a port of a router names: ports from 6 up. -/
def portLink (r p : Nat) : Option Nat := if 6 ≤ p then (routerLinks r)[p - 6]? else none

/-- The port of a router for a link. -/
def linkPort (r k : Nat) : Nat := 6 + (findIdx (routerLinks r).length (fun i => (routerLinks r)[i]? = some k)).getD 0

/-- The ring road's order (R314). -/
def ringOrder : List Nat := [0, 1, 9, 8, 2, 3, 4, 5, 7, 6]

/-- Steps along the ring from one router to another. -/
def ringSteps (r t : Nat) : Nat :=
  let pos (x : Nat) : Nat := (findIdx 10 (fun i => ringOrder[i]? = some x)).getD 0
  (pos t + 10 - pos r) % 10

/-- The vendor default route (DESIGN CHOICE: the spec gives no entries, only that they pass R328): the tree of links rooted at
router 2, with 6 below 7 and 9 below 8. -/
def treeParent (r : Nat) : Nat := if r = 6 then 7 else if r = 9 then 8 else 2

/-- The next router from r to t in that tree. -/
def treeNext (r t : Nat) : Nat :=
  let up := treeParent t
  if t ≠ 2 && up = r then t
  else if t ≠ 2 && up ≠ 2 && r = 2 then up
  else if r = 2 then t else treeParent r

/-- The default entry of router r for node n. -/
def defaultRoute (r n : Nat) : Nat :=
  if !allNodes.contains n then 0
  else if nodeRouter n = r then endpointPort n
  else
    let nx := treeNext r (nodeRouter n)
    ((findIdx 15 (fun k => match linkEnds[k]? with | some (a, b) => (a = r && b = nx) || (a = nx && b = r) | none => false)).map
      (linkPort r)).getD 0

/-- The slices of TIDs after reset (R321): base and count. -/
def defaultSlice (n : Nat) : Nat × Nat :=
  match n with
  | 0 => (0x000, 128) | 1 => (0x080, 128) | 2 => (0x100, 128) | 3 => (0x180, 128)
  | 0x08 => (0x200, 512) | 0x0C => (0x400, 1024) | 0x0D => (0x800, 512) | 0x0A => (0xA00, 768)
  | 0x0B => (0xD00, 256) | 0x0E => (0xE00, 128) | 0x0F => (0xE80, 128)
  | _ => (0, 0)

/-- Sets a register in both its copies, as the reset of its block does. -/
def Dev.preset (d : Dev) (a : Nat) (v : Word) : Dev := (d.setReg a v).setStaged a v

/-- The values of the ROAD window that the tables of the text give (R321, R327). -/
def Dev.presetRoad (d : Dev) : Dev :=
  let d := forEach (List.range 64) d (fun d n =>
    let s := defaultSlice n
    if s.2 = 0 then d else d.preset (R.ROAD_TID n) (BitVec.ofNat 32 (s.1 * 2 ^ 16 + s.2)))
  forEach (List.range 10) d (fun d r =>
    forEach allNodes d (fun d n => d.preset (R.ROAD_RT r n) (BitVec.ofNat 32 (defaultRoute r n))))

/-! Bridges (R330 to R334). -/

/-- Nodes 0x06 and 0x0C have no bridge (R312). -/
def hasBridge (n : Nat) : Bool := n ≠ 0x06 && n ≠ 0x0C && n ≤ 0x20

/-- Bridge states: 0 UP, 1 FENCE, 2 DRAIN, 3 ISOLATED, 4 waking, 5 RESETX, 6 DEAD. -/
def Dev.brState (d : Dev) (n : Nat) : Nat := if hasBridge n then d.fld (R.ROAD_BR_STATE n) else 0

def Dev.setBr (d : Dev) (n st : Nat) : Dev := if hasBridge n then d.setFld (R.ROAD_BR_STATE n) st else d

/-- A node is declared dead (R335). -/
def Dev.nodeDead (d : Dev) (n : Nat) : Bool := (d.reg (R.ROAD_DEAD (n / 32))).getLsbD (n % 32)

/-- The request expects a response (R318). -/
def PacketKind.answered : PacketKind → Bool
  | .rd | .wr | .mrd | .mwr => true
  | _ => false

def PacketKind.mgmt : PacketKind → Bool
  | .mrd | .mwr | .msg => true
  | _ => false

/-- The node that a road address belongs to (R313); none for an unmapped address. The device's own number is CHIPID. -/
def nodeOfAddr (chipid a : Nat) : Option Nat :=
  if a < 0x10000 then some 0x04
  else if 0x0C000000 ≤ a && a < 0x10000000 then some ((a - 0x0C000000) / 0x1000000)
  else if 0x10000000 ≤ a && a < 0x10C00000 then
    match blockOf a with
    | none => none
    | some .pwr => some 0x05
    | some .byw => some 0x0B
    | some .host => some 0x08
    | some .ddr => some 0x09
    | some .link => some 0x0A
    | some (.hall h) => some (0x10 + h.val)
    | some _ => some 0x04
  else if 0x20000000 ≤ a && a < 0x20800000 then some 0x07
  else if 0x40000000 ≤ a && a < 0x41800000 then some 0x06
  else if 0x100000000 ≤ a && a < 0x500000000 then some 0x09
  else if 0x2000000000 ≤ a && a < 0x2800000000 then
    if (a - 0x2000000000) / 0x100000000 = chipid then some 0x06 else some 0x0A
  else if 0x8000000000 ≤ a && a < 0x10000000000 then some 0x08
  else none

/-- Requests that a bridge holds. -/
def Dev.heldAt (d : Dev) (n : Nat) : List (BitVec 6 × PacketKind × Packet) := d.road.hold.filter (fun x => x.1.toNat = n)

def Dev.countHeld (d : Dev) (n : Nat) : Dev := if hasBridge n then d.setFld (R.ROAD_BR_HOLD n) (d.heldAt n).length else d

/-- Answers a request without its target: a response with the status, or nothing for a posted packet. -/
def Dev.answer (d : Dev) (n : Nat) (k : PacketKind) (p : Packet) (st : BitVec 4) : Dev :=
  if k.answered then
    { d with road := { d.road with resp := d.road.resp ++ [⟨p.tid, p.src, BitVec.ofNat 6 n, k.mgmt, st, [], p.addr⟩] } }
  else d

/-- Requests that the target has taken and not answered get a status (R334, R335). -/
def Dev.answerWaiting (d : Dev) (n : Nat) (st : BitVec 4) : Dev :=
  let mine := d.road.waiting.filter (fun x => x.node.toNat = n)
  { d with road := { d.road with
      waiting := d.road.waiting.filter (fun x => x.node.toNat ≠ n),
      resp := d.road.resp ++ mine.map (fun x => { x with status := st, data := [] }) } }

/-- The TIDs of a node's own requests whose responses it has not had: those on their way, those that their targets keep, those held at
other bridges. -/
def Dev.owedTo (d : Dev) (n : Nat) : List (BitVec 12) :=
  ((d.road.resp ++ d.road.waiting).filter (fun x => x.src.toNat = n)).map (·.tid) ++
    (d.road.hold.filter (fun x => x.2.1.answered && x.2.2.src.toNat = n)).map (·.2.2.tid)

/-- Responses to a node's own requests are sunk when they come (R334, R335); what it asked for is forgotten. -/
def Dev.sinkFor (d : Dev) (n : Nat) : Dev :=
  { d with road := { d.road with
      sunk := d.road.sunk ++ (d.owedTo n).filter (fun t => !d.road.sunk.contains t),
      asked := d.road.asked.filter (fun x => x.src ≠ n) } }

/-- The held requests of a bridge are answered with a status; posted ones are dropped and counted (R332, R334). -/
def Dev.answerHeld (d : Dev) (n : Nat) (st : BitVec 4) (count : Fld) : Dev :=
  let mine := d.heldAt n
  let d := { d with road := { d.road with hold := d.road.hold.filter (fun x => x.1.toNat ≠ n) } }
  let d := forEach mine d (fun d x =>
    if x.2.1.answered then (d.answer n x.2.1 x.2.2 st).addFld count (bn (st = 3)) else d.addFld (R.ROAD_BR_DROP n) 1)
  d.countHeld n

/-- Link-down at a bridge: RESETX (R334). -/
def Dev.bridgeReset (d : Dev) (n : Nat) : Dev :=
  if !hasBridge n || d.nodeDead n then d else
  (((d.answerWaiting n 4).sinkFor n).answerHeld n 4 (R.ROAD_BR_ASLP n)).setBr n 5

/-- Node n is declared dead (R335); the gallery or the DMA engines dead is fatal (R406). -/
def Dev.declareDead (d : Dev) (n : Nat) : Dev :=
  if 0x20 < n || d.nodeDead n then d else
  let out := (d.road.waiting.filter (fun x => x.node.toNat = n)).length
  let d := d.setReg (R.ROAD_DEAD (n / 32)) (setBit (d.reg (R.ROAD_DEAD (n / 32))) (n % 32) true)
  let held := d.heldAt n
  let d := { d with road := { d.road with hold := d.road.hold.filter (fun x => x.1.toNat ≠ n) } }
  let d := forEach held d (fun d x => d.answer n x.2.1 x.2.2 5)
  let d := (((d.answerWaiting n 5).sinkFor n).addFld R.ROAD_DEADCNT_COUNT (out + held.length)).countHeld n
  let d := (d.setBr n 6).raise 0xD1
  if n = 0x06 || n = 0x0C then { d with fatal := some (d.fatal.getD 3) } else d

end Sys2Proof.Machine
end

