-- ==== Sys2Proof/Machine/Domains.lean ====
section
/-! DEFINITION. Power domains: what each mode asks of them, sequencing up and down, what a domain's loss of power and its
start leave (R31, R32, R35, R332, R380 to R384, R465, R472). Domain numbers are bits of PWR_DSTAT. -/

namespace Sys2Proof.Machine

/-- What R32 asks of a domain in a mode. -/
inductive DomUse where
  | off | on | cfg | keep
deriving DecidableEq, Repr

def isHallDom (k : Nat) : Bool := 8 ≤ k && k ≤ 24

/-- The table of R32 for the domains other than AON and CORE. -/
def domUse (mode k : Nat) : DomUse :=
  if mode = 0xA then .keep
  else if isHallDom k then (if mode = 7 || mode = 8 then .on else if mode = 9 then .cfg else .off)
  else match k with
    | 1 => if mode = 7 || mode = 8 then .on else if mode = 6 || mode = 9 then .cfg else .off
    | 2 => if 2 ≤ mode && mode ≤ 11 && mode ≠ 4 then .on else .off
    | 3 => if mode = 2 || mode = 9 then .cfg else if 6 ≤ mode && mode ≤ 8 then .on else .off
    | 4 => if 6 ≤ mode && mode ≤ 9 then .cfg else .off
    | 5 => if mode = 2 || mode = 3 || (6 ≤ mode && mode ≤ 9) || mode = 11 then .on else .off
    | _ => .off

/-- The domains that PWR sequences on request. -/
def seqDomains : List Nat := [1, 2, 3, 4, 5] ++ (List.range 17).map (8 + ·)

/-- The bridged node of a domain. -/
def domNode (k : Nat) : Nat :=
  if isHallDom k then 0x10 + (k - 8) else match k with | 1 => 0x0B | 2 => 0x08 | 3 => 0x09 | 4 => 0x0A | _ => 0x07

/-- The sequenced domain of a node. -/
def nodeDom (n : Nat) : Option Nat := seqDomains.find? (fun k => domNode k = n)

/-- A domain that stays off whatever is requested: switched off by the recovery logic, or named by an active SEQ_HSUB
(R383, R472). -/
def Dev.heldOff (d : Dev) (k : Nat) : Bool :=
  d.pow.forced.getLsbD k || (isHallDom k && k ≠ 24 && d.flag R.SEQ_HSUB_V && d.fld R.SEQ_HSUB_HALL = k - 8)

def Dev.modPow (d : Dev) (f : PowerState → PowerState) : Dev := { d with pow := f d.pow }

/-- Reads AON's timekeeping count, which elapsed time has moved on by an open amount since it was last read (R388, R389). -/
def Dev.readTime (d : Dev) : BitVec 64 × Dev :=
  let (n, d) := d.fresh
  let t := d.pow.aonTime + Config.freeWord n
  (t, d.modPow (fun p => { p with aonTime := t }))

def Dev.setOn (d : Dev) (k : Nat) (b : Bool) : Dev := d.setReg R.PWR_DSTAT (setBit (d.reg R.PWR_DSTAT) k b)

/-- Starts the next group of at most four waiting hall domains while PLL_ARY is locked (R381). -/
def Dev.startGroup (d : Dev) : Dev :=
  if !(d.fld R.CLK_STAT_LOCK).testBit 2 then d else
  let ks := (((List.range 17).map (8 + ·)).filter (fun k => d.pow.rising.getLsbD k && !d.pow.started.getLsbD k)).take 4
  d.modPow (fun p => { p with started := ks.foldl (fun m k => setBit m k true) p.started })

/-- A first group starts at once when none is starting. -/
def Dev.startFirstGroup (d : Dev) : Dev :=
  if (d.pow.rising &&& d.pow.started) = 0 then d.startGroup else d

/-- The rails of the DRAM start, or are found up (R371, R465): with EN = 1 training follows. -/
def Dev.ddrPowerUp (d : Dev) : Dev :=
  { d with ddr := if !d.pow.ddrPg then DdrPhase.waitPg else if d.flag R.DDR_CFG_EN then DdrPhase.training else DdrPhase.powered }

/-- The rails of the DRAM go down: DDR_VDD2L_EN drops, and VDD2H follows when the board's regulator reports low (R465). -/
def Dev.ddrPowerDown (d : Dev) : Dev := { d with ddr := if d.pow.ddrPg then DdrPhase.waitFall else DdrPhase.off }

/-- Starts the sequence that a domain's goal calls for, unless one is in progress (R381 to R383). -/
def Dev.reconcileOne (d : Dev) (k : Nat) : Dev :=
  let want := d.pow.goal.getLsbD k && !d.heldOff k
  if d.pow.rising.getLsbD k || d.pow.falling.getLsbD k then d
  else if want && !d.domOn k then
    let d := d.modPow (fun p => { p with rising := setBit p.rising k true })
    if k = 3 then d.ddrPowerUp else d
  else if !want && d.domOn k then
    let d := d.modPow (fun p => { p with falling := setBit p.falling k true })
    let n := domNode k
    if d.brState n = 5 || d.brState n = 6 then d else d.setBr n 2
  else d

def Dev.reconcile (d : Dev) : Dev := (forEach seqDomains d Dev.reconcileOne).startFirstGroup

/-- The request that a mode makes of one domain (R32, R383): on, off, or as PWR_DREQ says. -/
def Dev.followMode (d : Dev) (mode k : Nat) : Dev :=
  match domUse mode k with
  | .off => d.modPow (fun p => { p with goal := setBit p.goal k false })
  | .on => d.modPow (fun p => { p with goal := setBit p.goal k true })
  | .cfg => d.modPow (fun p => { p with goal := setBit p.goal k ((d.reg R.PWR_DREQ).getLsbD k) })
  | .keep => d

/-- Requests that a mode makes. -/
def Dev.applyMode (d : Dev) (mode : Nat) : Dev := (forEach seqDomains d (fun d k => d.followMode mode k)).reconcile

/-- A change of PWR_DREQ acts where the current mode says cfg (R383). -/
def Dev.requestDomains (d : Dev) (v : Word) : Dev :=
  let d := d.setReg R.PWR_DREQ (v &&& 0x01FFFF3F)
  (d.modPow (fun p => { p with goal := forEach seqDomains p.goal (fun g k =>
    if domUse d.mode k = .cfg then setBit g k ((d.reg R.PWR_DREQ).getLsbD k) else g) })).reconcile

/-- Auto-wake at a bridge (R332): PWR wakes the domain in a mode that says cfg, unless it is held off. -/
def Dev.canWake (d : Dev) (n : Nat) : Bool :=
  match nodeDom n with
  | some k => domUse d.mode k == .cfg && !d.heldOff k
  | none => false

def Dev.wakeNode (d : Dev) (n : Nat) : Dev :=
  match nodeDom n with
  | some k => (d.modPow (fun p => { p with goal := setBit p.goal k true })).reconcile
  | none => d

/-! Contents. -/

/-- Bytes of a range of memory are lost: they read as at power-on. -/
def Dev.dropMem (d : Dev) (lo hi : Nat) : Dev := { d with mem := bankClear d.mem lo hi }

/-- DRAM contents are lost (R465). -/
def Dev.dropDram (d : Dev) : Dev := { d.dropMem 0x100000000 0x500000000 with dramErr := [] }

/-- A domain has lost its power: its registers and its state are gone (R32, R382). The rail of a hall is its own; its memory
is cleared when it starts (R35). -/
def Dev.loseDomain (d : Dev) (k : Nat) : Dev :=
  let d := d.darkLines k
  match k with
  | 1 => { (d.dropVerify .fabric).resetWindow .byw with byw := {} }
  | 2 => { (d.dropHost).resetWindow .host with host := {} }
  | 3 =>
    if d.mode = 5 || d.fld R.PWR_MSTAT_TO = 5 then { d.resetWindow .ddr with ddr := .off }
    else (d.dropDram.resetWindow .ddr).ddrPowerDown
  | 4 => { d.resetWindow .link with
           link := {}, news := Vector.replicate 4 {}, express := Vector.replicate 4 {} }
  | 5 => d
  | _ =>
    if hk : k - 8 < 17 then
      let h : HallId := ⟨k - 8, hk⟩
      let d := d.resetWindow (.hall h)
      let d := { d with arr := { d.arr with
        retire := d.arr.retire.filter (fun r => r.hall ≠ h),
        reports := d.arr.reports.filter (fun r => (match r with | .upset x _ _ _ => x | .dead x => x) ≠ h) } }
      match d.logicalOf h.val with
      | some l => if hl : l < 16 then d.modHq ⟨l, hl⟩ HallQ.flush else d
      | none => d
    else d

/-- A domain has come up: ON, its bridge's exchange, and what its start initialises (R35, R381, R384). -/
def Dev.riseDomain (d : Dev) (k : Nat) : Dev :=
  let d := d.modPow (fun p => { p with rising := setBit p.rising k false, started := setBit p.started k false })
  let d := (d.setOn k true).setBr (domNode k) (if d.nodeDead (domNode k) then 6 else 0)
  let d := if k = 2 then d.scanFallback else d
  if isHallDom k then
    let h := k - 8
    let d := d.modPow (fun p => { p with trim := if hh : h < 17 then p.trim.set h 0 hh else p.trim })
    (d.clearHall h).setCur h (d.fld (R.PWR_HV_NOM h))
  else if k = 4 then { d with link := { d.link with training := 0xF } }
  else d

/-- DOMAIN_UP (R381): a domain whose sequence runs has come up. A hall's sequence runs once its group has started, and the reset
exchange, its last step, waits for the responses owed to the node (R333). -/
def Dev.domainUp (d : Dev) (k : Nat) : Dev :=
  if d.pow.rising.getLsbD k && (!isHallDom k || d.pow.started.getLsbD k) && (d.owedTo (domNode k)).isEmpty then (d.riseDomain k).reconcile
  else d

/-- The bridge of a falling domain has isolated, or its node does not answer (R331, R334, R335). -/
def Dev.isolated (d : Dev) (k : Nat) : Bool := d.brState (domNode k) = 3 || d.brState (domNode k) = 5 || d.brState (domNode k) = 6

/-- DOMAIN_OFF (R382): the rail is discharged. -/
def Dev.domainOff (d : Dev) (k : Nat) : Dev :=
  if d.pow.falling.getLsbD k && d.isolated k then
    (((d.modPow (fun p => { p with falling := setBit p.falling k false })).setOn k false).loseDomain k).reconcile
  else d

/-- A domain is removed at once, without FENCE (R219, R406): its bridge sees link-down. -/
def Dev.cutDomain (d : Dev) (k : Nat) : Dev :=
  let d := d.modPow (fun p => { p with
    goal := setBit p.goal k false, rising := setBit p.rising k false,
    falling := setBit p.falling k false, started := setBit p.started k false })
  if d.domOn k then ((d.bridgeReset (domNode k)).setOn k false).loseDomain k
  else if k = 3 then d.ddrPowerDown else d

/-- The road has refused a power-down (R331, R382): the domain stays on until it is requested off again. -/
def Dev.refuseDown (d : Dev) (k : Nat) : Dev :=
  (d.modPow (fun p => { p with falling := setBit p.falling k false, goal := setBit p.goal k true })).setFlag R.PWR_DSTAT_PDREF true

/-- The bridged nodes of CORE and AON, none of which a sequenced domain holds: those of CORE's own power-down (R331). -/
def coreNodes : List Nat := [0x00, 0x01, 0x02, 0x03, 0x04, 0x0D, 0x0E, 0x0F]

/-- CORE begins its power-down: FENCE and DRAIN at every bridge (R331, R402). -/
def Dev.fenceCore (d : Dev) : Dev :=
  forEach coreNodes d (fun d n => if d.brState n = 5 || d.brState n = 6 then d else d.setBr n 2)

/-- The road has refused the power-down of CORE: it stays on, and its bridges are UP. -/
def Dev.refuseCore (d : Dev) : Dev :=
  (forEach coreNodes d (fun d n => if d.brState n = 2 || d.brState n = 3 then d.setBr n 0 else d)).setFlag R.PWR_DSTAT_PDREF true

/-- A power-down ends at a bridge without ISOLATE: the bridge is UP again, and PWR is told (R331, R332). -/
def Dev.abortDown (d : Dev) (n : Nat) : Dev :=
  match nodeDom n with
  | some k => (d.setBr n 0).refuseDown k
  | none => d.refuseCore

/-! Requests that reach a node (R332, R334, R335). -/

/-- What a request finds at the bridge of its node. -/
inductive Reach where
  | ok
  | status (st : BitVec 4)
  | wait
deriving DecidableEq, Repr

/-- Looks at a node before a request is passed in. A request that aborts a power-down or asks for a wake does so here. -/
def Dev.reach (d : Dev) (n : Nat) (answered : Bool) : Reach × Dev :=
  if d.nodeDead n then (.status 5, d.addFld R.ROAD_DEADCNT_COUNT 1)
  else if !hasBridge n then (.ok, d)
  else match d.brState n with
    | 0 => (.ok, d)
    | 5 => (.status 4, if answered then d else d.addFld (R.ROAD_BR_DROP n) 1)
    | st =>
      let aw := d.flag (R.ROAD_BR_AW n)
      if aw && (st = 1 || st = 2) && !((nodeDom n).map d.heldOff).getD false then
        (.ok, d.abortDown n)
      else if aw && (st = 4 || d.canWake n) then (.wait, (d.setBr n 4).wakeNode n)
      else if answered then (.status 3, d.addFld (R.ROAD_BR_ASLP n) 1)
      else (.status 3, d.addFld (R.ROAD_BR_DROP n) 1)

end Sys2Proof.Machine
end

