-- ==== Sys2Proof/Machine/Dram.lean ====
section
/-! DEFINITION. DRAM words with inline ECC: reads and writes, the counters and the log (R28, R369). -/

namespace Sys2Proof.Machine

def dramBase : Nat := 0x100000000

/-- Usable bytes; 0 until training has passed (R369, R371). -/
def Dev.dramSize (d : Dev) : Nat := d.fld R.DDR_CFG_USIZE * 2 ^ 28

def Dev.dramErrOf (d : Dev) (i : Nat) : BitVec 72 := bankGet (fun _ => 0) d.dramErr i

/-- The DRAM word of index i (offset / 8) as a read finds it. -/
def Dev.dramWord (d : Dev) (i : Nat) : BitVec 64 × EccFind :=
  secdedRead Config.dramBeyond (d.word64 (dramBase + 8 * i)) (d.dramErrOf i)

/-- Counts and logs what an access found (R369). -/
def Dev.dramCount (d : Dev) (i : Nat) (r : EccFind) : Dev :=
  match r with
  | .good => d
  | .corrected => (d.addFld R.DDR_STAT_CCNT 1).setReg R.DDR_ECCLOG (BitVec.ofNat 32 (2 ^ 31 + i % 2 ^ 30))
  | .uncorrectable => ((d.addFld R.DDR_STAT_UCNT 1).setReg R.DDR_ECCLOG (BitVec.ofNat 32 (2 ^ 31 + 2 ^ 30 + i % 2 ^ 30))).raise 0xDC

/-- The last byte of a hall's image, plus one: nothing when the mask of its segments is 0 (R224). -/
def Dev.imageEnd (d : Dev) (mask h : Nat) : Nat :=
  match ((List.range 32).filter mask.testBit).getLast? with
  | some k => d.fld (R.SEQ_HIMG_BASE h) * 2 ^ 22 + (k + 1) * 131072
  | none => 0

/-- The image of a hall that a write at a DRAM offset falls into has not passed a verify since (R223). -/
def Dev.touchImages (d : Dev) (off : Nat) : Dev :=
  if d.arr.verified = 0 then d else
  forEach (List.range 16) d (fun d h =>
    if d.fld (R.SEQ_HIMG_BASE h) * 2 ^ 22 ≤ off && off < d.imageEnd (d.fld R.SEQ_IMGMASK_MASK) h
    then { d with arr := { d.arr with verified := setBit d.arr.verified h false } } else d)

/-- A whole-word write replaces the word. -/
def Dev.dramPut (d : Dev) (i : Nat) (x : BitVec 64) : Dev :=
  { (d.touchImages (8 * i)).setWord64 (dramBase + 8 * i) x with dramErr := bankSet (fun _ => 0) d.dramErr i 0 }

/-- n bytes at DRAM offset a, and whether a word was uncorrectable. -/
def Dev.dramRead (d : Dev) (a n : Nat) : List Byte × Bool × Dev :=
  let ws := wordsOf a n
  let all := ws.flatMap (fun i => leBytes 8 (d.dramWord i).1.toNat)
  ((all.drop (a % 8)).take n, ws.any (fun i => (d.dramWord i).2 == .uncorrectable),
    forEach ws d (fun d i => d.dramCount i (d.dramWord i).2))

/-- Bytes written at DRAM offset a, word by word; a partial write leaves an uncorrectable word unchanged. Whether one was met. -/
def Dev.dramWrite (d : Dev) (a : Nat) (l : List Byte) : Bool × Dev :=
  (wordsOf a l.length).foldl (fun (r : Bool × Dev) i =>
    let d := r.2
    if coversWord i a l.length then (r.1, d.dramPut i (mergeWord i a l 0)) else
    let w := d.dramWord i
    let d := d.dramCount i w.2
    if w.2 == .uncorrectable then (true, d) else (r.1, d.dramPut i (mergeWord i a l w.1))) (false, d)

end Sys2Proof.Machine
end

