-- ==== Sys2Proof/Machine/SeqEvents.lean ====
section
/-! DEFINITION. Events of the sequencer: limits exceeded, token time-outs, completion reports, the floating-point trap, patch
loads, preemption (R125, R144 to R158, R165 to R167, R180, R202). -/

namespace Sys2Proof.Machine

/-! Routines cut short (R149, R151, R202). -/

/-- A field is left partly written in the active PEs of a stream: its bits there are free. -/
def Dev.looseField (d : Dev) (s : StreamId) (addrs : List Nat) : Dev :=
  let (g, d) := d.fresh
  d.forRows s.val (fun d _ p row =>
    forEach addrs d (fun d a => d.peWrite p row a (d.act p row) (Config.freePlane g (peKey p row a))))

/-- A routine that stops part of the way leaves the fields it writes partly written (R149), and STROUT its words in the gallery. -/
def Dev.partly (d : Dev) (s : StreamId) (j : Job) : Dev :=
  let o := j.opc.toNat
  let d := if writesFd o j.cdt then d.looseField s (fieldAddrs j.dD.1) else d
  let d := if writesFb o j.cdt then d.looseField s (fieldAddrs j.dB.1) else d
  let k := fpCtlOf j.fpctl
  let d := if isFp o && k.flen then d.looseField s ((List.range 4).map (fun i => k.flagAdr + i)) else d
  let d := d.forHalls s.val (fun d h => d.looseScratch (d.phys h.val))
  if o = 0x6D then
    let ch := j.sb.toNat
    let p := d.fld (R.STAIR_CHWPOS_POS ch)
    (d.streamHalls s.val).foldl (fun d h =>
      forEach (List.range (transferWords (d.chanUnits ch (descWidth j.dA.1)))) d (fun d i =>
        let (n, d) := d.fresh
        d.galPut (d.chanWord ch h p i) (Config.freeWord n))) d
  else d

/-- The next instruction of a stream that would start but for a limit. -/
def Dev.blockedJob (d : Dev) (s : StreamId) : Option Job :=
  match (d.st s).jobs with
  | j :: _ => if d.streamIdle s && (!d.samples s j || (d.st s).smp.isNone) then some j else none
  | [] => none

/-- The span limit is reached before the routine limit. -/
def Dev.spanFirst (d : Dev) (s : StreamId) : Bool :=
  d.fld (R.SEQ_SPAN_LIM s) ≤ (d.st s).span + d.fld R.SEQ_UCTL_UTMO * 256 || d.fld R.SEQ_UCTL_UTMO = 0

/-- ROUTINE_TIMEOUT (R151): a microcode fault with UCAUSE 0x08 at the next microword. The spec does not give the addresses of
the vendor routines' words: UPC is free for one. -/
def Dev.routineTimeout (d : Dev) (s : StreamId) : Dev :=
  match (d.st s).run with
  | .micro j =>
    let x := d.st s
    let m := match x.micro.hold with | some w => nextAddress x.ct j x.micro w | none => x.micro
    if d.canIssue s && d.timedOut s then d.microcodeFault s 8 m.upc.toNat else d
  | .idle =>
    match d.blockedJob s with
    | some j =>
      if d.overTime s j && !(d.overSpan s j && d.spanFirst s) then
        let (n, d) := d.fresh
        ((d.partly s j).modSt s (fun x => { x with run := .micro j })).microcodeFault s 8 ((Config.freeWord n).toNat % 2 ^ 13)
      else d
    | none => d
  | _ => d

/-- A span overrun (R202): fault 0x10 until SEQ_AFLTs.VAL is cleared, no replay. -/
def Dev.overrun (d : Dev) (s : StreamId) (opc : Nat) : Dev :=
  let d := (d.arrayFault s opc 0x10 0 0).imprecise s .array 0
  let d := { d with arr := { d.arr with block := bankSet (fun _ => 0) d.arr.block s.val (bankGet (fun _ => 0) d.arr.block s.val ||| 1) } }
  d.abandonStream s

/-- The next microword of a stream would take the span sum above the limit. -/
def Dev.wordOverSpan (d : Dev) (s : StreamId) : Bool :=
  match (d.st s).run with
  | .micro j =>
    let x := d.st s
    let m := match x.micro.hold with | some w => nextAddress x.ct j x.micro w | none => x.micro
    let w := d.storeWord (d.served m.upc)
    d.canIssue s && !d.timedOut s && (d.fetchFault m).isNone && (microFault j m w).isNone && j.opc ≠ 0x6E &&
      d.fld (R.SEQ_SPAN_LIM s) < x.span + effCycles m w
  | _ => false

/-- The fetch of the microword that a condition has led to, or of the next. -/
def Dev.countWord (d : Dev) (s : StreamId) : Dev :=
  match (d.st s).run with
  | .micro j =>
    let x := d.st s
    let m := match x.micro.hold with | some w => nextAddress x.ct j x.micro w | none => x.micro
    d.countMicro s (d.served m.upc).toNat
  | _ => d

/-- SPAN_OVERRUN (R202). -/
def Dev.spanOverrun (d : Dev) (s : StreamId) : Dev :=
  match (d.st s).run with
  | .micro j => if d.wordOverSpan s then (d.countWord s).overrun s j.opc.toNat else d
  | .idle =>
    match d.blockedJob s with
    | some j =>
      if d.overSpan s j && (d.spanFirst s || !d.overTime s j) then (d.partly s j).overrun s j.opc.toNat else d
    | none => d
  | _ => d

/-! Token time-outs (R165). -/

/-- A hall is stalled in a GET cycle whose token must come through an edge latch that holds none (R165). -/
def Dev.waitsOn (d : Dev) (s : StreamId) (h : LHall) (edge : BitVec 2) : Bool :=
  match (d.hq h).run with
  | some r => r.stall = 1 && crossGet (feOp r.e) && (dirOf (feOp r.e)).latchNo = edge.toNat && d.tokenMissing s h (feOp r.e)
  | none => false

/-- A hall signals a stall to its neighbours (R165): its entry is stalled under some cause of R163, or its flight is empty. -/
def Dev.signalsStall (d : Dev) (h : LHall) : Bool :=
  match (d.hq h).run with
  | some r => r.stall ≠ 5
  | none => (d.hq h).flight.isEmpty || (d.hq h).repDue

/-- TOKEN_TIMEOUT: the waiting hall records the first time-out, and the recovery logic gets the hall that does not answer. -/
def Dev.tokenTimeout (d : Dev) (h : LHall) (edge : BitVec 2) (f : LHall) : Dev :=
  match d.stream? (d.streamOf h.val) with
  | none => d
  | some s =>
    if d.fld R.SEQ_CTRL_WDOG = 0 || d.edgeEnd s h.val (edge.getLsbD 0) ≠ .hall f.val || !d.waitsOn s h edge || d.signalsStall f then d else
    let ph := d.phys h.val
    let d := if d.flag (R.HALL_FLSTAT_TKTO ph) then d else
      (d.setFlag (R.HALL_FLSTAT_TKTO ph) true).setFld (R.HALL_FLSTAT_TKEDGE ph) edge.toNat
    let p := d.phys f.val
    if hp : p < 17 then { d with arr := { d.arr with reports := d.arr.reports ++ [.dead ⟨p, hp⟩] } } else d

/-! Floating-point traps (R125). -/

/-- ARRAY_FP_TRAP: the held core takes the trap at its boundary, after an imprecise trap that waits there, and TVAL and TOPC are
set unless a record is held. -/
def Dev.arrayFpTrap (d : Dev) (s : StreamId) : Dev :=
  match (d.st s).fpTrap with
  | none => d
  | some opc =>
    let k := d.co s
    if k.mode ≠ .run || k.halted || !k.impr.isEmpty then d else
    let d := if d.flag (R.SEQ_FPST_TVAL s) then d else
      (d.setFld (R.SEQ_FPST_TOPC s) opc.toNat).setFlag (R.SEQ_FPST_TVAL s) true
    (d.modSt s (fun x => { x with fpTrap := none, fpHold := false })).trapHere s .arrayFp

/-! The stairs (R176 to R180). -/

/-- The routine of a stream that has a channel open: its instruction, with its opcode as the channel's direction gives it. -/
def Dev.chanJob (d : Dev) (s : StreamId) : Option Job :=
  match (d.st s).run with
  | .xfer j _ _ => some j
  | .micro j =>
    (d.st s).micro.chan.map (fun ch =>
      { j with opc := if d.flag (R.STAIR_CHCFG_DIR ch.toNat) then 0x6D else 0x6C, sb := ch.setWidth 5 })
  | _ => none

/-- STAIR_TRANSFER_START (R180): a hall's transfer starts once its flow condition holds. -/
def Dev.startTransfer (d : Dev) (h : LHall) : Dev :=
  match d.stream? (d.streamOf h.val) with
  | none => d
  | some s =>
    match d.chanJob s, (d.hq h).chan with
    | some j, some (ch, 0) =>
      if !d.flowOk j || d.chanMarched ch.toNat then d else
      let d := (d.countStall h 3 (bn (d.hq h).waited)).modHq h (fun q => { q with chan := some (ch, 1) })
      match (d.st s).run with
      | .xfer _ moved rep =>
        let d := if j.opc = 0x6C then d.strinHall j h.val else d.stroutHall j h.val
        d.modSt s (fun x => { x with run := .xfer j (setBit moved h.val true) rep })
      | _ => if j.opc = 0x6C then d.chanCount ch.toNat h.val (d.fld (R.STAIR_CHWPOS_POS ch.toNat)) (d.chanUnits ch.toNat (descWidth j.dD.1)) else d
    | _, _ => d

/-- The transfer of a hall cannot start: its flow condition fails, or its gallery words are under a destructive march (R180, R195). -/
def Dev.transferWaits (d : Dev) (h : LHall) : Bool :=
  match (d.stream? (d.streamOf h.val)).bind d.chanJob with
  | some j => !d.flowOk j || d.chanMarched j.sb.toNat
  | none => false

/-- STAIR_WAIT_TIMEOUT (R180): the wait of a hall exceeds SWAIT. -/
def Dev.stairTimeout (d : Dev) (h : LHall) : Dev :=
  match (d.hq h).chan with
  | some (ch, 0) =>
    if (d.hq h).waited || d.fld R.STAIR_CTRL_SWAIT = 0 || !d.transferWaits h then d else
    ((d.modHq h (fun q => { q with waited := true })).setFlag (R.STAIR_CHSTAT_WTO ch.toNat) true).raise 0x37
  | _ => d

/-! Completion reports (R166, R167, R218). -/

/-- The line carry of a hall (R218): from the field that the next phase keeps to the slot of the parity of the next line. -/
def Dev.lineCarry (d : Dev) (s : StreamId) (h : LHall) : Dev :=
  let base := if d.flag (R.SEQ_SPSTAT_PH s) then d.fld (R.SEQ_CARRY_CB0 s) else d.fld (R.SEQ_CARRYB_CB1 s)
  let e := (d.fld (R.SEQ_LPT_LLINE s) + 1) % 2
  let w := d.fld (R.SEQ_CARRY_CWM1 s) + 1
  let ph := d.phys h.val
  let d0 := d
  forEach (List.range w) d (fun d j =>
    let a := (base + j) % 8192
    let off := d0.fld R.SEQ_RAREA_LCB * 65536 + (2 * h.val + e) * 32768 + j * 512
    let d := d.countUnit ph a true
    forEach (List.range 64) d (fun d row => d.galPut (off / 8 + row) (d0.peRead ph row a)))

/-- The carry write before the report of an MSTONE entry. -/
def Dev.carryAtReport (d : Dev) (s : StreamId) (j : Job) (h : LHall) : Dev :=
  if j.sd.getLsbD 0 && d.flag (R.SEQ_CARRY_CEN s) then d.lineCarry s h else d

/-- Whether every hall of a stream has moved its whole share of an open channel. -/
def Dev.allMoved (d : Dev) (s : StreamId) (ch : Nat) : Bool :=
  (d.streamHalls s.val).all (fun h => match d.arr.hallq[h]? with
    | some q => (match q.chanCycle with | some (_, k) => 8 * d.chanWidth s ch ≤ k | none => false)
    | none => true)

/-- The stair of a hall has no transfer of the open channel outstanding (R167): none has begun, or the hall's whole share is moved. -/
def Dev.shareMoved (d : Dev) (s : StreamId) (h : LHall) : Bool :=
  match (d.hq h).chanCycle with
  | some (ch, k) => 8 * d.chanWidth s ch ≤ k
  | none => true

/-- REP_REPORT (R167): a hall's report reaches the sequencer. When every hall has reported, a transfer or a routine that waited
for it ends; a MILESTONE waits for its commit. -/
def Dev.repReport (d : Dev) (h : LHall) : Dev :=
  match d.stream? (d.streamOf h.val) with
  | none => d
  | some s =>
    if d.upsetPending s then d else
    let all := d.hallMask s
    match (d.st s).run with
    | .mstone j rep =>
      if rep.getLsbD h.val then d else
      let d := (d.carryAtReport s j h).countStall h 4 0
      if d.upsetPending s then d else d.modSt s (fun x => { x with run := .mstone j (setBit rep h.val true) })
    | .xfer j moved rep =>
      if !moved.getLsbD h.val || rep.getLsbD h.val then d else
      let rep := setBit rep h.val true
      let d := d.modSt s (fun x => { x with run := .xfer j moved rep })
      if (rep &&& all) = all then
        ((((d.advanceChan j).closeChan s j.sb.toNat).modSt s (fun x => { x with run := .idle })).looseEnd s.val) else d
    | .micro j =>
      if !(d.hq h).repDue || !d.shareMoved s h then d else
      let d := if (d.st s).micro.msWait then (d.carryAtReport s j h).countStall h 4 0 else d
      if d.upsetPending s then d else
      let d := d.modHq h (fun q => { q with repDue := false })
      let d := d.modSt s (fun x => { x with micro := { x.micro with rep := setBit x.micro.rep h.val true } })
      let m := (d.st s).micro
      if (m.rep &&& all) = all && m.endWait then
        let d := match d.chanJob s, m.chan with
          | some cj, some ch => if d.allMoved s ch.toNat then d.advanceChan cj else d
          | _, _ => d
        if m.reported then d.endRoutine s
        else d.modSt s (fun x => { x with micro := { x.micro with endWait := false, reported := true, rep := 0 } })
      else d
    | .idle => d

/-! Patch loads (R145, R146). -/

def Dev.patchError (d : Dev) (c : Nat) : Dev :=
  { ((d.setFlag R.SEQ_PLDSTAT_BUSY false).setFlag R.SEQ_PLDSTAT_ERR true).setFld R.SEQ_PLDSTAT_ECAUSE c with
    arr := { d.arr with stage := none } }

/-- The gallery offset of the image at a source address, when n bytes from it lie in the range of R145 step 1. -/
def patchFrom (src n : Nat) : Option Nat :=
  let a := src * 8
  if 0x40000000 ≤ a && a + n ≤ 0x41700000 then some (a - 0x40000000) else none

/-- The same for the image that SEQ_PLDSRC names. -/
def Dev.patchSource (d : Dev) (n : Nat) : Option Nat := patchFrom (d.fld R.SEQ_PLDSRC_ADDR) n

/-- A GO in SEQ_PLDCMD. A load works with the half and the source that the registers hold at its GO, so that a later write of them
does not disturb it (DESIGN CHOICE for a write without GO, log entry 95). -/
def Dev.patchLoad (d : Dev) : Dev :=
  if d.flag R.SEQ_PLDSTAT_BUSY then (d.setFlag R.SEQ_PLDSTAT_ERR true).setFld R.SEQ_PLDSTAT_ECAUSE 1
  else match d.patchSource 64 with
    | none => d.patchError 2
    | some _ => { d.setFlag R.SEQ_PLDSTAT_BUSY true with arr := { d.arr with pld := (d.fld R.SEQ_PLDCMD_HALF, d.fld R.SEQ_PLDSRC_ADDR) } }

/-- PATCH_STAGING_DONE (R145 steps 1 and 2, R419 step 1): the staged words with their targets, or the error that ends the load. -/
def Dev.patchStaged (d : Dev) (ok : Bool) : Dev :=
  if !d.flag R.SEQ_PLDSTAT_BUSY || d.arr.stage.isSome then d else
  let half := d.arr.pld.1
  match patchFrom d.arr.pld.2 64 with
  | none => d.patchError 2
  | some a =>
    let (hl, bad, d) := d.galRead a 64
    if bad || !ok then d.patchError 6 else
    let h := parseHeader hl
    match patchFrom d.arr.pld.2 (64 + h.bodyLen + 3136) with
    | none => d.patchError 2
    | some _ =>
      let (l, bad, d) := d.galRead a (64 + h.bodyLen + 3136)
      if bad then d.patchError 6 else
      if !h.plainOk (2 + half) || h.count = 0 || 512 < h.count || h.bodyLen ≠ 8 * h.count then d.patchError 3 else
      let ws := (List.range h.count).map (fun i => (le l (64 + 8 * i) 6, le l (64 + 8 * i + 6) 2))
      if ws.any (fun p => 512 ≤ p.2) then d.patchError 3 else
      { d with arr := { d.arr with
          stage := some (ws.map (fun (p : Nat × Nat) => (0x1C00 + 0x200 * half + p.2, BitVec.ofNat 48 p.1))),
          stageSlot := h.slot, stageSig := parseSig (l.drop (64 + h.bodyLen)) } }.verifyRequest .patch

/-- PATCH_VERIFY_DONE (R145 steps 3 to 6). -/
def Dev.patchVerified (d : Dev) (v : Verdict) : Dev :=
  match d.arr.stage with
  | none => d
  | some ws =>
    if !d.verifyFirst .patch then d else
    let d := d.verifyEnd
    if !d.keyOk (2 + d.arr.pld.1) d.arr.stageSlot then d.patchError 5
    else if v ≠ .pass || !d.arr.stageSig.ok then d.patchError 4
    else
      let d := forEach ws d (fun d p => { d with arr := { d.arr with
        patch := bankSet (fun _ => 0) d.arr.patch p.1 p.2, uErr := bankSet (fun _ => 0) d.arr.uErr p.1 0, tags := setBit d.arr.tags (p.1 - 0x1C00) true } })
      ({ d with arr := { d.arr with stage := none } }.setFlag R.SEQ_PLDSTAT_BUSY false).setFlag R.SEQ_PLDSTAT_DONE true
        |>.setFld R.SEQ_PLDSTAT_NWORDS ws.length

/-! Preemption (R152 to R158). -/

/-- The threshold of a stream (R152); level 0 cannot hold a handler, so 0 is as 1. -/
def Dev.preLevel (d : Dev) (s : StreamId) : Nat := bits (d.reg R.SEQ_PRECTL).toNat (4 * s.val + 3) (4 * s.val)

def Dev.preEnabled (d : Dev) (s : StreamId) : Bool := (d.fld R.SEQ_PRECTL_EN).testBit s.val

/-- A stop request (R152). A second one while a stop is in force does nothing (R156). -/
def Dev.stopRequest (d : Dev) (s : StreamId) : Dev :=
  if d.ownsStream s && (d.st s).held.isNone then d.modSt s (fun x => { x with preReq := true }) else d

/-- The request of a core that enters a handler for an event of the given priority (R152). -/
def Dev.preRequest (d : Dev) (s : StreamId) (prio : Nat) : Dev :=
  if d.preEnabled s && d.preLevel s ≤ prio then d.stopRequest s else d

/-- A handler that keeps the request alive runs, or the core is halted (R157). -/
def Dev.preAlive (d : Dev) (s : StreamId) : Bool :=
  (d.co s).halted || (d.preEnabled s && max 1 (d.preLevel s) ≤ (d.co s).lvl)

/-- Copies planes to their shadows, or back, in every PE of a stream and both copies (R155, R157). -/
def Dev.shadow (d : Dev) (s : StreamId) (ps : List Plane) (save : Bool) : Dev :=
  d.forRows s.val (fun d _ p row =>
    forEach ps d (fun d pl => forEach [0, 1] d (fun d k =>
      if save then d.setLatchNo p k row (shadowNo pl) (d.latch p k row pl)
      else d.setLatch p k row pl (d.latchNo p k row (shadowNo pl)))))

/-- The planes that a stop saves: ACT, and in the joined configuration X, Y, C, IDX and OOW. -/
def Dev.shadowPlanes (d : Dev) : List Plane :=
  if d.numStreams = 1 then [.act, .x, .y, .c, .oow] ++ (List.range 13).map Plane.idx else [.act]

/-- The stop point is reached (R153, R154): between routines, or at a boundary of a routine where a stop is allowed, with the
flights empty and no OR sample outstanding. A stop that a replay re-establishes comes when the work before it is done. -/
def Dev.stopPoint (d : Dev) (s : StreamId) : Bool :=
  let x := d.st s
  (if x.rehold.isEmpty then x.preReq else x.jobs.isEmpty) && x.held.isNone && !x.abandon && x.smp.isNone && d.flightsEmpty s &&
    !d.arr.quiesce && !d.upsetPending s && !(d.arr.replayDue.contains s) && (d.arr.failover.map (·.strm)) ≠ some s &&
    (match x.run with
      | .idle => true
      | .micro j => x.rehold.isEmpty && !x.micro.endWait && !x.micro.msWait && x.micro.chan.isNone && j.opc ≠ 0x6E &&
          (d.numStreams = 1 || x.micro.safe)
      | _ => false)

/-- The latches of a stop (R155): the planes go to their shadows and every PE is active. -/
def Dev.stopLatches (d : Dev) (s : StreamId) : Dev :=
  let d := d.shadow s d.shadowPlanes true
  d.forRows s.val (fun d _ p row => d.setTwin p row .act (BitVec.allOnes 64))

/-- The number of the next log entry of a stream. -/
def Strm.nextIdx (x : Strm) : Nat := match x.log.getLast? with | some l => l.idx + 1 | none => 0

/-- PREEMPT_STOP (R155), or the stop that a replay re-establishes (R211). -/
def Dev.preemptStop (d : Dev) (s : StreamId) : Dev :=
  if !d.stopPoint s then d else
  let x := d.st s
  match x.rehold with
  | (h, l) :: r =>
    (d.stopLatches s).modSt s (fun x => { x with held := some { h with ct := x.ct }, jobs := l, rehold := r })
  | [] =>
    let (kind, micro) := match x.run with
      | .micro j => (if d.numStreams = 1 then 3 else 2,
          match x.micro.hold with | some w => nextAddress x.ct j x.micro w | none => x.micro)
      | _ => (1, x.micro)
    let first := (x.run.job?.toList ++ x.jobs).head?
    let h : HeldRec :=
      { kind := BitVec.ofNat 2 kind, run := x.run, micro := micro, jobs := x.jobs, depth := x.runDepth, ct := x.ct,
        issDepth := x.depth, issCt := x.ctIss, mdepth := x.mdepth, at_ := (first.map (·.idx)).getD x.nextIdx, no := x.stops }
    let d := (d.stopLatches s).forHalls s.val (fun d h => d.countStall h 4 1)
    d.modSt s (fun x => { x with held := some h, jobs := [], run := .idle, preReq := false, depth := h.depth, ctIss := h.ct,
                                 stops := x.stops + 1 })

/-- Discards n entries of the activity stack in every PE of a stream. -/
def Dev.dropStack (d : Dev) (s : StreamId) (n : Nat) : Dev :=
  d.forRows s.val (fun d _ p row =>
    forEach [0, 1] d (fun d k =>
      let d0 := d
      forEach (List.range 8) d (fun d i =>
        d.setLatch p k row (.stack i) (if i + n < 8 then d0.latch p k row (.stack (i + n)) else 0))))

/-- PREEMPT_RESUME (R157): the LEVEL 1 work is done and the last handler left. The resume of a re-established stop whose
handler was left before waits for its work alone (R211). -/
def Dev.preemptResume (d : Dev) (s : StreamId) : Dev :=
  match (d.st s).held with
  | none => d
  | some h =>
    let x := d.st s
    if !(x.jobs.isEmpty && x.smp.isNone && d.streamIdle s) || (h.past.isNone && d.preAlive s) || d.upsetPending s then d else
    let d := d.dropStack s (h.past.getD (x.depth - h.depth))
    let d := d.shadow s d.shadowPlanes false
    d.modSt s (fun x => { x with held := none, jobs := h.jobs, run := h.run, micro := h.micro, ct := h.ct,
                                 ctIss := if h.past.isSome then x.ctIss else h.issCt,
                                 depth := if h.past.isSome then x.depth else h.issDepth,
                                 mdepth := if h.past.isSome then x.mdepth else h.mdepth })

end Sys2Proof.Machine
end

