-- ==== Sys2Proof/Machine/Recovery.lean ====
section
/-! DEFINITION. The recovery logic: fault history, classification, replay, column retirement, failover, unrecovered faults,
the fault record (R203 to R225, R471, R472). -/

namespace Sys2Proof.Machine

def Report.hall : Report → HallId
  | .upset h _ _ _ => h
  | .dead h => h

/-- The stream that a physical hall works in. -/
def Dev.streamOfPhys (d : Dev) (p : Nat) : Option Nat := (d.logicalOf p).map d.streamOf

/-! The fault record (R225). -/

/-- Queues an entry of the fault record with its logical hall. The recovery time depends on elapsed time: it is free. -/
def Dev.recordAs (d : Dev) (kind : Nat) (s : StreamId) (phys logical : Nat) (col : Nat) (up : Word) (maps : List (Fin 17)) : Dev :=
  let (n, d) := d.fresh
  let (t, d) := d.readTime
  let r : FRec :=
    { kind := BitVec.ofNat 8 kind, phys := BitVec.ofNat 8 phys, log := BitVec.ofNat 8 logical,
      col := BitVec.ofNat 8 col, upset := up, ms := d.reg (R.SEQ_MSCNT s), lline := BitVec.ofNat 16 (d.fld (R.SEQ_LPT_LLINE s)),
      strm := BitVec.ofNat 16 s.val, ns := if kind = 6 then 0xFFFFFFFF else (Config.freeWord n).setWidth 32, time := t, maps := maps }
  { d with arr := { d.arr with frecs := d.arr.frecs ++ [r] } }

/-- An entry for a physical hall; one that serves no logical hall is entered with 0xFF. -/
def Dev.record (d : Dev) (kind : Nat) (s : StreamId) (phys : Nat) (col : Nat) (up : Word) (maps : List (Fin 17)) : Dev :=
  d.recordAs kind s phys ((d.logicalOf phys).getD 0xFF) col up maps

def frBase : Nat := 0x207F0000

/-- Writes the map record of a physical hall. -/
def Dev.writeMap (d : Dev) (h : Nat) : Dev :=
  let sub := d.flag R.SEQ_HSUB_V
  let v := (d.reg (R.HALL_STEER h)).toNat + bn (d.pow.forced.getLsbD (8 + h)) * 2 ^ 32 + bn sub * 2 ^ 33 +
    (if sub then d.fld R.SEQ_HSUB_HALL else 0) * 2 ^ 34
  d.setWord64 (frBase + 0x40 + 8 * h) (BitVec.ofNat 64 v)

/-- FAULT_RECORD_WRITE (R225): the oldest waiting entry, its map records first. -/
def Dev.writeRecord (d : Dev) : Dev :=
  match d.arr.frecs with
  | [] => d
  | r :: rest =>
    if !d.domOn 5 then d else
    let d := { d with arr := { d.arr with frecs := rest } }
    let d := forEach r.maps d (fun d h => d.writeMap h.val)
    let hd := d.word64 frBase
    let made := bits hd.toNat 15 0 = 1
    let count := if made then bits hd.toNat 63 32 else 0
    let idx := if count = 0 then 0 else (bits hd.toNat 31 16 + 1) % 992
    let e := leBytes 4 (count + 1) ++ [r.kind, r.phys, r.log, r.col] ++ leBytes 4 r.upset.toNat ++ leBytes 4 r.ms.toNat ++
      leBytes 2 r.lline.toNat ++ leBytes 2 r.strm.toNat ++ leBytes 8 r.time.toNat ++ leBytes 4 r.ns.toNat ++
      List.replicate 32 0
    (d.setBytes (frBase + 0x800 + 64 * idx) e).setWord64 frBase
      (BitVec.ofNat 64 (1 + idx * 2 ^ 16 + (count + 1) % 2 ^ 32 * 2 ^ 32))

/-! Fault history (R212). -/

/-- A fault of one decision: its site (hall and column, 127 for a hall site), whether it is permanent at once, its report. -/
structure Fault1 where
  hall : Nat
  col : Nat
  once : Bool
  word : Word
deriving DecidableEq, Repr

def Dev.window (d : Dev) : Nat := max 1 (d.fld R.SEQ_RCTL_WIN)

/-- Milestones since the fault that an entry counts from. -/
def Dev.histAge (d : Dev) (s : StreamId) (h k : Nat) : Nat :=
  (d.fld (R.SEQ_MSCNT_COUNT s) % 2 ^ 21 + 2 ^ 21 - d.fld (R.HALL_FHIST_MS h k)) % 2 ^ 21

/-- An entry whose window is over becomes free. -/
def Dev.expireHall (d : Dev) (s : StreamId) (h : Nat) : Dev :=
  forEach (List.range 4) d (fun d k =>
    if d.flag (R.HALL_FHIST_V h k) && d.window ≤ d.histAge s h k then d.setReg (R.HALL_FHIST h k) 0 else d)

/-- Updates the history for a site: the count in its entry. -/
def Dev.noteFault (d : Dev) (s : StreamId) (h col : Nat) : Nat × Dev :=
  let d := d.expireHall s h
  let fresh (d : Dev) (k : Nat) : Dev := d.setReg (R.HALL_FHIST h k)
    (BitVec.ofNat 32 (2 ^ 31 + 2 ^ 28 + col * 2 ^ 21 + d.fld (R.SEQ_MSCNT_COUNT s) % 2 ^ 21))
  match findIdx 4 (fun k => d.flag (R.HALL_FHIST_V h k) && d.fld (R.HALL_FHIST_PCOL h k) = col) with
  | some k =>
    let d := d.addFld (R.HALL_FHIST_CNT h k) 1
    (d.fld (R.HALL_FHIST_CNT h k), d)
  | none =>
    match findIdx 4 (fun k => !d.flag (R.HALL_FHIST_V h k)) with
    | some k => (1, fresh d k)
    | none =>
      let k := (List.range 4).foldl (fun b k => if d.histAge s h b < d.histAge s h k then k else b) 0
      (1, (fresh d k).setFlag (R.HALL_RSTAT_OVF h) true)

/-- The physical columns that serve in a hall. -/
def Dev.serving (d : Dev) (h : Nat) : List Nat := (List.range 76).filter (fun p => (servedCol (d.retired h) p).isSome)

/-- The column that R206 names for an uncorrectable word, if any. -/
def Dev.worstColumn (d : Dev) (h : Nat) : Option Nat :=
  let ps := d.serving h
  let mx := ps.foldl (fun m p => max m (d.fld (R.HALL_CCNT_COUNT h p))) 0
  match ps.filter (fun p => d.fld (R.HALL_CCNT_COUNT h p) = mx) with
  | [p] => if 16 ≤ mx then some p else none
  | _ => none

/-- The site of a report (R205, R206). -/
def Dev.siteOf (d : Dev) (r : Report) : Fault1 :=
  match r with
  | .dead h => ⟨h.val, 127, true, 0⟩
  | .upset h u _ _ =>
    if u.src = 0 || u.src = 2 then ⟨h.val, u.pcol.toNat, false, upsetWord u⟩
    else if u.src = 1 then
      match d.worstColumn h.val with
      | some p => ⟨h.val, p, true, upsetWord u⟩
      | none => ⟨h.val, 127, false, upsetWord u⟩
    else ⟨h.val, 127, false, upsetWord u⟩

/-! The rewrites after an indexed-read mismatch (R47, R207 step 3). -/

/-- The mirror of a word of the table that an instruction of the log reads at an address (R94, R96, R142). -/
def Dev.mirrorOf (d : Dev) (s : StreamId) (a : Nat) : Option Nat :=
  ((d.st s).log.findSome? (fun j =>
    if j.readsTable (d.isMicro j) then
      let b := descBase j.dB.1
      let n := descTlen j.dB.2
      if b ≤ a && a < b + n then some (a + n) else if b + n ≤ a && a < b + 2 * n then some (a - n) else none
    else none))

/-- Reads one row word, corrects it and writes it back; a word that cannot be corrected is left. -/
def Dev.rewriteWord (d : Dev) (h row a : Nat) : Dev :=
  let r := d.peDecode h row a
  let d := d.tick.logDecode h row a .w r
  if r.bad then d else
  d.setPeRaw h row a (merge (servingMask (d.retired h)) (d.peRaw h row a) (steerOut (d.retired h) (rowEncode (r.word.setWidth 64))))

def Dev.rewriteIndexed (d : Dev) (s : StreamId) (r : Report) : Dev :=
  match r with
  | .upset h u _ m =>
    if u.src = 2 then
      let a := u.addr.toNat
      let b? := m.or (d.mirrorOf s a)
      let d := d.rewriteWord h.val u.row.toNat a
      match b? with
      | some b => d.rewriteWord h.val u.row.toNat b
      | none => d
    else d
  | .dead _ => d

/-! Replay (R207, R209, R211). -/

/-- The stop in force, or the one that a replay has still to make again for a handler that has not been left. -/
def Strm.liveStop (x : Strm) : Option HeldRec :=
  ((x.held.toList ++ x.rehold.map Prod.fst).filter (fun h => h.past.isNone)).head?

/-- Pushes less pops of a list of instructions. -/
def netPushes (l : List Job) : Nat :=
  (l.filter (fun j => j.opc = 0x42 || j.opc = 0x43)).length - (l.filter (fun j => j.opc = 0x44)).length

/-- The stops of a log, in order: number and place. -/
def Strm.stopList (x : Strm) : List (Nat × Nat) :=
  ((x.log.filter (·.level)).map (fun j => (j.stopNo, j.stopAt)) ++ (x.liveStop.toList.map (fun h => (h.no, h.at_)))).dedup

/-- The log as it is issued again (R211): the level-0 entries up to the first stop, and the stops with what follows each. -/
def Strm.replayPlan (x : Strm) : List Job × List (HeldRec × List Job) :=
  let again (j : Job) : Job := { j with replay := true }
  let zero := (x.log.filter (fun j => !j.level)).map again
  let stops := x.stopList
  let cuts := stops.map Prod.snd
  let seg (lo : Nat) (hi : Option Nat) : List Job := zero.filter (fun j => lo ≤ j.idx && (match hi with | some n => j.idx < n | none => true))
  let recs := stops.mapIdx (fun i p =>
    let l1 := (x.log.filter (fun j => j.level && j.stopNo = p.1)).map again
    let base : HeldRec :=
      { kind := 1, run := .idle, micro := {}, jobs := seg p.2 cuts[i + 1]?, depth := 0, ct := false, issDepth := 0, issCt := false,
        at_ := p.2, no := p.1, past := some (netPushes l1) }
    match x.liveStop with
    | some h => if h.no = p.1 then ({ base with depth := h.depth, issDepth := h.issDepth, issCt := h.issCt, past := none }, l1)
        else (base, l1)
    | none => (base, l1))
  (seg 0 cuts.head?, recs)

/-- Step 6 of R207: the log is issued again. -/
def Dev.replayLog (d : Dev) (s : StreamId) : Dev :=
  (d.modSt s (fun x =>
    let p := x.replayPlan
    { x with jobs := p.1, held := none, rehold := p.2, reps := x.reps + 1 })).noteRecovery s.val

/-! Unrecovered faults (R222). -/

def Dev.dropRetire (d : Dev) (p : RetRec → Bool) : Dev :=
  let mine := d.arr.retire.filter p
  let d := { d with arr := { d.arr with retire := d.arr.retire.filter (fun r => !p r) } }
  forEach mine d (fun d r => (d.setFlag (R.HALL_RSTAT_RBUSY r.hall.val) false).setFlag (R.HALL_RSTAT_RPEND r.hall.val) false)

def Dev.inStream (d : Dev) (s : StreamId) (r : RetRec) : Bool := d.streamOfPhys r.hall.val = some s.val

/-- An array fault that no refused instruction caused: the spec names no opcode for its record, so the field is free. -/
def Dev.faultAlone (d : Dev) (s : StreamId) (code : Nat) : Dev :=
  let (n, d) := d.fresh
  (d.arrayFault s ((Config.freeWord n).toNat % 128) code 0 0).imprecise s .array 0

/-- The stream stops at its last milestone and is not replayed (R222). Column retirements that are due or waiting stay. -/
def Dev.unrecovered (d : Dev) (s : StreamId) (phys col : Nat) (up : Word) : Dev :=
  let d := d.restartEmpty s
  let d := { d with arr := { d.arr with
    replayDue := d.arr.replayDue.filter (· ≠ s),
    block := bankSet (fun _ => 0) d.arr.block s.val (bankGet (fun _ => 0) d.arr.block s.val ||| 2) } }
  let d := if (d.arr.failover.map (·.strm)) = some s then
      { d with arr := { d.arr with failover := none } }.setFlag R.SEQ_RSTAT_FOBUSY false else d
  let d := d.faultAlone s 0x19
  let d := if d.flag R.SEQ_RSTAT_UNREC then d else (d.setFlag R.SEQ_RSTAT_UNREC true).setFld R.SEQ_RSTAT_USTRM s.val
  (d.record 6 s phys col up []).raise 0x2C

/-! Failover (R219). -/

/-- Steps 1 and 2: the failed hall is switched off and HS takes its number. -/
def Dev.startFailover (d : Dev) (s : StreamId) (h : LHall) (up : Word) : Dev :=
  let p := h.val
  let d := d.dropRetire (fun r => r.hall.val = p)
  let d := (d.stopStream s).loosePending s
  let d := d.modPow (fun w => { w with forced := setBit w.forced (8 + p) true })
  let d := d.cutDomain (8 + p)
  let d := (d.setBoth R.SEQ_HSUB_V 1).setBoth R.SEQ_HSUB_HALL p
  let d := (d.setFlag R.SEQ_RSTAT_FOBUSY true).setFld R.SEQ_RSTAT_FOHALL p
  let d := d.setFlag (R.SEQ_SPSTAT_LRP s) true
  let d := d.modSt s (fun x => { x with
    jobs := [], log := [], depth := 0, ctIss := x.ctLp, replays := 0, reps := 0, held := none, rehold := [], stops := 0, fpHold := false,
    fpTrap := none, dirty := false, sites := [], gateDue := true, gateRp := true })
  let d := { d with arr := { d.arr with
    failover := some ⟨s, h, false, up⟩, replayDue := d.arr.replayDue.filter (· ≠ s) } }
  (d.faultAlone s 0x18).noteRecovery s.val

/-- A hall site is permanent (R213). -/
def Dev.hallOutcome (d : Dev) (s : StreamId) (p : Nat) (up : Word) : Dev :=
  match d.logicalOf p with
  | some h =>
    if hh : h < 16 then
      if d.flag R.SEQ_RCTL_FOEN && !d.flag R.SEQ_HSUB_V && d.flag (R.SEQ_LPT_VAL s) && d.arr.failover.isNone && p < 16
      then d.startFailover s ⟨h, hh⟩ up else d.unrecovered s p 127 up
    else d.unrecovered s p 127 up
  | none => d.unrecovered s p 127 up

/-! Decisions (R212 to R214). -/

/-- What one decision has found: sites permanent at once or by recurrence, columns permanent by rate alone. -/
structure Verdict212 where
  now : List Fault1 := []
  later : List Fault1 := []
deriving DecidableEq, Repr

/-- Classifies the faults of one decision and updates the history (R212). -/
def Dev.classify (d : Dev) (s : StreamId) (fs : List Fault1) : Verdict212 × Dev :=
  let nrec := d.fld R.SEQ_RCTL_NREC
  let rule1 := d.flag R.SEQ_RCTL_RULE1
  let old := (d.st s).sites
  fs.foldl (fun (r : Verdict212 × Dev) f =>
    let (cnt, d) := r.2.noteFault s f.hall f.col
    let waiting := d.arr.retire.any (fun q => q.hall.val = f.hall && q.col = f.col)
    let now := f.once || (rule1 && old.contains (f.hall, f.col))
    let rate := nrec ≠ 0 && nrec ≤ cnt
    let kind := if f.col = 127 then 4 else 2
    if now || (rate && !waiting) then
      let d := if waiting then d else (d.addFld R.SEQ_RSTAT_NPERM 1).record kind s f.hall f.col f.word []
      let d := if f.once && f.col ≠ 127 then
          ((d.setFlag (R.HALL_ECCCTL_ERAEN f.hall) true).setFld (R.HALL_ECCCTL_ECOL f.hall) f.col).checkEcol f.hall else d
      (if now || f.col = 127 then { r.1 with now := r.1.now ++ [f] } else { r.1 with later := r.1.later ++ [f] }, d)
    else (r.1, d)) ({}, d)

/-- Valid entries of a hall's map and retirements that will add one (R213). -/
def Dev.mapUse (d : Dev) (h : Nat) : Nat :=
  (d.retired h).length + (d.arr.retire.filter (fun r => r.hall.val = h && r.stage ≠ 3)).length

/-- The columns of a hall that a decision classified have room in its map (R213). -/
def Dev.hasRoom (d : Dev) (h n : Nat) : Bool := d.flag R.SEQ_RCTL_RETEN && d.mapUse h + n ≤ 4

/-- A column's retirement becomes due: at once, or after the awaited commit (R214). -/
def Dev.queueRetire (d : Dev) (h : HallId) (col : Nat) (imm : Bool) (word : Word) : Dev :=
  let l := d.arr.retire.filter (fun r => !(r.hall = h && r.col = col)) ++ [⟨h, col, imm, if imm then 0 else 3, word⟩]
  let d := { d with arr := { d.arr with retire := l } }
  if imm then d else (d.setFlag (R.HALL_RSTAT_RPEND h.val) true).setFld (R.HALL_RSTAT_PCOL h.val) col

def Dev.setReplayDue (d : Dev) (l : List StreamId) : Dev := { d with arr := { d.arr with replayDue := l } }

/-- The outcome of a decision (R209, R213) for a stopped stream. Step 5 of R207 is taken for a replay alone; a retirement takes it at its
end (R215), a failover in its own place (R219). -/
def Dev.decide1 (d : Dev) (s : StreamId) (fs : List Fault1) (v : Verdict212) : Dev :=
  let all := v.now ++ v.later
  let cols (h : Nat) : List Nat := ((all.filter (fun f => f.hall = h && f.col ≠ 127)).map (·.col)).dedup
  let full := ((all.map (·.hall)).dedup).filter (fun h => cols h ≠ [] && !d.hasRoom h (cols h).length)
  let sites := (((all.filter (fun f => f.col = 127)).map (·.hall)) ++ full).dedup
  let word (h : Nat) : Word := ((all.find? (fun f => f.hall = h)).map (·.word)).getD 0
  let retire (d : Dev) (fs : List Fault1) (imm : Bool) : Dev :=
    forEach (List.range 76) d (fun d c => forEach fs d (fun d f =>
      if f.col = c && !sites.contains f.hall then
        if hh : f.hall < 17 then d.queueRetire ⟨f.hall, hh⟩ c imm f.word else d else d))
  match sites with
  | [] =>
    let d := retire (retire d v.now true) (v.later.filter (fun f => !v.now.any (fun g => g.hall = f.hall && g.col = f.col))) false
    let spent := max 1 (d.fld R.SEQ_RCTL_REPMAX) ≤ (d.st s).replays
    let w := (fs.head?.map (·.word)).getD 0
    let at1 := (fs.head?.map (fun f => (f.hall, f.col))).getD (0, 127)
    if spent && all = [] then d.unrecovered s at1.1 at1.2 w else
    let d := d.modSt s (fun x => { x with
      replays := if all = [] then x.replays + 1 else 1, sites := fs.map (fun f => (f.hall, f.col)) })
    let d := if all = [] && d.flag R.SEQ_RCTL_LOGT then d.record 1 s at1.1 at1.2 w [] else d
    if v.now = [] then (d.resetPoint s).replayLog s else
    (d.setReplayDue ((d.arr.replayDue.filter (· ≠ s)) ++ [s])).noteRecovery s.val
  | [p] =>
    let d := retire d v.now true
    let d := retire d v.later true
    d.hallOutcome s p (word p)
  | p :: _ => d.unrecovered s p 127 (word p)

/-- The recovery of one stream from the reports that wait for it (R207). -/
def Dev.recoverStream (d : Dev) (s : StreamId) : Dev :=
  let rs := d.arr.reports.filter (fun r => d.streamOfPhys r.hall.val = some s.val)
  match rs with
  | [] => d
  | r :: _ =>
    if (d.arr.failover.map (·.strm)) = some s && rs.any (fun r => r.hall.val = 16) then
      let f := d.siteOf r
      d.unrecovered s 16 f.col f.word
    else
      let d := d.stopStream s
      let d := forEach rs d (fun d r => d.rewriteIndexed s r)
      let fs := (rs.map d.siteOf).foldl (fun l f => if l.any (fun g => g.hall = f.hall && g.col = f.col) then l else l ++ [f]) []
      let (v, d) := d.classify s fs
      if (d.arr.failover.map (·.strm)) = some s && v.now = [] && v.later = [] then d else d.decide1 s fs v

/-- UPSET_RECOVERY (R205 to R213): the operand's reports arrive with those that halls have raised. -/
def Dev.upsetRecovery (d : Dev) (reps : List (HallId × UpsetRep)) : Dev :=
  let d := forEach reps d (fun d p => d.tick.upset p.1.val p.2)
  let d := forEach (List.finRange 4) d (fun d s => if s.val < d.numStreams then d.recoverStream s else d)
  { d with arr := { d.arr with reports := [] } }

/-! Column retirement (R215). -/

/-- Retirements of a stream that still run. -/
def Dev.retiring (d : Dev) (s : StreamId) : Bool := d.arr.retire.any (fun r => r.stage ≠ 3 && d.inStream s r)

/-- One retirement of a stream is over: after the last of them the span that waits is replayed under steps 5 and 6 of R207. -/
def Dev.afterRetire (d : Dev) (s : StreamId) : Dev :=
  if d.retiring s then d
  else if d.arr.replayDue.contains s then ((d.setReplayDue (d.arr.replayDue.filter (· ≠ s))).restart s).replayLog s
  else d.noteRecovery s.val

/-- A retirement that its decision found room for may meet a map that a commit has changed meanwhile (R60, R213): one that has the
column already needs no retirement; one that is full makes the column a hall site. -/
def Dev.barRetire (d : Dev) (r : RetRec) : Option Dev :=
  let map := d.retired r.hall.val
  if !map.contains r.col && map.length < 4 then none else
  some <| match (d.streamOfPhys r.hall.val).bind d.stream? with
  | none => d.dropRetire (· = r)
  | some s =>
    if map.contains r.col then (d.dropRetire (· = r)).afterRetire s
    else ((d.dropRetire (· = r)).stopStream s).hallOutcome s r.hall.val r.word

/-- Moves a retirement to its next stage. -/
def Dev.stageRetire (d : Dev) (r : RetRec) (n : Nat) : Dev :=
  { d with arr := { d.arr with retire := d.arr.retire.map (fun q => if q = r then { q with stage := n } else q) } }

/-- A logical hall's stair is in use (R174): a channel is open, its failover load runs, or a hall image command moves its data. -/
def Dev.stairBusy (d : Dev) (l : Nat) : Bool :=
  ((d.arr.hallq[l]?).map (fun q => q.chan.isSome)).getD false ||
    (match d.arr.failover with | some f => f.hall.val = l && !f.imageDone | none => false) ||
    (match d.arr.himg with | some (_, g) => g.val = l && !d.milestoneOpen l | none => false)

/-- COLUMN_RETIREMENT: the hall's next retirement begins and waits for the stair. -/
def Dev.beginRetire (d : Dev) (h : HallId) : Dev :=
  match d.arr.retire.find? (fun r => r.hall = h && r.stage = 0) with
  | none => d
  | some r =>
    if (d.capture? (.hall h)).isSome || d.arr.retire.any (fun q => q.hall = h && (q.stage = 1 || q.stage = 2)) ||
        ((d.streamOfPhys h.val).bind d.stream?).any (fun s => (d.st s).run ≠ .idle) then d else
    (d.barRetire r).getD ((d.stageRetire r 1).setFld (R.HALL_RSTAT_PCOL h.val) r.col)

/-- RETIRE_REFILL_START: the stair is idle; erasure mode is set. -/
def Dev.startRefill (d : Dev) (h : HallId) : Dev :=
  match d.arr.retire.find? (fun r => r.hall = h && r.stage = 1) with
  | none => d
  | some r =>
    if ((d.logicalOf h.val).map d.stairBusy).getD false then d else
    (d.barRetire r).getD <|
      let d := ((d.setFlag (R.HALL_ECCCTL_ERAEN h.val) true).setFld (R.HALL_ECCCTL_ECOL h.val) r.col).checkEcol h.val
      ((d.setFlag (R.HALL_RSTAT_RBUSY h.val) true).setFlag (R.HALL_RSTAT_RPEND h.val)
        (d.arr.retire.any (fun q => q.hall = h && q.stage = 3))).stageRetire r 2

/-- The map with one more column, in ascending order. -/
def addColumn (l : List Nat) (c : Nat) : List Nat := l.filter (· < c) ++ [c] ++ l.filter (c < ·)

/-- The refill (R215 step 4): every row word of the hall read under the old map in erasure mode and written back under the new
one. An unlisted word is a valid word under either map. Whether a word could not be corrected. -/
def Dev.refill (d : Dev) (h : Nat) (new : List Nat) : Bool × Dev :=
  let keys := ((d.arr.pe ++ d.arr.scr).map Prod.fst).filter (fun k => peKey h 0 0 ≤ k && k < peKey (h + 1) 0 0)
  (List.range 8192).foldl (fun (r : Bool × Dev) a =>
    (keys.filter (fun k => k % 8192 = a)).foldl (fun (r : Bool × Dev) k =>
      let d := r.2.atCyc (d.arr.cyc + 1 + a)
      let row := k / 8192 % 64
      let x := d.peDecode h row a
      let d := d.logDecode h row a .w x
      if x.bad then (true, d) else
      (r.1, d.setPeRaw h row a (merge (servingMask new) (d.peRaw h row a) (steerOut new (rowEncode (x.word.setWidth 64)))))) r)
    (false, d)

/-- RETIRE_REFILL_DONE (R215 steps 5 and 6), or the abandoned retirement of a hall whose word cannot be corrected. -/
def Dev.refillDone (d : Dev) (h : HallId) : Dev :=
  match d.arr.retire.find? (fun r => r.hall = h && r.stage = 2) with
  | none => d
  | some r =>
    match (d.streamOfPhys h.val).bind d.stream? with
    | none => d.dropRetire (· = r)
    | some s =>
      let new := addColumn (d.retired h.val) r.col
      let (bad, d) := d.refill h.val new
      if bad then
        let d := (d.dropRetire (fun q => q.hall = h)).addFld R.SEQ_RSTAT_NPERM 1
        let d := (d.record 4 s h.val 127 r.word []).record 7 s h.val r.col r.word []
        (d.stopStream s).hallOutcome s h.val r.word
      else
        let d := d.dropRetire (· = r)
        let w := steerWord new
        let d := (d.setReg (R.HALL_STEER h.val) w).preset (R.HALL_STEERSET h.val) w
        let d := d.setFlag (R.HALL_ECCCTL_ERAEN h.val) false
        let d := (d.setFlag (R.HALL_RSTAT_RPEND h.val) (d.arr.retire.any (fun q => q.hall = h && q.stage = 3))).setFld
          (R.HALL_RSTAT_NRET h.val) new.length
        (d.record 3 s h.val r.col r.word [h]).afterRetire s

/-! Completing a failover (R219). -/

/-- The address in the gallery of PU j of a hall's carry in slot q (R218). -/
def Dev.carryOff (d : Dev) (h q j : Nat) : Nat := d.fld R.SEQ_RAREA_LCB * 65536 + (2 * h + q) * 32768 + j * 512

/-- Writes a hall's carry from slot LQ into field CB[LPH] (R219 step 4); whether a gallery word was uncorrectable. -/
def Dev.restoreCarry (d : Dev) (s : StreamId) (h : Nat) : Bool × Dev :=
  let base := if d.flag (R.SEQ_LPT_LPH s) then d.fld (R.SEQ_CARRYB_CB1 s) else d.fld (R.SEQ_CARRY_CB0 s)
  let q := d.fld (R.SEQ_LPT_LQ s)
  (List.range (d.fld (R.SEQ_CARRY_CWM1 s) + 1)).foldl (fun (r : Bool × Dev) j =>
    let d := r.2
    let i := d.carryOff h q j / 8
    let bad := (List.range 64).any (fun k => (d.galWord (i + k)).2 == .uncorrectable)
    let ws := (List.range 64).map (fun k => (d.galWord (i + k)).1)
    let d := forEach (List.range 64) d (fun d k => d.galCount (i + k) (d.galWord (i + k)).2 true)
    (r.1 || bad, d.writeUnit (d.phys h) (base + j) ws)) (false, d)

/-- The PUs of the segments that a hall image holds (R224). -/
def Dev.imageUnits (d : Dev) : List Nat := (List.range 8192).filter (fun a => (d.fld R.SEQ_IMGMASK_MASK).testBit (a / 256))

/-- DRAM word index of row r of PU a of a hall's image. -/
def Dev.imageWord (d : Dev) (h a r : Nat) : Nat := (d.fld (R.SEQ_HIMG_BASE h) * 2 ^ 22 + a * 512) / 8 + r

/-- Loads the image of a logical hall (R219 step 3, R224); it stops at a DRAM error. -/
def Dev.loadImage (d : Dev) (h : Nat) : Bool × Dev :=
  d.imageUnits.foldl (fun (r : Bool × Dev) a =>
    if r.1 then r else
    let d := r.2
    let is := (List.range 64).map (d.imageWord h a)
    let bad := is.any (fun i => d.dramSize ≤ 8 * i || (d.dramWord i).2 == .uncorrectable)
    let ws := is.map (fun i => (d.dramWord i).1)
    let d := forEach is d (fun d i => if 8 * i < d.dramSize then d.dramCount i (d.dramWord i).2 else d)
    if bad then (true, d) else (false, d.writeUnit (d.phys h) a ws)) (false, d)

/-- What the load leaves in the staging area of 256 KiB is not given: its words are free (R219 step 3). -/
def Dev.looseStaging (d : Dev) : Dev :=
  let (g, d) := d.fresh
  forEach (List.range 32768) d (fun d i => d.galPut (d.fld R.SEQ_RAREA_STG * 8192 + i) (Config.freePlane g i))

/-- A fault while the failover runs is unrecovered (R219). -/
def Dev.failoverFails (d : Dev) (f : FailOver) : Dev := d.unrecovered f.strm 16 127 f.rep

/-- FAILOVER_IMAGE_LOADED (R219 steps 3 and 4). -/
def Dev.imageLoaded (d : Dev) (ok : Bool) : Dev :=
  match d.arr.failover with
  | none => d
  | some f =>
    if f.imageDone then d else
    if !ok then d.failoverFails f else
    let (bad, d) := d.looseStaging.loadImage f.hall.val
    if bad then d.failoverFails f else
    let (bad, d) := if d.flag (R.SEQ_CARRY_CEN f.strm) then
        (d.streamHalls f.strm.val).foldl (fun (r : Bool × Dev) h =>
          let x := r.2.restoreCarry f.strm h
          (r.1 || x.1, x.2)) (false, d)
      else (false, d)
    if bad then d.failoverFails f else { d with arr := { d.arr with failover := some { f with imageDone := true } } }

/-- Rewinds the Ramufin edges of a stream to its last LEND commit (R241). -/
def Dev.rewindEdges (d : Dev) (s : StreamId) : Dev :=
  d.modPorts (d.streamPorts s) (fun e => { e with used := 0, sent := 0, usedMs := 0, sentMs := 0 })

/-- FAILOVER_RESUME (R219 steps 5 and 6). -/
def Dev.failoverResume (d : Dev) (ok : Bool) : Dev :=
  match d.arr.failover with
  | none => d
  | some f =>
    let s := f.strm
    if !f.imageDone || d.retiring s then d else
    if !ok then d.failoverFails f else
    let d := forEach (List.range 8) d (fun d ch =>
      if d.chanBound s ch then d.setFld (R.STAIR_CHCPOS_POS ch) (d.fld (R.STAIR_CHLPOS_POS ch)) else d)
    let d := (d.modSt s (fun x => { x with ctRp := x.ctLp })).rewindEdges s
    let d := d.restart s
    let d := (d.setFlag (R.SEQ_SPSTAT_PH s) (d.flag (R.SEQ_LPT_LPH s))).setReg (R.SEQ_RADR s) (d.reg (R.SEQ_LADR s))
    let d := { d with arr := { d.arr with failover := none } }.setFlag R.SEQ_RSTAT_FOBUSY false
    d.recordAs 5 s f.hall.val f.hall.val 127 f.rep [⟨f.hall.val, by omega⟩, 16]

/-! Hall image commands (R224, R471). -/

def Dev.himgRefuse (d : Dev) (c : Nat) : Dev := (d.setFlag R.SEQ_HIMGCMD_ERR true).setFld R.SEQ_HIMGCMD_ECAUSE c

/-- A GO in SEQ_HIMGCMD with an operation and a hall. -/
def Dev.himgGo (d : Dev) (op : BitVec 2) (h : LHall) : Dev :=
  let dirty := match d.stream? (d.streamOf h.val) with | some s => (d.st s).dirty | none => false
  if d.flag R.SEQ_HIMGCMD_BUSY then d.himgRefuse 1
  else if op = 3 then d.himgRefuse 6
  else if d.mode = 8 then d.himgRefuse 2
  else if dirty then d.himgRefuse 3
  else if d.dramSize < d.imageEnd (d.fld R.SEQ_IMGMASK_MASK) h.val then d.himgRefuse 5
  else { d with arr := { d.arr with himg := some (op, h) } }.setFlag R.SEQ_HIMGCMD_BUSY true

/-- Unloads a hall's segments to DRAM; whether a PE word was uncorrectable. -/
def Dev.unloadImage (d : Dev) (h : Nat) : Bool × Dev :=
  d.imageUnits.foldl (fun (r : Bool × Dev) a =>
    let ph := r.2.phys h
    let bad := (List.range 64).any (fun row => (r.2.peDecode ph row a).bad)
    let d := r.2.countUnit ph a false
    (r.1 || bad, forEach (List.range 64) d (fun d row => d.dramPut (d.imageWord h a row) (d.peRead ph row a)))) (false, d)

/-- Compares a hall with its image: a DRAM error, an uncorrectable PE word, a difference. -/
def Dev.verifyImage (d : Dev) (h : Nat) : Bool × Bool × Bool × Dev :=
  d.imageUnits.foldl (fun (r : Bool × Bool × Bool × Dev) a =>
    if r.1 then r else
    let d := r.2.2.2
    let ph := d.phys h
    let is := (List.range 64).map (d.imageWord h a)
    let err := is.any (fun i => d.dramSize ≤ 8 * i || (d.dramWord i).2 == .uncorrectable)
    let bad := (List.range 64).any (fun row => (d.peDecode ph row a).bad)
    let diff := (List.range 64).any (fun row => (d.dramWord (d.imageWord h a row)).1 ≠ d.peRead ph row a)
    let d := forEach is d (fun d i => d.dramCount i (d.dramWord i).2)
    let d := if err then d else d.countUnit ph a false
    (err, r.2.1 || (!err && bad), r.2.2.1 || (!err && diff), d)) (false, false, false, d)

/-- The end of an image command. -/
def Dev.himgEnd (d : Dev) (cause : Nat) (mism : Bool) : Dev :=
  let d := { d with arr := { d.arr with himg := none } }.setFlag R.SEQ_HIMGCMD_BUSY false
  let d := if mism then d.setFlag R.SEQ_HIMGCMD_MISM true else d
  if cause = 0 then d.setFlag R.SEQ_HIMGCMD_DONE true else d.himgRefuse cause

/-- The command may move its data (R174, R471): the MILESTONE that admitted it has committed, no channel is open in the hall's stream
and no refill runs in the hall. -/
def Dev.himgFree (d : Dev) (h : LHall) : Bool :=
  !d.milestoneOpen h.val &&
    (d.streamHalls (d.streamOf h.val)).all (fun l => ((d.arr.hallq[l]?).map (fun q => q.chan.isNone)).getD true) &&
    !d.arr.retire.any (fun r => r.hall.val = d.phys h.val && r.stage = 2) &&
    (match d.arr.failover with | some f => f.hall ≠ h || f.imageDone | none => true)

/-- HIMG_DONE (R224): the command's transfer and its end. When a verify meets a DRAM error and an uncorrectable PE word, ECAUSE is 0x4,
and the end of a command writes its cause over the 0x1 of a GO refused meanwhile (DESIGN CHOICES, log entry 97). -/
def Dev.himgDone (d : Dev) : Dev :=
  match d.arr.himg with
  | none => d
  | some (op, h) =>
    if !d.himgFree h then d else
    let seen (d : Dev) (b : Bool) : Dev := { d with arr := { d.arr with verified := setBit d.arr.verified h.val b } }
    if op = 0 then
      let (bad, d) := d.unloadImage h.val
      (seen d false).himgEnd (if bad then 7 else 0) false
    else if op = 1 then
      let (bad, d) := d.loadImage h.val
      d.himgEnd (if bad then 4 else 0) false
    else
      let (err, bad, diff, d) := d.verifyImage h.val
      let cause := if err then 4 else if bad then 7 else 0
      (seen d (cause = 0 && !diff)).himgEnd cause diff

end Sys2Proof.Machine
end

