-- ==== Sys2Proof/Machine/Fabric.lean ====
section
/-! DEFINITION. The cells of the Byway fabric: flip-flops, user memories, I/O cells, pins, the line strobe in the regions
(R337, R338, R341, R342, R345, R346, R353, R456). -/

namespace Sys2Proof.Machine

def Dev.modByw (d : Dev) (f : BywState → BywState) : Dev := { d with byw := f d.byw }
def Dev.queueOn (d : Dev) (q : Nat) : Bool := d.flag (R.BYW_QCFG_EN q)

/-! User memories (R338). -/

/-- A memory port in a cycle of its clock. -/
structure PortOp where
  en : Bool
  wr : Bool
  addr : Nat
  data : BitVec 72
deriving DecidableEq, Repr

/-- A port's word, in 9-bit units, by the memory's mode: 4,096 × 9, 2,048 × 18, 1,024 × 36, 512 × 72. -/
def memUnits (m : Fin 4) : Nat := 2 ^ m.val

def bramUnit (l : List (Nat × BitVec 9)) (blk i : Nat) : BitVec 9 := bankGet (fun _ => 0) l (4096 * blk + i % 4096)

def bramRead (l : List (Nat × BitVec 9)) (blk : Nat) (m : Fin 4) (a : Nat) : BitVec 72 :=
  BitVec.ofNat 72 (((List.range (memUnits m)).map (fun i => (bramUnit l blk (a * memUnits m + i)).toNat * 2 ^ (9 * i))).sum)

def bramWrite (l : List (Nat × BitVec 9)) (blk : Nat) (m : Fin 4) (a : Nat) (v : BitVec 72) : List (Nat × BitVec 9) :=
  (List.range (memUnits m)).foldl (fun l i =>
    bankSet (fun _ => 0) l (4096 * blk + (a * memUnits m + i) % 4096) (v.extractLsb' (9 * i) 9)) l

/-- One cycle of both ports: a read returns the old contents, and where both ports write one address port A's data stay. At 72 bits port A
reads and port B writes. -/
def Dev.bramCycle (d : Dev) (blk : Nat) (a b : PortOp) : Dev :=
  let m := Config.memMode d.byw.frames blk
  let old := d.byw.bram
  let put (l : List (Nat × BitVec 9)) (p : PortOp) (may : Bool) := if may && p.en && p.wr then bramWrite l blk m p.addr p.data else l
  let get (l : List (Nat × BitVec 72)) (k : Nat) (p : PortOp) (may : Bool) :=
    if may && p.en then bankSet (fun _ => 0) l (2 * blk + k) (bramRead old blk m p.addr) else l
  d.modByw (fun s => { s with
    bram := put (put old b true) a (m ≠ 3),
    bramRd := get (get s.bramRd 0 a true) 1 b (m ≠ 3) })

/-- A memory that a queue has used as its FIFO is a user memory again; what it then holds is open. -/
def Dev.looseBram (d : Dev) (blk : Nat) : Dev :=
  let n := d.free
  let units : List (Nat × BitVec 9) := ((List.range 4096).map (fun i => (4096 * blk + i, (Config.freeWord (n + i)).setWidth 9))).filter (fun p => p.2 ≠ (0 : BitVec 9))
  let out (k : Nat) : BitVec 72 := ((Config.freeWord (n + 4096 + 2 * k)).setWidth 8).append (Config.freeWord (n + 4097 + 2 * k))
  ({ d with free := n + 4100 } : Dev).modByw (fun (b : BywState) => { b with
    bram := b.bram.filter (fun p => p.1 < 4096 * blk) ++ units ++ b.bram.filter (fun p => 4096 * (blk + 1) ≤ p.1),
    bramRd := bankSet (fun _ => 0) (bankSet (fun _ => 0) b.bramRd (2 * blk) (out 0)) (2 * blk + 1) (out 1) })

/-! I/O cells (R341). -/

def Dev.cell (d : Dev) (i : Nat) : IoCell := bankGet (fun _ => {}) d.byw.cells i
def Dev.setIo (d : Dev) (i : Nat) (x : IoCell) : Dev := d.modByw (fun b => { b with cells := bankSet (fun _ => {}) b.cells i x })

/-- A register at single data rate holds one bit for both edges. -/
def ioBits (double : Bool) (v : BitVec 2) : BitVec 2 := if double then v else if v.getLsbD 1 then 3 else 0

/-- INC and DEC move the tap by one; at the end of the line, and with both, the tap is open. -/
def moveTap (t : BitVec 7) (inc dec : Bool) (open_ : BitVec 7) : BitVec 7 :=
  match inc, dec with
  | false, false => t
  | true, false => if t = 127 then open_ else t + 1
  | false, true => if t = 0 then open_ else t - 1
  | true, true => open_

/-- The inputs of a bank are seen: they are not at their safe state (R342). -/
def Dev.inputsSeen (d : Dev) (k : Nat) : Bool := d.byw.pins.toList.getD k .safe ≠ .safe

/-- The boundary scan has the balls (R449): EXTEST and its AC forms, CLAMP and HIGHZ. -/
def TapInstr.takesBalls : TapInstr → Bool
  | .extest => true
  | .extestPulse => true
  | .extestTrain => true
  | .clamp => true
  | .highz => true
  | .idcode => false
  | .sample => false
  | .bypass => false
  | .dbgacc => false
  | .testacc => false

/-- One cycle of a cell of bank k; what the logic drives and the pin's level are the bits of a free word. A bank without supply reads 0
(R456); while the boundary scan has the balls, the logic goes on seeing the level that it saw last (R449). -/
def Dev.cellCycle (d : Dev) (k i : Nat) (v : BitVec 64) : Dev :=
  let n := 20 * k + i
  let x := d.cell n
  let dbl (r : Fin 3) : Bool := Config.ioDouble d.byw.frames n r
  let pin : BitVec 2 := if Config.viobPresent k then v.extractLsb' 0 2 else 0
  d.setIo n { x with
    inp := if d.tap.instr.takesBalls then (if x.inp.getLsbD 1 then 3 else 0) else if d.inputsSeen k then ioBits (dbl 0) pin else x.inp,
    out := ioBits (dbl 1) (v.extractLsb' 2 2),
    oe := ioBits (dbl 2) (v.extractLsb' 4 2),
    tap := moveTap x.tap (v.getLsbD 6) (v.getLsbD 7) (v.extractLsb' 8 7) }

/-! The fabric's clocks. -/

/-- Tree k runs: it is enabled, and no capture has stopped it (R340, R355). -/
def Dev.treeRuns (d : Dev) (k : Nat) : Bool := d.domOn 1 && d.flag (R.BYW_CLK_EN k) && !d.flag R.BYW_CAPSTAT_STOPPED

/-- A region's flip-flops run: its tree runs, and they are not held clear (R340, R345, R355). -/
def Dev.regionRuns (d : Dev) (k : Nat) : Bool := d.treeRuns k && !d.byw.clear.getLsbD k

def freePort (n : Nat) : PortOp :=
  let v := Config.freeWord n
  ⟨v.getLsbD 0, v.getLsbD 1, (v.extractLsb' 2 12).toNat, (v.extractLsb' 14 8).append (Config.freeWord (n + 1))⟩

/-- A cycle of region k's clock. What its logic computes is open, for the frames' bits have no meaning in the spec: the flip-flops take
free values, and the memory ports and the I/O cells do what free words ask. -/
def Dev.regionCycle (d : Dev) (k : Nat) : Dev :=
  if !d.regionRuns k then d else
  let n := d.free
  let d := { d with free := n + 64 }
  let d := d.modByw (fun b => { b with
    flops := b.flops.setIfInBounds k (Config.freeFlops n), lstb := setBit b.lstb k false })
  let d := forEach (List.range 6) d (fun d i =>
    if d.queueOn (6 * k + i) then d else d.bramCycle (6 * k + i) (freePort (n + 4 * i)) (freePort (n + 4 * i + 2)))
  forEach (List.range 20) d (fun d i => d.cellCycle k i (Config.freeWord (n + 24 + i)))

/-- A cycle of every running tree. -/
def Dev.fabricTick (d : Dev) : Dev := forEach (List.range 8) d Dev.regionCycle

/-- The line strobe reaches the regions (R353): a pulse on LSTB, and LNUM with it. It is the trigger of a capture, too (R355). -/
def Dev.strobeRegions (d : Dev) (k : Nat) : Dev :=
  if !d.domOn 1 then d else
  d.modByw (fun b => { b with lnum := Vector.replicate 8 (BitVec.ofNat 16 k), lstb := 0xFF, struck := true })

/-! Loads (R344 to R346). -/

/-- A load holds the flip-flops of its regions clear, and their memories are cleared; a bank that PINHOLD holds keeps its outputs: the
last bits they drove. -/
def Dev.clearCells (d : Dev) (ks : List Nat) : Dev :=
  let mine (n size : Nat) : Bool := ks.contains (n / size)
  d.modByw (fun b => { b with
    flops := Vector.ofFn (fun k => if ks.contains k.val then 0 else b.flops[k]),
    bram := b.bram.filter (fun p => !mine p.1 (6 * 4096)),
    bramRd := b.bramRd.filter (fun p => !mine p.1 12),
    cells := (b.cells.map (fun p => if mine p.1 20
      then (p.1, { kept := (p.2.out.getLsbD 1, p.2.oe.getLsbD 1) }) else p)).filter (fun p => p.2 ≠ {}),
    lstb := ks.foldl (fun m k => setBit m k false) b.lstb })

/-- Start-up (R341, R345): block memories take the contents that the frames carry, delay lines their initial taps. -/
def Dev.startCells (d : Dev) (ks : List Nat) : Dev :=
  let units := ks.flatMap (fun k => (List.range (6 * 4096)).map (fun i => 6 * 4096 * k + i))
  let cs := ks.flatMap (fun k => (List.range 20).map (fun i => 20 * k + i))
  let d := d.modByw (fun b => { b with
    bram := units.foldl (fun l i => bankSet (fun _ => 0) l i (Config.memInit b.frames i)) b.bram })
  forEach cs d (fun d i => d.setIo i { d.cell i with tap := Config.ioTap d.byw.frames i })

/-- The flip-flops as words, and flip-flops that have the values of words where their region runs. -/
def Dev.flopWords (d : Dev) : List Word :=
  (List.range 384).map (fun i => ((d.byw.flops.toList.getD (i / 48) 0) >>> (32 * (i % 48))).setWidth 32)

def Dev.setFlops (d : Dev) (l : List Word) : Dev :=
  d.modByw (fun b => { b with flops := Vector.ofFn (fun k : Fin 8 =>
    if d.regionRuns k.val then
      BitVec.ofNat 1536 (((List.range 48).map (fun j => (l.getD (48 * k.val + j) 0).toNat * 2 ^ (32 * j))).sum)
    else b.flops[k]) })

end Sys2Proof.Machine
end

