-- ==== Sys2Proof/Machine/Byway.lean ====
section
/-! DEFINITION. The Byway fabric: queue controllers, configuration loads, capture (R337 to R357). -/

namespace Sys2Proof.Machine

def Dev.bq (d : Dev) (q : Fin 48) : BywQueue := d.byw.queue[q]
def Dev.setBq (d : Dev) (q : Fin 48) (x : BywQueue) : Dev := { d with byw := { d.byw with queue := d.byw.queue.set q x } }
def Dev.anyQueue (d : Dev) : Bool := (List.range 48).any d.queueOn
def Dev.regionQueue (d : Dev) (k : Nat) : Bool := (List.range 6).any (fun i => d.queueOn (6 * k + i))

/-! Head map and landing layout (R226, R231, R348). -/

/-- A head-map entry (R231). -/
structure HeadEntry where
  queue : Nat
  plane : Nat
  rev : Bool
  count : Nat
  hofs : Nat
  x0 : Nat
deriving DecidableEq, Repr

def headEntry (v : Nat) : HeadEntry :=
  ⟨bits v 63 58, bits v 57 55, v.testBit 54, bits v 51 32, bits v 31 20, bits v 19 0⟩

/-- Entry i of the active head map. -/
def Dev.headWord (d : Dev) (i : Nat) : Nat := (d.reg (R.BYW_HMAP (2 * i))).toNat + (d.reg (R.BYW_HMAP (2 * i + 1))).toNat * 2 ^ 32

/-- The entries that a queue serves, in order, with their indexes. -/
def Dev.queueEntries (d : Dev) (q : Nat) : List (Nat × HeadEntry) :=
  ((List.range (d.fld R.BYW_QPLANB_NENT)).map (fun i => (i, headEntry (d.headWord i)))).filter (fun p => p.2.queue = q)

/-- The positions of a queue's line in the order in which they are taken: the position, and whether it is its entry's last. -/
def Dev.queuePositions (d : Dev) (q : Nat) : List (Nat × Bool) :=
  (d.queueEntries q).flatMap (fun p =>
    (List.range p.2.count).map (fun i =>
      (if p.2.rev then p.2.x0 + (p.2.count - 1 - i) else p.2.x0 + i, i + 1 = p.2.count)))

/-- The words of a queue's line (R349): the entry, and whether the word is the entry's first. -/
def Dev.queueWords (d : Dev) (q : Nat) : List (Nat × Bool) :=
  (d.queueEntries q).flatMap (fun p => (List.range ((p.2.count + 15) / 16)).map (fun i => (p.1, i = 0)))

/-- Where the code of a position lies (R348): the hall, the drop code number t, the gallery position. -/
def Dev.codePlace (d : Dev) (x : Nat) : Nat × Nat × Nat :=
  let b := d.fld R.BYW_QPLANB_BM1 + 1
  let f := (b + 4095) / 4096
  let h := x / b
  let bh := min b (d.fld R.BYW_QPLAN_D - h * b)
  let m := bh - 4096 * (f - 1)
  let xp := x - h * b
  let (n, t) := if xp < f * m then (xp / f, xp % f) else (m + (xp - f * m) / (f - 1), (xp - f * m) % (f - 1))
  (h, t, 4096 * t + n)

/-- The gathered block that holds a position: t, and the slot byte at which the 64 bytes start (R350). -/
def Dev.codeBlock (d : Dev) (x : Nat) : Nat × Nat :=
  let (h, t, p) := d.codePlace x
  (t, h * d.fld R.GAL_LHB_LHB + p / 256 * 64)

/-- The code of a position in its gathered block. -/
def codeIn (p : Nat) (l : List Byte) : Nat := bits (l.getD (p / 4 % 64) 0).toNat (2 * (p % 4) + 1) (2 * (p % 4))

/-- The gallery offset of the landing slot of line k. -/
def Dev.slotOff (d : Dev) (k : Nat) : Nat := 0x1600000 + k % (d.fld R.GAL_LCFG_NSM1 + 1) * d.fld R.GAL_LSLOT_SSZ * 64

/-! Queue controllers (R347 to R352). -/

/-- A word with its tags (R349). -/
def Dev.queueWord (d : Dev) (q w : Nat) (v : Word) (late : Bool) : QWord :=
  let ws := d.queueWords q
  let (e, first) := ws.getD w (0, false)
  ⟨v, BitVec.ofNat 4 (bn (w = 0) + 2 * bn first + 4 * bn (w + 1 = ws.length) + 8 * bn late), e⟩

/-- Whether the queues report a further line done (R352). -/
def Dev.lineDone (d : Dev) : Bool :=
  if d.anyQueue then (List.range 48).all (fun q => !d.queueOn q || d.lead.done < ((d.byw.queue[q]?).map (·.next)).getD 0)
  else d.lead.done < d.lead.copied

/-- Reports lines done to the lead mover, at most n. -/
def Dev.reportDone : Nat → Dev → Dev
  | 0, d => d
  | n + 1, d =>
    if d.lineDone then
      let k := d.lead.done
      let d := { d with lead := { d.lead with done := k + 1, late := d.lead.late.filter (fun i => k < i) } }
      Dev.reportDone n (d.setFld R.BYW_QSTAT_LDONE (k % 2 ^ 16))
    else d

def Dev.reportLines (d : Dev) : Dev :=
  if d.domOn 1 then Dev.reportDone (d.lead.copied + (d.byw.queue.toList.map (·.next)).foldl max 0 + 1) d else d

/-- A queue has finished its line. -/
def Dev.finishLine (d : Dev) (q : Fin 48) (k : Nat) : Dev :=
  (d.setBq q { (d.bq q) with
    line := none, blank := false, pos := 0, part := 0, parts := 0, words := 0, blocks := [], next := k + 1 }).reportLines

/-- Pushes the words of a blank line while the FIFO has room (R351). -/
def Dev.blankFill (d : Dev) (q : Fin 48) : Dev :=
  let x := d.bq q
  match x.line with
  | none => d
  | some k =>
    if !x.blank then d else
    let total := (d.queueWords q.val).length
    let n := min (total - x.words) (1024 - x.fifo.length)
    let new := (List.range n).map (fun i => d.queueWord q.val (x.words + i) 0 true)
    let d := d.setBq q { x with fifo := x.fifo ++ new, words := x.words + n }
    if total ≤ x.words + n then d.finishLine q k else d

/-- QUEUE_LINE_BEGIN (R351): the queue's next line has been copied, or is late. -/
def Dev.queueBegin (d : Dev) (q : Fin 48) : Dev :=
  let x := d.bq q
  if !d.queueOn q.val || x.line.isSome then d else
  let k := x.next
  let late := d.lead.late.contains k
  if !late && d.lead.copied ≤ k then d else
  let d := d.setBq q { x with line := some k, blank := late, pos := 0, part := 0, parts := 0, words := 0, blocks := [] }
  if late then d.blankFill q
  else if (d.queueEntries q.val).isEmpty then d.finishLine q k else d

/-- A late line reaches the queues at its strobe (R351). -/
def Dev.queuesLate (d : Dev) (k : Nat) : Dev :=
  if !d.anyQueue then d else
  forEach (List.finRange 48) (d.addFld R.BYW_QSTAT_NLATE 1) (fun d q => if (d.bq q).next = k then d.queueBegin q else d)

/-- Takes positions whose blocks are held: codes are packed, and full or last words are pushed. -/
def Dev.takeCodes (d : Dev) (q : Nat) (x : BywQueue) : List (Nat × Bool) → BywQueue
  | [] => x
  | (p, last) :: r =>
    let (t, b) := d.codeBlock p
    match x.blocks.find? (fun e => e.1 = t && e.2.1 = b) with
    | none => x
    | some e =>
      let v := setBits x.part (2 * x.parts + 1) (2 * x.parts) (codeIn (d.codePlace p).2.2 e.2.2)
      let x := if x.parts = 15 || last
        then { x with pos := x.pos + 1, part := 0, parts := 0, words := x.words + 1,
                      fifo := x.fifo ++ [d.queueWord q x.words v false] }
        else { x with pos := x.pos + 1, part := v, parts := x.parts + 1 }
      Dev.takeCodes d q x r

/-- GATHER_READ (R350): 64 bytes for the next position whose block the queue does not hold, and the words that they complete. -/
def Dev.gatherRead (d : Dev) (q : Fin 48) : Dev :=
  let x := d.bq q
  match x.line with
  | none => d
  | some k =>
    if !d.queueOn q.val || x.blank then d else
    let all := d.queuePositions q.val
    match all.drop x.pos with
    | [] => d
    | (p, l) :: r =>
      let (t, b) := d.codeBlock p
      let (bytes, _, d') := d.galRead (d.slotOff k + b) 64
      let y := d.takeCodes q.val { x with blocks := (t, b, bytes) :: x.blocks.filter (fun e => e.1 ≠ t) } ((p, l) :: r)
      if 1024 < y.fifo.length then d else
      let d := d'.setBq q y
      if all.length ≤ y.pos then d.finishLine q k else d

/-- QUEUE_POP (R347), on the tree that clocks the read side: a pop of an empty queue has no effect. -/
def Dev.queuePop (d : Dev) (q : Fin 48) : Dev :=
  if !d.queueOn q.val || !d.treeRuns (d.fld (R.BYW_QCFG_QCLK q.val)) then d else
  let x := d.bq q
  (d.setBq q { x with fifo := x.fifo.drop 1 }).blankFill q

/-- The first line that no queue has begun (R354). -/
def Dev.freshLine (d : Dev) : Nat :=
  (List.finRange 48).foldl (fun m q =>
    if d.queueOn q.val then max m (((d.bq q).line.map (· + 1)).getD (d.bq q).next) else m) d.lead.done

/-- Queues begin afresh at a line (R188, R354). The FIFO of a queue that is not enabled is a plain memory again, and the queue
starts empty when it is enabled (R347, R345). -/
def Dev.restartQueues (d : Dev) (k : Nat) : Dev :=
  d.modByw (fun b => { b with
    queue := Vector.ofFn (fun q : Fin 48 => { fifo := if d.queueOn q.val then b.queue[q].fifo else [], next := k }) })

/-! Configuration loads (R343 to R346). -/

/-- The CRC-32 of IEEE 802.3 over bytes, bit by bit. -/
def crcBit (c : BitVec 32) : BitVec 32 := if c.getLsbD 0 then (c >>> 1) ^^^ 0xEDB88320 else c >>> 1

def crc32 (l : List Byte) : BitVec 32 :=
  ~~~(l.foldl (fun c b => (List.range 8).foldl (fun c _ => crcBit c) (c ^^^ b.setWidth 32)) (BitVec.allOnes 32))

/-- The regions that a load covers. -/
def FabricLoad.regions (f : FabricLoad) : List Nat := if f.part then [f.rgn.toNat] else List.range 8

/-- The frame addresses of a load, in order. -/
def FabricLoad.addrs (f : FabricLoad) : List Nat :=
  if f.part then (List.range 384).map (fun i => 64 + 384 * f.rgn.toNat + i) else List.range 3136

def setMask (m : BitVec 8) (ks : List Nat) (b : Bool) : BitVec 8 := ks.foldl (fun m k => setBit m k b) m

def setPins (v : Vector PinPhase 8) (ks : List Nat) (p : Nat → PinPhase) : Vector PinPhase 8 :=
  Vector.ofFn (fun k => if ks.contains k.val then p k.val else v[k])

def Dev.cfgRefuse (d : Dev) (c : Nat) : Dev := (d.setFlag R.BYW_CFGSTAT_ERR true).setFld R.BYW_CFGSTAT_ECAUSE c

/-- RUN bits of regions go to 0: their event outputs read as 0 (R357). -/
def Dev.stopRegions (d : Dev) (ks : List Nat) : Dev :=
  let d := d.setFld R.BYW_RGNCTL_RUN (setMask (BitVec.ofNat 8 (d.fld R.BYW_RGNCTL_RUN)) ks false).toNat
  if d.fld R.BYW_RGNCTL_RUN ≠ 0 then d else
  forEach (List.range 64) d (fun d i => if d.evc.line.getLsbD (0x80 + i) then d.sourceLine (0x80 + i) false else d)

/-- The frames that a load covers are cleared. -/
def Dev.clearFrames (d : Dev) (f : FabricLoad) : Dev :=
  d.modByw (fun b => { b with frames := b.frames.filter (fun p => !f.addrs.contains p.1) })

/-- A GO in BYW_CFGCMD (R344, step 1). -/
def Dev.fabricGo (d : Dev) (part : Bool) (rgn : BitVec 3) : Dev :=
  if d.flag R.BYW_CFGSTAT_BUSY || (!part && d.mode = 8) then d.cfgRefuse 1
  else if (if part then d.regionQueue rgn.toNat || d.flag R.BYW_CAPSTAT_ARMED else d.anyQueue) then d.cfgRefuse 7
  else if part && !d.flag R.BYW_CFGSTAT_DONE then d.cfgRefuse 8
  else
    let f : FabricLoad := { part := part, rgn := rgn, phase := .reading }
    let d := (((d.setFlag R.BYW_CFGSTAT_BUSY true).setFlag R.BYW_CFGSTAT_CONFLICT false).setFld R.BYW_CFGSTAT_NCONF 0).setFld
      R.BYW_CFGSTAT_FRAME 0
    let d := if part then d else d.setFlag R.BYW_CFGSTAT_DONE false
    let d := ((d.stopRegions f.regions).clearFrames f).clearCells f.regions
    let hold := d.fld R.BYW_RGNCTL_PINHOLD
    d.modByw (fun b => { b with
      load := some f, clear := setMask b.clear f.regions true,
      fullDigest := if part then b.fullDigest else [],
      pins := setPins b.pins f.regions (fun k => if part && hold.testBit k && b.pins.toList.getD k .safe = .logic then .held else .safe) })

/-- A load fails (R344, R346). -/
def Dev.loadFails (d : Dev) (f : FabricLoad) (c : Nat) : Dev :=
  let d := d.clearFrames f
  let d := d.modByw (fun b => { b with load := none, pins := setPins b.pins f.regions (fun _ => .safe) })
  ((d.setFlag R.BYW_CFGSTAT_BUSY false).cfgRefuse c).raise 0xD4

/-- The gallery offset of n bytes of the bitstream from a place in it, when they lie in the ordinary part that R344 admits. -/
def Dev.streamOff (d : Dev) (off n : Nat) : Option Nat :=
  let a := d.fld R.BYW_CFGSRC_ADDR * 8 + off
  if 0x40000000 ≤ a && a + n ≤ 0x41700000 then some (a - 0x40000000) else none

/-- The bytes of the global frames that are loaded (R343). -/
def Dev.globalBytes (d : Dev) : List Byte :=
  (List.range 64).flatMap (fun i => leBytes 256 (bankGet (fun _ => (0 : BitVec 2048)) d.byw.frames i).toNat)

/-- The header of a load matches what was requested and what is loaded (R343, R344 step 2). -/
def Dev.headerMatches (d : Dev) (f : FabricLoad) (h : Header) : Bool :=
  let n := if f.part then 384 else 3136
  h.plainOk (if f.part then 5 else 4) && h.count = n && h.bodyLen = n * 264 &&
    (!f.part || (h.target = f.rgn.toNat && h.digest = (List.range 32).map (Config.shake256 d.globalBytes)))

/-- One frame of step 3 of R344: its position in the bitstream and the address expected. The error, or the frame's bytes added
to those already hashed (the latest first). -/
def Dev.readFrame (d : Dev) (seen : List (List Byte)) (i addr : Nat) : Except Nat (List (List Byte)) × Dev :=
  match d.streamOff (64 + 264 * i) 264 with
  | none => (.error 2, d)
  | some a =>
    let (fr, bad, d) := d.galRead a 264
    if bad then (.error 2, d)
    else if le fr 0 4 ≠ addr then (.error 4, d.setFld R.BYW_CFGSTAT_FRAME i)
    else if (crc32 (fr.take 260)).toNat ≠ le fr 260 4 then (.error 5, d.setFld R.BYW_CFGSTAT_FRAME i)
    else
      let v := BitVec.ofNat 2048 (le fr 4 256)
      let d := if Config.frameConflict addr v
        then (d.setFlag R.BYW_CFGSTAT_CONFLICT true).setFld R.BYW_CFGSTAT_NCONF (d.fld R.BYW_CFGSTAT_NCONF + 1)
        else d.modByw (fun b => { b with frames := bankSet (fun _ => 0) b.frames addr v })
      (.ok (fr :: seen), d)

/-- Step 3 of R344: the frames in order up to the first error. -/
def Dev.readFrames (d : Dev) (l : List (Nat × Nat)) : Except Nat (List (List Byte)) × Dev :=
  l.foldl (fun r p => match r.1 with
    | .error _ => r
    | .ok seen => r.2.readFrame seen p.1 p.2) (.ok [], d)

/-- FABRIC_FRAMES_READ (R344 steps 2 and 3); ok is false for a read or decode error on the road. -/
def Dev.framesRead (d : Dev) (ok : Bool) : Dev :=
  match d.byw.load with
  | none => d
  | some f =>
    if f.phase ≠ .reading then d else
    match d.streamOff 0 64 with
    | none => d.loadFails f 2
    | some a =>
      let (hl, bad, d) := d.galRead a 64
      if bad || !ok then d.loadFails f 2 else
      let h := parseHeader hl
      if !d.headerMatches f h then d.loadFails f 3 else
      match d.readFrames (f.addrs.mapIdx (fun i a => (i, a))) with
      | (.error c, d) => d.loadFails f c
      | (.ok seen, d) =>
        match d.streamOff (64 + 264 * f.addrs.length) 3136 with
        | none => d.loadFails f 2
        | some b =>
          let (sl, bad, d) := d.galRead b 3136
          if bad then d.loadFails f 2 else
          (d.modByw (fun b => { b with
            load := some { f with phase := .verifying, slot := h.slot, sig := parseSig sl },
            fullDigest := if f.part then b.fullDigest
              else (List.range 32).map (Config.shake256 (hl ++ seen.reverse.flatten)) })).verifyRequest .fabric

/-- FABRIC_VERIFY_DONE (R344 step 4, R345 steps 1 and 2): a flip-flop whose tree does not run stays clear. -/
def Dev.fabricVerified (d : Dev) (v : Verdict) : Dev :=
  match d.byw.load with
  | none => d
  | some f =>
    if f.phase ≠ .verifying || !d.verifyFirst .fabric then d else
    let d := d.verifyEnd
    if !d.keyOk (if f.part then 5 else 4) f.slot then d.loadFails f 9
    else if v ≠ .pass || !f.sig.ok then d.loadFails f 6
    else
      let run := f.regions.filter (fun k => d.flag (R.BYW_CLK_EN k))
      (d.startCells f.regions).modByw (fun b => { b with
        load := some { f with phase := .starting }, clear := setMask b.clear run false })

/-- FABRIC_OUTPUTS_ENABLE (R345 steps 3 and 4). -/
def Dev.fabricStart (d : Dev) : Dev :=
  match d.byw.load with
  | none => d
  | some f =>
    if f.phase ≠ .starting then d else
    let d := d.modByw (fun b => { b with load := none, pins := setPins b.pins f.regions (fun _ => .logic) })
    let d := d.setFld R.BYW_RGNCTL_RUN (setMask (BitVec.ofNat 8 (d.fld R.BYW_RGNCTL_RUN)) f.regions true).toNat
    let d := if f.part then d else d.setFlag R.BYW_CFGSTAT_DONE true
    (d.setFlag R.BYW_CFGSTAT_BUSY false).raise 0xD4

/-- Flip-flops of regions that are past start-up leave clear when their trees run (R345). -/
def Dev.releaseFlops (d : Dev) : Dev :=
  let run := (List.range 8).filter (fun k => d.flag (R.BYW_CLK_EN k) &&
    ((d.fld R.BYW_RGNCTL_RUN).testBit k || (d.byw.load.map (fun f => f.phase = .starting && f.regions.contains k)).getD false))
  d.modByw (fun b => { b with clear := setMask b.clear run false })

/-! Capture (R355). -/

/-- A write of ARM. -/
def Dev.captureArm (d : Dev) : Dev :=
  if d.flag R.BYW_CFGSTAT_BUSY || d.flag R.BYW_CAPSTAT_ARMED then d.setFlag R.BYW_CAPSTAT_ERR true
  else (d.modByw (fun b => { b with struck := false })).setFlag R.BYW_CAPSTAT_ARMED true

/-- The armed capture can be taken: its trigger has come, and the tree that it counts runs. The fabric's CAPTRIG is the logic's own; a
reserved trigger never comes (DEDUCED, log entry 71). -/
def Dev.captureDue (d : Dev) : Bool :=
  d.flag R.BYW_CAPSTAT_ARMED && d.treeRuns (d.fld R.BYW_CAPCTL_CLK) &&
    (match d.fld R.BYW_CAPCTL_TRIG with
     | 1 => d.byw.struck
     | 3 => false
     | _ => true)

/-- A queue as a capture shows it: words in its FIFO, and the entry of the word that it is in. The layout is the model's. -/
def Dev.captureQueue (d : Dev) (q : Fin 48) : Word :=
  let x := d.bq q
  BitVec.ofNat 32 (x.fifo.length * 2 ^ 16 + ((d.queueWords q.val).getD x.words (0, false)).1)

/-- CAPTURE_TAKE: the fabric's logic has brought the flip-flops of the running regions to the given values. -/
def Dev.captureTake (d : Dev) (ffs : List Word) : Dev :=
  if !d.captureDue then d else
  let d := d.setFlops ffs
  let words := d.flopWords ++ (List.finRange 48).map d.captureQueue
  let d := d.modByw (fun b => { b with capture := words })
  let d := (d.setFlag R.BYW_CAPSTAT_ARMED false).setFlag R.BYW_CAPSTAT_TAKEN true
  let d := if d.flag R.BYW_CAPCTL_STOP then d.setFlag R.BYW_CAPSTAT_STOPPED true else d
  d.raise 0xD5

/-- A write of RESUME. -/
def Dev.captureResume (d : Dev) : Dev := d.setFlag R.BYW_CAPSTAT_STOPPED false

/-- A read of RBDATA; a word beyond the capture storage is free. -/
def Dev.captureRead (d : Dev) : Word × Dev :=
  let i := d.fld R.BYW_RBADDR_WORD
  let d := d.setFld R.BYW_RBADDR_WORD ((i + 1) % 2 ^ 16)
  match d.byw.capture[i]? with
  | some w => (w, d.setReg R.BYW_RBDATA w)
  | none =>
    let (n, d) := d.fresh
    let w : Word := (Config.freeWord n).setWidth 32
    (w, d.setReg R.BYW_RBDATA w)

end Sys2Proof.Machine
end

