-- ==== Sys2Proof/Machine/Line.lean ====
section
/-! DEFINITION. The line timer and the line gate (R191, R232 to R237). -/

namespace Sys2Proof.Machine

/-- The position of an encoder state in its cycle of four, A leading B. -/
def quadrature (a b : Bool) : Nat := match a, b with | false, false => 0 | true, false => 1 | true, true => 2 | false, true => 3

/-- A strobe's threshold (R233, SRC 0). -/
def Dev.strobeAt (d : Dev) (k : Nat) : Int := (d.fld R.LINE_START_DLY + k * d.fld R.LINE_ENC_CPL / 256 : Nat)

/-- ENCODER_EDGE (R233, R234): a sample of both inputs, stable for the filter's time. -/
def Dev.encoderEdge (d : Dev) (a b : Bool) : Dev :=
  let l := d.line
  let d := { d with line := { l with a := a, b := b } }
  if d.mode ≠ 8 || !d.flag R.LINE_CTRL_EN || d.fld R.LINE_CTRL_SRC ≠ 0 then d
  else if a ≠ l.a && b ≠ l.b then (d.setFlag R.LINE_STAT_QERR true).raise 0x35
  else
    let up := (quadrature a b + 4 - quadrature l.a l.b) % 4
    let step : Int := if up = 0 then 0 else if (up = 1) != d.flag R.LINE_CTRL_DIRINV then 1 else -1
    let pos := (d.reg R.LINE_POS).toInt + step
    let top := max l.top pos
    let d := { d with line := { d.line with top := top } }
    (d.setReg R.LINE_POS (BitVec.ofInt 32 pos)).setFlag R.LINE_STAT_REV (pos < top)

/-- LSYNC_PULSE (R233, SRC 2): the lengths of the low interval before it and of the pulse, in ns. -/
def Dev.lsyncPulse (d : Dev) (low high : Nat) : Dev :=
  if d.mode ≠ 8 || !d.flag R.LINE_CTRL_EN || d.fld R.LINE_CTRL_SRC ≠ 2 || d.flag R.LINE_CTRL_MASTER then d
  else if low < 16 || high < 16 then (d.setFlag R.LINE_STAT_SYNCERR true).raise 0x35
  else { d with line := { d.line with follow := true } }

/-- The PLL_ROAD cycle, since entry to PRINT, of strobe k of the internal source (R233). -/
def Dev.internalAt (d : Dev) (k : Nat) : Nat := d.roadCycle (d.fld R.LINE_START_DLY * 256000 + k * d.fld R.LINE_PER_PER)

/-- The timer's source has earned a strobe at time t (R232, R233). -/
def Dev.strobeDue (d : Dev) (t : Nat) : Bool :=
  d.mode = 8 && d.flag R.LINE_CTRL_EN &&
    (match d.fld R.LINE_CTRL_SRC with
     | 0 => d.strobeAt d.line.strobes ≤ d.line.top
     | 1 => t = d.internalAt d.line.strobes
     | 2 => d.line.follow
     | _ => false)

/-- LINE_STROBE at time t, in PLL_ROAD cycles since entry to PRINT (R232 to R235, R190, R191, R351, R353, R438). With MASTER 1 it drives
a pulse on LSYNC. -/
def Dev.lineStrobe (d : Dev) (t : Nat) : Dev :=
  if !d.strobeDue t then d else
  let i := d.line.strobes
  let close := i ≠ 0 && d.roadNs (t - d.line.last) < d.fld R.LINE_MINP_MINP
  let out := d.line.lsyncOut + bn (d.flag R.LINE_CTRL_MASTER)
  let d := { d with line := { d.line with strobes := i + 1, follow := false, last := t, lsyncOut := out } }
  let d := ((d.setFld R.LINE_STAT_SCNT ((i + 1) % 2 ^ 24)).setReg R.LINE_TLAST (BitVec.ofInt 32 (d.roadNs t))).raise 0x34
  let d := if close then (d.setFlag R.LINE_STAT_OVSP true).raise 0x35 else d
  let d := d.strobeRegions i
  let late := decide (d.lead.copied ≤ i)
  let d := d.lateStrobe i
  let d := if late then d.queuesLate i else d
  (d.marginStrobe i t).wayStrobe

/-- LINE_GATE_ADMIT (R237): the gate of a stream that waits opens. -/
def Dev.gateAdmit (d : Dev) (s : StreamId) : Dev :=
  if d.flag (R.LINE_GSTAT_WAIT s) && d.gateOpen s then d.setFlag (R.LINE_GSTAT_WAIT s) false else d

end Sys2Proof.Machine
end

