-- ==== Sys2Proof/Machine/Milestone.lean ====
section
/-! DEFINITION. The commit of a milestone (R94, R101, R181, R189, R199, R211, R214, R218, R237, R241). -/

namespace Sys2Proof.Machine

/-- The MILESTONE whose MSTONE entry every hall has reported. -/
def Dev.milestoneReady (d : Dev) (s : StreamId) : Option Job :=
  let all := d.hallMask s
  if d.upsetPending s then none else
  match (d.st s).run with
  | .mstone j rep => if (rep &&& all) = all then some j else none
  | .micro j => if (d.st s).micro.msWait && ((d.st s).micro.rep &&& all) = all then some j else none
  | _ => none

/-- In every PE ACT is 1 and X, Y, C, IDX and OOW are 0 (R101); the scratch segment is undefined (R79). -/
def Dev.milestoneLatches (d : Dev) (s : StreamId) : Dev :=
  (forEach (d.streamHalls s.val) d (fun d h => d.looseScratch (d.phys h))).clearLatches s

/-- Token counts at a commit: the point of the last milestone, and at a LEND the base of the buffers (R241). -/
def Dev.commitEdges (d : Dev) (s : StreamId) (lend : Bool) : Dev :=
  d.modPorts (d.streamPorts s) (fun x => if lend then x.rebase else { x with usedMs := x.used, sentMs := x.sent })

/-- The deferred columns of a stream whose commit has come are decided again (R214). -/
def Dev.deferredDue (d : Dev) (s : StreamId) (lend : Bool) : Dev :=
  if !lend && d.flag (R.SEQ_CARRY_CEN s) then d else
  let mine := d.arr.retire.filter (fun r => r.stage = 3 && d.inStream s r)
  forEach mine d (fun d r =>
    if d.flag R.SEQ_RCTL_RETEN && d.mapUse r.hall.val < 4 then
      d.stageRetire r 0
    else ((d.dropRetire (· = r)).stopStream s).hallOutcome s r.hall.val r.word)

/-- Steps 1 to 4 of R218. The log keeps the entries of instructions that were accepted behind the MILESTONE, which belong to the next
span (DESIGN CHOICE, log entry 96: R203 says that the log empties). -/
def Dev.commitSpan (d : Dev) (s : StreamId) (j : Job) : Dev :=
  let next := j.pc + 4
  let d := (d.setReg (R.SEQ_RADR s) next).setFlag (R.SEQ_SPSTAT_PH s) (!d.flag (R.SEQ_SPSTAT_PH s))
  let d := forEach (List.range 8) d (fun d ch =>
    if d.chanBound s ch then d.setFld (R.STAIR_CHCPOS_POS ch) (d.fld (R.STAIR_CHWPOS_POS ch)) else d)
  let d := d.setReg (R.SEQ_MSCNT s) (d.reg (R.SEQ_MSCNT s) + 1)
  let d := d.wayDeliver 5 s.val (d.st s).reps
  let d := d.modSt s (fun x => { x with
    log := x.log.filter (fun k => j.idx < k.idx), span := 0, replays := 0, reps := 0, sites := [], ctRp := x.ct, mdepth := 0, gateRp := j.sd.getLsbD 0 })
  forEach (d.streamHalls s.val) d (fun d h => d.expireHall s (d.phys h))

/-- Step 5 of R218. -/
def Dev.commitLine (d : Dev) (s : StreamId) : Dev :=
  let line := (d.fld (R.SEQ_LPT_LLINE s) + 1) % 2 ^ 16
  let d := d.setReg (R.SEQ_LPT s) (BitVec.ofNat 32
    (2 ^ 31 + bn (d.flag (R.SEQ_SPSTAT_PH s)) * 2 ^ 30 + line % 2 * 2 ^ 29 + line))
  let d := d.setReg (R.SEQ_LADR s) (d.reg (R.SEQ_RADR s))
  let d := forEach (List.range 8) d (fun d ch =>
    if d.chanBound s ch then d.setFld (R.STAIR_CHLPOS_POS ch) (d.fld (R.STAIR_CHCPOS_POS ch)) else d)
  let d := d.setFld (R.LINE_GSTAT_GLINE s) ((d.fld (R.LINE_GSTAT_GLINE s) + 1) % 2 ^ 16)
  d.modSt s (fun x => { x with ctLp := x.ct })

/-- MILESTONE_COMMIT (R218) at time t, in PLL_ROAD cycles since entry to PRINT. -/
def Dev.milestoneCommit (d : Dev) (s : StreamId) (t : Int) : Dev :=
  match d.milestoneReady s with
  | none => d
  | some j =>
    let lend := j.sd.getLsbD 0
    let d := d.commitSpan s j
    let d := if lend then d.commitLine s else d
    let d := d.commitEdges s lend
    let d := match (d.st s).run with
      | .micro _ => d.modSt s (fun x => { x with micro := { x.micro with msWait := false, rep := 0 } })
      | _ => (d.milestoneLatches s).modSt s (fun x => { x with run := .idle })
    (d.noteReleases t).deferredDue s lend

end Sys2Proof.Machine
end

