-- ==== Sys2Proof/Machine/GalleryOps.lean ====
section
/-! DEFINITION. Gallery banks, the secure region's wipe, the march engine and row repair (R185, R192 to R197). -/

namespace Sys2Proof.Machine

/-! Bank arbitration (R185). -/

def Dev.galAge (d : Dev) (b : Nat) (q : Nat) : Nat := bankGet (fun _ => 0) d.gal.age (8 * b + q)
def Dev.setGalAge (d : Dev) (b q n : Nat) : Dev :=
  { d with gal := { d.gal with age := bankSet (fun _ => 0) d.gal.age (8 * b + q) n } }

/-- A requester is promoted at a bank. -/
def Dev.galUrgent (d : Dev) (b q : Nat) : Bool := d.fld R.GAL_ARB_AGELIM ≠ 0 && d.fld R.GAL_ARB_AGELIM ≤ d.galAge b q

/-- The requester that a bank grants: the lowest promoted one, otherwise round robin after the one served last. -/
def Dev.galWinner (d : Dev) (b : Nat) (qs : List Nat) : Option Nat :=
  match (List.range 7).find? (fun q => qs.contains q && d.galUrgent b q) with
  | some q => some q
  | none =>
    let last := bankGet (fun _ => 6) d.gal.last b
    ((List.range 7).map (fun i => (last + 1 + i) % 7)).find? qs.contains

/-- A region of the gallery cannot be reached by ordinary accesses: the secure region from the start of a wipe until its read-back
passes (R193). -/
def Dev.secureShut (d : Dev) : Bool := d.gal.wipe ≠ .idle || d.gal.verr

/-- The bytes of the regions that a run tests. -/
def marchRanges (rgn : BitVec 2) : List (Nat × Nat) :=
  (if rgn.getLsbD 0 then [(0, 0x1600000), (0x1680000, 0x1700000)] else []) ++ (if rgn.getLsbD 1 then [(0x1600000, 0x1680000)] else [])

/-- A destructive run tests a region that n bytes at an offset touch (R195). -/
def Dev.underMarch (d : Dev) (a n : Nat) : Bool :=
  match d.gal.march with
  | some (_, false, rgn) => (marchRanges rgn).any (fun r => a < r.2 && r.1 < a + max 1 n)
  | _ => false

/-- The enabled channel in one of whose hall blocks a gallery word lies (R178, R182). -/
def Dev.chanOfWord (d : Dev) (i : Nat) : Option Nat :=
  findIdx 8 (fun n =>
    let lo := d.fld (R.STAIR_CHBASE_OFF n) * 64
    let step := d.fld (R.STAIR_CHRING_HSTR n) * 512
    d.flag (R.STAIR_CHCFG_EN n) && (List.range 16).any (fun h =>
      lo + h * step ≤ 8 * i && 8 * i < lo + h * step + d.fld (R.STAIR_CHRING_RLEN n) * 512))

/-- The access of a granted requester to one word: its response, and the word with its ECC (R186). The secure region answers the road's
secure requests alone (R192), and a region under a destructive test the march engine alone (R195), which works on the raw word and is
counted by its own run. A stair's read of an uncorrectable word sets UERR of its channel. -/
def Dev.galAccess (d : Dev) (i : Nat) (q : GalReq) : Dev :=
  let w := d.galWord i
  if galRegion (8 * i) = 3 || (galRegion (8 * i) = 2 && (q.who ≠ 4 || !q.sec || d.secureShut)) then d.respond 1 [] else
  if q.who ≠ 6 && d.underMarch (8 * i) 8 then d.respond 2 [] else
  match q.wr with
  | none =>
    let d := if q.who = 6 then d else d.galCount i w.2 true
    let d := if w.2 == .uncorrectable && q.who < 4 then
        (match d.chanOfWord i with | some n => d.setFlag (R.STAIR_CHSTAT_UERR n) true | none => d) else d
    d.respond (if w.2 == .uncorrectable && q.who = 4 then 2 else 0) (leBytes 8 w.1.toNat)
  | some (mask, x) =>
    if mask = 0xFF then (d.galPut i x).respond 0 [] else
    let d := d.galCount i w.2 true
    if w.2 == .uncorrectable && q.who = 4 then d.respond 2 [] else
    let old := leBytes 8 w.1.toNat
    let new := leBytes 8 x.toNat
    (d.galPut i (BitVec.ofNat 64 (leNat ((List.range 8).map (fun k =>
      (if mask.getLsbD k then new[k]? else old[k]?).getD 0))))).respond 0 []

/-- One arbitration: arbiter b is that of bank b, arbiter 32 + b that of the bank's landing port A. -/
def Dev.arbGrant (d : Dev) (b : Nat) (waiting : List GalReq) : Dev :=
  match d.galWinner b (waiting.map (fun q => q.who.val)) with
  | none => d
  | some w =>
    match waiting.find? (fun q => q.who.val = w) with
    | none => d
    | some req =>
      let losers := ((waiting.map (fun q => q.who.val)).dedup).filter (· ≠ w)
      let d := forEach losers d (fun d q =>
        let n := d.galAge b q + 1
        let d := d.setGalAge b q n
        if n = d.fld R.GAL_ARB_AGELIM then d.addFld R.GAL_PROMO_COUNT 1 else d)
      let d := d.setGalAge b w 0
      let d := { d with gal := { d.gal with last := bankSet (fun _ => 6) d.gal.last b w } }
      d.galAccess (req.word * 32 + b % 32) req

/-- A stair port's request into a region under a destructive test stalls (R195). -/
def Dev.marchStalls (d : Dev) (b : Nat) (r : GalReq) : Bool := r.who < 4 && d.underMarch (8 * (r.word * 32 + b)) 8

/-- GALLERY_BANK_GRANT (R185): the bank's single-port part and its landing port A each grant one of the requests that wait for it. -/
def Dev.bankGrant (d : Dev) (b : Fin 32) (waiting : List GalReq) : Dev :=
  let ws := waiting.filter (fun r => !d.marchStalls b.val r)
  (d.arbGrant (32 + b.val) (ws.filter (·.landing))).arbGrant b.val (ws.filter (fun r => !r.landing))

/-! Wipe (R192, R193). -/

/-- GAL_SEC shows what AON holds. -/
def Dev.syncSec (d : Dev) : Dev :=
  ((d.setFlag R.GAL_SEC_BUSY (d.gal.wipe ≠ .idle)).setFlag R.GAL_SEC_VERR d.gal.verr).setFld R.GAL_SEC_WCAUSE d.gal.wcause.toNat

/-- A wipe starts; one that runs continues under the new cause. -/
def Dev.startWipe (d : Dev) (cause : BitVec 4) : Dev :=
  { d with gal := { d.gal with
      wcause := cause, wipe := if d.gal.wipe = WipePhase.idle then WipePhase.clearing else d.gal.wipe } }.syncSec

/-- WIPE_CLEAR_DONE: every cell is clear, and the read-back begins or waits for CORE. -/
def Dev.wipeCleared (d : Dev) : Dev :=
  if d.gal.wipe ≠ .clearing then d else
  { d with
    mem := bankClear d.mem 0x41700000 0x41800000,
    galErr := bankClear d.galErr (0x1700000 / 8) (0x1800000 / 8),
    gal := { d.gal with wipe := if d.domOn 0 then .readback else .deferred } }.syncSec

/-- WIPE_READBACK_DONE. -/
def Dev.wipeRead (d : Dev) (nonzero : Bool) : Dev :=
  if d.gal.wipe ≠ .readback then d else
  let d := { d with gal := { d.gal with wipe := .idle, verr := nonzero } }.syncSec
  if nonzero then d.raise 0x39 else d.setFlag R.GAL_SEC_DONE true

/-! March (R194 to R196). -/

/-- A write of 1 to START with the fields of MCTL already written. -/
def Dev.marchGo (d : Dev) : Dev :=
  let pres := d.flag R.GAL_MCTL_PRES
  let modeOk := if pres then d.mode ≠ 8 else d.mode = 2 || d.mode = 9
  if d.gal.march.isSome || d.fld R.GAL_MCTL_ALG = 3 || d.fld R.GAL_MCTL_RGN = 0 || !modeOk then d.setFlag R.GAL_MCTL_ERR true
  else
    { (((d.setFlag R.GAL_MCTL_BUSY true).setFld R.GAL_MCTL_NFAIL 0).setReg R.GAL_MLOG 0) with gal := { d.gal with
        march := some (BitVec.ofNat 2 (d.fld R.GAL_MCTL_ALG), pres, BitVec.ofNat 2 (d.fld R.GAL_MCTL_RGN)) } }

/-- The word index (offset / 8) of a failing word. -/
def marchIndex (f : MarchFail) : Nat := (f.row.toNat * 32 + f.word.toNat) * 32 + f.bank.val

/-- The spare that serves a row of a bank, if one does. -/
def Dev.spareOf (d : Dev) (b row : Nat) : Option Nat :=
  findIdx 10 (fun k => d.flag (R.GAL_RPR_V (10 * b + k)) && !d.flag (R.GAL_RPR_BAD (10 * b + k)) && d.fld (R.GAL_RPR_ROW (10 * b + k)) = row)

/-- MARCH_DONE. A destructive run leaves every tested word 0. Which cells of a failing word do not hold what was written is open: the
word's error is free. -/
def Dev.marchEnd (d : Dev) (fails : List MarchFail) : Dev :=
  match d.gal.march with
  | none => d
  | some (_, pres, rgn) =>
    let d := { d with gal := { d.gal with march := none } }
    let d := if pres then d else forEach (marchRanges rgn) d (fun d r =>
      { d with mem := bankClear d.mem (galBase + r.1) (galBase + r.2), galErr := bankClear d.galErr (r.1 / 8) (r.2 / 8) })
    let d := forEach fails d (fun d f =>
      let (n, d) := d.fresh
      let (m, d) := d.fresh
      d.setGalErr (marchIndex f) (((Config.freeWord n).append (Config.freeWord m)).setWidth 72))
    let d := match fails with
      | [] => d
      | f :: _ => d.setReg R.GAL_MLOG (BitVec.ofNat 32
          (2 ^ 31 + f.bank.val * 2 ^ 26 + f.row.toNat * 2 ^ 14 + f.word.toNat * 2 ^ 9 + bn (d.spareOf f.bank.val f.row.toNat).isSome * 2 ^ 8 + f.bit.toNat))
    let d := (d.setFlag R.GAL_MCTL_BUSY false).setFlag R.GAL_MCTL_DONE true
    let d := if fails = [] then d else d.setFlag R.GAL_MCTL_FAIL true
    d.setFld R.GAL_MCTL_NFAIL (min 0xFFFF fails.length)

/-! Row repair (R197). -/

/-- A row that entry k of a bank cannot serve: above 2,943, or of the wrong kind. -/
def rowBad (k row : Nat) : Bool := 2943 < row || (decide (2816 ≤ row ∧ row ≤ 2879) != decide (8 ≤ k))

/-- The contents of a bank's row are undefined. -/
def Dev.looseRow (d : Dev) (b row : Nat) : Dev :=
  if 2943 < row then d else
  forEach (List.range 32) d (fun d w =>
    let i := (row * 32 + w) * 32 + b
    let (n, d) := d.fresh
    let (m, d) := d.fresh
    (d.setWord64 (galBase + 8 * i) (Config.freeWord n)).setGalErr i
      ((Config.freeWord m).setWidth 72))

/-- A write to GAL_RPRn that the lock admits. -/
def Dev.writeRpr (d : Dev) (n : Nat) (v : Word) : Dev :=
  if d.flag (R.GAL_RPR_FUSE n) then d else
  let b := n / 10
  let row := bits v.toNat 11 0
  let old := d.fld (R.GAL_RPR_ROW n)
  let was := [d.spareOf b old, d.spareOf b row]
  let bad := v.getLsbD 31 && rowBad (n % 10) row
  let d := ((d.setFlag (R.GAL_RPR_V n) (v.getLsbD 31)).setFld (R.GAL_RPR_ROW n) row).setFlag (R.GAL_RPR_BAD n) bad
  let d := if d.spareOf b old = was.headD none then d else d.looseRow b old
  if old = row || some (d.spareOf b row) = was[1]? then d else d.looseRow b row

end Sys2Proof.Machine
end

