-- ==== Sys2Proof/Machine/Reset.lean ====
section
/-! DEFINITION. What resets and losses of power leave: CORE off and on, a full reset, OFF, a core's return to reset, LOCKOUT
(R32, R131, R146, R197, R250, R273, R309, R377, R379, R400, R406, R407, R429, R432). -/

namespace Sys2Proof.Machine

/-- A core returns to reset (R273, R309). Its TCMs keep their contents. -/
def Dev.holdCore (d : Dev) (c : CoreId) : Dev :=
  if (d.co c).mode = .reset then d else (d.setCo c {}).dropOwner c.val

/-- A core is released at an address (R250, R273). -/
def Dev.releaseCore (d : Dev) (c : CoreId) (pc : Word) : Dev := d.setCo c (coreStart c pc)

/-- Modes in which R32 gives CORE to C0 alone. -/
def onlyC0 (mode : Nat) : Bool := mode = 2 || mode = 3 || mode = 0xB

/-- The cores that SYS_CRUN releases and that are still held start at their SYS_CPC, unless the mode runs C0 alone (R32, R273). A start
address outside the I-TCM fails at the first fetch. -/
def Dev.releaseRun (d : Dev) : Dev :=
  if onlyC0 d.mode then d else
  forEach [(1 : CoreId), 2, 3] d (fun d c =>
    if (d.reg R.SYS_CRUN).getLsbD c.val && (d.co c).mode = .reset then
      let pc := d.reg (R.SYS_CPC c.val) &&& 0xFFFFFFFE
      let d := d.releaseCore c pc
      if 0x08000000 ≤ pc.toNat && pc.toNat < 0x08008000 then d else d.trap c .fetch pc pc false
    else d)

/-- C0 starts again in the boot ROM without a reset of CORE (R406): nothing sets SEC again (R271). -/
def Dev.restartC0 (d : Dev) : Dev :=
  let sec := (d.co 0).sr.getLsbD 30
  let d := (d.holdCore 0).releaseCore 0 0
  d.modCo 0 (fun k => { k with sr := setBit k.sr 30 sec })

/-! CORE (R32, R197, R407). -/

/-- The windows whose registers lie in CORE. -/
def coreBlocks : List Block := [.sys, .clk, .sec, .evc, .road, .seq, .stair, .gal, .way, .test, .dbg, .line]

/-- Fields that show fuses or what lies in AON: they keep their values when the CORE windows go. -/
def aonShown : List Fld :=
  [R.SEC_KEYS_PROG, R.SEC_KEYS_REVOKED, R.SEC_LCS_LCS, R.SEC_LCS_FWFLOOR, R.SEC_LCS_TFUSE, R.DBG_STAT_LVL, R.DBG_STAT_HOW,
   R.CLK_STAT_XAOK, R.CLK_STAT_XBOK, R.CLK_STAT_XFAIL]

/-- CORE loses its power or its contents: every register, the sequencer, the cores, the road, the security engine. In SLEEP the
TCMs and the gallery are retained (R32); otherwise only the secure region's cells and NVS keep their contents. -/
def Dev.coreOff (d : Dev) (retain : Bool) : Dev :=
  let keep := aonShown.map (fun f => (f, d.fld f))
  let d := forEach coreBlocks d Dev.resetWindow
  let d := forEach keep d (fun d p => d.setFld p.1 p.2)
  let d := { d with
    arr := { pe := d.arr.pe, scr := d.arr.scr, scrGen := d.arr.scrGen, scrGen1 := d.arr.scrGen1, scrRaw := d.arr.scrRaw,
             latch := d.arr.latch, xy := d.arr.xy, xyGen := d.arr.xyGen },
    evc := {}, core := Vector.replicate 4 {}, road := {}, lead := {}, gov := {}, line := {}, test := none,
    way := Vector.replicate 16 {}, sec := {}, news := Vector.replicate 4 {}, express := Vector.replicate 4 {},
    resp := ⟨0, []⟩,
    gal := { wipe := if d.gal.wipe = WipePhase.readback then WipePhase.deferred else d.gal.wipe,
             verr := d.gal.verr, wcause := d.gal.wcause } }
  let d := d.modPow (fun p => { p with boot := none, testReq := none, galReady := false, haltReq := 0, forced := 0 })
  let d := d.setOn 0 false
  if retain then d else
  let d := (d.dropMem 0x0C000000 0x10000000).dropMem 0x40000000 0x41700000
  { d with galErr := bankClear d.galErr 0 (0x1700000 / 8) }

/-- The debug level that the life-cycle state gives (R432). -/
def defaultLevel (lcs : Nat) : Nat := match lcs with | 0 => 2 | 1 => 2 | 3 => 1 | _ => 0

/-- Registers of the CORE windows that start at a strap, a fuse or what AON holds. -/
def Dev.presetCore (d : Dev) : Dev :=
  let split := d.fld R.PWR_STRAP_PART
  let d := d.preset R.SEQ_CTRL (setBits (regReset R.SEQ_CTRL) 1 0 (if split = 3 then 0 else split))
  let d := forEach d.pow.rprFuse d (fun d p => d.setReg (R.GAL_RPR p.1) p.2)
  let d := d.setStaged R.DBG_LVLSET (BitVec.ofNat 32 (d.fld R.DBG_STAT_LVL))
  let d := d.setReg R.DBG_LVLSET (BitVec.ofNat 32 (d.fld R.DBG_STAT_LVL))
  let d := d.presetRoad
  let d := forEach ((List.range 33).filter hasBridge) d (fun d n =>
    match nodeDom n with
    | some k => if d.domOn k then d else d.setBr n 3
    | none => d)
  let d := { d with gal := { d.gal with
    wipe := if d.gal.wipe = WipePhase.deferred then WipePhase.readback else d.gal.wipe } }
  d.syncSec

/-! Clocks (R390 to R392). -/

/-- The limits of R391 hold for a PLL with EN = 1. -/
def pllOk (ref n reg frac : Nat) : Bool :=
  let r := bits reg 11 9 + 1
  let vco := ref * (bits reg 8 0 * 65536 + frac)
  let out := pllOut ref reg frac
  16 ≤ bits reg 8 0 && 10000000 * r ≤ ref && ref ≤ 50000000 * r && 2000000000 * 65536 * r ≤ vco && vco ≤ 5000000000 * 65536 * r &&
    out.1 ≤ pllLimit n * out.2

/-- Values within the limits of R391 for any reference that has passed its check: a VCO of at most 4 GHz, divided by 4. -/
def pllInside (ref : Nat) : Nat :=
  let r := (ref - 1) / 50000000
  2 ^ 13 + r * 2 ^ 9 + 4000000000 * (r + 1) / ref

/-- The boot ROM enables PLL_SYS and PLL_ROAD with divider values of its own (R410 step 5). They are free within the limits of
R391: free words outside them stand for values inside. -/
def Dev.enablePlls (d : Dev) : Dev :=
  forEach [0, 1] d (fun d n =>
    let (a, d) := d.fresh
    let (b, d) := d.fresh
    let v : Word := setBits ((Config.freeWord a).setWidth 32 &&& 0x80003FFF) 31 31 1
    let f : Word := (Config.freeWord b).setWidth 32 &&& 0xFFFF
    if pllOk d.refHz n v.toNat f.toNat then (d.preset (R.CLK_PLL n) v).preset (R.CLK_PLLF n) f
    else (d.preset (R.CLK_PLL n) (BitVec.ofNat 32 (2 ^ 31 + pllInside d.refHz))).preset (R.CLK_PLLF n) 0)

/-- CORE starts (R410 step 4, R403): its reset values, and C0 in the boot ROM with the secure attribute. -/
def Dev.coreOn (d : Dev) : Dev :=
  if d.domOn 0 then d else ((d.setOn 0 true).presetCore).releaseCore 0 0

/-! Modes. -/

/-- A transition ends in a mode (R401). -/
def Dev.setMode (d : Dev) (m : Nat) : Dev :=
  let old := d.mode
  (((d.setFlag R.PWR_MSTAT_BUSY false).setFld R.PWR_MSTAT_FROM old).setFld R.PWR_MSTAT_MODE m).raise 0xE4

/-- The PWR window after a reset of AON's logic; the supply codes come from fuses (R384). -/
def Dev.presetPwr (d : Dev) : Dev :=
  forEach (List.finRange 17) d (fun d h =>
    let f := d.pow.rfl[h].toNat
    d.preset (R.PWR_HV h.val) (BitVec.ofNat 32 ((f + 8) * 2 ^ 24 + f * 2 ^ 16 + (f + 8) * 2 ^ 8)))

/-- Everything goes but AON's kept values, fuses and NVS (R407). -/
def Dev.wipeAll (d : Dev) : Dev :=
  let kept := [R.PWR_RSTC, R.PWR_TAMP, R.PWR_TAMPEN, lockAddr .pwr].map (fun a => (a, d.reg a))
  let tstop := d.flag R.PWR_THERM_TSTOP
  let fuses := [R.SEC_KEYS_PROG, R.SEC_KEYS_REVOKED, R.SEC_LCS_LCS, R.SEC_LCS_FWFLOOR, R.SEC_LCS_TFUSE].map (fun f => (f, d.fld f))
  let e : Dev :=
    { mem := bankPart d.mem 0x20000000 0x20800000 ++ bankPart d.mem 0x41700000 0x41800000,
      galErr := bankPart d.galErr (0x1700000 / 8) (0x1800000 / 8),
      free := d.free, tap := { d.tap with instr := .idcode },
      gal := { wipe := if d.gal.wipe = WipePhase.readback then WipePhase.deferred else d.gal.wipe, verr := d.gal.verr },
      pow := { rprFuse := d.pow.rprFuse, rfl := d.pow.rfl, resetLow := d.pow.resetLow, vinOut := d.pow.vinOut, aonTime := d.pow.aonTime } }
  let e := forEach kept e (fun e p => e.setReg p.1 p.2)
  let e := e.setFlag R.PWR_THERM_TSTOP tstop
  let e := forEach fuses e (fun e p => e.setFld p.1 p.2)
  let l := defaultLevel e.lcs
  ((e.setFld R.DBG_STAT_LVL l).setReg R.DBG_LVLSET (BitVec.ofNat 32 l)).presetPwr

/-- A full reset (R407): its cause is recorded, and the part is in RAMP. -/
def Dev.fullReset (d : Dev) (cause : Fld) : Dev := (d.wipeAll).setFlag cause true

/-- The part enters OFF with AON still powered (R377, R379, R469): the rails collapse, and every domain loses its state, AON but for what
R407 keeps there (R32). -/
def Dev.collapse (d : Dev) (cause : OffCause) : Dev :=
  let e := (d.wipeAll).modPow (fun p => { p with off := some cause })
  (e.setFld R.PWR_MSTAT_FROM d.mode).setFld R.PWR_MSTAT_MODE 0

/-- OFF through a VIN fault (R377). Whether AON stays powered is open (R407 names both cases): free. When it does not, what AON
held is lost, and POR shows it. -/
def Dev.vinOff (d : Dev) : Dev :=
  let (n, d) := d.fresh
  let d := d.collapse .vin
  if Config.freeBool n then d.setFlag R.PWR_RSTC_VINF true else
  let e : Dev :=
    { mem := bankPart d.mem 0x20000000 0x20800000, free := d.free, tap := { d.tap with instr := .idcode },
      pow := { rprFuse := d.pow.rprFuse, rfl := d.pow.rfl, off := some .vin, vinOut := true } }
  let e := forEach [R.SEC_KEYS_PROG, R.SEC_KEYS_REVOKED, R.SEC_LCS_LCS, R.SEC_LCS_FWFLOOR, R.SEC_LCS_TFUSE] e
    (fun e f => e.setFld f (d.fld f))
  let l := defaultLevel e.lcs
  ((((e.setFld R.DBG_STAT_LVL l).setReg R.DBG_LVLSET (BitVec.ofNat 32 l)).presetPwr).setFld R.PWR_MSTAT_MODE 0)

/-- OFF through a VMID fault or a temperature stop (R379, R469). -/
def Dev.vmidOff (d : Dev) (cause : OffCause) : Dev := (d.collapse cause).setFlag R.PWR_RSTC_VMIDF true

/-! LOCKOUT (R406). -/

/-- The debug level goes to a value that no token gave. -/
def Dev.setLevel (d : Dev) (l how : Nat) : Dev :=
  (((d.setFld R.DBG_STAT_LVL l).setFld R.DBG_STAT_HOW how).setReg R.DBG_LVLSET (BitVec.ofNat 32 l)).setStaged R.DBG_LVLSET
    (BitVec.ofNat 32 l)

/-- LOCKOUT entry. A transition in progress is abandoned (R409). From OFF and RAMP there is none. -/
def Dev.lockout (d : Dev) (cause : BitVec 4) : Dev :=
  if d.mode = 0 || d.mode = 1 || d.mode = 0xB then d else
  let d := d.modPow (fun p => { p with
    haltReq := 0, testReq := none, wakeDue := false, fromStandby := false, boot := none, forced := 0 }) |>.dropVerify .boot
  let d := forEach ([1, 3, 4] ++ (List.range 17).map (8 + ·)) d Dev.cutDomain
  let d := (forEach coreNodes d (fun d n => if d.brState n = 2 || d.brState n = 3 then d.setBr n 0 else d)).coreOn
  let d := if cause = 1 then d else d.startWipe 2
  let d := forEach [(1 : CoreId), 2, 3] d Dev.holdCore
  let d := (d.setReg R.SYS_CRUN (regReset R.SYS_CRUN)).restartC0
  let d := (d.setFlag R.PWR_RSTC_LKV true).setFld R.PWR_RSTC_LKC cause.toNat
  let d := (d.setLevel 0 0).setFld R.DBG_STAT_HALTED 0
  (d.setMode 0xB).applyMode 0xB

/-- A fatal fault that the command has brought about takes the part to LOCKOUT. -/
def Dev.settleFatal (d : Dev) : Dev :=
  match d.fatal with
  | some c => { d with fatal := none }.lockout c
  | none => d

end Sys2Proof.Machine
end

