-- ==== Sys2Proof/Machine/Modes.lean ====
section
/-! DEFINITION. Start-up, boot, modes, sleep, the watchdog (R400 to R410, R419 to R421, R425 to R427, R430). -/

namespace Sys2Proof.Machine

/-! Boot (R410 steps 4 to 8, R420). -/

/-- BOOT has failed (R410): QUARANTINE, in which the boot ROM waits for an offer. -/
def Dev.quarantine (d : Dev) : Dev := ((d.modPow (fun p => { p with boot := some .wait })).setMode 3).applyMode 3

def lifeRecord : Nat := 0x207E0000
def revokeRecord : Nat := 0x207E2000

/-- Whether a record names this part. -/
def Dev.namesPart (d : Dev) (a : Nat) : Bool := (List.range 8).all (fun k => d.word32 (a + 8 + 4 * k) = d.reg (R.SEC_DEVID k))

/-- The transitions of R424. -/
def Dev.lifeListed (d : Dev) (target : Nat) : Bool :=
  let prog := d.fld R.SEC_KEYS_PROG
  match d.lcs, target with
  | 0, 1 => true
  | 1, 2 => prog.testBit 5 && (prog.testBit 2 || prog.testBit 3)
  | 2, 3 => true
  | 0, 4 => true
  | 1, 4 => true
  | 2, 4 => true
  | 3, 4 => true
  | _, _ => false

/-- A life-cycle record is rejected (R426 step 1). -/
def Dev.rejectLife (d : Dev) : Dev := (d.setWord32 lifeRecord 0xFFFFFFFF).setFlag R.SEC_LCS_TREJ true

/-- Step 7: the images, in the order that the boot source gives. -/
def Dev.bootImages (d : Dev) : Dev :=
  if d.fld R.PWR_STRAP_BOOT = 1 then d.modPow (fun p => { p with boot := some .wait })
  else (d.verifyRequest .boot).modPow (fun p => { p with boot := some (.image 0) })

/-- A revocation record, then the images. -/
def Dev.bootRevocation (d : Dev) : Dev :=
  if d.word32 revokeRecord = 0x5256 then
    if d.namesPart revokeRecord then (d.verifyRequest .boot).modPow (fun p => { p with boot := some .revocation })
    else (d.setFlag R.SEC_LCS_TREJ true).bootImages
  else d.bootImages

/-- The life-cycle record, if one is present. A record that names the present state is one whose burn was interrupted (R427). -/
def Dev.bootRecords (d : Dev) : Dev :=
  if d.word32 lifeRecord = 0x4C43 then
    let target := (d.byte (lifeRecord + 4)).toNat
    if d.namesPart lifeRecord && (target = d.lcs || d.lifeListed target) then
      (d.verifyRequest .boot).modPow (fun p => { p with boot := some .record })
    else d.rejectLife.bootRevocation
  else d.bootRevocation

/-- The tamper checks of R430; each entry to LOCKOUT wipes the secure region (R192). Whether a source still detects is the environment's: free. -/
def Dev.bootTamper (d : Dev) : Dev :=
  if d.lcs = 2 && d.flag R.SEC_LCS_TFUSE then (d.startWipe 2).lockout 1
  else if d.flag R.PWR_TAMP_LATCH then
    let (n, d) := d.fresh
    if d.fld R.PWR_TAMP_SRC ≠ 0 && Config.freeBool n then (d.startWipe 2).lockout 1
    else ((d.setFlag R.PWR_TAMP_LATCH false).setFld R.PWR_TAMP_SRC 0).bootRecords
  else d.bootRecords

/-- Step 6 (R420). Whether the two reads of the life-cycle fuses differ is free. -/
def Dev.bootStep6 (d : Dev) : Dev :=
  let (n, d) := d.fresh
  if Config.freeBool n then (d.setFlag R.SEC_LCS_FERR true).quarantine
  else if d.lcs = 4 then d.quarantine
  else (forEach (List.range 8) d (fun d k => d.setReg (R.SEC_DEVID k) (Config.devid k))).bootTamper

/-- The boot ROM has not reached step 6. -/
def Dev.beforeStep6 (d : Dev) : Bool :=
  d.mode = 2 && d.pow.boot.isNone && (d.co 0).mode = .run && (d.co 0).sec

/-- Step 6 begins when both PLLs are selected and NVS is on. -/
def Dev.tryStep6 (d : Dev) : Dev :=
  if d.beforeStep6 && d.flag R.CLK_SEL_SYSSRC && d.flag R.CLK_SEL_ROADSRC && d.domOn 5 then d.bootStep6 else d

/-- The end of RAMP, or of a wake from STANDBY (R400, R402, R403, R410 step 4). -/
def Dev.tryBoot (d : Dev) : Dev :=
  let p := d.pow
  if !(d.mode = 1 || p.fromStandby) || !p.aonGood || !p.vmidGood || !p.xtaDone then d else
  let d := match p.straps with
    | some st => if p.fromStandby then d else d.setReg R.PWR_STRAP (BitVec.ofNat 32
        (st.part.toNat * 2 ^ 12 + bn st.xsel * 2 ^ 11 + st.safe.toNat * 2 ^ 9 + bn st.hostw * 2 ^ 8 + st.chipid.toNat * 2 ^ 5 +
          st.oscdly.toNat * 4 + st.boot.toNat))
    | none => d
  let d := (d.modPow (fun p => { p with fromStandby := false })).coreOn
  let d := (d.setMode 2).applyMode 2
  if d.flag R.CLK_STAT_XFAIL then d.quarantine else d.enablePlls

/-- AON_POWER_GOOD (R378, R388, R400, R410 step 2). -/
def Dev.aonPowerGood (d : Dev) (st : Straps) : Dev :=
  if d.mode = 1 && !d.pow.aonGood && !d.pow.resetLow then
    (d.modPow (fun p => { p with aonGood := true, straps := some st, xtaDone := st.xsel })).tryBoot
  else d

/-- VMID_GOOD (R378, R410 step 3). -/
def Dev.vmidUp (d : Dev) : Dev :=
  if (d.mode = 1 || d.pow.fromStandby) && d.pow.aonGood && !d.pow.vmidGood then
    (d.modPow (fun p => { p with vmidGood := true })).tryBoot
  else d

/-- XTA_CHECK (R389, R400, R410 step 3): the straps latched with it but for the two that were read at power-good. -/
def Dev.xtaCheck (d : Dev) (khz : Nat) (st : Straps) : Dev :=
  if (d.mode = 1 || d.pow.fromStandby) && d.pow.aonGood && !d.pow.xtaDone then
    let d := if decide (19400 ≤ khz ∧ khz ≤ 51500) then d.setFlag R.CLK_STAT_XAOK true else d.setFlag R.CLK_STAT_XFAIL true
    let d := d.modPow (fun p => { p with
      xtaDone := true, xtaKhz := khz,
      straps := match p.straps with
        | some old => if p.fromStandby then some old else some { st with oscdly := old.oscdly, xsel := old.xsel }
        | none => some st })
    d.tryBoot
  else d

/-- XTB_CHECK (R389). -/
def Dev.xtbCheck (d : Dev) (hz : Nat) : Dev :=
  if d.pow.aonGood && !d.flag R.CLK_STAT_XBOK && decide (31129600 ≤ 1000 * hz ∧ 1000 * hz ≤ 34406400)
  then d.setFlag R.CLK_STAT_XBOK true else d

/-- CRYSTAL_STOP (R389). -/
def Dev.crystalStop (d : Dev) (xtb : Bool) : Dev :=
  let ok := if xtb then R.CLK_STAT_XBOK else R.CLK_STAT_XAOK
  if !d.flag ok then d else
  let d := (d.setFlag ok false).raise 0xE2
  if d.xtbRef != xtb then d else
  let d := d.setFlag R.CLK_STAT_XFAIL true
  if d.beforeStep6 && !d.flag R.CLK_SEL_SYSSRC then d.quarantine else d

/-- The reference of R390 has passed its check and runs. -/
def Dev.refOk (d : Dev) : Bool := if d.xtbRef then d.flag R.CLK_STAT_XBOK else d.flag R.CLK_STAT_XAOK

/-- PLL_LOCK (R391): an enabled PLL locks. The boot ROM selects PLL_SYS and PLL_ROAD when both are locked (R410 step 5), and
hall domains that wait for PLL_ARY start (R381). -/
def Dev.pllLock (d : Dev) (n : Fin 4) : Dev :=
  if !d.domOn 0 || !d.flag (R.CLK_PLL_EN n.val) || (d.fld R.CLK_STAT_LOCK).testBit n.val || !d.refOk then d else
  let lock := d.fld R.CLK_STAT_LOCK + 2 ^ n.val
  let d := d.setFld R.CLK_STAT_LOCK lock
  let d := if n = 2 then d.startFirstGroup else d
  if (d.beforeStep6 || d.mode = 5) && lock % 4 = 3 then ((d.preset R.CLK_SEL 3)).tryStep6 else d

/-- PLL_LOCK_LOST (R391). -/
def Dev.pllLost (d : Dev) (n : Fin 4) : Dev :=
  let lock := d.fld R.CLK_STAT_LOCK
  if !d.domOn 0 || !lock.testBit n.val then d else
  let d := d.setFld R.CLK_STAT_LOCK (lock - 2 ^ n.val)
  (d.setFld R.CLK_STAT_LOST (d.fld R.CLK_STAT_LOST ||| 2 ^ n.val)).raise 0xE2

/-! Firmware and records (R419, R420, R426). -/

/-- The bytes at an offset of an image: in NVS, or in the ordinary gallery. -/
def Dev.imageBytes (d : Dev) (a n : Nat) : List Byte :=
  if galBase ≤ a then
    ((wordsOf (a - galBase) n).flatMap (fun i => leBytes 8 (d.galWord i).1.toNat)).drop ((a - galBase) % 8) |>.take n
  else d.bytes a n

/-- Step 8: the body lies in the I-TCM of C0; the epoch is burned when RAISE asks; C0 gives up SEC and runs at ENTRY. -/
def Dev.handover (d : Dev) (a : Nat) : Dev :=
  let hd := d.imageBytes a 64
  let h := parseHeader hd
  let ver : Word := BitVec.ofNat 32 h.version
  let body := d.imageBytes (a + 64) h.bodyLen
  let d := d.setBytes (0x0C000000 + h.target) body
  let epoch := bits ver.toNat 31 26
  let d := if h.flags.testBit 0 && d.fld R.SEC_LCS_FWFLOOR < epoch then d.setFld R.SEC_LCS_FWFLOOR epoch else d
  let d := { d with sec := { d.sec with
    fwVersion := ver, fwDigest := (List.range 32).map (Config.shake256 (hd ++ body)) } }
  let d := d.modPow (fun p => { p with boot := none })
  d.modCo 0 (fun k => { k with sr := setBit k.sr 30 false, pc := 0x08000000 + BitVec.ofNat 32 h.entry })

/-- A mask that a commit of KREV takes: no slot 6 or 7, and slot 0 or 1 stays valid (R416). -/
def Dev.krevOk (d : Dev) (m : Nat) : Bool :=
  m < 64 && ((!m.testBit 0 && d.slotValid 0) || (!m.testBit 1 && d.slotValid 1))

/-- Starts burning revoked fuses (R416). -/
def Dev.startBurn (d : Dev) (m : Nat) : Dev :=
  { d with sec := { d.sec with burn := some (BitVec.ofNat 8 m) } }

/-- FUSE_BURN_DONE (R416): the fuses have been read back. The boot ROM goes on after a revocation record. -/
def Dev.burnDone (d : Dev) : Dev :=
  match d.sec.burn with
  | none => d
  | some m =>
    let d := { d with sec := { d.sec with burn := none } }
    let d := d.setFld R.SEC_KEYS_REVOKED (d.fld R.SEC_KEYS_REVOKED ||| m.toNat)
    let d := d.setFlag ⟨cstatAddr .sec, 1, 1⟩ false
    if d.pow.boot = some .revocation then d.bootImages else d

/-- The image address of a boot item. -/
def Dev.bootAddr (d : Dev) (b : BootItem) : Option Nat :=
  match b with
  | .image n => some (0x20000000 + n.val * 0x80000)
  | .host => some (galBase + d.fld R.PWR_BOOTADR_OFF * 8)
  | _ => none

/-- The checks of R419 on a firmware image that the header decides: kind and layout, with TARGET + BODYLEN inside the I-TCM (R417), a valid
slot, a signature block (R418), the rollback epoch. -/
def Dev.imageOk (d : Dev) (a : Nat) : Bool :=
  let h := parseHeader (d.imageBytes a 64)
  h.plainOk 1 && decide (h.target + h.bodyLen ≤ 0x8000) &&
    d.keyOk 1 h.slot && (parseSig (d.imageBytes (a + 64 + h.bodyLen) 3136)).ok && decide (d.fld R.SEC_LCS_FWFLOOR ≤ h.version / 2 ^ 26)

/-- What follows an image that fails (R404, R410 step 7). -/
def Dev.bootFailed (d : Dev) (b : BootItem) : Dev :=
  match b with
  | .image n =>
    if n = 0 then (d.verifyRequest .boot).modPow (fun p => { p with boot := some (.image 1) })
    else if d.fld R.PWR_STRAP_BOOT = 2 then d.modPow (fun p => { p with boot := some .wait })
    else d.quarantine
  | _ => d.modPow (fun p => { p with boot := some .wait })

/-- Valid slots that may sign a life-cycle record (R424). A record that names the present state is past its checks (R427). -/
def Dev.lifeSignable (d : Dev) (target : Nat) : Bool :=
  let v := d.slotValid
  target = d.lcs ||
    (match d.lcs, target with
     | 0, _ => v 7
     | 1, 2 => v 0 || v 1
     | 2, 3 => v 4 && v 5 && d.byte (lifeRecord + 5) = 2
     | _, _ => v 4 || v 5)

/-- Valid slots that may sign a revocation record: of the owner of every slot that it names (R414, R425). -/
def Dev.revokeSignable (d : Dev) (m : Nat) : Bool :=
  (m &&& 0x13 = m && (d.slotValid 0 || d.slotValid 1 || d.slotValid 7)) || (m &&& 0x2C = m && (d.slotValid 2 || d.slotValid 3))

/-- The signature blocks of a record (R418, R425): one or two, as its byte 5 says. -/
def Dev.recordSigned (d : Dev) (a : Nat) : Bool :=
  let n := (d.byte (a + 5)).toNat
  1 ≤ n && n ≤ 2 && (List.range n).all (fun i => (parseSig (d.bytes (a + 64 + 3136 * i) 3136)).ok)

/-- The signatures of a life-cycle record hold: the wipe that precedes the burn starts (R426 step 2). -/
def Dev.lifeVerified (d : Dev) (v : Verdict) : Dev :=
  if v = .pass && d.recordSigned lifeRecord && d.lifeSignable (d.byte (lifeRecord + 4)).toNat then d.startWipe 3 else d.rejectLife.bootRevocation

/-- Steps 3 to 5 of R426, when the read-back of the wipe has ended. Whether the fuses read back right is free. -/
def Dev.lifeWiped (d : Dev) (nonzero : Bool) : Dev :=
  if d.pow.boot ≠ some .record then d else
  if nonzero then d.quarantine else
  let (n, d) := d.fresh
  if Config.freeBool n then (d.setFlag R.SEC_LCS_FERR true).quarantine else
  let d := d.setFld R.SEC_LCS_LCS (d.byte (lifeRecord + 4)).toNat
  (d.setWord32 lifeRecord 0).fullReset R.PWR_RSTC_SW

/-- The signature of a revocation record holds: the boot ROM commits KREV (R416). -/
def Dev.revokeVerified (d : Dev) (v : Verdict) : Dev :=
  let m := (d.byte (revokeRecord + 4)).toNat
  if v = .pass && d.recordSigned revokeRecord && d.revokeSignable m && d.krevOk m then
    ((d.preset R.SEC_CTL (BitVec.ofNat 32 m)).setFlag ⟨cstatAddr .sec, 1, 1⟩ true).startBurn m
  else (d.setFlag R.SEC_LCS_TREJ true).bootImages

/-- FIRMWARE_VERIFY_DONE (R419, R420): the verdict is that of steps 3 and 4 of R419, or of a record's signatures. -/
def Dev.firmwareVerified (d : Dev) (v : Verdict) : Dev :=
  match d.pow.boot with
  | none => d
  | some .wait => d
  | some .record => if d.verifyFirst .boot && d.gal.wipe = WipePhase.idle then d.verifyEnd.lifeVerified v else d
  | some .revocation => if d.verifyFirst .boot && d.sec.burn.isNone then d.verifyEnd.revokeVerified v else d
  | some b =>
    if !d.verifyFirst .boot then d else
    let d := d.verifyEnd
    match d.bootAddr b with
    | none => d
    | some a =>
      if v = .pass && d.imageOk a then (if d.mode = 3 then (d.setMode 2).applyMode 2 else d).handover a
      else d.bootFailed b

/-- BOOT_OFFER with GO (R404). -/
def Dev.bootOffer (d : Dev) : Dev :=
  if (d.mode = 2 || d.mode = 3) && d.pow.boot = some .wait
  then (d.verifyRequest .boot).modPow (fun p => { p with boot := some .host }) else d

/-! Mode requests (R401, R402). -/

/-- A listed transition that a request starts. -/
def modeListed (m t : Nat) : Bool :=
  [(2, 6), (6, 7), (7, 8), (8, 7), (7, 6), (9, 6), (6, 9), (7, 9), (6, 5), (6, 4)].contains (m, t)

/-- The preconditions of R402; c is the requesting core. -/
def Dev.modeReady (d : Dev) (c : CoreId) (m t : Nat) : Bool :=
  match m, t with
  | 2, 6 => d.pow.boot.isNone && !(d.co 0).sec
  | 6, 7 => d.domOn 1 && d.flag R.BYW_CFGSTAT_DONE && d.flag R.DDR_STAT_READY
  | 7, 8 => d.flag R.LINE_CTRL_EN && d.flag R.GAL_LCFG_LEN && d.pow.galReady
  | 6, 5 => c = 0 && [(1 : CoreId), 2, 3].all (fun k => (d.co k).mode = .reset || (d.co k).mode = .wait)
  | 6, 4 => c = 0 && [(1 : CoreId), 2, 3].all (fun k => (d.co k).mode = .reset || (d.co k).mode = .wait)
  | _, _ => true

def Dev.modeRefuse (d : Dev) (c : Nat) : Dev := ((d.setFlag R.PWR_MSTAT_REF true).setFld R.PWR_MSTAT_RCAUSE c).raise 0xE4

/-- A write of GO to PWR_MREQ by core c in system mode. A request during a self-test waits for its end (R443). -/
def Dev.modeRequest (d : Dev) (c : CoreId) (t : Nat) : Dev :=
  let d := d.setFld R.PWR_MREQ_TGT t
  let m := d.mode
  if m = 0xA || m = 0xB then d.modeRefuse 4
  else if d.flag R.PWR_MSTAT_BUSY then d.modeRefuse 1
  else if !modeListed m t then d.modeRefuse 2
  else if !d.modeReady c m t then d.modeRefuse 3
  else if d.test.isSome then d.modPow (fun p => { p with testReq := some (BitVec.ofNat 4 t) })
  else
    let d := ((d.setFlag R.PWR_MSTAT_BUSY true).setFld R.PWR_MSTAT_TO t).applyMode t
    if t = 4 || t = 5 then d.fenceCore else d

/-- Entry to PRINT starts the line timer (R232). -/
def Dev.enterPrint (d : Dev) : Dev :=
  let d := { d.setFlag R.LINE_STAT_REV false with line := { d.line with top := 0, strobes := 0, last := 0, follow := false } }
  (((d.setReg R.LINE_POS 0).setReg R.LINE_TLAST 0).setFld R.LINE_STAT_SCNT 0).setFlag R.LINE_STAT_RUN
    (d.flag R.LINE_CTRL_EN)

/-- Exit from PRINT (R384, R402). -/
def Dev.leavePrint (d : Dev) : Dev :=
  let d := forEach (List.range 17) d (fun d h => d.setCur h (d.fld (R.PWR_HV_NOM h)))
  { (d.setFlag R.LINE_STAT_RUN false) with line := { d.line with follow := false } }.modPow (fun p => { p with galReady := false })

/-- The halt of the requested cores (R405, R434). -/
def Dev.haltCores (d : Dev) (m : BitVec 4) : Dev :=
  let d := forEach (List.finRange 4) d (fun d c =>
    if m.getLsbD c.val && (d.co c).mode ≠ .reset then d.modCo c (fun k => { k with halted := true }) else d)
  (d.setFld R.DBG_STAT_HALTED ((d.fld R.DBG_STAT_HALTED) ||| ((List.finRange 4).foldl (fun v c =>
    if (d.co c).halted then v ||| 2 ^ c.val else v) 0))).scanFallback

/-- HALT is entered (R405): the cores stop and the streams stop under R152 to R155. -/
def Dev.enterHalt (d : Dev) : Dev :=
  let d := d.modPow (fun p => { p with haltFrom := d.mode, haltReq := 0 })
  let d := d.haltCores 0xF
  let d := forEach (List.finRange 4) d (fun d s => d.stopRequest s)
  d.setMode 0xA

/-- A held halt request acts when the part may enter HALT (R409, R434). -/
def Dev.tryHalt (d : Dev) : Dev :=
  if d.pow.haltReq ≠ 0 && !d.flag R.PWR_MSTAT_BUSY && 6 ≤ d.mode && d.mode ≤ 9 then d.enterHalt else d

/-- A wake from SLEEP (R403): CORE restarts, and C0 resumes in its I-TCM without the secure attribute. A CORE whose power-down was
refused runs on. -/
def Dev.wakeSleep (d : Dev) : Dev :=
  let d := d.modPow (fun p => { p with wakeDue := false })
  let d := if d.domOn 0 then d else
    let d := d.coreOn
    let pc := d.reg R.PWR_RESUME &&& 0xFFFFFFFE
    (d.modCo 0 (fun k => { k with pc := pc, sr := setBit k.sr 30 false })).enablePlls
  ((d.setFlag R.PWR_MSTAT_BUSY true).setFld R.PWR_MSTAT_TO 6).applyMode 6

/-- A wake from STANDBY (R403): VMID and XTA start again. -/
def Dev.wakeStandby (d : Dev) : Dev :=
  let d := d.modPow (fun p => { p with wakeDue := false, fromStandby := true, vmidGood := false, xtaDone := d.xtbRef })
  (d.setFlag R.PWR_MSTAT_BUSY true).setFld R.PWR_MSTAT_TO 2

/-- A wake source acts: at once, or after the entry in progress. -/
def Dev.wake (d : Dev) (standby : Bool) : Dev :=
  let busy := d.flag R.PWR_MSTAT_BUSY
  if d.mode = 5 then if busy then d else d.wakeSleep
  else if d.mode = 4 then if busy || !standby then d else d.wakeStandby
  else if busy && (d.fld R.PWR_MSTAT_TO = 5 || (d.fld R.PWR_MSTAT_TO = 4 && standby))
  then d.modPow (fun p => { p with wakeDue := true }) else d

/-- A transition's own work is done: domains settled, no bridge of CORE in DRAIN, and DRAM trained or failed for IDLE from BOOT (R402). -/
def Dev.transitionReady (d : Dev) : Bool :=
  d.flag R.PWR_MSTAT_BUSY && d.pow.rising = 0 && d.pow.falling = 0 && !d.pow.fromStandby &&
    coreNodes.all (fun n => d.brState n ≠ 2) &&
    !(d.mode = 2 && d.fld R.PWR_MSTAT_TO = 6 && (d.ddr = .waitPg || d.ddr = .training))

/-- CORE goes off at the end of a transition, unless the road has refused (R331, R382, R402). -/
def Dev.downCore (d : Dev) (retain : Bool) : Dev :=
  if coreNodes.all (fun n => d.brState n = 3 || d.brState n = 5 || d.brState n = 6) then d.coreOff retain else d

/-- MODE_TRANSITION_DONE (R402, R403). -/
def Dev.transitionDone (d : Dev) : Dev :=
  if !d.transitionReady then d else
  let m := d.mode
  let t := d.fld R.PWR_MSTAT_TO
  let d := d.setMode t
  let d := if m = 8 then d.leavePrint else d
  let d := if t = 8 then d.enterPrint else d
  if t = 5 then
    let d := (d.setFlag R.HOST_LSTAT_L1 true).downCore true
    if d.pow.wakeDue then d.wakeSleep else d
  else if t = 4 then
    let d := (d.downCore false).setFlag R.CLK_STAT_XAOK false
    if d.pow.wakeDue then d.wakeStandby else d
  else d.releaseRun.tryHalt

/-! Watchdog (R408). -/

def Dev.watchdogRuns (d : Dev) : Bool := d.flag R.PWR_WDOG_EN && [2, 6, 7, 8, 9].contains d.mode

/-- WATCHDOG_EXPIRE. -/
def Dev.watchdogExpire (d : Dev) : Dev :=
  if !d.watchdogRuns then d
  else if d.pow.wdogOnce then d.fullReset R.PWR_RSTC_WDOG
  else (d.modPow (fun p => { p with wdogOnce := true })).raise 0xE3

/-- A write to PWR_WKICK. -/
def Dev.watchdogKick (d : Dev) (key : Nat) : Dev :=
  if key = 0x6517 then d.modPow (fun p => { p with wdogOnce := false }) else d

/-! Supplies and heat (R377, R379, R387, R394, R469). -/

/-- AON is powered, so its monitors run: RAMP's first step aside. -/
def Dev.aonOn (d : Dev) : Bool := d.mode ≠ 0 && (d.mode ≠ 1 || d.pow.aonGood)

/-- VIN_SAMPLE (R377): times in µs for which VIN has been below 4.0 V and above 21 V. -/
def Dev.vinSample (d : Dev) (mv : BitVec 16) (lowFor highFor : Nat) : Dev :=
  let v := mv.toNat
  let d := d.modPow (fun p => { p with vinOut := decide (v < 4200 ∨ 20000 < v) })
  if d.mode = 0 then d else
  let d := if !d.aonOn then d else
    let d := d.setFld R.PWR_VIN_MV v
    let d := if v < 4000 && 10 ≤ lowFor then (d.setFlag R.PWR_VSTAT_UVW true).raise 0xE1 else d
    if 21000 < v && 10 ≤ highFor then (d.setFlag R.PWR_VSTAT_OVW true).raise 0xE1 else d
  if v < 3800 || 22000 < v then d.vinOff else d

/-- VMID_UNDERVOLTAGE (R379): the four-phase converter runs in every mode but OFF and STANDBY, from power-good on. -/
def Dev.vmidUnder (d : Dev) : Dev :=
  if d.aonOn && (d.mode ≠ 4 || d.pow.fromStandby) then d.vmidOff .vmid else d

/-- RAMP_RESTART (R377, R379, R469). -/
def Dev.rampRestart (d : Dev) : Dev :=
  if d.mode ≠ 0 || d.pow.vinOut || d.pow.off = some .thermal then d else
  ((d.modPow (fun p => { p with off := none, aonGood := false, vmidGood := false, xtaDone := false })).setFld
    R.PWR_MSTAT_FROM 0).setFld R.PWR_MSTAT_MODE 1

/-- The signed reading of a sensor, in units of 0.125 °C. -/
def tempOf (x : BitVec 16) : Int := x.toInt

/-- THERMAL_SAMPLE (R469): the times in ms that a sensor has been at 110 °C or more, and at 120 °C or more. -/
def Dev.thermalSample (d : Dev) (rs : List (BitVec 16)) (msWarm msHot : Nat) : Dev :=
  let rs := rs.take 18
  if d.mode = 0 then
    if d.pow.off = some .thermal && rs.all (fun r => tempOf r < 800) then d.modPow (fun p => { p with off := some .vmid }) else d
  else if !d.aonOn then d else
  let d := d.setFld R.PWR_THERM_TMAX (wrapInt 16 (rs.foldl (fun m r => max m (tempOf r)) (sval 16 (d.fld R.PWR_THERM_TMAX))))
  let d := match findIdx rs.length (fun i => ((rs[i]?).map (fun r => decide (880 ≤ tempOf r))).getD false) with
    | some i => if 1 ≤ msWarm then ((d.setFlag R.PWR_THERM_WARN true).setFld R.PWR_THERM_SENS i).raise 0xE5 else d
    | none => d
  if rs.any (fun r => 960 ≤ tempOf r) && 1 ≤ msHot then (d.vmidOff .thermal).setFlag R.PWR_THERM_TSTOP true else d

/-- A hall's monitor trips: the recovery logic learns of it (R205, R387). -/
def Dev.hallTrip (d : Dev) (h : HallId) : Dev :=
  let k := 8 + h.val
  let d := (d.setFld R.PWR_MONF_TRIP (d.fld R.PWR_MONF_TRIP ||| 2 ^ k)).raise 0xE0
  { d with arr := { d.arr with reports := d.arr.reports ++ [.dead h] } }

/-- A domain's monitor is masked while the domain is off or changing (R387). -/
def Dev.monitored (d : Dev) (k : Nat) : Bool := d.domOn k && !d.pow.rising.getLsbD k && !d.pow.falling.getLsbD k

/-- SUPPLY_TRIP (R387, R410 step 11). -/
def Dev.supplyTrip (d : Dev) (k : Nat) (usec : Nat) : Dev :=
  let trip (d : Dev) : Dev := (d.setFld R.PWR_MONF_TRIP (d.fld R.PWR_MONF_TRIP ||| 2 ^ k)).raise 0xE0
  if k = 6 then
    if !d.aonOn || (d.mode = 4 && !d.pow.fromStandby) then d
    else if 50 ≤ usec then (trip d).vmidUnder else trip d
  else if k = 7 then d
  else if hk : isHallDom k = true then
    if d.pow.rising.getLsbD k && d.pow.started.getLsbD k then
      (trip (d.modPow (fun p => { p with
        rising := setBit p.rising k false, started := setBit p.started k false, goal := setBit p.goal k false })))
    else if d.monitored k then d.hallTrip ⟨(k - 8) % 17, by omega⟩ else d
  else if !d.monitored k then d
  else if k = 0 then { trip d with fatal := some 4 }
  else (trip d).declareDead (domNode k)

/-- HALL_CLOCK_FAIL (R394). -/
def Dev.hallClockFail (d : Dev) (h : HallId) : Dev := if d.monitored (8 + h.val) then d.hallTrip h else d

/-- HALL_TRIM (R393). -/
def Dev.hallTrim (d : Dev) (h : HallId) (slower : Bool) : Dev :=
  if !d.domOn (8 + h.val) then d else
  d.modPow (fun p => { p with trim := p.trim.set h (p.trim[h] + if slower then 1 else -1) })

/-- FMETER_DONE (R396). -/
def Dev.fmeterDone (d : Dev) (count : Nat) : Dev :=
  if !d.flag R.CLK_FMCTL_BUSY then d else
  let t := d.fld R.CLK_FMCTL_TSEL
  let c := if 0x18 < t || (t ≤ 0x10 && !d.domOn (8 + t)) then 0 else min count 0xFFFFFFFF
  ((d.setReg R.CLK_FMRES (BitVec.ofNat 32 c)).setFlag R.CLK_FMCTL_BUSY false).setFlag R.CLK_FMCTL_DONE true

/-! DRAM rails and training (R371, R465). -/

/-- Training, or the start of the rails, has failed (R371). -/
def Dev.ddrFail (d : Dev) : Dev :=
  ((({ d with ddr := .failed }.setFlag R.DDR_STAT_TFAIL true).setFlag R.DDR_STAT_READY false).setFld R.DDR_CFG_USIZE 0).raise 0xDC

/-- DDR_TRAINING_DONE (R371). -/
def Dev.ddrTrained (d : Dev) (pass : Bool) : Dev :=
  if d.ddr ≠ .training || !d.domOn 3 then d
  else if !pass then d.ddrFail
  else
    let gib := [2, 4, 8].getD (d.fld R.DDR_CFG_DENS) 2
    ({ d with ddr := .ready }.setFlag R.DDR_STAT_READY true).setFld R.DDR_CFG_USIZE (2 * gib * 4 * 7 / 8)

/-- DDR_VDD2L_PG_CHANGE (R465). -/
def Dev.ddrPg (d : Dev) (high : Bool) : Dev :=
  let d := d.modPow (fun p => { p with ddrPg := high })
  match d.ddr, high with
  | .waitPg, true => d.ddrPowerUp
  | .waitFall, false => { d with ddr := .off }
  | _, _ => d

/-- EN of DDR_CFG goes from 0 to 1, or from 1 to 0 (R371). -/
def Dev.ddrEnable (d : Dev) (en : Bool) : Dev :=
  let d := (d.setFlag R.DDR_STAT_READY false).setFld R.DDR_CFG_USIZE 0
  if en then d.ddrPowerUp else d.dropDram.ddrPowerDown

/-- DDR_VDD2L_PG_TIMEOUT (R465). -/
def Dev.ddrPgTimeout (d : Dev) : Dev :=
  match d.ddr with
  | .waitPg => d.ddrFail
  | .waitFall => { d with ddr := .off }
  | _ => d

end Sys2Proof.Machine
end

