-- ==== Sys2Proof/Machine/Security.lean ====
section
/-! DEFINITION. The security engine's steps, tamper, debug unlock and halt (R405, R411 to R413, R428 to R434). -/

namespace Sys2Proof.Machine

def Dev.modSec (d : Dev) (f : SecState → SecState) : Dev := { d with sec := f d.sec }

/-- A signature is waiting or in progress. -/
def Dev.signing (d : Dev) : Bool := !d.sec.sign.isEmpty

/-- SEC_STEP_END (R411 to R413): a step of the derivation, which comes first after each start of CORE, or of a signature. Between steps
every verify that waits is served. -/
def Dev.secStep (d : Dev) : Dev :=
  if !d.signing || d.sec.serve then d else
  let d := d.modSec (fun x => { x with serve := !x.verifs.isEmpty })
  if !d.flag R.SEC_STAT_KEYRDY then
    if 500 ≤ d.sec.derive + 1 then (d.modSec (fun x => { x with derive := 0 })).setFlag R.SEC_STAT_KEYRDY true
    else d.modSec (fun x => { x with derive := x.derive + 1 })
  else
    let n := d.fld R.SEC_STAT_SSTEP
    if 120 ≤ n then d
    else if n + 1 = 120 then (d.setFld R.SEC_STAT_SSTEP 120).raise 0xE8
    else d.setFld R.SEC_STAT_SSTEP (n + 1)

/-- An attestation request waits for its signature (R412). -/
def Dev.startSign (d : Dev) (q : Fin 16) : Dev :=
  if d.sec.sign.contains q then d else
  (d.modSec (fun x => { x with
    sign := x.sign ++ [q], serve := if x.sign.isEmpty then !x.verifs.isEmpty else x.serve })).setFlag R.SEC_STAT_BUSY true

/-- The report of the first request has been written: the next signature begins. -/
def Dev.endSign (d : Dev) : Dev :=
  ((d.modSec (fun x => { x with sign := x.sign.drop 1 })).setFld R.SEC_STAT_SSTEP 0).syncVerify

/-! Tamper (R428, R429). -/

/-- A source is active: 0 to 2 always in SEALED, any by its EN bit. -/
def Dev.tamperActive (d : Dev) (n : Nat) : Bool := (d.lcs = 2 && n < 3) || (d.fld R.PWR_TAMPEN_EN).testBit n

/-- TAMPER_DETECT: the wipe, the key storage, the debug level, the mesh fuse, LOCKOUT. -/
def Dev.tamper (d : Dev) (n : Fin 5) : Dev :=
  if !d.aonOn || !d.tamperActive n.val then d else
  let d := (d.setFlag R.PWR_TAMP_LATCH true).setFld R.PWR_TAMP_SRC (d.fld R.PWR_TAMP_SRC ||| 2 ^ n.val)
  let d := (d.addFld R.PWR_TAMP_COUNT 1).startWipe 1
  let d := ((d.modSec (fun x => { x with derive := 0 })).setFlag R.SEC_STAT_KEYRDY false).setFld R.SEC_STAT_SSTEP 0
  let d := d.setLevel 0 0
  let d := if n = 0 && d.lcs = 2 then d.setFlag R.SEC_LCS_TFUSE true else d
  d.lockout 1

/-! Debug unlock (R432, R433). -/

/-- Unlock is not available in QUARANTINE and LOCKOUT. -/
def Dev.unlockOff (d : Dev) : Bool := d.mode = 3 || d.mode = 0xB

/-- A write of NEWCH: the nonce's words come from the engine's random bits. -/
def Dev.newChallenge (d : Dev) (nonce : List Word) : Dev :=
  if d.sec.blocked || d.unlockOff then d else
  let d := forEach (List.range 8) d (fun d k => d.setReg (R.DBG_CHAL k) (nonce.getD k 0))
  d.modSec (fun x => { x with nonce := true })

/-- A write of GO to DBG_TOKCMD. A GO without a fresh nonce verifies nothing that can pass. -/
def Dev.tokenGo (d : Dev) : Dev :=
  if d.flag R.DBG_STAT_TOKBUSY || d.unlockOff then d else
  let lvl := if d.sec.nonce then d.fld R.DBG_TOKCMD_REQLVL else 0
  let d := d.modSec (fun x => { x with
    nonce := false, tokReq := some (BitVec.ofNat 2 lvl, BitVec.ofNat 3 (d.fld R.DBG_TOKCMD_SLOT)) })
  (d.setFlag R.DBG_STAT_TOKBUSY true).verifyRequest .token

/-- The levels that a token may name (R432). -/
def tokenAllowed (lcs slot lvl : Nat) : Bool :=
  1 ≤ lvl && ((lcs = 2 && slot = 5 && lvl ≤ 2) || (lcs = 2 && slot = 4 && lvl ≤ 1) || (lcs = 3 && slot = 4 && lvl ≤ 2))

/-- The signature block in DBG_TOKBUF (R418, R433). -/
def Dev.tokenBlock (d : Dev) : SigBlock :=
  parseSig ((List.range 784).flatMap (fun i => leBytes 4 (bankGet (fun _ => (0 : Word)) d.sec.tok i).toNat))

/-- DEBUG_TOKEN_DONE. -/
def Dev.tokenDone (d : Dev) (v : Verdict) : Dev :=
  match d.sec.tokReq with
  | none => d
  | some (lvl, slot) =>
    if !d.verifyFirst .token then d else
    let d := (d.modSec (fun x => { x with tokReq := none })).setFlag R.DBG_STAT_TOKBUSY false
    let d := d.verifyEnd
    if v = .pass && d.tokenBlock.ok && d.slotValid slot.toNat && tokenAllowed d.lcs slot.toNat lvl.toNat && !d.unlockOff then
      (d.setLevel lvl.toNat (if slot = 4 then 1 else 2)).raise 0xE9
    else (d.setFlag R.DBG_STAT_TOKERR true).modSec (fun x => { x with blocked := true })

/-- NEWCH_BLOCK_EXPIRE. -/
def Dev.unblock (d : Dev) : Dev := d.modSec (fun x => { x with blocked := false })

/-! Halt (R405, R434). -/

/-- Whether a halt request is refused outright. -/
def Dev.haltRefused (d : Dev) : Bool := d.mode = 3 || d.mode = 0xB

/-- A write of HREQ at level FULL: held in BOOT and during a transition, otherwise HALT is entered. -/
def Dev.haltRequest (d : Dev) (m : BitVec 4) : Dev :=
  let d := d.setFld R.DBG_HALT_HREQ m.toNat
  if d.haltRefused || d.mode = 0xA then d
  else (d.modPow (fun p => { p with haltReq := m })).tryHalt

/-- HALT ends: the cores go on, and the mode at entry is in force again (R402). -/
def Dev.resume (d : Dev) : Dev :=
  if d.mode ≠ 0xA then d else
  let d := forEach (List.finRange 4) d (fun d c => d.modCo c (fun k => { k with halted := false }))
  (d.setFld R.DBG_STAT_HALTED 0).setMode d.pow.haltFrom

/-- A commit has lowered the debug level (R432, R434). -/
def Dev.lowerLevel (d : Dev) (l : Nat) : Dev :=
  if d.fld R.DBG_STAT_LVL ≤ l then d else
  ((d.setFld R.DBG_STAT_LVL l).setFld R.DBG_STAT_HOW 3).modPow (fun p => { p with haltReq := 0 }) |>.resume

end Sys2Proof.Machine
end

