-- ==== Sys2Proof/Machine/CommitChecks.lean ====
section
/-! DEFINITION. The checks that each block makes on a captured set (R58, R67, R106, R148, R171, R182, R188, R224, R236, R328, R354,
R363, R371, R375, R386, R392, R416, R432, R440). A set is read through capFld; the first failing check gives the cause. -/

namespace Sys2Proof.Machine

/-- A captured set. -/
abbrev CapSet := List (Nat × Word)

/-- The cause of the first check that fails. -/
def firstCause (l : List (Nat × Bool)) : Option Nat := (l.find? (fun p => p.2)).map Prod.fst

/-- The first cause over elements checked one after another. -/
def firstOver {α : Type} (l : List α) (f : α → List (Nat × Bool)) : Option Nat := l.findSome? (fun x => firstCause (f x))

/-- Whether any of some registers differs from its active value. -/
def Dev.anyDiffers (d : Dev) (c : CapSet) (l : List Nat) : Bool := l.any (d.differs c)

/-! HALLn (R58). -/

/-- The entries of the staged map: valid, column. -/
def capMap (c : CapSet) (h : Nat) : List (Bool × Nat) :=
  [(capFlag c (R.HALL_STEERSET_V0 h), capFld c (R.HALL_STEERSET_RET0 h)),
   (capFlag c (R.HALL_STEERSET_V1 h), capFld c (R.HALL_STEERSET_RET1 h)),
   (capFlag c (R.HALL_STEERSET_V2 h), capFld c (R.HALL_STEERSET_RET2 h)),
   (capFlag c (R.HALL_STEERSET_V3 h), capFld c (R.HALL_STEERSET_RET3 h))]

/-- A valid entry follows an invalid one. -/
def mapGap : List (Bool × Nat) → Bool
  | (v, _) :: (w, x) :: r => (!v && w) || mapGap ((w, x) :: r)
  | _ => false

/-- Two neighbouring entries are valid and do not ascend. -/
def mapFalls : List (Bool × Nat) → Bool
  | (v, a) :: (w, b) :: r => (v && w && decide (b ≤ a)) || mapFalls ((w, b) :: r)
  | _ => false

/-- A column retirement of a hall has begun and not ended. -/
def Dev.retireRuns (d : Dev) (h : Nat) : Bool := d.arr.retire.any (fun r => r.hall.val = h && r.stage ≠ 3)

def Dev.hallChecks (d : Dev) (h : Nat) (c : CapSet) : Option Nat :=
  let m := capMap c h
  firstCause [(0x10, mapGap m), (0x11, m.any (fun e => e.1 && 75 < e.2)), (0x12, mapFalls (m.filter (·.1))),
    (0x13, d.mode = 8), (0x14, d.retireRuns h)]

/-! SEQ (R67, R106, R148, R171, R224). -/

/-- A port is trained with its edge channel enabled at both ends (R67, R373). -/
def Dev.edgeReady (d : Dev) (p : Nat) : Bool :=
  d.flag (R.LINK_PSTAT_UP p) && d.flag (R.LINK_PCFG_EDGE p) && d.flag (R.LINK_PSTAT_PEDGE p)

/-- The checks of R67 on the edges of the captured configuration. -/
def Dev.edgeChecks (d : Dev) (c : CapSet) : Option Nat :=
  let n := streamsOf (capFld c R.SEQ_CTRL_SPLIT)
  let e := (bankGet regReset c (R.SEQ_EDGE)).toNat
  let w (s : Nat) : Nat := bits e (4 * s + 1) (4 * s)
  let x (s : Nat) : Nat := bits e (4 * s + 3) (4 * s + 2)
  let ss := List.range n
  firstCause [
    (0x20, ss.any (fun s => w s = 3 || x s = 3) || 2 ≤ capFld c R.SEQ_EDGE_NS),
    (0x21, ss.any (fun s => (w s = 1) != (x s = 1))),
    (0x22, ss.any (fun s => (w s = 2 && s ≠ 0) || (x s = 2 && s + 1 ≠ n))),
    (0x23, (w 0 = 2 && !d.edgeReady 0) || (x (n - 1) = 2 && !d.edgeReady 2))]

/-- The checks of R106 on decode entry n. -/
def Dev.cdtChecks (d : Dev) (c : CapSet) (n : Nat) : List (Nat × Bool) :=
  [(0x30, capFlag c (R.SEQ_CDT_EN n) && !d.tag (0x1E00 + capFld c (R.SEQ_CDT_ENTRY n))),
   (0x31, (capFlag c (R.SEQ_CDT_WFD n) && !capFlag c (R.SEQ_CDT_DSD n)) ||
     (capFlag c (R.SEQ_CDT_WFB n) && !capFlag c (R.SEQ_CDT_DSB n)))]

/-- The checks of R148 on match register n. -/
def Dev.matchChecks (d : Dev) (c : CapSet) (n : Nat) : List (Nat × Bool) :=
  [(0x32, capFlag c (R.SEQ_MATCH_EN n) && 0x1BFF < capFld c (R.SEQ_MATCH_ROMA n)),
   (0x33, capFlag c (R.SEQ_MATCH_EN n) && !d.tag (0x1C00 + capFld c (R.SEQ_MATCH_TGT n)))]

/-- The registers of a stream's milestone settings (R224, cause 0x40). -/
def keepRegs (s : Nat) : List Nat := [R.SEQ_KEEPA s, R.SEQ_KEEPB s, R.SEQ_SPAN s, R.SEQ_CARRY s, R.SEQ_CARRYB s]

/-- A field from base to base + wm1 lies inside the segments of a mask and below the scratch segment. -/
def fieldInside (base wm1 mask : Nat) : Bool :=
  base + wm1 ≤ 0x1EFF && ((List.range 32).all (fun k => !(base / 256 ≤ k && k ≤ (base + wm1) / 256) || mask.testBit k))

/-- A carry field shares a segment with a mask. -/
def fieldMeets (base wm1 mask : Nat) : Bool :=
  (List.range 32).any (fun k => base / 256 ≤ k && k ≤ (base + wm1) / 256 && mask.testBit k)

/-- n bytes at a gallery offset lie in the ordinary gallery, one side of the landing. -/
def ordinary (a n : Nat) : Bool := a + n ≤ 0x1600000 || (0x1680000 ≤ a && a + n ≤ 0x1700000)

/-- The last byte of a hall's image, plus one, under a captured set (R224). -/
def capImageEnd (c : CapSet) (h : Nat) : Nat :=
  match ((List.range 32).filter (capFld c R.SEQ_IMGMASK_MASK).testBit).getLast? with
  | some k => capFld c (R.SEQ_HIMG_BASE h) * 2 ^ 22 + (k + 1) * 131072
  | none => 0

/-- The stream is held by a preemption. -/
def Dev.streamHeld (d : Dev) (s : Fin 4) : Bool := (d.st s).held.isSome || !(d.st s).rehold.isEmpty

/-- The checks of R224. -/
def Dev.keepChecks (d : Dev) (c : CapSet) : Option Nat :=
  let n := streamsOf (capFld c R.SEQ_CTRL_SPLIT)
  let ss := List.range n
  let foen := capFlag c R.SEQ_RCTL_FOEN
  let img := capFld c R.SEQ_IMGMASK_MASK
  let cen (s : Nat) : Bool := capFlag c (R.SEQ_CARRY_CEN s)
  let wm (s : Nat) : Nat := capFld c (R.SEQ_CARRY_CWM1 s)
  let ka (s : Nat) : Nat := capFld c (R.SEQ_KEEPA_MASK s)
  let kb (s : Nat) : Nat := capFld c (R.SEQ_KEEPB_MASK s)
  let cb0 (s : Nat) : Nat := capFld c (R.SEQ_CARRY_CB0 s)
  let cb1 (s : Nat) : Nat := capFld c (R.SEQ_CARRYB_CB1 s)
  let lcb := capFld c R.SEQ_RAREA_LCB * 65536
  let stg := capFld c R.SEQ_RAREA_STG * 65536
  firstCause [
    (0x40, (List.finRange 4).any (fun s => s.val < d.numStreams && d.anyDiffers c (keepRegs s.val) &&
      (d.streamHeld s || (d.st s).dirty))),
    (0x41, (List.range 4).any (fun s => (ka s).testBit 31 || (kb s).testBit 31 ||
      capFld c (R.SEQ_SPAN_LIM s) < 0x100 || 0x2000 < capFld c (R.SEQ_SPAN_LIM s)) || img.testBit 31),
    (0x42, (List.range 4).any (fun s => cen s && !(fieldInside (cb0 s) (wm s) (ka s) && fieldInside (cb1 s) (wm s) (kb s)))),
    (0x43, foen && ss.any (fun s => (img &&& ka s) ≠ img || (img &&& kb s) ≠ img ||
      fieldMeets (cb0 s) (wm s) img || fieldMeets (cb1 s) (wm s) img)),
    (0x44, foen && ss.any (fun s => !cen s)),
    (0x45, ((foen || ss.any cen) && !(ordinary lcb 0x100000 && ordinary stg 0x40000 &&
        (lcb + 0x100000 ≤ stg || stg + 0x40000 ≤ lcb))) ||
      (foen && (List.range 16).any (fun h => d.dramSize < capImageEnd c h))),
    (0x46, d.differs c R.SEQ_HSUB && (d.mode = 8 || d.flag R.SEQ_RSTAT_FOBUSY))]

/-- The checks after those of R171: R67, R106, R148, R224. -/
def Dev.seqChecks (d : Dev) (c : CapSet) : Option Nat :=
  (d.edgeChecks c).or ((firstOver (List.range 16) (d.cdtChecks c)).or
    ((firstOver (List.range 32) (d.matchChecks c)).or (d.keepChecks c)))

/-- Step 1 of R171. -/
def Dev.splitFirst (d : Dev) (c : CapSet) : Option Nat :=
  firstCause [(0x10, capFld c R.SEQ_CTRL_SPLIT = 3), (0x11, d.mode = 8),
    (0x12, (List.finRange 4).any (fun s => s.val < d.numStreams && d.streamHeld s))]

/-- Checks 0x13 to 0x15 of R171, made once the streams have drained. -/
def Dev.splitLast (d : Dev) (c : CapSet) : Option Nat :=
  let per := 16 / streamsOf (capFld c R.SEQ_CTRL_SPLIT)
  let ct (h : Nat) : Bool := match d.stream? (d.streamOf h) with | some s => (d.st s).ct | none => false
  firstCause [
    (0x13, (List.finRange 4).any (fun s => s.val < d.numStreams && (d.st s).dirty)),
    (0x14, (List.range 16).any (fun h => ct h != ct (h / per * per))),
    (0x15, d.arr.retire.any (fun r => r.stage ≠ 3) || d.arr.failover.isSome)]

/-! STAIR (R182). -/

/-- The ranges of gallery addresses of a channel's 16 hall blocks. -/
def capBlocks (c : CapSet) (n : Nat) : List (Nat × Nat) :=
  (List.range 16).map (fun i =>
    let lo := capFld c (R.STAIR_CHBASE_OFF n) * 64 + i * capFld c (R.STAIR_CHRING_HSTR n) * 512
    (lo, lo + capFld c (R.STAIR_CHRING_RLEN n) * 512))

/-- Two half-open ranges share an address. -/
def rangesMeet (a b : Nat × Nat) : Bool := a.1 < b.2 && b.1 < a.2

def chanRegs (n : Nat) : List Nat := [R.STAIR_CHCFG n, R.STAIR_CHBASE n, R.STAIR_CHRING n]

def Dev.stairChecks (d : Dev) (c : CapSet) (n : Nat) : List (Nat × Bool) :=
  let en := capFlag c (R.STAIR_CHCFG_EN n)
  let rlen := capFld c (R.STAIR_CHRING_RLEN n)
  let hstr := capFld c (R.STAIR_CHRING_HSTR n)
  let lo := capFld c (R.STAIR_CHBASE_OFF n) * 64
  [(0x10, en && (capFld c (R.STAIR_CHCFG_EW n) = 7 || rlen = 0)),
   (0x11, en && (hstr < rlen || !ordinary lo (15 * hstr * 512 + rlen * 512))),
   (0x12, en && (List.range 8).any (fun m => m ≠ n && capFlag c (R.STAIR_CHCFG_EN m) &&
     (capBlocks c n).any (fun a => (capBlocks c m).any (rangesMeet a)))),
   (0x13, d.anyDiffers c (chanRegs n) && (d.flag (R.STAIR_CHSTAT_OPEN n) ||
     d.fld (R.STAIR_CHWPOS_POS n) ≠ d.fld (R.STAIR_CHCPOS_POS n)))]

/-! GAL (R188). -/

def Dev.galChecks (d : Dev) (c : CapSet) : Option Nat :=
  let lpu := capFld c R.GAL_LCFG_LPU
  let lead := capFld c R.GAL_LCFG_LEAD
  let lhb := capFld c R.GAL_LHB_LHB
  let ssz := capFld c R.GAL_LSLOT_SSZ
  let chs := (List.range 8).filter (capFld c R.GAL_LCFG_OCH).testBit
  let strm (n : Nat) : Nat := d.fld (R.STAIR_CHCFG_STRM n)
  let span (n : Nat) : Nat := 15 * d.fld (R.STAIR_CHRING_HSTR n) * 512 + d.fld (R.STAIR_CHRING_RLEN n) * 512
  if capFlag c R.GAL_LCFG_LEN then
    firstCause [
      (0x10, lpu = 0 || lead = 0 || 32 < lead || lhb = 0 || lpu * 512 < lhb),
      (0x11, chs.isEmpty || chs.any (fun n => !d.flag (R.STAIR_CHCFG_EN n) || !d.flag (R.STAIR_CHCFG_DIR n) ||
        d.fld (R.STAIR_CHWPOS_POS n) ≠ 0 || d.fld (R.STAIR_CHCPOS_POS n) ≠ 0 || chs.any (fun m => m ≠ n && strm m = strm n))),
      (0x12, chs.any (fun n => d.fld (R.STAIR_CHRING_RLEN n) < (lead + 1) * lpu || 2 ^ 23 < span n)),
      (0x13, ssz * 64 < 16 * lhb || 524288 < (capFld c R.GAL_LCFG_NSM1 + 1) * ssz * 64),
      (0x14, d.mode = 8)]
  else firstCause [(0x14, d.mode = 8)]

/-! LINE (R236). -/

def Dev.lineChecks (d : Dev) (c : CapSet) : Option Nat :=
  let en := capFlag c R.LINE_CTRL_EN
  let src := capFld c R.LINE_CTRL_SRC
  firstCause [
    (0x10, d.mode = 8 && d.anyDiffers c [R.LINE_CTRL, R.LINE_ENC, R.LINE_PER, R.LINE_START]),
    (0x11, (en && src = 3) || (capFlag c R.LINE_CTRL_MASTER && src = 2)),
    (0x12, en && ((src = 0 && capFld c R.LINE_ENC_CPL < 0x100) || (src = 1 && capFld c R.LINE_PER_PER < 0x3D0900))),
    (0x13, capFlag c R.LINE_GOVCTL_EN && (capFld c R.LINE_GOVCTL_HOLD = 0 ||
      capFld c R.LINE_GOVCTL_TARGET ≤ capFld c R.LINE_GOVCTL_GUARD))]

/-! PWR (R386), SEC (R416), DBG (R432), DDR (R371). -/

def Dev.pwrChecks (d : Dev) (c : CapSet) : Option Nat :=
  let hs := List.range 17
  firstCause [
    (0x10, hs.any (fun h => 0x78 < capFld c (R.PWR_HV_NOM h) || 0x78 < capFld c (R.PWR_HV_FLOOR h) ||
      capFld c (R.PWR_HV_NOM h) < capFld c (R.PWR_HV_FLOOR h))),
    (0x11, hs.any (fun h => capFld c (R.PWR_HV_NOM h) < d.fld (R.PWR_HV_RFL h))),
    (0x12, capFld c R.PWR_GOV_STEP = 0 || 4 < capFld c R.PWR_GOV_STEP)]

def Dev.secChecks (d : Dev) (sec : Bool) (c : CapSet) : Option Nat :=
  firstCause [(0x10, !sec), (0x11, !d.krevOk (capFld c R.SEC_CTL_KREV))]

def Dev.dbgChecks (d : Dev) (c : CapSet) : Option Nat :=
  firstCause [(0x10, d.fld R.DBG_STAT_LVL < capFld c R.DBG_LVLSET_LVL)]

def Dev.ddrChecks (d : Dev) (c : CapSet) : Option Nat :=
  let rate := capFld c R.DDR_CFG_RATE
  let dens := capFld c R.DDR_CFG_DENS
  firstCause [(0x10, rate = 3 || dens = 3),
    (0x11, d.flag R.DDR_CFG_EN && (rate ≠ d.fld R.DDR_CFG_RATE || dens ≠ d.fld R.DDR_CFG_DENS))]

/-! CLK (R391, R392). -/

def pllRegs (n : Nat) : List Nat := [R.CLK_PLL n, R.CLK_PLLF n]

/-- A PLL is in use (R392). -/
def Dev.pllUsed (d : Dev) (n : Nat) : Bool :=
  match n with
  | 0 => d.flag R.CLK_SEL_SYSSRC
  | 1 => d.flag R.CLK_SEL_ROADSRC
  | 2 => (List.range 17).any (fun h => d.domOn (8 + h))
  | _ => (List.range 8).any (fun k => d.flag (R.BYW_CLK_EN k) && d.fld (R.BYW_CLK_SRC k) = 0)

def Dev.clkChecks (d : Dev) (c : CapSet) : Option Nat :=
  let ns := List.range 4
  let en (n : Nat) : Bool := capFlag c (R.CLK_PLL_EN n)
  let lock (n : Nat) : Bool := (d.fld R.CLK_STAT_LOCK).testBit n
  let refOk := if d.xtbRef then d.flag R.CLK_STAT_XBOK else d.flag R.CLK_STAT_XAOK
  firstCause [
    (0x10, ns.any (fun n => en n && !pllOk d.refHz n (bankGet regReset c (R.CLK_PLL n)).toNat (capFld c (R.CLK_PLLF_FRAC n)))),
    (0x11, capFld c R.CLK_HTGT_TGT < 32 || 64 < capFld c R.CLK_HTGT_TGT),
    (0x12, ns.any en && (d.flag R.CLK_STAT_XFAIL || !refOk)),
    (0x13, ns.any (fun n => d.anyDiffers c (pllRegs n) && d.pllUsed n)),
    (0x14, (capFlag c R.CLK_SEL_SYSSRC && !(en 0 && lock 0)) || (capFlag c R.CLK_SEL_ROADSRC && !(en 1 && lock 1))),
    (0x15, d.mode = 8 && d.differs c R.CLK_HTGT)]

/-! ROAD (R328). -/

/-- An entry of a captured set: PORT and RING. -/
def capRoute (c : CapSet) (r n : Nat) : Nat × Bool := (capFld c (R.ROAD_RT_PORT r n), capFlag c (R.ROAD_RT_RING r n))

/-- A port that a router has. -/
def portExists (r p : Nat) : Bool := if p < 6 then p < ((routerNodes[r]?).getD []).length else (portLink r p).isSome

/-- The entry of a router for a node breaks check 0x10. -/
def routeBad (c : CapSet) (r n : Nat) : Bool :=
  let e := capRoute c r n
  !portExists r e.1 ||
    (allNodes.contains n && nodeRouter n = r && (e.2 || 6 ≤ e.1 || ((routerNodes[r]?).getD [])[e.1]? ≠ some n))

/-- Following the entries from a router reaches a node within the hops left; a failed link is followed as the ring road. -/
def reaches (c : CapSet) (failed : Nat) : Nat → Nat → Nat → Bool
  | 0, r, n => nodeRouter n = r
  | h + 1, r, n =>
    if nodeRouter n = r then true else
    let e := capRoute c r n
    if e.2 then ringSteps r (nodeRouter n) ≤ h + 1 else
    match portLink r e.1 with
    | none => false
    | some k =>
      if failed.testBit k then ringSteps r (nodeRouter n) ≤ h + 1
      else reaches c failed h (linkPeer r k) n

/-- The directed main link, as link × 2 + direction, by which a packet for a node leaves a router; none for an endpoint or the
ring road. -/
def leavesBy (c : CapSet) (failed r n : Nat) : Option Nat :=
  if nodeRouter n = r then none else
  let e := capRoute c r n
  match portLink r e.1 with
  | none => none
  | some k => if e.2 || failed.testBit k then none else
    some (2 * k + bn (match linkEnds[k]? with | some (a, _) => a ≠ r | none => false))

/-- The waits between directed main links: a packet that holds one and waits for the other. -/
def routeWaits (c : CapSet) (failed : Nat) : List (Nat × Nat) :=
  (List.range 10).flatMap (fun r => allNodes.filterMap (fun n =>
    match leavesBy c failed r n with
    | none => none
    | some a => (leavesBy c failed (linkPeer r (a / 2)) n).map (fun b => (a, b))))

/-- Removing, n times, every link that waits for none of those left. -/
def pruneWaits : Nat → List (Nat × Nat) → List (Nat × Nat)
  | 0, l => l
  | n + 1, l => pruneWaits n (l.filter (fun p => l.any (fun q => q.1 = p.2)))

/-- The entries give a cycle of waits (check 0x12). -/
def routeCycle (c : CapSet) (failed : Nat) : Bool := !(pruneWaits 30 (routeWaits c failed).dedup).isEmpty

/-- A node has a transaction in flight (R319). -/
def Dev.inFlight (d : Dev) (n : Nat) : Bool :=
  d.road.resp.any (fun x => x.src.toNat = n) || d.road.waiting.any (fun x => x.src.toNat = n) ||
    d.road.hold.any (fun x => x.2.1.answered && x.2.2.src.toNat = n)

def capSlice (c : CapSet) (n : Nat) : Nat × Nat := (capFld c (R.ROAD_TID_BASE n), capFld c (R.ROAD_TID_CNT n))

def Dev.roadChecks (d : Dev) (c : CapSet) : Option Nat :=
  let rs := List.range 10
  let ns := List.range 64
  let failed := d.fld R.ROAD_LSTAT_FAIL
  firstCause [
    (0x10, rs.any (fun r => ns.any (routeBad c r))),
    (0x11, rs.any (fun r => allNodes.any (fun n => !reaches c failed 10 r n))),
    (0x12, routeCycle c failed),
    (0x13, ns.any (fun n => 0x1000 < (capSlice c n).1 + (capSlice c n).2 && (capSlice c n).2 ≠ 0 ||
      ns.any (fun m => n < m && (capSlice c n).2 ≠ 0 && (capSlice c m).2 ≠ 0 && rangesMeet ((capSlice c n).1, (capSlice c n).1 + (capSlice c n).2)
        ((capSlice c m).1, (capSlice c m).1 + (capSlice c m).2)))),
    (0x14, ns.any (fun n => d.differs c (R.ROAD_TID n) && d.inFlight n))]

/-! BYW (R340, R354). -/

/-- A tree of a captured set would run above 800 MHz; a clock from a pin pair is the board's. -/
def Dev.treeFast (d : Dev) (c : CapSet) (k : Nat) : Bool :=
  let src := capFld c (R.BYW_CLK_SRC k)
  let n := if src = 0 then 3 else 1
  let out := pllOut d.refHz (d.reg (R.CLK_PLL n)).toNat (d.fld (R.CLK_PLLF_FRAC n))
  src ≤ 1 && 800000000 * out.2 * (capFld c (R.BYW_CLK_DIV k) + 1) < out.1

def queueRegs : List Nat :=
  [R.BYW_QPLAN, R.BYW_QPLANB] ++ (List.range 512).map R.BYW_HMAP ++ (List.range 48).map R.BYW_QCFG

def Dev.bywChecks (d : Dev) (c : CapSet) : Option Nat :=
  let ks := List.range 8
  let qs := (List.range 48).filter (fun q => capFlag c (R.BYW_QCFG_EN q))
  let nent := capFld c R.BYW_QPLANB_NENT
  let loading (k : Nat) : Bool := (d.byw.load.map (fun f => f.regions.contains k)).getD false
  firstCause [
    (0x10, ks.any (fun k => capFlag c (R.BYW_CLK_EN k) && (d.treeFast c k ||
      (capFld c (R.BYW_CLK_SRC k) = 0 && !(d.fld R.CLK_STAT_LOCK).testBit 3) ||
      (capFld c (R.BYW_CLK_SRC k) = 1 && !(d.fld R.CLK_STAT_LOCK).testBit 1)))),
    (0x11, !qs.isEmpty && (capFld c R.BYW_QPLAN_D = 0 || nent = 0 || 256 < nent ||
      (List.range nent).any (fun i => bits (bankGet regReset c (R.BYW_HMAP (2 * i + 1))).toNat 21 20 ≠ 0))),
    (0x12, qs.any (fun q => !(d.fld R.BYW_RGNCTL_RUN).testBit (q / 6) || loading (q / 6))),
    (0x13, qs.any (fun q => !capFlag c (R.BYW_CLK_EN (capFld c (R.BYW_QCFG_QCLK q))))),
    (0x14, d.mode = 8 && d.anyDiffers c queueRegs)]

/-! HOST (R363), LINK (R375), WAY (R440). -/

def hostQueueRegs (q : Nat) : List Nat :=
  [R.HOST_QSQB q, R.HOST_QSQBH q, R.HOST_QCQB q, R.HOST_QCQBH q, R.HOST_QCFG q]

/-- A queue has a command that was fetched and has not completed. -/
def Dev.queueBusy (d : Dev) (q : Nat) : Bool := ((d.host.queue[q]?).map (fun x => x.cmd.isSome)).getD false

def Dev.hostChecks (d : Dev) (c : CapSet) : Option Nat :=
  let qs := List.range 16
  firstCause [
    (0x10, qs.any (fun q => capFlag c (R.HOST_QCFG_EN q) && capFld c (R.HOST_QCFG_SZM1 q) = 0)),
    (0x11, qs.any (fun q => d.anyDiffers c (hostQueueRegs q) && d.flag (R.HOST_QCFG_EN q) && d.queueBusy q))]

/-- A port serves an edge in Ramufin mode in the active SEQ_EDGE. -/
def Dev.servesEdge (d : Dev) (p : Nat) : Bool :=
  (p = 0 && d.edgeWest 0 = 2) || (p = 2 && d.edgeEast (d.numStreams - 1) = 2)

def Dev.linkChecks (d : Dev) (c : CapSet) : Option Nat :=
  firstCause [
    (0x10, capFlag c (R.LINK_PCFG_EDGE 1) || capFlag c (R.LINK_PCFG_EDGE 3)),
    (0x11, (List.range 4).any (fun p => d.differs c (R.LINK_PCFG p) && d.servesEdge p)),
    (0x12, (capFld c R.LINK_DRT_V).testBit (d.fld R.PWR_STRAP_CHIPID))]

/-- SRC and SEL that R436 gives no source. -/
def waySourceBad (src sel : Nat) : Bool :=
  match src with
  | 0 => sel ≠ 0
  | 1 => 3 < sel
  | 2 => 7 < sel
  | 3 => 24 < sel
  | 4 => 17 < sel
  | 5 => 3 < sel
  | _ => true

def wayChecks (c : CapSet) : Option Nat :=
  let ws := (List.range 16).filter (fun w => capFlag c (R.WAY_CFG_EN w))
  firstCause [
    (0x10, ws.any (fun w => waySourceBad (capFld c (R.WAY_CFG_SRC w)) (capFld c (R.WAY_CFG_SEL w)))),
    (0x11, ws.any (fun w => capFld c (R.WAY_STEP_STEP w) = 0))]

end Sys2Proof.Machine
end

