-- ==== Sys2Proof/Machine/Commit.lean ====
section
/-! DEFINITION. COMMIT: capture, refusal, and what applying a block's set does (R8 to R16, and the application points and effects
that the chapters give). -/

namespace Sys2Proof.Machine

/-- BLOCK_CSTAT.BUSY. -/
def busyFld (b : Block) : Fld := ⟨cstatAddr b, 1, 1⟩

/-- The first failing check of a captured set; sec is the committer's secure attribute. -/
def Dev.commitCause (d : Dev) (b : Block) (sec : Bool) (c : CapSet) : Option Nat :=
  match b with
  | .pwr => d.pwrChecks c
  | .clk => d.clkChecks c
  | .sec => d.secChecks sec c
  | .road => d.roadChecks c
  | .seq => if capFld c R.SEQ_CTRL_SPLIT = d.fld R.SEQ_CTRL_SPLIT then d.seqChecks c else d.splitFirst c
  | .hall h => d.hallChecks h.val c
  | .stair => firstOver (List.range 8) (d.stairChecks c)
  | .gal => d.galChecks c
  | .byw => d.bywChecks c
  | .host => d.hostChecks c
  | .ddr => d.ddrChecks c
  | .link => d.linkChecks c
  | .way => wayChecks c
  | .dbg => d.dbgChecks c
  | .line => d.lineChecks c
  | .sys => none
  | .evc => none
  | .test => none

/-- A refusal (R10, R14): nothing is applied; REFUSED, CAUSE, NREF and the block's event. -/
def Dev.refuseCommit (d : Dev) (b : Block) (cause : Nat) : Dev :=
  let a := cstatAddr b
  (((d.setFlag ⟨a, 2, 2⟩ true).setFld ⟨a, 15, 8⟩ cause).addFld ⟨a, 31, 16⟩ 1).refuseEvent b

/-- A write of 1 to BLOCK_COMMIT.GO (R10, R12): the staged values are captured, checked, and held to be applied. The sequencer
quiesces for a change of SPLIT (R171). -/
def Dev.commitGo (d : Dev) (b : Block) (sec : Bool) : Dev :=
  if !hasCommit b then d
  else if d.flag (busyFld b) then d.refuseCommit b 1
  else
    let c := d.windowStaged b
    match d.commitCause b sec c with
    | some e => d.refuseCommit b e
    | none =>
      let d := (d.setCapture b c).setFlag (busyFld b) true
      if b = .seq && capFld c R.SEQ_CTRL_SPLIT ≠ d.fld R.SEQ_CTRL_SPLIT then { d with arr := { d.arr with quiesce := true } } else d

/-- The set is applied: BUSY falls. -/
def Dev.applied (d : Dev) (b : Block) : Dev := (d.dropCapture b).setFlag (busyFld b) false

/-! Application points (R58, R67, R106, R182, R224, R354, R363, R471, R472). -/

/-- A hall's flight is empty and its stair is idle (R174); a physical hall that serves no logical one has neither. -/
def Dev.hallQuiet (d : Dev) (h : Nat) : Bool :=
  match d.logicalOf h with
  | some l => match d.arr.hallq[l]? with
    | some q => q.flight.isEmpty && q.transit.isEmpty && q.run.isNone && !d.stairBusy l
    | none => true
  | none => true

/-- The streams that contain a logical hall have no routine and empty flights. -/
def Dev.hallStreamQuiet (d : Dev) (h : Nat) : Bool :=
  match d.stream? (d.streamOf h) with
  | some s => (d.st s).run == .idle && d.flightsEmpty s
  | none => true

/-- No edge transfer of a stream is outstanding (R67): its edge latches are empty. -/
def Dev.edgesEmpty (d : Dev) (s : StreamId) : Bool :=
  (d.streamHalls s.val).all (fun h => (List.range 4).all (fun lat => (d.edgeLatch h lat).isEmpty))

/-- The point at which the sequencer applies a set that does not change SPLIT. -/
def Dev.seqPoint (d : Dev) (c : CapSet) : Bool :=
  let ss := (List.finRange 4).filter (fun s => s.val < d.numStreams)
  ss.all (fun s => (d.st s).run == .idle &&
    (!d.differs c R.SEQ_EDGE || (d.flightsEmpty s && d.edgesEmpty s)) &&
    (!d.anyDiffers c (keepRegs s.val) || (d.st s).openMilestones.isEmpty)) &&
  (!d.differs c R.SEQ_HSUB ||
    ((!capFlag c R.SEQ_HSUB_V || d.hallStreamQuiet (capFld c R.SEQ_HSUB_HALL)) &&
      (!d.flag R.SEQ_HSUB_V || d.hallStreamQuiet (d.fld R.SEQ_HSUB_HALL))))

/-- No queue has begun a line that it has not finished (R354). -/
def Dev.queuesIdle (d : Dev) : Bool := (List.finRange 48).all (fun q => !d.queueOn q.val || (d.bq q).line.isNone)

/-- The application point of a block's captured set holds. -/
def Dev.applyPoint (d : Dev) (b : Block) (c : CapSet) : Bool :=
  match b with
  | .hall h => d.hallQuiet h.val
  | .seq => !d.arr.quiesce && d.seqPoint c
  | .stair => (List.range 8).all (fun n => !d.anyDiffers c (chanRegs n) || !d.flag (R.STAIR_CHSTAT_OPEN n))
  | .host => (List.range 16).all (fun q => !d.anyDiffers c (hostQueueRegs q) || !d.queueBusy q)
  | _ => true

/-! Effects. -/

/-- A new steering map (R58, R59): when a logical column moves, the hall's row words are undefined. -/
def Dev.applyHall (d : Dev) (h : HallId) (c : CapSet) : Dev :=
  let was := d.retired h.val
  let d := d.applySet (.hall h) c
  let d := d.setReg (R.HALL_STEER h.val) (d.reg (R.HALL_STEERSET h.val))
  let d := d.setFld (R.HALL_RSTAT_NRET h.val) ((capMap c h.val).filter (·.1)).length
  (if (List.range 72).all (fun j => physCol was j = physCol (d.retired h.val) j) then d else d.looseRows h.val).checkEcol h.val

/-- A set that moves an image unverifies it (R223). What SEQ_HSUB moves (R472): the released hall follows R32 again, the named
one is powered down. -/
def Dev.applySeq (d : Dev) (c : CapSet) : Dev :=
  let sub := d.differs c R.SEQ_HSUB
  let old := if d.flag R.SEQ_HSUB_V then some (d.fld R.SEQ_HSUB_HALL) else none
  let moved := if d.differs c R.SEQ_IMGMASK then List.range 16 else (List.range 16).filter (fun h => d.differs c (R.SEQ_HIMG h))
  let d := d.applySet .seq c
  let d := forEach moved d (fun d h => { d with arr := { d.arr with verified := setBit d.arr.verified h false } })
  if !sub then d else
  let d := match old with
    | some h => (d.modPow (fun p => { p with forced := setBit p.forced (8 + h) false })).followMode
        (if d.flag R.PWR_MSTAT_BUSY then d.fld R.PWR_MSTAT_TO else d.mode) (8 + h)
    | none => d
  d.reconcile

/-- Channels whose values change start at position 0 (R182). -/
def Dev.applyStair (d : Dev) (c : CapSet) : Dev :=
  let ns := (List.range 8).filter (fun n => d.anyDiffers c (chanRegs n))
  forEach ns (d.applySet .stair c) (fun d n =>
    (((d.setFld (R.STAIR_CHWPOS_POS n) 0).setFld (R.STAIR_CHCPOS_POS n) 0).setFld (R.STAIR_CHLIMIT_POS n) 0).setFld
      (R.STAIR_CHLPOS_POS n) 0)

/-- The lead ring starts again at line 0 (R188, R237). -/
def Dev.applyGal (d : Dev) (c : CapSet) : Dev :=
  let d := d.applySet .gal c
  if !d.flag R.GAL_LCFG_LEN then { d with lead := { d.lead with copying := false } } else
  let d := { d with lead := {} }
  let d := forEach (List.range 4) d (fun d s => d.setFld (R.LINE_GSTAT_GLINE s) 0)
  (d.setFld R.GAL_LSTAT_RELLINE 0).restartQueues 0 |>.modPow (fun p => { p with galReady := true })

/-- Halls whose NOM changes slew to it (R386). -/
def Dev.applyPwr (d : Dev) (c : CapSet) : Dev :=
  let hs := (List.range 17).filter (fun h => capFld c (R.PWR_HV_NOM h) ≠ d.fld (R.PWR_HV_NOM h))
  let d := d.applySet .pwr c
  let d := forEach hs d (fun d h => d.setCur h (d.fld (R.PWR_HV_NOM h)))
  if hs.isEmpty then d else { d with gov := { d.gov with sinceLow := 0 } }

/-- PLLs whose values change lose lock and lock again (R392). -/
def Dev.applyClk (d : Dev) (c : CapSet) : Dev :=
  let ns := (List.range 4).filter (fun n => d.anyDiffers c (pllRegs n))
  (d.applySet .clk c).setFld R.CLK_STAT_LOCK
    ((List.range 4).foldl (fun v n => if (d.fld R.CLK_STAT_LOCK).testBit n && !ns.contains n then v + 2 ^ n else v) 0)

/-- With the margin loop off every hall runs at NOM (R384). -/
def Dev.applyLine (d : Dev) (c : CapSet) : Dev :=
  let off := d.flag R.LINE_GOVCTL_EN && !capFlag c R.LINE_GOVCTL_EN
  let d := d.applySet .line c
  if off then forEach (List.range 17) d (fun d h => d.setCur h (d.fld (R.PWR_HV_NOM h))) else d

/-- Queues whose values change start afresh (R363, R367). -/
def Dev.applyHost (d : Dev) (c : CapSet) : Dev :=
  let qs := (List.finRange 16).filter (fun q => d.anyDiffers c (hostQueueRegs q.val))
  forEach qs (d.applySet .host c) (fun d q =>
    let d := (((d.setFld (R.HOST_QSQT_TAIL q.val) 0).setFld (R.HOST_QCQH_HEAD q.val) 0).setFld (R.HOST_QSTAT_HEAD q.val) 0).setFlag
      (R.HOST_QSTAT_FULL q.val) false
    { d with host := { d.host with queue := d.host.queue.set q {} } })

/-- EN of the DRAM controller (R371). -/
def Dev.applyDdr (d : Dev) (c : CapSet) : Dev :=
  let was := d.flag R.DDR_CFG_EN
  let d := d.applySet .ddr c
  if d.flag R.DDR_CFG_EN = was then d else d.ddrEnable (d.flag R.DDR_CFG_EN)

/-- Ports whose values change leave service, and train when they are enabled (R373). -/
def Dev.applyLink (d : Dev) (c : CapSet) : Dev :=
  let ps := (List.range 4).filter (fun p => d.differs c (R.LINK_PCFG p))
  forEach ps (d.applySet .link c) (fun d p =>
    let d := ((d.setFlag (R.LINK_PSTAT_UP p) false).setFlag (R.LINK_PSTAT_PEDGE p) false)
    { d with link := { d.link with training := setBit d.link.training p (d.flag (R.LINK_PCFG_EN p)) } })

/-- Units whose values change start with cleared statistics (R439, R440). -/
def Dev.applyWay (d : Dev) (c : CapSet) : Dev :=
  let ws := (List.range 16).filter (fun w => d.anyDiffers c [R.WAY_CFG w, R.WAY_BASE w, R.WAY_STEP w])
  forEach ws (d.applySet .way c) Dev.wayClear

/-- The entries of a set at addresses for which p holds; elsewhere the active values. -/
def Dev.partSet (d : Dev) (b : Block) (c : CapSet) (p : Nat → Bool) : Dev :=
  forEach ((d.touched b c).filter p) d (fun d a => d.setReg a (merge (stMask a) (d.reg a) (bankGet regReset c a)))

/-- BYW (R354): clock values at once, the rest when no queue is in a line. A set that changes clocks alone restarts no queue. -/
def Dev.applyByw (d : Dev) (c : CapSet) : Dev :=
  let d := (d.partSet .byw c (fun a => decide (R.BYW_CLK 0 ≤ a ∧ a ≤ R.BYW_CLK 7))).releaseFlops
  if !d.anyDiffers c queueRegs then (d.applySet .byw c).applied .byw else
  if !d.queuesIdle then d else
  let k := d.freshLine
  let e := d.applySet .byw c
  let e := forEach ((List.range 48).filter (fun q => d.queueOn q && !e.queueOn q)) e Dev.looseBram
  (e.restartQueues k).applied .byw

/-- ROAD (R328, R329): slices at once; changed routes at the end of an epoch switch. -/
def Dev.applyRoad (d : Dev) (c : CapSet) : Dev :=
  let slice (a : Nat) : Bool := a < R.ROAD_RT 0 0
  let routes := (d.touched .road c).any (fun a => !slice a && d.differs c a)
  let d := d.partSet .road c slice
  if !routes then d.applied .road
  else if d.flag R.ROAD_EPOCH_SW then d
  else { d.setFlag R.ROAD_EPOCH_SW true with road := { d.road with markers := [], ejects := [] } }

/-- COMMIT_APPLY (R13). -/
def Dev.commitApply (d : Dev) (b : Block) : Dev :=
  match d.capture? b with
  | none => d
  | some c =>
    if !d.applyPoint b c then d else
    match b with
    | .hall h => (d.applyHall h c).applied b
    | .seq => (d.applySeq c).applied b
    | .stair => (d.applyStair c).applied b
    | .gal => (d.applyGal c).applied b
    | .pwr => (d.applyPwr c).applied b
    | .clk => (d.applyClk c).applied b
    | .line => (d.applyLine c).applied b
    | .host => (d.applyHost c).applied b
    | .ddr => (d.applyDdr c).applied b
    | .link => (d.applyLink c).applied b
    | .way => (d.applyWay c).applied b
    | .byw => d.applyByw c
    | .road => d.applyRoad c
    | .sec => ((d.applySet b c).dropCapture b).startBurn (capFld c R.SEC_CTL_KREV)
    | .dbg => ((d.applySet b c).lowerLevel (capFld c R.DBG_LVLSET_LVL)).applied b
    | .sys => d
    | .evc => d
    | .test => d

/-! Change of the stream configuration (R171, R172). -/

/-- Every stream has drained (R171 step 2). -/
def Dev.drained (d : Dev) : Bool :=
  (List.finRange 4).all (fun s => s.val ≥ d.numStreams ||
    ((d.st s).jobs.isEmpty && (d.st s).run == .idle && (d.st s).smp.isNone && (d.st s).smpq.isEmpty && d.flightsEmpty s)) &&
  (List.range 8).all (fun n => !d.flag (R.STAIR_CHSTAT_OPEN n)) && d.arr.edge.all (fun e => e.2.isEmpty)

/-- A new stream (R172, R199): its halls' common mode, depth 0, an empty log, phase 0, the micro-state undefined. A preemption
request that waited for the change stays (R171). -/
def Dev.newStream (d : Dev) (old : Dev) (s : StreamId) : Dev :=
  let was := (old.stream? (old.streamOf (s.val * d.perStream))).map old.st
  let ct := (was.map (·.ct)).getD false
  let (m, d) := d.looseMicro
  let gate := (was.map (·.gateDue)).getD false
  (d.setFlag (R.SEQ_SPSTAT_PH s) false).modSt s (fun x =>
    { desc := x.desc, ct := ct, ctIss := ct, ctRp := ct, ctLp := ct, micro := m, gateDue := gate, gateRp := gate, preReq := x.preReq })

/-- SPLIT_QUIESCED: checks 0x13 to 0x15 and the others, then the set is applied or refused, and acceptance resumes. A new configuration
clears every fault history (R212) and is a restart point of the Ramufin edges (R199, R241). -/
def Dev.splitQuiesced (d : Dev) : Dev :=
  if !d.arr.quiesce || !d.drained then d else
  match d.capture? .seq with
  | none => d
  | some c =>
    let d := { d with arr := { d.arr with quiesce := false } }
    match (d.splitLast c).or (d.seqChecks c) with
    | some e => (d.applied .seq).refuseCommit .seq e
    | none =>
      let e := (d.applySeq c).applied .seq
      let e := forEach (List.finRange 4) e (fun e s => if s.val < e.numStreams then e.newStream d s else e)
      let e := (forEach (List.range 17) e (fun e h => forEach (List.range 4) e (fun e k => e.setReg (R.HALL_FHIST h k) 0))).modPorts
        [0, 2] EdgePort.rebase
      forEach (List.finRange 16) e (fun e h => e.modHq h (fun q => { q with credit := 64, returning := 0 }))

end Sys2Proof.Machine
end

