-- ==== Sys2Proof/Machine/HostOps.lean ====
section
/-! DEFINITION. The host's command queues and the resets of the host interface, without what they do on the road (R362 to R367). -/

namespace Sys2Proof.Machine

def Dev.hostQ (d : Dev) (q : Fin 16) : HostQueue := d.host.queue[q]
def Dev.setHostQ (d : Dev) (q : Fin 16) (x : HostQueue) : Dev := { d with host := { d.host with queue := d.host.queue.set q x } }

/-- Entries of both queues of a pair. -/
def Dev.hostSize (d : Dev) (q : Fin 16) : Nat := d.fld (R.HOST_QCFG_SZM1 q.val) + 1

/-- The completion queue has no room: one entry always stays free. -/
def Dev.cqFull (d : Dev) (q : Fin 16) : Bool := ((d.hostQ q).cqTail + 1) % d.hostSize q = d.fld (R.HOST_QCQH_HEAD q.val)

/-- Bus Master Enable is 1 and the link is up (R361). -/
def Dev.hostOut (d : Dev) : Bool := d.domOn 2 && d.host.busMaster && d.flag R.HOST_LSTAT_UP

/-- Bytes 0 to 15 of a completion entry (R364). -/
def completion (cid head st detail : Nat) (phase : Bool) (result : BitVec 64) : BitVec 128 :=
  BitVec.ofNat 128 (cid + head % 2 ^ 12 * 2 ^ 16 + st % 256 * 2 ^ 32 + detail % 256 * 2 ^ 40 + bn phase * 2 ^ 63 +
    result.toNat * 2 ^ 64)

/-- A command completes (R364, R365): the entry is written to host memory, then source 0x50 + q. -/
def Dev.complete (d : Dev) (q : Fin 16) (st detail : Nat) (result : BitVec 64) : Dev :=
  let x := d.hostQ q
  match x.cmd with
  | none => d
  | some c =>
    let e := completion c.e.cid.toNat (d.fld (R.HOST_QSTAT_HEAD q.val)) st detail x.phase result
    let t := (x.cqTail + 1) % d.hostSize q
    let d := d.setHostQ q { cmd := none, cqTail := t, phase := x.phase != (t = 0) }
    let d := if d.hostOut then { d with host := { d.host with cqes := d.host.cqes ++ [(BitVec.ofNat 4 q.val, e)] } } else d
    d.raise (0x50 + q.val)

/-- A doorbell (R363): a number at or above the queue's size sets QERR. -/
def Dev.doorbell (d : Dev) (q : Fin 16) (f : Fld) (v : Nat) : Dev :=
  let d := d.setFld f v
  if d.hostSize q ≤ v then d.setFlag (R.HOST_QSTAT_QERR q.val) true else d

/-- A write to HOST_FWDqC with GO (R366): the firmware command of the queue completes. -/
def Dev.fwGo (d : Dev) (q : Fin 16) : Dev :=
  match (d.hostQ q).cmd with
  | some c =>
    if c.fw then
      d.complete q (d.fld (R.HOST_FWDC_STATUS q.val)) (d.fld (R.HOST_FWDC_DETAIL q.val))
        ((d.reg (R.HOST_FWDH q.val)).append (d.reg (R.HOST_FWD q.val)))
    else d
  | none => d

/-- Every queue's commands are aborted (R367): no completion is written. -/
def Dev.abortQueues (d : Dev) : Dev :=
  let d := { d with road := { d.road with asked := d.road.asked.filter (fun x => x.src ≠ 0x08) } }
  forEach (List.finRange 16) d (fun d q => d.setHostQ q { d.hostQ q with cmd := none })

/-- The link's state changes (R367). -/
def Dev.linkState (d : Dev) (up : Bool) (speed width : Nat) (l1 : Bool) : Dev :=
  let was := d.reg R.HOST_LSTAT
  let d := (((d.setFlag R.HOST_LSTAT_UP up).setFld R.HOST_LSTAT_SPEED speed).setFld R.HOST_LSTAT_WIDTH width).setFlag
    R.HOST_LSTAT_L1 l1
  if d.reg R.HOST_LSTAT = was then d else d.raise 0x60

/-- PERST_N or hot reset (R362, R309, R334): the HOST domain is reset, and its bridge enters RESETX. -/
def Dev.hostReset (d : Dev) : Dev :=
  if !d.domOn 2 then d else
  let up := d.flag R.HOST_LSTAT_UP
  let d := (d.dropHost).bridgeReset 0x08
  let d := { d.resetWindow .host with host := {} }
  if up then d.raise 0x60 else d

/-- Function Level Reset (R362, R367, R309). -/
def Dev.functionReset (d : Dev) : Dev :=
  if !d.domOn 2 then d else
  let d := (d.dropHost).abortQueues
  let d := { d with
    host := { queue := Vector.replicate 16 {} },
    evc := { d.evc with pend := d.evc.pend &&& ~~~(BitVec.ofNat 256 ((2 ^ 32 - 1) * 2 ^ 64)),
                        held := d.evc.held.filter (fun p => !decide (0x40 ≤ p.1 ∧ p.1 < 0x60)) } }
  let d := forEach (List.range 16) d (fun d q =>
    forEach ((hostQueueRegs q) ++ [R.HOST_QSQT q, R.HOST_QCQH q, R.HOST_QSTAT q]) d (fun d a => (d.setReg a 0).setStaged a 0))
  (d.setFlag R.HOST_LSTAT_FLR true).raise 0x62

/-- Commands that have not started are discarded: the submission heads move to the tails (R367). -/
def Dev.discardQueued (d : Dev) : Dev :=
  forEach (List.range 16) d (fun d q => d.setFld (R.HOST_QSTAT_HEAD q) (d.fld (R.HOST_QSQT_TAIL q)))

/-- D3hot (R362, R367): command fetching stops, as when every queue is disabled. -/
def Dev.enterD3hot (d : Dev) : Dev :=
  if !d.domOn 2 then d else
  let d := d.abortQueues.discardQueued
  { d with host := { d.host with d3hot := true } }

end Sys2Proof.Machine
end

