-- ==== Sys2Proof/Machine/TestOps.lean ====
section
/-! DEFINITION. The self-tests and the repair fuses (R441 to R446). -/

namespace Sys2Proof.Machine

/-- The life-cycle states of R441 that allow a test. -/
def testAllowed (lcs t : Nat) : Bool := lcs = 1 || lcs = 3 || (lcs = 2 && 3 ≤ t)

/-- The physical halls of a mask. -/
def maskHalls (m : Nat) : List Nat := (List.range 17).filter m.testBit

/-- A hall cannot be taken for a test: it is off, or its stream holds a stop or array work since its last MILESTONE. -/
def Dev.hallTaken (d : Dev) (h : Nat) : Bool :=
  !d.domOn (8 + h) ||
    match (d.streamOfPhys h).bind d.stream? with
    | some s => d.streamHeld s || (d.st s).dirty
    | none => false

/-- The first cause of R442. -/
def Dev.testRefusal (d : Dev) (t m : Nat) : Option Nat :=
  let halls := t = 2 || t = 3
  firstCause [
    (1, d.test.isSome),
    (2, !testAllowed d.lcs t),
    (3, d.mode ≠ 9),
    (4, halls && (maskHalls m).any d.hallTaken),
    (5, t = 1 && ([1, 2, 3, 4].any (fun k => !d.domOn k) || d.flag R.DDR_CFG_EN ||
      (List.range 4).any (fun p => d.flag (R.LINK_PCFG_EN p)))),
    (6, t = 4 && d.gal.march.isSome),
    (7, t = 0 || 4 < t || (halls && m = 0))]

/-- A write of GO with TEST and HMASK in place (R442, R444). -/
def Dev.testGo (d : Dev) : Dev :=
  let t := d.fld R.TEST_BCMD_TEST
  let m := d.fld R.TEST_BCMD_HMASK
  match d.testRefusal t m with
  | some c => (d.setFlag R.TEST_BSTAT_ERR true).setFld R.TEST_BSTAT_ECAUSE c
  | none =>
    let d := { d.setFlag R.TEST_BSTAT_BUSY true with test := some (BitVec.ofNat 3 t, BitVec.ofNat 17 m) }
    if t = 1 then d.hostReset else d

/-- A MILESTONE that admitted the test has not committed (R471). -/
def Dev.testWaits (d : Dev) (t m : Nat) : Bool :=
  (t = 2 || t = 3) && (maskHalls m).any (fun h => ((d.logicalOf h).map d.milestoneOpen).getD false)

/-- BIST_DONE (R443 to R445); a hall that has tripped during the test failed it. A test that was admitted on an accepted MILESTONE
starts only when that has committed. -/
def Dev.testDone (d : Dev) (res : BistRes) : Dev :=
  match d.test with
  | none => d
  | some (t, m) =>
    if d.testWaits t.toNat m.toNat then d else
    let d := { d with test := none }
    let hs := maskHalls m.toNat
    let off := (hs.filter (fun h => !d.domOn (8 + h))).foldl (fun x h => setBit x h true) (0 : BitVec 17)
    let colsOf (h : Nat) : List (BitVec 7) := (((res.cols.filter (fun p => p.1.val = h)).map (·.2)).flatten).mergeSort (fun a b => a ≤ b)
    let d := match t with
      | 1 => ((d.setFlag R.TEST_BIRES_VAL true).setFld R.TEST_BIRES_NFAIL res.nfail.toNat).setFld R.TEST_BIRES_FIRST res.first.toNat
      | 2 => d.setFld R.TEST_BHRES_FAIL (res.halls &&& m ||| off).toNat
      | 3 => forEach hs d (fun d h =>
          let cs := colsOf h
          let c (i : Nat) : Nat := ((cs[i]?).map BitVec.toNat).getD 0
          ((((d.setFld (R.TEST_BCF_NF h) (min 7 cs.length)).setFld (R.TEST_BCF_COL0 h) (c 0)).setFld (R.TEST_BCF_COL1 h) (c 1)).setFld
            (R.TEST_BCF_COL2 h) (c 2)).setFld (R.TEST_BCF_COL3 h) (c 3))
      | _ => d.setReg R.TEST_BSRES res.banks
    let bad : Bool := match t with
      | 1 => decide (res.nfail ≠ 0)
      | 2 => decide ((res.halls &&& m ||| off) ≠ 0)
      | 3 => decide (off ≠ 0) || hs.any (fun h => !(colsOf h).isEmpty)
      | _ => decide (res.banks ≠ 0)
    let d := if t = 2 || t = 3 then forEach hs d (fun d h =>
        let d := if d.domOn (8 + h) then d.clearHall h else d
        match (d.streamOfPhys h).bind d.stream? with
        | some s => (d.setSt s { desc := (d.st s).desc }).forHalls s.val (fun d l => d.modHq l (fun _ => {}))
        | none => d) else d
    let d := (d.setFlag R.TEST_BSTAT_BUSY false).setFlag R.TEST_BSTAT_DONE true
    let d := if bad then d.setFlag R.TEST_BSTAT_FAIL true else d
    match d.pow.testReq with
    | some r => (d.modPow (fun p => { p with testReq := none })).modeRequest 0 r.toNat
    | none => d

/-- The entries that a burn takes (R446). -/
def Dev.burnable (d : Dev) : List Nat :=
  (List.range 320).filter (fun n => d.flag (R.GAL_RPR_V n) && !d.flag (R.GAL_RPR_FUSE n) && !d.flag (R.GAL_RPR_BAD n))

/-- A write of GO to TEST_FUSE. -/
def Dev.repairBurn (d : Dev) : Dev :=
  if d.lcs ≠ 1 || d.test.isSome || d.flag R.TEST_FUSE_BUSY then d.setFlag R.TEST_FUSE_FERR true
  else d.setFlag R.TEST_FUSE_BUSY true

/-- FUSE_REPAIR_DONE: the entries that did not read back keep their soft form; the others show after the next full reset. -/
def Dev.repairBurned (d : Dev) (bad : List (Fin 320)) : Dev :=
  if !d.flag R.TEST_FUSE_BUSY then d else
  let l := d.burnable
  let ok := l.filter (fun n => !(bad.map Fin.val).contains n)
  let d := d.modPow (fun p => { p with
    rprFuse := ok.foldl (fun m n => bankSet (fun _ => 0) m n (d.reg (R.GAL_RPR n) ||| 0x40000000)) p.rprFuse })
  let d := (d.setFlag R.TEST_FUSE_BUSY false).setFld R.TEST_FUSE_NBURN ok.length
  if ok.length < l.length then d.setFlag R.TEST_FUSE_FFAIL true else d

end Sys2Proof.Machine
end

