-- ==== Sys2Proof/Machine/Probe.lean ====
section
/-! DEFINITION. Packets as the road's probes see them, TIDs, and the links that a route takes (R316, R319, R325, R336). -/

namespace Sys2Proof.Machine

/-- The types of R318. -/
def PacketKind.type : PacketKind → Nat
  | .rd => 0 | .wr => 1 | .pwr => 2 | .swr => 3 | .mrd => 5 | .mwr => 6 | .msg => 8

/-- The virtual channel of a type; an EPOCH marker runs on each. -/
def typeVc (t : Nat) : Nat := match t with | 0 => 0 | 1 => 0 | 2 => 2 | 3 => 2 | 4 => 1 | _ => 3

/-- The main links, with whether each is crossed from its lower router, that the active entries take from one router to a node;
the rest of the way is on the ring road after RING or a failed link (R325). -/
def Dev.routeLinks (d : Dev) (n : Nat) : Nat → Nat → List (Nat × Bool)
  | 0, _ => []
  | f + 1, r =>
    if r = nodeRouter n || d.flag (R.ROAD_RT_RING r n) then [] else
    match portLink r (d.fld (R.ROAD_RT_PORT r n)) with
    | none => []
    | some k =>
      if (d.fld R.ROAD_LSTAT_FAIL).testBit k then [] else
      let p := linkPeer r k
      (k, decide (r < p)) :: Dev.routeLinks d n f p

/-- Whether probe k matches a packet (R336). -/
def Dev.probeMatch (d : Dev) (k t vc inj : Nat) (links : List (Nat × Bool)) (injected : Bool) : Bool :=
  let link := d.fld (R.ROAD_PRBCFG_LINK k)
  let dir := d.fld (R.ROAD_PRBCFG_DIR k)
  d.flag (R.ROAD_PRBCFG_EN k) && (d.fld (R.ROAD_PRBCFG_VCM k)).testBit vc && (d.fld (R.ROAD_PRBCFG_TYPEM k)).testBit t &&
    (!d.flag (R.ROAD_PRBCFG_NEN k) || d.fld (R.ROAD_PRBCFG_NODE k) = inj) &&
    ((link = 15 && injected) || links.any (fun l => l.1 = link && (dir = 0 || (dir = 1 && l.2) || (dir = 2 && !l.2))))

/-- A header enters the trace buffer; the PLL_ROAD cycle count is open. -/
def Dev.traceHeader (d : Dev) (k vc : Nat) (hdr : BitVec 64) : Dev :=
  let i := d.fld R.ROAD_TRIDX_IDX
  let (n, d) := d.fresh
  let d := (d.setReg (R.ROAD_TRACE (4 * i)) (hdr.setWidth 32)).setReg (R.ROAD_TRACE (4 * i + 1)) ((hdr >>> 32).setWidth 32)
  let d := (d.setReg (R.ROAD_TRACE (4 * i + 2)) ((Config.freeWord n).setWidth 32)).setReg (R.ROAD_TRACE (4 * i + 3))
    (BitVec.ofNat 32 (k + 4 * vc))
  d.setFld R.ROAD_TRIDX_IDX (i + 1)

/-- A packet of a virtual channel is counted and traced by the probes that match it: where it is injected, and on the links that it
takes. -/
def Dev.probeAlong (d : Dev) (t vc inj : Nat) (links : List (Nat × Bool)) (injected : Bool) (hdr : BitVec 64) (flits : Nat) : Dev :=
  forEach (List.range 4) d (fun d k =>
    if !d.probeMatch k t vc inj links injected then d else
    let c := d.reg (R.ROAD_PRBCNT k) + 1
    let d := (d.setReg (R.ROAD_PRBCNT k) c).setReg (R.ROAD_PRBFLT k) (d.reg (R.ROAD_PRBFLT k) + BitVec.ofNat 32 flits)
    let d := if c = 0 then d.raise 0xD3 else d
    if d.flag (R.ROAD_PRBCFG_TRACE k) then d.traceHeader k vc hdr else d)

/-- The entries by which a packet from a node travels (R329): behind the marker of its injection port, the new ones. -/
def Dev.routedBy (d : Dev) (inj vc : Nat) : Dev :=
  if d.flag R.ROAD_EPOCH_SW && d.road.markers.contains (nodeRouter inj, endpointPort inj, vc) then
    match d.capture? .road with
    | some c => d.applySet .road c
    | none => d
  else d

/-- A packet from node inj to node dst passes the probes. -/
def Dev.probe (d : Dev) (t inj dst : Nat) (hdr : BitVec 64) (flits : Nat) : Dev :=
  let links := (d.routedBy inj (typeVc t)).routeLinks dst 10 (nodeRouter inj)
  d.probeAlong t (typeVc t) inj links true hdr flits

/-- A request's header (R316). -/
def requestHeader (t tid : Nat) (sys sec : Bool) (len a : Nat) : BitVec 64 :=
  BitVec.ofNat 64 (t * 2 ^ 60 + tid % 2 ^ 12 * 2 ^ 48 + bn sys * 2 ^ 47 + bn sec * 2 ^ 46 + len % 64 * 2 ^ 40 + a % 2 ^ 40)

/-- A response's header (R316). -/
def responseHeader (t tid st bytes : Nat) : BitVec 64 :=
  BitVec.ofNat 64 (t * 2 ^ 60 + tid % 2 ^ 12 * 2 ^ 48 + st % 16 * 2 ^ 44 + (bytes - 1) % 64 * 2 ^ 38)

/-! TIDs (R319). -/

/-- A TID is in use: its response is owed, on its way, or to be sunk. -/
def Dev.tidBusy (d : Dev) (t : Nat) : Bool :=
  (d.road.resp ++ d.road.waiting).any (fun x => x.tid.toNat = t) || d.road.sunk.any (fun x => x.toNat = t) ||
    d.road.hold.any (fun x => x.2.1.answered && x.2.2.tid.toNat = t)

/-- The slice of a node. -/
def Dev.slice (d : Dev) (n : Nat) : Nat × Nat := (d.fld (R.ROAD_TID_BASE n), d.fld (R.ROAD_TID_CNT n))

/-- A free TID of a node's slice; which one is drawn is open. -/
def Dev.drawTid (d : Dev) (n : Nat) : Option Nat × Dev :=
  let (base, cnt) := d.slice n
  let (k, d) := d.fresh
  let from0 := (Config.freeWord k).toNat % max 1 cnt
  (((List.range cnt).map (fun i => base + (from0 + i) % cnt)).find? (fun t => !d.tidBusy t), d)

end Sys2Proof.Machine
end

