-- ==== Sys2Proof/Machine/RegView.lean ====
section
/-! DEFINITION. What a read of a control register returns: staged values, active values through the mirror, and the registers
that show state held elsewhere (R3, R7, R8, R76, R106, R155, R158, R202, R296, R363, R381, R415). -/

namespace Sys2Proof.Machine

/-- The element of a register array that an address names. -/
def arrIdx (lo stride n a : Nat) : Option Nat :=
  if lo ≤ a && (a - lo) % stride = 0 && (a - lo) / stride < n then some ((a - lo) / stride) else none

def wordOf (n : Nat) : Word := BitVec.ofNat 32 n

/-- Word w of a 256-bit mask of event sources. -/
def maskWord (m : BitVec 256) (w : Nat) : Word := (m >>> (32 * w)).setWidth 32

/-- The 32-bit form of an array instruction as memory holds it (R73): the first halfword in the low bits. -/
def Job.insn (j : Job) : Word :=
  let o := j.opc.toNat
  let first := 3 * 2 ^ 14 + j.pred.p.toNat * 2 ^ 11 + bn j.pred.neg * 2 ^ 10 + 15 * 2 ^ 6 + o / 2
  let second := o % 2 * 2 ^ 15 + j.sd.toNat * 2 ^ 10 + j.sa.toNat * 2 ^ 5 + j.sb.toNat
  wordOf (first + second * 2 ^ 16)

/-- The save area of a stream (R158), valid while a stop is in force. -/
def HeldRec.saveWord (h : HeldRec) (k : Nat) : Word :=
  let m := h.micro
  let valid : Bool := decide (2 ≤ h.kind.toNat)
  let rs (i : Nat) : Nat := ((m.rstk.reverse[i]?).map BitVec.toNat).getD 0
  let two (a b : Nat) : Word := wordOf (a * 2 ^ 16 + b)
  if k = 0 then
    wordOf (bn valid * 2 ^ 31 + (if valid then m.rstk.length % 8 * 2 ^ 28 else 0) + h.depth % 16 * 2 ^ 24 + bn h.ct * 2 ^ 23 +
      (if valid then m.upc.toNat else 0))
  else if !valid then 0 else
  match k with
  | 1 => two m.lc[1].toNat m.lc[0].toNat
  | 2 => two m.lc[3].toNat m.lc[2].toNat
  | 3 => wordOf (m.bstep[0].toNat * 2 ^ 13 + m.bp[0].toNat)
  | 4 => wordOf (m.bstep[1].toNat * 2 ^ 13 + m.bp[1].toNat)
  | 5 => wordOf (m.bstep[2].toNat * 2 ^ 13 + m.bp[2].toNat)
  | 6 => wordOf (m.bstep[3].toNat * 2 ^ 13 + m.bp[3].toNat)
  | 7 => wordOf (bn m.cval * 2 ^ 16 + m.hor.toNat)
  | 8 => two (rs 1) (rs 0)
  | 9 => two (rs 3) (rs 2)
  | 10 => two m.tl.toNat m.tb.toNat
  | _ =>
    match h.run with
    | .micro j =>
      match k with
      | 11 => j.insn
      | 12 => j.dD.1 | 13 => j.dD.2 | 14 => j.dA.1 | 15 => j.dA.2 | 16 => j.dB.1 | 17 => j.dB.2
      | 18 => j.fpctl
      | _ => 0
    | _ => 0

/-- SEQ_MSTATs (R158). -/
def Strm.mstat (x : Strm) : Word :=
  match x.held with
  | some h => wordOf (2 ^ 7 + h.kind.toNat * 2 ^ 5 + 2 ^ 4 + min 8 h.jobs.length)
  | none => if x.rehold.isEmpty then 0 else wordOf (2 ^ 7)

/-- The occupancy of a physical hall's flight (R160). -/
def Dev.flightOcc (d : Dev) (h : Nat) : Nat :=
  match (d.logicalOf h).bind (fun l => d.arr.hallq[l]?) with
  | some q => q.flight.length
  | none => 0

/-- Registers of SEQ that show the sequencer's state. -/
def Dev.viewSeq (d : Dev) (a : Nat) : Word :=
  if a = R.SEQ_CDTEFF then
    wordOf ((List.range 16).foldl (fun v n => if d.cdtEffective n then v + 2 ^ n else v) 0)
  else if R.SEQ_DESC0 0 0 ≤ a && a < R.SEQ_DESC0 0 0 + 0x400 then
    match d.arr.strm[(a - R.SEQ_DESC0 0 0) / 256]? with
    | some x =>
      let w := x.desc[(a - R.SEQ_DESC0 0 0) / 8 % 32]?.getD (0, 0)
      if a % 8 = 0 then w.1 else w.2
    | none => 0
  else match arrIdx (R.SEQ_MSTAT 0) 4 4 a with
  | some s => ((d.arr.strm[s]?).map Strm.mstat).getD 0
  | none =>
    match arrIdx (R.SEQ_SPSTAT 0) 4 4 a with
    | some s =>
      match d.arr.strm[s]? with
      | some x => setBits (setBits (d.reg a) 24 16 x.log.length) 13 0 x.span
      | none => d.reg a
    | none =>
      if R.SEQ_SAVE 0 0 ≤ a && a < R.SEQ_SAVE 0 0 + 0x200 then
        match (d.arr.strm[(a - R.SEQ_SAVE 0 0) / 0x80]?).bind (·.held) with
        | some h => h.saveWord ((a - R.SEQ_SAVE 0 0) % 0x80 / 4)
        | none => 0
      else d.reg a

/-- Registers of the EVC that show its state. -/
def Dev.viewEvc (d : Dev) (a : Nat) : Word :=
  match arrIdx (R.EVC_PEND 0) 4 8 a with
  | some w => maskWord d.evc.pend w
  | none =>
    match arrIdx (R.EVC_ACT 0) 4 8 a with
    | some w => maskWord d.evc.act w
    | none =>
      match arrIdx (R.EVC_OFFER 0) 16 4 a with
      | some c => d.claimWord (d.offer c)
      | none =>
        match arrIdx (R.EVC_CLAIM 0) 16 4 a with
        | some c => d.claimWord (d.offer c)
        | none => d.reg a

/-- The active value of a register as a read shows it. -/
def Dev.viewActive (d : Dev) (b : Block) (a : Nat) : Word :=
  if hasCommit b && a = cstatAddr b then setBits (d.reg a) 0 0 (bn (d.pend b)) else
  match b with
  | .seq => d.viewSeq a
  | .evc => d.viewEvc a
  | .pwr => if a = R.PWR_DBUSY then (d.pow.rising ||| d.pow.falling).setWidth 32 else d.reg a
  | .sec => if a = R.SEC_KEYS then
      setBits (d.reg a) 23 16 ((List.range 8).foldl (fun v k => if d.slotValid k then v + 2 ^ k else v) 0) else d.reg a
  | .hall h =>
    if a = R.HALL_FLSTAT h.val then setBits (d.reg a) 6 0 (d.flightOcc h.val)
    else if a = R.HALL_RSTAT h.val then setBits (d.reg a) 2 0 ((d.retired h.val).length)
    else d.reg a
  | .host => match arrIdx (R.HOST_QSTAT 0) 32 16 a with
    | some q => if hq : q < 16 then setBits (d.reg a) 30 30 (bn (d.flag (R.HOST_QCFG_EN q) && d.cqFull ⟨q, hq⟩)) else d.reg a
    | none => d.reg a
  | _ => d.reg a

/-- What a read at a window offset returns (R3, R5, R7): the staged value of ST fields, or through the mirror the active value. -/
def Dev.viewReg (d : Dev) (b : Block) (off : Nat) : Word :=
  let o := off % 0x8000
  match regIn b o with
  | none => 0
  | some r =>
    let a := blockBase b + o
    let act := d.viewActive b a
    let act := if a = R.BYW_RBDATA then d.captureRead.1 else act
    if off < 0x8000 then merge (tyMask r.fields (· == .st)) act (bankGet regReset d.staged a) else act

end Sys2Proof.Machine
end

