-- ==== Sys2Proof/Machine/RegWrite.lean ====
section
/-! DEFINITION. Writes of control registers: who may write, what the fields take, and what a write starts (R3 to R16, R25, R106,
R363, R431 and the register tables of each chapter). -/

namespace Sys2Proof.Machine

/-- The road attributes of a request: its source node, SYS and SEC (R316). -/
structure Who where
  node : Nat
  sys : Bool
  sec : Bool
deriving DecidableEq, Repr

/-- The attributes of a requester (R270, R271, R356, R359, R374, R431). -/
def Dev.who (d : Dev) : Requester → Who
  | .core c => ⟨c.val, (d.co c).sys, (d.co c).sec⟩
  | .host => ⟨0x08, false, false⟩
  | .dma _ => ⟨0x0C, false, false⟩
  | .dbg => ⟨0x0F, true, false⟩
  | .tap => ⟨0x0F, false, false⟩
  | .fabric => ⟨0x0B, false, false⟩
  | .link => ⟨0x0A, false, false⟩
  | .seq => ⟨0x0D, true, false⟩
  | .sec => ⟨0x0E, true, true⟩

/-- The attributes that a packet carries. -/
def packetWho (p : Packet) : Who := ⟨p.src.toNat, p.sys, p.sec⟩

/-- A Flivin core in system mode. -/
def Who.sysCore (w : Who) : Bool := w.node < 4 && w.sys

/-- The core that makes a request; core 0 stands for none. -/
def Who.coreId (w : Who) : CoreId := if h : w.node < 4 then ⟨w.node, h⟩ else 0

/-- The requesters that R431 speaks of: the host, the TAP and the debug memory port. -/
def Who.external (w : Who) : Bool := w.node = 0x08 || w.node = 0x0F

/-- The debug level in force (R431, R435): NONE until the handover and in QUARANTINE and LOCKOUT. -/
def Dev.debugLevel (d : Dev) : Nat :=
  if d.mode = 3 || d.mode = 0xB || (d.mode = 2 && (d.pow.boot.isSome || (d.co 0).sec)) then 0 else d.fld R.DBG_STAT_LVL

/-- The level that an access to a register needs (R431, R434). The memory port, node 0x0F with SYS = 1, needs FULL for any. -/
def levelNeeded (w : Who) (b : Block) (a : Nat) : Nat :=
  if w.node = 0x0F && w.sys then 2 else
  match b with
  | .dbg => if R.DBG_HALT ≤ a && a ≤ R.DBG_MDATA then 2 else 0
  | .way => if w.external then 1 else 0
  | .road =>
    if w.external && (a = R.ROAD_TRIDX || (R.ROAD_PRBCFG 0 ≤ a && a < R.ROAD_PRBCFG 4) ||
      (R.ROAD_TRACE 0 ≤ a && a < R.ROAD_TRACE 1024)) then 1 else 0
  | .byw => if w.external && (a = R.BYW_RBDATA || a = R.BYW_RBADDR || a = R.BYW_CAPCTL) then 2 else 0
  | _ => 0

/-- A register that only a core in system mode writes (R106, R145, R148, R273, R344, R366, R376, R402, R407). -/
def sysOnlyWrite (b : Block) (a : Nat) : Bool :=
  match b with
  | .sys => a = R.SYS_CRUN || (arrIdx (R.SYS_CPC 0) 4 4 a).isSome
  | .pwr => a = R.PWR_MREQ || a = R.PWR_RST
  | .seq => a = R.SEQ_PLDSRC || a = R.SEQ_PLDCMD || a = R.SEQ_PLDSTAT || (arrIdx (R.SEQ_CDT 0) 4 16 a).isSome ||
      (arrIdx (R.SEQ_MATCH 0) 4 32 a).isSome
  | .byw => a = R.BYW_CFGSRC || a = R.BYW_CFGCMD || a = R.BYW_CFGSTAT || a = R.BYW_RGNCTL
  | .gal => R.GAL_DMASRC 0 ≤ a && a < R.GAL_DMASRC 8
  | .host => R.HOST_FWD 0 ≤ a && a < R.HOST_FWD 16
  | _ => false

/-- A write that its requester may not make (R25, R106, R192, R363, R431, R442). -/
def Dev.writeRefused (d : Dev) (w : Who) (b : Block) (a : Nat) (v : Word) : Bool :=
  d.debugLevel < levelNeeded w b a ||
  (sysOnlyWrite b a && !w.sysCore) ||
  (b = .host && R.HOST_QSQB 0 ≤ a && a < R.HOST_QSQB 16 && w.node < 4 && !w.sys) ||
  (b = .gal && a = R.GAL_SEC && v.getLsbD 31 && !w.sec) ||
  (b = .test && a = R.TEST_BCMD && v.getLsbD 31 && !(w.sysCore || w.external))

/-- A write by the field types alone, with LKERR, COMMIT and LOCK (R3, R8, R15). -/
def Dev.plainWrite (d : Dev) (w : Who) (b : Block) (a : Nat) (v : Word) : Dev :=
  match regIn b (a - blockBase b) with
  | none => d
  | some r =>
    let hit := d.lockHit b r.fields
    let d := d.writeFields b a r.fields v
    let d := if hit then d.setFlag ⟨cstatAddr b, 3, 3⟩ true else d
    if hasCommit b && a = blockBase b + 0x7FF0 && v.getLsbD 0 then d.commitGo b w.sec else d

/-- SYS_CRUN (R273): a core is released at its SYS_CPC, where the mode allows it, or returned to reset with link-down at its bridge
(R334). -/
def Dev.coreRun (d : Dev) (v : Word) : Dev :=
  (forEach [(1 : CoreId), 2, 3] (d.setReg R.SYS_CRUN ((v &&& 0xE) ||| 1)) (fun d c =>
    if v.getLsbD c.val || (d.co c).mode = .reset then d else (d.holdCore c).bridgeReset c.val)).releaseRun

/-- EVC_SETw (R298): enabled sources become pending. -/
def Dev.eventSet (d : Dev) (w : Nat) (v : Word) : Dev :=
  forEach ((List.range 32).filter v.getLsbD) d (fun d i => if d.srcEn (32 * w + i) then d.pendSource (32 * w + i) else d)

/-- EVC_PENDw (R299): pending bits are cleared, and with them what moderation holds. A level source whose line is 1 becomes
pending in the same cycle, so that its bit stays set. -/
def Dev.eventClear (d : Dev) (w : Nat) (v : Word) : Dev :=
  forEach ((List.range 32).filter v.getLsbD) d (fun d i =>
    if d.levelDue (32 * w + i) then d else (d.setPend (32 * w + i) false).setHeld (32 * w + i) 0)

/-- EVC_MODg (R307). -/
def Dev.modWrite (d : Dev) (w : Who) (g : Nat) (v : Word) : Dev :=
  let d := d.plainWrite w .evc (R.EVC_MOD g) v
  if v.getLsbD 31 then d else d.releaseGroup g

/-- ROAD_DEADw (R335): a node whose bit is cleared comes back through the exchange of R333. -/
def Dev.deadRevive (d : Dev) (i : Nat) (v : Word) : Dev :=
  forEach ((List.range 32).filter v.getLsbD) d (fun d k =>
    let n := 32 * i + k
    if !d.nodeDead n then d else
    (d.setReg (R.ROAD_DEAD i) (setBit (d.reg (R.ROAD_DEAD i)) k false)).setBr n 5)

/-- GAL_DMAeCTL (R376): GO starts the copy, or while BUSY sets ERR with RSTAT 0xF. -/
def Dev.dmaWrite (d : Dev) (w : Who) (e : Nat) (v : Word) : Dev :=
  let busy := d.flag (R.GAL_DMACTL_BUSY e)
  let d := d.plainWrite w .gal (R.GAL_DMACTL e) v
  if !v.getLsbD 31 then d
  else if busy then (d.setFlag (R.GAL_DMACTL_ERR e) true).setFld (R.GAL_DMACTL_RSTAT e) 0xF
  else d.setFlag (R.GAL_DMACTL_BUSY e) true

/-- A channel whose LIMIT the lead mover moves ignores writes of it (R187). -/
def Dev.limitHeld (d : Dev) (n : Nat) : Bool := d.flag R.GAL_LCFG_LEN && (d.fld R.GAL_LCFG_OCH).testBit n

/-- DBG_TOKCMD (R433); the nonce of NEWCH. -/
def Dev.tokenWrite (d : Dev) (w : Who) (v : Word) (nonce : List Word) : Dev :=
  let d := d.plainWrite w .dbg R.DBG_TOKCMD v
  let d := if v.getLsbD 30 then d.newChallenge nonce else d
  if v.getLsbD 31 then d.tokenGo else d

/-- DBG_HALT (R434). -/
def Dev.haltWrite (d : Dev) (v : Word) : Dev :=
  let d := if v.getLsbD 31 then d.resume else d
  d.haltRequest (BitVec.ofNat 4 v.toNat)

/-- Eight words that nothing fixes. -/
def Dev.freeWords (d : Dev) : List Word × Dev :=
  ((List.range 8).map (fun k => (Config.freeWord (d.free + k)).setWidth 32), { d with free := d.free + 8 })

/-- Writes that start something, by window; every other write is by the field types alone. -/
def Dev.startWrite (d : Dev) (w : Who) (b : Block) (a : Nat) (v : Word) : Dev :=
  let plain := d.plainWrite w b a v
  match b with
  | .sys => if a = R.SYS_CRUN then d.coreRun v else plain
  | .pwr =>
    if a = R.PWR_DREQ then d.requestDomains v
    else if a = R.PWR_MREQ then (if v.getLsbD 31 then plain.modeRequest w.coreId (bits v.toNat 3 0) else plain)
    else if a = R.PWR_RST then (if v.getLsbD 31 then d.fullReset R.PWR_RSTC_SW else d)
    else if a = R.PWR_WKICK then d.watchdogKick (bits v.toNat 15 0)
    else if a = R.PWR_BOOTADR then (if v.getLsbD 31 then plain.bootOffer else plain)
    else if a = R.PWR_TAMP && !w.sec then d
    else plain
  | .clk =>
    if a = R.CLK_FMCTL && v.getLsbD 31 then
      (if d.flag R.CLK_FMCTL_BUSY then plain else plain.setFlag R.CLK_FMCTL_BUSY true)
    else plain
  | .evc =>
    match arrIdx (R.EVC_DONE 0) 16 5 a with
    | some o => d.doneSource o (bits v.toNat 7 0)
    | none => match arrIdx (R.EVC_SET 0) 4 8 a with
      | some i => d.eventSet i v
      | none => match arrIdx (R.EVC_PEND 0) 4 8 a with
        | some i => d.eventClear i v
        | none => match arrIdx (R.EVC_MOD 0) 4 16 a with
          | some g => if g = 0 then plain else d.modWrite w g v
          | none => match arrIdx (R.EVC_SRC 0) 4 256 a with
            | some n => (plain.levelScan n).scanFallback
            | none => if a = R.EVC_FALLBACK then plain.scanFallback else plain
  | .road =>
    if a = R.ROAD_KILL then d.declareDead (bits v.toNat 5 0)
    else match arrIdx (R.ROAD_DEAD 0) 4 2 a with
      | some i => d.deadRevive i v
      | none => plain
  | .seq =>
    if a = R.SEQ_PLDCMD then (if v.getLsbD 0 then plain.patchLoad else plain)
    else if a = R.SEQ_HIMGCMD then
      (if v.getLsbD 31 then
        plain.himgGo (BitVec.ofNat 2 (bits v.toNat 9 8)) (Fin.ofNat 16 (bits v.toNat 3 0)) else plain)
    else match arrIdx (R.SEQ_AFLT 0) 4 4 a with
      | some s => if v.getLsbD 31 then
          { plain with arr := { plain.arr with block := bankSet (fun _ => 0) plain.arr.block s 0 } } else plain
      | none => plain
  | .stair =>
    match arrIdx (R.STAIR_CHLIMIT 0) 32 8 a with
    | some n => if d.limitHeld n then d else plain
    | none => plain
  | .gal =>
    if a = R.GAL_SEC then (if v.getLsbD 31 then plain.startWipe 4 else plain)
    else if a = R.GAL_MCTL then (if v.getLsbD 31 then plain.marchGo else plain)
    else match arrIdx (R.GAL_RPR 0) 4 320 a with
      | some n => if d.locked .gal then plain else d.writeRpr n v
      | none => match arrIdx (R.GAL_DMACTL 0) 16 8 a with
        | some e => d.dmaWrite w e v
        | none => plain
  | .byw =>
    if a = R.BYW_CFGCMD then
      (if v.getLsbD 0 then plain.fabricGo (v.getLsbD 1) (BitVec.ofNat 3 (bits v.toNat 5 3)) else plain)
    else if a = R.BYW_CAPCTL then
      let d := if v.getLsbD 31 then plain.captureArm else plain
      if v.getLsbD 30 then d.captureResume else d
    else plain
  | .host =>
    match arrIdx (R.HOST_QSQT 0) 32 16 a with
    | some q => if hq : q < 16 then d.doorbell ⟨q, hq⟩ (R.HOST_QSQT_TAIL q) (bits v.toNat 11 0) else d
    | none => match arrIdx (R.HOST_QCQH 0) 32 16 a with
      | some q => if hq : q < 16 then d.doorbell ⟨q, hq⟩ (R.HOST_QCQH_HEAD q) (bits v.toNat 11 0) else d
      | none => match arrIdx (R.HOST_FWDC 0) 16 16 a with
        | some q => if hq : q < 16 then (if v.getLsbD 31 then plain.fwGo ⟨q, hq⟩ else plain) else d
        | none => plain
  | .way =>
    match arrIdx (R.WAY_CTL 0) 32 16 a with
    | some u => d.wayControl u v
    | none => plain
  | .test =>
    if a = R.TEST_BCMD then (if v.getLsbD 31 then plain.testGo else plain)
    else if a = R.TEST_FUSE then (if v.getLsbD 31 then plain.repairBurn else plain)
    else plain
  | .dbg =>
    if a = R.DBG_TOKCMD then
      let (ws, d) := if v.getLsbD 30 then d.freeWords else ([], d)
      d.tokenWrite w v ws
    else if a = R.DBG_HALT then d.haltWrite v
    else match arrIdx (R.DBG_TOKBUF 0) 4 784 a with
      | some i => { d with sec := { d.sec with tok := bankSet (fun _ => 0) d.sec.tok i v } }
      | none => plain
  | .hall h => plain.checkEcol h.val
  | _ => plain

/-- A write at a window offset: the status, and the state (R5, R6, R7). Writes to the mirror and to reserved offsets are ignored. -/
def Dev.regWrite (d : Dev) (w : Who) (b : Block) (off : Nat) (v : Word) : BitVec 4 × Dev :=
  let a := blockBase b + off
  if 0x8000 ≤ off || (regIn b off).isNone then (0, d)
  else if d.writeRefused w b a v then (2, d)
  else (0, d.startWrite w b a v)

/-- A counter has risen by an open amount. -/
def Dev.addFree (d : Dev) (f : Fld) : Dev :=
  let (n, d) := d.fresh
  d.addFld f (Config.freeWord n).toNat

/-- A read at a window offset: the status, the word, and what the read does (R301, R355). How often an arbiter of the road, or of the queues'
gather reads, has promoted a requester since the last read is open (R323, R350). -/
def Dev.regRead (d : Dev) (w : Who) (b : Block) (off : Nat) : BitVec 4 × Word × Dev :=
  let a := blockBase b + off
  if d.debugLevel < levelNeeded w b (blockBase b + off % 0x8000) then (2, 0, d)
  else match b with
    | .evc => match arrIdx (R.EVC_CLAIM 0) 16 4 a with
      | some c => let r := d.claim c; (0, d.claimWord r.1, r.2)
      | none => (0, d.viewReg b off, d)
    | .road =>
      let d := if blockBase b + off % 0x8000 = R.ROAD_PROMO && d.fld R.ROAD_ARB_AGELIM ≠ 0 then d.addFree R.ROAD_PROMO_COUNT else d
      (0, d.viewReg b off, d)
    | .gal =>
      let d := if blockBase b + off % 0x8000 = R.GAL_PROMO && d.fld R.GAL_ARB_AGELIM ≠ 0 && d.anyQueue then d.addFree R.GAL_PROMO_COUNT else d
      (0, d.viewReg b off, d)
    | .byw => if a = R.BYW_RBDATA then let r := d.captureRead; (0, r.1, r.2) else (0, d.viewReg b off, d)
    | _ => (0, d.viewReg b off, d)

end Sys2Proof.Machine
end

