-- ==== Sys2Proof/Machine/Bus.lean ====
section
/-! DEFINITION. The targets of the road and the accesses of a requester to them: boot ROM, TCMs, registers, NVS, gallery, DRAM, device
windows, the host's memory and the debug memory port (R6, R23 to R30, R184, R186, R192, R225, R245, R246, R313, R317, R361, R374,
R425, R431). -/

namespace Sys2Proof.Machine

/-- A device's STRAP_CHIPID. -/
def Dev.chipId (d : Dev) : Nat := d.fld R.PWR_STRAP_CHIPID

/-- The parts of road space that a target serves. -/
inductive Place where
  | rom (off : Nat)
  | tcm (a : Nat)
  | window (b : Block) (off : Nat)
  | nvs (a : Nat)
  | gallery (off : Nat)
  | dram (off : Nat)
  | device (n : Nat) (off : Nat)
  | host (off : Nat)
deriving DecidableEq, Repr

/-- Where a road address lies; none where nothing is mapped (R23 to R25, R29, R30). -/
def Dev.place (d : Dev) (a : Nat) : Option Place :=
  if a < 0x10000 then some (.rom a)
  else if 0x0C000000 ≤ a && a < 0x10000000 then
    let off := a % 0x01000000
    if off < 0x8000 || (0x10000 ≤ off && off < 0x30000) then some (.tcm a) else none
  else if 0x10000000 ≤ a && a < 0x10C00000 then (blockOf a).map (fun b => .window b (a - blockBase b))
  else if 0x20000000 ≤ a && a < 0x20800000 then some (.nvs a)
  else if 0x40000000 ≤ a && a < 0x41800000 then some (.gallery (a - 0x40000000))
  else if 0x100000000 ≤ a && a < 0x500000000 then some (.dram (a - 0x100000000))
  else if 0x2000000000 ≤ a && a < 0x2800000000 then
    let n := (a - 0x2000000000) / 0x100000000
    let off := a % 0x100000000
    if !(0x40000000 ≤ off && off < 0x41700000) then none
    else if n = d.chipId then some (.gallery (off - 0x40000000)) else some (.device n (off - 0x40000000))
  else if 0x8000000000 ≤ a && a < 0x10000000000 then some (.host (a - 0x8000000000))
  else none

/-- The requester may write NVS there: the fault record is for the recovery logic and secure requesters, the life-cycle and
revocation records for system mode (R225, R425). -/
def nvsWritable (w : Who) (a n : Nat) : Bool :=
  if 0x207F0000 < a + n then w.sec || w.node = 0x0D
  else if 0x207E0000 < a + n && a < 0x207E4000 then w.sys else true

/-- The requester reaches the gallery there (R25, R184, R192). -/
def Dev.galleryOpen (d : Dev) (w : Who) (off n : Nat) : Bool :=
  galInside off n && !(galRegion off = 2 && (!w.sec || d.secureShut))

/-- The port to a device, in service (R374). -/
def Dev.devicePort (d : Dev) (n : Nat) : Option Nat :=
  let p := d.fld R.LINK_DRT_PORT / 4 ^ n % 4
  if (d.fld R.LINK_DRT_V).testBit n && d.flag (R.LINK_PSTAT_UP p) then some p else none

/-- What a target does with a request. -/
inductive Served (α : Type) where
  /-- It answers. -/
  | done (st : BitVec 4) (data : α) (d : Dev)
  /-- It forwards the request to the host or to a device; the answer comes from there. -/
  | away (d : Dev)

/-- A read of n bytes at a target, but for the memory port's own register. -/
def Dev.serveRead (d : Dev) (w : Who) (a n : Nat) : Served (List Byte) :=
  match d.place a with
  | none => .done 1 [] d
  | some (.rom off) =>
    if 0x10000 < off + n then .done 1 [] d else .done 0 ((List.range n).map (fun i => Config.bootRom (off + i))) d
  | some (.tcm a) => if (List.range n).all (fun i => (d.place (a + i)).isSome) then .done 0 (d.bytes a n) d else .done 1 [] d
  | some (.window b off) =>
    if n ≠ 4 || off % 4 ≠ 0 then .done 2 [] d else
    let r := d.regRead w b off
    .done r.1 (if r.1 = 0 then leBytes 4 r.2.1.toNat else []) r.2.2
  | some (.nvs a) => if 0x20800000 < a + n then .done 1 [] d else .done 0 (d.bytes a n) d
  | some (.gallery off) =>
    if !d.galleryOpen w off n then .done 1 [] d
    else if d.underMarch off n then .done 2 [] d
    else
      let r := d.galRead off n
      if r.2.1 then .done 2 [] r.2.2 else .done 0 r.1 r.2.2
  | some (.dram off) =>
    if d.dramSize < off + n then .done 1 [] d else
    let r := d.dramRead off n
    if r.2.1 then .done 2 [] r.2.2 else .done 0 r.1 r.2.2
  | some (.device k _) => if (d.devicePort k).isSome then .away d else .done 1 [] d
  | some (.host _) => if d.hostOut then .away d else .done 2 [] d

/-- A write of bytes at a target, but for the memory port's own register. -/
def Dev.serveWrite (d : Dev) (w : Who) (a : Nat) (l : List Byte) : Served Unit :=
  let n := l.length
  match d.place a with
  | none => .done 1 () d
  | some (.rom _) => .done 2 () d
  | some (.tcm a) => if (List.range n).all (fun i => (d.place (a + i)).isSome) then .done 0 () (d.setBytes a l) else .done 1 () d
  | some (.window b off) =>
    if n ≠ 4 || off % 4 ≠ 0 then .done 2 () d else
    let r := d.regWrite w b off (BitVec.ofNat 32 (leNat l))
    .done r.1 () r.2
  | some (.nvs a) =>
    if 0x20800000 < a + n then .done 1 () d
    else if !nvsWritable w a n then .done 2 () d
    else .done 0 () (d.setBytes a l)
  | some (.gallery off) =>
    if !d.galleryOpen w off n then .done 1 () d
    else if d.underMarch off n then .done 2 () d
    else
      let r := d.galWrite true off l
      .done (if r.1 then 2 else 0) () r.2
  | some (.dram off) =>
    if d.dramSize < off + n then .done 1 () d else
    let r := d.dramWrite off l
    .done (if r.1 then 2 else 0) () r.2
  | some (.device k _) => if (d.devicePort k).isSome then .away d else .done 1 () d
  | some (.host _) => if d.hostOut then .done 0 () d else .done 2 () d

/-! Transactions of a requester inside the part: one request and its answer (R319, R332). -/

/-- A request and its response pass the probes (R336). -/
def Dev.probePair (d : Dev) (w : Who) (n : Nat) (wr mgmt : Bool) (tid a len st bytes : Nat) : Dev :=
  let t := if mgmt then (if wr then 6 else 5) else bn wr
  let d := d.probe t w.node n (requestHeader t tid w.sys w.sec (len - 1) a) 1
  let rt := if mgmt then 7 else 4
  d.probe rt n w.node (responseHeader rt tid st bytes) 1

/-- What became of a transaction: answered, on its way with its answer still to come, or not begun because a queue is full or no TID is
free. -/
inductive Issued (α : Type) where
  | answered (st : BitVec 4) (data : α) (d : Dev)
  | sent (tid : BitVec 12) (d : Dev)
  | wait (d : Dev)

/-- The same for a requester that does nothing else before it has its answer. -/
inductive Done (α : Type) where
  | answered (st : BitVec 4) (data : α) (d : Dev)
  | wait (d : Dev)

/-- n bytes that nothing in the part fixes. -/
def Dev.freeBytes (d : Dev) (n : Nat) : List Byte × Dev :=
  ((List.range n).map (fun i => (Config.freeWord (d.free + i)).setWidth 8), { d with free := d.free + n })

/-- VC3 carries the requests of the debug port, the sequencer and the security engine (R318). -/
def Who.mgmt (w : Who) : Bool := w.node = 0x0F || w.node = 0x0D || w.node = 0x0E

/-- The kind of packet that a requester sends. -/
def Who.kind (w : Who) (wr : Bool) : PacketKind := if w.mgmt then (if wr then .mwr else .mrd) else (if wr then .wr else .rd)

/-- A bridge holds as many requests as it can on the virtual channel of a kind (R330). -/
def Dev.vcFull (d : Dev) (n : Nat) (k : PacketKind) : Bool :=
  16 ≤ ((d.heldAt n).filter (fun x => typeVc x.2.1.type = typeVc k.type)).length

/-- A response starts on its way; a target accepts a request that it answers later. -/
def Dev.sendResp (d : Dev) (x : OpenReq) : Dev := { d with road := { d.road with resp := d.road.resp ++ [x] } }
def Dev.await (d : Dev) (x : OpenReq) : Dev := { d with road := { d.road with waiting := d.road.waiting ++ [x] } }

def openReq (node : Nat) (k : PacketKind) (p : Packet) (st : BitVec 4) (l : List Byte) : OpenReq :=
  ⟨p.tid, p.src, BitVec.ofNat 6 node, k.mgmt, st, l, p.addr⟩

/-- The packet of a transaction of n bytes. -/
def Who.packet (w : Who) (tid a n : Nat) (l : List Byte) : Packet :=
  ⟨BitVec.ofNat 6 w.node, BitVec.ofNat 12 tid, w.sys, w.sec, BitVec.ofNat 6 (n - 1), BitVec.ofNat 40 a, l⟩

/-- A request that leaves its source. -/
def Dev.probeRequest (d : Dev) (node : Nat) (k : PacketKind) (p : Packet) : Dev :=
  d.probe k.type p.src.toNat node (requestHeader k.type p.tid.toNat p.sys p.sec p.len.toNat p.addr.toNat) 1

/-- A request that waits at the bridge of a domain that wakes, while its queue has room (R330, R332). -/
def Dev.holdRequest (d : Dev) (w : Who) (node : Nat) (wr : Bool) (a n : Nat) (l : List Byte) : Option (BitVec 12 × Dev) :=
  let k := w.kind wr
  if d.vcFull node k then none else
  match d.drawTid w.node with
  | (none, _) => none
  | (some tid, d) =>
    let p := w.packet tid a n l
    let d := d.probeRequest node k p
    some (p.tid, { d with road := { d.road with hold := d.road.hold ++ [(BitVec.ofNat 6 node, k, p)] } }.countHeld node)

/-- A transaction whose target has answered: the requester has its response, but that of a dead node is still to be sunk (R335). -/
def Dev.concluded {α : Type} (d : Dev) (w : Who) (node : Nat) (wr : Bool) (p : Packet) (st : BitVec 4) (l : List Byte) (x : α) : Issued α :=
  if d.nodeDead w.node then .sent p.tid ((d.probeRequest node (w.kind wr) p).sendResp (openReq node (w.kind wr) p st l))
  else .answered st x (d.probePair w node wr w.mgmt p.tid.toNat p.addr.toNat (p.len.toNat + 1) st.toNat l.length)

/-- A read by a requester of the part (R313, R319, R332). Data and status of a read that leaves the part are open. -/
def Dev.busRead (d : Dev) (w : Who) (a n : Nat) : Issued (List Byte) :=
  match nodeOfAddr d.chipId a with
  | none => .answered 1 [] d
  | some node =>
    match d.reach node true with
    | (.wait, e) => match e.holdRequest w node false a n [] with
      | some (tid, e) => .sent tid e
      | none => .wait d
    | (.status st, d) => .answered st [] d
    | (.ok, d) =>
      match d.drawTid w.node with
      | (none, _) => .wait d
      | (some tid, d) =>
        match d.serveRead w a n with
        | .done st l d => d.concluded w node false (w.packet tid a n []) st l l
        | .away d =>
          let (k, d) := d.fresh
          let (l, d) := d.freeBytes n
          if Config.freeBool k then .answered 0 l d else .answered 2 [] d

/-- A write by a requester of the part. -/
def Dev.busWrite (d : Dev) (w : Who) (a : Nat) (l : List Byte) : Issued Unit :=
  match nodeOfAddr d.chipId a with
  | none => .answered 1 () d
  | some node =>
    match d.reach node true with
    | (.wait, e) => match e.holdRequest w node true a l.length l with
      | some (tid, e) => .sent tid e
      | none => .wait d
    | (.status st, d) => .answered st () d
    | (.ok, d) =>
      match d.drawTid w.node with
      | (none, _) => .wait d
      | (some tid, d) =>
        match d.serveWrite w a l with
        | .done st _ d => d.concluded w node true (w.packet tid a l.length l) st [] ()
        | .away d =>
          let (k, d) := d.fresh
          .answered (if Config.freeBool k then 0 else 2) () d

/-- The request of an engine waits: its answer comes with RSP or MRSP. -/
def Dev.ask (d : Dev) (tid : BitVec 12) (w : Who) (wr : Bool) (a n : Nat) : Dev :=
  { d with road := { d.road with asked := d.road.asked ++ [⟨tid, w.node, wr, a, n, none⟩] } }

/-- A requester that waits for its answer: one that has asked takes the answer when it has come, and asks no second time. -/
def Dev.awaited (d : Dev) (w : Who) (wr : Bool) (a n : Nat) (issue : Issued (List Byte)) : Done (List Byte) :=
  match d.road.asked.find? (fun x => x.src = w.node && x.wr = wr && x.addr = a && x.len = n) with
  | some x => match x.answer with
    | some (st, l) => .answered st l { d with road := { d.road with asked := d.road.asked.erase x } }
    | none => .wait d
  | none => match issue with
    | .answered st l d => .answered st l d
    | .sent tid d => .wait (d.ask tid w wr a n)
    | .wait d => .wait d

def Issued.data {α β : Type} (f : α → β) : Issued α → Issued β
  | .answered st x d => .answered st (f x) d
  | .sent tid d => .sent tid d
  | .wait d => .wait d

/-! The debug memory port (R431). -/

def Dev.memPortAddr (d : Dev) : Nat := (d.reg R.DBG_MADDR).toNat + d.fld R.DBG_MADDRH_HI * 2 ^ 32

/-- One half of 64 bits, and 64 bits with one half replaced. -/
def halfOf (v : BitVec 64) (high : Bool) : Word := if high then v.extractLsb' 32 32 else v.extractLsb' 0 32
def putHalf (v : BitVec 64) (high : Bool) (x : Word) : BitVec 64 :=
  if high then x.append (v.extractLsb' 0 32) else (v.extractLsb' 32 32).append x

/-- The stream of a physical hall has empty flights and runs no routine (R170). -/
def Dev.hallStill (d : Dev) (h : Nat) : Bool :=
  match ((d.logicalOf h).map d.streamOf).bind d.stream? with
  | some s => (d.st s).run == .idle && d.flightsEmpty s
  | none => true

/-- What the port reads at a place of its own. Nothing is counted. -/
def Dev.debugRead (d : Dev) (p : Config.DebugPlace) : Word :=
  match p with
  | .micro a hi => halfOf ((d.storeWord a).setWidth 64) hi
  | .row h r a hi => halfOf (d.peRead h.val r.val a.toNat) hi
  | .latch h k r n hi => halfOf (d.latchNo h.val k.val r.val n.val) hi

/-- A debug write there. A microstore word loses its tag (R146); the ROM cannot be written. -/
def Dev.debugWrite (d : Dev) (p : Config.DebugPlace) (v : Word) : Dev :=
  match p with
  | .micro a hi =>
    if patchHalf a = 0 then d else
    let x := (putHalf ((d.storeWord a).setWidth 64) hi v).setWidth 48
    { d with arr := { d.arr with
      patch := bankSet (fun _ => 0) d.arr.patch a.toNat x, uErr := bankSet (fun _ => 0) d.arr.uErr a.toNat 0,
      tags := setBit d.arr.tags (a.toNat - 0x1C00) false } }
  | .row h r a hi => d.pePut h.val r.val a.toNat (putHalf (d.peRead h.val r.val a.toNat) hi v)
  | .latch h k r n hi => d.setLatchNo h.val k.val r.val n.val (putHalf (d.latchNo h.val k.val r.val n.val) hi v)

/-- A debug access (R146, R170): one to a hall waits for the hall's stream, and finds the hall's domain as every request does (R332). -/
def Dev.debugAccess (d : Dev) (p : Config.DebugPlace) (wr : Option Word) : Done Word :=
  let run (d : Dev) : Done Word :=
    match wr with
    | some v => .answered 0 v (d.debugWrite p v)
    | none => .answered 0 (d.debugRead p) d
  let inHall (h : Nat) : Done Word :=
    match d.reach (0x10 + h) true with
    | (.wait, d) => .wait d
    | (.status st, d) => .answered st 0 d
    | (.ok, d) => if d.hallStill h then run d else .wait d
  match p with
  | .micro _ _ => run d
  | .row h _ _ _ => inHall h.val
  | .latch h _ _ _ _ => inHall h.val

/-- The access of the port (R431): to the road, or where nothing is mapped to a place that the debugger alone reaches. -/
def Dev.portAccess (d : Dev) (a : Nat) (wr : Option Word) : Done Word :=
  let w : Who := ⟨0x0F, true, false⟩
  match if (d.place a).isNone then Config.debugPlace a else none with
  | some p => d.debugAccess p wr
  | none =>
    match wr with
    | some v =>
      match d.awaited w true a 4 ((d.busWrite w a (leBytes 4 v.toNat)).data (fun _ => [])) with
      | .answered st _ d => .answered st v d
      | .wait d => .wait d
    | none =>
      match d.awaited w false a 4 (d.busRead w a 4) with
      | .answered st l d => .answered st (BitVec.ofNat 32 (leNat l)) d
      | .wait d => .wait d

/-- The access that a read or write of DBG_MDATA performs: MSTAT, DATA, and the address moves on by 4. -/
def Dev.memPort (d : Dev) (wr : Option Word) : Dev :=
  let a := d.memPortAddr
  match d.portAccess a wr with
  | .answered st v d =>
    (((d.setReg R.DBG_MDATA v).setFld R.DBG_STAT_MSTAT st.toNat).setReg R.DBG_MADDR (BitVec.ofNat 32 (a + 4))).setFld
      R.DBG_MADDRH_HI ((a + 4) / 2 ^ 32)
  | .wait d => d

/-- An access to DBG_MDATA at level FULL, which every path to the register takes; the port itself never names the register. -/
def Dev.memPortOpen (d : Dev) : Bool := 2 ≤ d.debugLevel && d.memPortAddr ≠ R.DBG_MDATA

/-- What a read does at the port before the register shows its word: the access at DBG_MDATA; through the mirror the word that such a read
would return, and nothing else (R7). -/
def Dev.portRead (d : Dev) (a n : Nat) : Dev :=
  if n ≠ 4 || !d.memPortOpen then d
  else if a = R.DBG_MDATA then d.memPort none
  else if a = R.DBG_MDATA + 0x8000 then d.setReg R.DBG_MDATA ((d.memPort none).reg R.DBG_MDATA) else d

/-- A requester's request can enter the road: CORE is on, and its own bridge is not in RESETX (R333). -/
def Dev.canRequest (d : Dev) (node : Nat) : Bool := d.domOn 0 && d.brState node ≠ 5

/-- A read as every requester begins it. While CORE is off there is no road, and nothing answers. -/
def Dev.issueRead (d : Dev) (w : Who) (a n : Nat) : Issued (List Byte) :=
  if !d.canRequest w.node then .wait d
  else (d.portRead a n).busRead w a n

/-- A write as every requester begins it. -/
def Dev.issueWrite (d : Dev) (w : Who) (a : Nat) (l : List Byte) : Issued Unit :=
  if !d.canRequest w.node then .wait d
  else if a = R.DBG_MDATA && l.length = 4 && d.memPortOpen then
    .answered 0 () (d.memPort (some (BitVec.ofNat 32 (leNat l))))
  else d.busWrite w a l

/-- A read and a write of a requester that waits for the answer. -/
def Dev.read (d : Dev) (w : Who) (a n : Nat) : Done (List Byte) := d.awaited w false a n (d.issueRead w a n)
def Dev.write (d : Dev) (w : Who) (a : Nat) (l : List Byte) : Done (List Byte) :=
  d.awaited w true a l.length ((d.issueWrite w a l).data (fun _ => []))

/-! Command writes: a write that a requester makes to a control register. -/

/-- A bus error that reaches a core after the instruction (R275). -/
def Dev.lateBusError (d : Dev) (w : Who) (st : BitVec 4) (flivin : Word) : Dev :=
  if st = 0 || 4 ≤ w.node then d
  else if (d.co w.coreId).mode = .reset || (d.co w.coreId).mode = .dead then d
  else d.imprecise w.coreId .bus flivin

/-- A register write that a command makes: the response, and for a core the bus error. One that a bridge holds is answered later. -/
def Dev.command (d : Dev) (w : Who) (a : Nat) (l : List Byte) : Dev :=
  match d.issueWrite w a l with
  | .answered st _ d => (d.respond st []).lateBusError w st (BitVec.ofNat 32 a)
  | .sent _ d => d
  | .wait d => d

/-- The same for one word. -/
def Dev.commandWord (d : Dev) (r : Requester) (a : Nat) (v : Word) : Dev := d.command (d.who r) a (leBytes 4 v.toNat)

end Sys2Proof.Machine
end

