-- ==== Sys2Proof/Machine/Packets.lean ====
section
/-! DEFINITION. Request packets at their targets and responses at their requesters (R316 to R320, R330 to R335). -/

namespace Sys2Proof.Machine

/-- The data of a write in the pieces in which its flits carry them (R317). -/
def packetPieces (a : Nat) (l : List Byte) : List (Nat × List Byte) :=
  (List.range ((l.length + 63) / 64)).map (fun i => (a + 64 * i, (l.drop (64 * i)).take 64))

/-- A packet is formed as R316 and R317 say: a read or single-flit write of LEN + 1 bytes, or PWR and SWR of up to eight flits
from an aligned address. -/
def packetOk (k : PacketKind) (p : Packet) : Bool :=
  match k with
  | .rd | .mrd => p.data.isEmpty
  | .pwr | .swr =>
    p.data.length = p.len.toNat + 1 ||
      (p.len.toNat < 8 && 1 ≤ p.len.toNat && p.data.length = 64 * (p.len.toNat + 1) && p.addr.toNat % 64 = 0)
  | .msg => true
  | _ => p.data.length = p.len.toNat + 1

/-- The target serves a read. -/
def Dev.serveRd (d : Dev) (node : Nat) (k : PacketKind) (p : Packet) : Dev :=
  let a := p.addr.toNat
  let n := p.len.toNat + 1
  match (d.portRead a n).serveRead (packetWho p) a n with
  | .done st l d => d.sendResp (openReq node k p st l)
  | .away d => d.await (openReq node k p 0 [])

/-- The target serves a write that is answered. -/
def Dev.serveWr (d : Dev) (node : Nat) (k : PacketKind) (p : Packet) : Dev :=
  let a := p.addr.toNat
  if a = R.DBG_MDATA && p.data.length = 4 && d.memPortOpen then
    (d.memPort (some (BitVec.ofNat 32 (leNat p.data)))).sendResp (openReq node k p 0 [])
  else match d.serveWrite (packetWho p) a p.data with
    | .done st _ d => d.sendResp (openReq node k p st [])
    | .away d => d.await (openReq node k p 0 [])

/-- The target serves a posted write. A host write that fails is reported through AER (R360). -/
def Dev.servePosted (d : Dev) (p : Packet) : Dev :=
  forEach (packetPieces p.addr.toNat p.data) d (fun d x =>
    match d.serveWrite (packetWho p) x.1 x.2 with
    | .done st _ d => if st ≠ 0 && p.src = 0x08 then d.raise 0x61 else d
    | .away d => d)

/-- A packet that its node takes (R318). A management message carries what the power, reset-exchange and MSI-X commands do. -/
def Dev.servePacket (d : Dev) (node : Nat) (k : PacketKind) (p : Packet) : Dev :=
  match k with
  | .rd | .mrd => d.serveRd node k p
  | .wr | .mwr => d.serveWr node k p
  | .pwr | .swr => d.servePosted p
  | .msg => d

/-- The TID of an answered request is free and belongs to its source (R319). -/
def Dev.tidOk (d : Dev) (k : PacketKind) (p : Packet) : Bool :=
  let (base, cnt) := d.slice p.src.toNat
  !k.answered || (base ≤ p.tid.toNat && p.tid.toNat < base + cnt && !d.tidBusy p.tid.toNat)

/-- The header of a request packet (R316). -/
def packetHeader (k : PacketKind) (p : Packet) : BitVec 64 :=
  requestHeader k.type (if k.answered then p.tid.toNat else p.src.toNat * 64) p.sys p.sec p.len.toNat p.addr.toNat

/-- A request packet reaches its node's bridge (R332, R334, R335): whether it has entered the road, or waits at its source. -/
def Dev.inject (d : Dev) (k : PacketKind) (p : Packet) : Bool × Dev :=
  if !d.canRequest p.src.toNat || !packetOk k p || !d.tidOk k p || 0x20 < p.src.toNat then (false, d) else
  match nodeOfAddr d.chipId p.addr.toNat with
  | none =>
    let d := d.answer 0x3F k p 1
    (true, if k = .pwr && p.src = 0x08 then d.raise 0x61 else d)
  | some node =>
    let pass (e : Dev) : Dev := e.probe k.type p.src.toNat node (packetHeader k p) (max 1 ((p.data.length + 63) / 64))
    match d.reach node k.answered with
    | (.wait, e) =>
      if d.vcFull node k then (false, d) else
      let e := pass e
      (true, { e with road := { e.road with hold := e.road.hold ++ [(BitVec.ofNat 6 node, k, p)] } }.countHeld node)
    | (.status st, e) =>
      let e := pass e
      let e := if k = .pwr && p.src = 0x08 then e.raise 0x61 else e
      (true, e.answer node k p st)
    | (.ok, e) => (true, (pass e).servePacket node k p)

def Dev.request (d : Dev) (k : PacketKind) (p : Packet) : Dev := (d.inject k p).2

/-- A posted packet of a source without attributes, of one flit or of several (R316). -/
def postedPacket (src : BitVec 6) (a : Nat) (l : List Byte) : Packet :=
  ⟨src, 0, false, false, BitVec.ofNat 6 (if 64 < l.length then l.length / 64 - 1 else l.length - 1), BitVec.ofNat 40 a, l⟩

/-- Posted packets one after another: all of them, or nothing while a queue on their way is full. -/
def Dev.postAll (d : Dev) (k : PacketKind) (ps : List Packet) : Option Dev :=
  ps.foldl (fun r p => r.bind (fun e =>
    let x := e.inject k p
    if x.1 then some x.2 else none)) (some d)

/-- The Flivin address that a core used for a road address (R23). -/
def Dev.flivinOf (d : Dev) (c : Nat) (a : Nat) : Word :=
  if a < 0x80000000 then BitVec.ofNat 32 a
  else BitVec.ofNat 32 (0x80000000 + (a - 0x100000000 - d.fld (R.SYS_DWIN_BASE c) * 0x40000000))

/-- A response is the next of its channel from its node to its requester: those injected earlier have arrived (R321). -/
def Dev.firstResp (d : Dev) (x : OpenReq) : Bool :=
  d.road.resp.find? (fun y => y.node = x.node && y.src = x.src && y.mgmt = x.mgmt) == some x

/-- The answer reaches an engine that asked. -/
def Dev.answerAsked (d : Dev) (x : OpenReq) : Dev :=
  { d with road := { d.road with asked := d.road.asked.map (fun q =>
      if q.tid = x.tid && q.src = x.src.toNat then { q with answer := some (x.status, x.data) } else q) } }

/-- RSP or MRSP (R318, R319): the response reaches its requester and frees its TID, or is sunk (R334, R335). -/
def Dev.response (d : Dev) (mgmt : Bool) (tid : BitVec 12) : Dev :=
  match d.road.resp.find? (fun x => x.tid = tid && x.mgmt = mgmt && d.firstResp x) with
  | none => d
  | some x =>
    let d := { d with road := { d.road with resp := d.road.resp.erase x } }
    let d := if x.node.toNat ≤ 0x20 then
        d.probe (if mgmt then 7 else 4) x.node.toNat x.src.toNat
          (responseHeader (if mgmt then 7 else 4) tid.toNat x.status.toNat x.data.length) (max 1 ((x.data.length + 63) / 64))
      else d
    if d.road.sunk.contains tid then { d with road := { d.road with sunk := d.road.sunk.erase tid } }
    else if d.nodeDead x.src.toNat then d else
    let d := (d.answerAsked x).respond x.status x.data
    let d := if x.src = 0x0B then d.modByw (fun b => { b with req := b.req.erase tid }) else d
    let w : Who := ⟨x.src.toNat, false, false⟩
    let d := d.lateBusError w x.status (d.flivinOf x.src.toNat x.addr.toNat)
    if x.src.toNat < 4 then d.loadAnswer w.coreId tid x.status x.data else d

end Sys2Proof.Machine
end

