-- ==== Sys2Proof/Machine/Run.lean ====
section
/-! DEFINITION. How a command's effect becomes a step: what follows at once from the state it leaves (R332, R406). -/

namespace Sys2Proof.Machine

/-- Held requests go on in order at a bridge that is up (R332); one whose domain cannot wake answers them. -/
def Dev.settleBridge (d : Dev) (n : Nat) : Dev :=
  let mine := d.heldAt n
  if mine.isEmpty then d else
  let st := d.brState n
  if st = 0 then
    let d := { d with road := { d.road with hold := d.road.hold.filter (fun x => x.1.toNat ≠ n) } }
    (forEach mine d (fun d x => d.servePacket n x.2.1 x.2.2)).countHeld n
  else if (st = 3 || st = 4) && !d.canWake n && !((nodeDom n).map d.pow.rising.getLsbD = some true) then
    (d.answerHeld n 3 (R.ROAD_BR_ASLP n)).setBr n 3
  else d

/-- What follows at once. -/
def Dev.settle (d : Dev) : Dev :=
  (if d.road.hold.isEmpty then d else forEach (List.range 0x21) d Dev.settleBridge).settleFatal

/-- A command's effect on the part as its outcome. -/
def State.run (s : State) (f : Dev → Dev) : Host.Outcome State Fault Refusal :=
  .next { s with dev := (f s.dev).settle }

end Sys2Proof.Machine
end

