-- ==== Sys2Proof/Machine/CmdArray.lean ====
section
/-! DEFINITION. The array instructions (R73 to R125): each reaches its core's issue point under its opcode of R85, R99 or R105. -/

namespace Sys2Proof.Machine

/-- MOV (R85). -/
def execMov (a : AOp) (s : State) : Host.Outcome State Fault Refusal := s.run (fun d => d.arrayIssue 0x00 a)

/-- NOT (R85). -/
def execNot (a : AOp) (s : State) : Host.Outcome State Fault Refusal := s.run (fun d => d.arrayIssue 0x01 a)

/-- AND (R85). -/
def execAnd (a : AOp) (s : State) : Host.Outcome State Fault Refusal := s.run (fun d => d.arrayIssue 0x02 a)

/-- OR (R85). -/
def execOr (a : AOp) (s : State) : Host.Outcome State Fault Refusal := s.run (fun d => d.arrayIssue 0x03 a)

/-- XOR (R85). -/
def execXor (a : AOp) (s : State) : Host.Outcome State Fault Refusal := s.run (fun d => d.arrayIssue 0x04 a)

/-- ANDN (R85). -/
def execAndn (a : AOp) (s : State) : Host.Outcome State Fault Refusal := s.run (fun d => d.arrayIssue 0x05 a)

/-- SET (R85). -/
def execSet (a : AOp) (s : State) : Host.Outcome State Fault Refusal := s.run (fun d => d.arrayIssue 0x06 a)

/-- CLR (R85). -/
def execClr (a : AOp) (s : State) : Host.Outcome State Fault Refusal := s.run (fun d => d.arrayIssue 0x07 a)

/-- MOVS (R86). -/
def execMovs (a : AOp) (s : State) : Host.Outcome State Fault Refusal := s.run (fun d => d.arrayIssue 0x08 a)

/-- ADD (R107). -/
def execAdd (a : AOp) (s : State) : Host.Outcome State Fault Refusal := s.run (fun d => d.arrayIssue 0x10 a)

/-- ADC (R107). -/
def execAdc (a : AOp) (s : State) : Host.Outcome State Fault Refusal := s.run (fun d => d.arrayIssue 0x11 a)

/-- SUB (R107). -/
def execSub (a : AOp) (s : State) : Host.Outcome State Fault Refusal := s.run (fun d => d.arrayIssue 0x12 a)

/-- SBC (R107). -/
def execSbc (a : AOp) (s : State) : Host.Outcome State Fault Refusal := s.run (fun d => d.arrayIssue 0x13 a)

/-- ADDSU (R109). -/
def execAddsu (a : AOp) (s : State) : Host.Outcome State Fault Refusal := s.run (fun d => d.arrayIssue 0x14 a)

/-- ADDSS (R109). -/
def execAddss (a : AOp) (s : State) : Host.Outcome State Fault Refusal := s.run (fun d => d.arrayIssue 0x15 a)

/-- SUBSU (R109). -/
def execSubsu (a : AOp) (s : State) : Host.Outcome State Fault Refusal := s.run (fun d => d.arrayIssue 0x16 a)

/-- SUBSS (R109). -/
def execSubss (a : AOp) (s : State) : Host.Outcome State Fault Refusal := s.run (fun d => d.arrayIssue 0x17 a)

/-- NEG (R107). -/
def execNeg (a : AOp) (s : State) : Host.Outcome State Fault Refusal := s.run (fun d => d.arrayIssue 0x18 a)

/-- CMPEQ (R110). -/
def execCmpeq (a : AOp) (s : State) : Host.Outcome State Fault Refusal := s.run (fun d => d.arrayIssue 0x19 a)

/-- CMPLTU (R110). -/
def execCmpltu (a : AOp) (s : State) : Host.Outcome State Fault Refusal := s.run (fun d => d.arrayIssue 0x1A a)

/-- CMPLTS (R110). -/
def execCmplts (a : AOp) (s : State) : Host.Outcome State Fault Refusal := s.run (fun d => d.arrayIssue 0x1B a)

/-- MINU (R110). -/
def execMinu (a : AOp) (s : State) : Host.Outcome State Fault Refusal := s.run (fun d => d.arrayIssue 0x1C a)

/-- MAXU (R110). -/
def execMaxu (a : AOp) (s : State) : Host.Outcome State Fault Refusal := s.run (fun d => d.arrayIssue 0x1D a)

/-- MINS (R110). -/
def execMins (a : AOp) (s : State) : Host.Outcome State Fault Refusal := s.run (fun d => d.arrayIssue 0x1E a)

/-- MAXS (R110). -/
def execMaxs (a : AOp) (s : State) : Host.Outcome State Fault Refusal := s.run (fun d => d.arrayIssue 0x1F a)

/-- MULU (R87). -/
def execMulu (a : AOp) (s : State) : Host.Outcome State Fault Refusal := s.run (fun d => d.arrayIssue 0x20 a)

/-- MULS (R111). -/
def execMuls (a : AOp) (s : State) : Host.Outcome State Fault Refusal := s.run (fun d => d.arrayIssue 0x21 a)

/-- DSTEP (R88). -/
def execDstep (a : AOp) (s : State) : Host.Outcome State Fault Refusal := s.run (fun d => d.arrayIssue 0x22 a)

/-- SHL (R89); with hi the shift is 32 more. -/
def execShl (a : AOp) (hi : Bool) (s : State) : Host.Outcome State Fault Refusal :=
  s.run (fun d => d.arrayIssue (if hi then 0x2C else 0x28) a)

/-- SHRU (R89); with hi the shift is 32 more. -/
def execShru (a : AOp) (hi : Bool) (s : State) : Host.Outcome State Fault Refusal :=
  s.run (fun d => d.arrayIssue (if hi then 0x2D else 0x29) a)

/-- SHRS (R89); with hi the shift is 32 more. -/
def execShrs (a : AOp) (hi : Bool) (s : State) : Host.Outcome State Fault Refusal :=
  s.run (fun d => d.arrayIssue (if hi then 0x2E else 0x2A) a)

/-- ROL (R89); with hi the shift is 32 more. -/
def execRol (a : AOp) (hi : Bool) (s : State) : Host.Outcome State Fault Refusal :=
  s.run (fun d => d.arrayIssue (if hi then 0x2F else 0x2B) a)

/-- GETN (R90). -/
def execGetn (a : AOp) (s : State) : Host.Outcome State Fault Refusal := s.run (fun d => d.arrayIssue 0x30 a)

/-- GETS (R90). -/
def execGets (a : AOp) (s : State) : Host.Outcome State Fault Refusal := s.run (fun d => d.arrayIssue 0x31 a)

/-- GETE (R90). -/
def execGete (a : AOp) (s : State) : Host.Outcome State Fault Refusal := s.run (fun d => d.arrayIssue 0x32 a)

/-- GETW (R90). -/
def execGetw (a : AOp) (s : State) : Host.Outcome State Fault Refusal := s.run (fun d => d.arrayIssue 0x33 a)

/-- XGETN (R90). -/
def execXgetn (a : AOp) (s : State) : Host.Outcome State Fault Refusal := s.run (fun d => d.arrayIssue 0x34 a)

/-- XGETS (R90). -/
def execXgets (a : AOp) (s : State) : Host.Outcome State Fault Refusal := s.run (fun d => d.arrayIssue 0x35 a)

/-- XGETE (R90). -/
def execXgete (a : AOp) (s : State) : Host.Outcome State Fault Refusal := s.run (fun d => d.arrayIssue 0x36 a)

/-- XGETW (R90). -/
def execXgetw (a : AOp) (s : State) : Host.Outcome State Fault Refusal := s.run (fun d => d.arrayIssue 0x37 a)

/-- SEL (R92). -/
def execSel (a : AOp) (s : State) : Host.Outcome State Fault Refusal := s.run (fun d => d.arrayIssue 0x38 a)

/-- SELN (R92). -/
def execSeln (a : AOp) (s : State) : Host.Outcome State Fault Refusal := s.run (fun d => d.arrayIssue 0x39 a)

/-- ACTALL (R93). -/
def execActall (a : AOp) (s : State) : Host.Outcome State Fault Refusal := s.run (fun d => d.arrayIssue 0x40 a)

/-- ACTLD (R93). -/
def execActld (a : AOp) (s : State) : Host.Outcome State Fault Refusal := s.run (fun d => d.arrayIssue 0x41 a)

/-- ACTPUSH (R93). -/
def execActpush (a : AOp) (s : State) : Host.Outcome State Fault Refusal := s.run (fun d => d.arrayIssue 0x42 a)

/-- ACTPUSHN (R93). -/
def execActpushn (a : AOp) (s : State) : Host.Outcome State Fault Refusal := s.run (fun d => d.arrayIssue 0x43 a)

/-- ACTPOP (R93). -/
def execActpop (a : AOp) (s : State) : Host.Outcome State Fault Refusal := s.run (fun d => d.arrayIssue 0x44 a)

/-- ACTELSE (R93). -/
def execActelse (a : AOp) (s : State) : Host.Outcome State Fault Refusal := s.run (fun d => d.arrayIssue 0x45 a)

/-- LOOKUP (R95). -/
def execLookup (a : AOp) (s : State) : Host.Outcome State Fault Refusal := s.run (fun d => d.arrayIssue 0x48 a)

/-- AFD (R77). -/
def execAfd (a : AOp) (s : State) : Host.Outcome State Fault Refusal := s.run (fun d => d.arrayIssue 0x4C a)

/-- AGOR (R97). -/
def execAgor (a : AOp) (s : State) : Host.Outcome State Fault Refusal := s.run (fun d => d.arrayIssue 0x50 a)

/-- AGOR_B (R98). -/
def execAgorB (a : AOp) (s : State) : Host.Outcome State Fault Refusal := s.run (fun d => d.arrayIssue 0x51 a)

/-- HOR (R97). -/
def execHor (a : AOp) (s : State) : Host.Outcome State Fault Refusal := s.run (fun d => d.arrayIssue 0x52 a)

/-- HOR_B (R98). -/
def execHorB (a : AOp) (s : State) : Host.Outcome State Fault Refusal := s.run (fun d => d.arrayIssue 0x53 a)

/-- FADD_H (R99). -/
def execFaddH (a : AOp) (s : State) : Host.Outcome State Fault Refusal := s.run (fun d => d.arrayIssue 0x58 a)

/-- FADD_S (R99). -/
def execFaddS (a : AOp) (s : State) : Host.Outcome State Fault Refusal := s.run (fun d => d.arrayIssue 0x60 a)

/-- FSUB_H (R99). -/
def execFsubH (a : AOp) (s : State) : Host.Outcome State Fault Refusal := s.run (fun d => d.arrayIssue 0x59 a)

/-- FSUB_S (R99). -/
def execFsubS (a : AOp) (s : State) : Host.Outcome State Fault Refusal := s.run (fun d => d.arrayIssue 0x61 a)

/-- FMUL_H (R99). -/
def execFmulH (a : AOp) (s : State) : Host.Outcome State Fault Refusal := s.run (fun d => d.arrayIssue 0x5A a)

/-- FMUL_S (R99). -/
def execFmulS (a : AOp) (s : State) : Host.Outcome State Fault Refusal := s.run (fun d => d.arrayIssue 0x62 a)

/-- FMA_H (R99). -/
def execFmaH (a : AOp) (s : State) : Host.Outcome State Fault Refusal := s.run (fun d => d.arrayIssue 0x5B a)

/-- FMA_S (R99). -/
def execFmaS (a : AOp) (s : State) : Host.Outcome State Fault Refusal := s.run (fun d => d.arrayIssue 0x63 a)

/-- FCEQ_H (R99). -/
def execFceqH (a : AOp) (s : State) : Host.Outcome State Fault Refusal := s.run (fun d => d.arrayIssue 0x5C a)

/-- FCEQ_S (R99). -/
def execFceqS (a : AOp) (s : State) : Host.Outcome State Fault Refusal := s.run (fun d => d.arrayIssue 0x64 a)

/-- FCLT_H (R99). -/
def execFcltH (a : AOp) (s : State) : Host.Outcome State Fault Refusal := s.run (fun d => d.arrayIssue 0x5D a)

/-- FCLT_S (R99). -/
def execFcltS (a : AOp) (s : State) : Host.Outcome State Fault Refusal := s.run (fun d => d.arrayIssue 0x65 a)

/-- FCLE_H (R99). -/
def execFcleH (a : AOp) (s : State) : Host.Outcome State Fault Refusal := s.run (fun d => d.arrayIssue 0x5E a)

/-- FCLE_S (R99). -/
def execFcleS (a : AOp) (s : State) : Host.Outcome State Fault Refusal := s.run (fun d => d.arrayIssue 0x66 a)

/-- FCVT_S_H (R99). -/
def execFcvtSH (a : AOp) (s : State) : Host.Outcome State Fault Refusal := s.run (fun d => d.arrayIssue 0x5F a)

/-- FCVT_H_S (R99). -/
def execFcvtHS (a : AOp) (s : State) : Host.Outcome State Fault Refusal := s.run (fun d => d.arrayIssue 0x67 a)

/-- FCVT_H_I (R99). -/
def execFcvtHI (a : AOp) (s : State) : Host.Outcome State Fault Refusal := s.run (fun d => d.arrayIssue 0x68 a)

/-- FCVT_S_I (R99). -/
def execFcvtSI (a : AOp) (s : State) : Host.Outcome State Fault Refusal := s.run (fun d => d.arrayIssue 0x69 a)

/-- FCVT_I_H (R99). -/
def execFcvtIH (a : AOp) (s : State) : Host.Outcome State Fault Refusal := s.run (fun d => d.arrayIssue 0x6A a)

/-- FCVT_I_S (R99). -/
def execFcvtIS (a : AOp) (s : State) : Host.Outcome State Fault Refusal := s.run (fun d => d.arrayIssue 0x6B a)

/-- STRIN (R100). -/
def execStrin (a : AOp) (s : State) : Host.Outcome State Fault Refusal := s.run (fun d => d.arrayIssue 0x6C a)

/-- STROUT (R100). -/
def execStrout (a : AOp) (s : State) : Host.Outcome State Fault Refusal := s.run (fun d => d.arrayIssue 0x6D a)

/-- MILESTONE (R101). -/
def execMilestone (a : AOp) (s : State) : Host.Outcome State Fault Refusal := s.run (fun d => d.arrayIssue 0x6E a)

/-- AMODE (R102). -/
def execAmode (a : AOp) (s : State) : Host.Outcome State Fault Refusal := s.run (fun d => d.arrayIssue 0x6F a)

/-- CUSTOMER_OPCODE (R105): opcode 0x70 + n. -/
def execCustomerOpcode (n : BitVec 4) (a : AOp) (s : State) : Host.Outcome State Fault Refusal :=
  s.run (fun d => d.arrayIssue (0x70 + n.toNat) a)

/-- RESERVED_ARRAY_OPCODE (R103): an opcode of no row; it is refused with fault 0x01. -/
def execReservedArrayOpcode (opc : BitVec 7) (a : AOp) (s : State) : Host.Outcome State Fault Refusal :=
  s.run (fun d => d.arrayIssue opc.toNat a)

end Sys2Proof.Machine
end

