-- ==== Sys2Proof/Machine/CmdEvents.lean ====
section
/-! DEFINITION. The event controller's commands (R296 to R311). -/

namespace Sys2Proof.Machine

/-- A read of a register that a command makes: the response, and for a core the bus error. -/
def Dev.readCommand (d : Dev) (r : Requester) (a : Nat) : Dev :=
  let w := d.who r
  match d.read w a 4 with
  | .answered st l d => (d.respond st l).lateBusError w st (BitVec.ofNat 32 a)
  | .wait d => d

/-- The write of a source number to EVC_DONE by its owner. -/
def ownerRequester (o : Fin 5) : Requester := if h : o.val < 4 then .core ⟨o.val, h⟩ else .host

/-- The hold timer of a moderated group ends (R306). -/
def Dev.modExpire (d : Dev) (g : Nat) : Dev :=
  if d.domOn 0 && g ≠ 0 && d.flag (R.EVC_MOD_EN g) && d.fld (R.EVC_MOD_TIMER g) ≠ 0 && d.evcCount g ≠ 0 then d.releaseGroup g else d

/-- A vector's mask bit in the MSI-X table; masked at reset (R311). -/
def Dev.msixMasked (d : Dev) (v : Nat) : Bool :=
  (bankGet (fun k => if k % 4 = 3 then (1 : Word) else 0) d.host.msixTab (4 * v + 3)).getLsbD 0

/-- An asked message leaves the HOST block (R311, R361). -/
def Dev.msixSend (d : Dev) (v : BitVec 6) : Dev :=
  if d.evc.msix.getLsbD v.toNat && d.hostOut && d.host.msixEn && !d.host.msixMask && !d.msixMasked v.toNat then
    { d with evc := { d.evc with msix := setBit d.evc.msix v.toNat false } }
  else d

/-- EVENT_LINE_CHANGE (R296 to R298): the filtered line of a source that has one. The EVC lies in CORE. -/
def execEventLineChange (src : BitVec 8) (v : Bool) (s : State) : Host.Outcome State Fault Refusal :=
  s.run (fun d => if d.domOn 0 && sourceHasLine src.toNat then d.sourceLine src.toNat (v && d.sourcePowered src.toNat) else d)

/-- EVENT_SET (R298). -/
def execEventSet (r : Requester) (w : Fin 8) (v : Word) (s : State) : Host.Outcome State Fault Refusal :=
  s.run (fun d => d.commandWord r (R.EVC_SET w.val) v)

/-- CLAIM (R301): a core's read of its EVC_CLAIM. -/
def execClaim (c : CoreId) (s : State) : Host.Outcome State Fault Refusal :=
  s.run (fun d => d.readCommand (.core c) (R.EVC_CLAIM c.val))

/-- DONE (R302). -/
def execDone (owner : Fin 5) (src : BitVec 8) (s : State) : Host.Outcome State Fault Refusal :=
  s.run (fun d => d.commandWord (ownerRequester owner) (R.EVC_DONE owner.val) (src.setWidth 32))

/-- MOD_TIMER_EXPIRE (R306). -/
def execModTimerExpire (g : BitVec 4) (s : State) : Host.Outcome State Fault Refusal := s.run (fun d => d.modExpire g.toNat)

/-- MOD_DISABLE (R307): a write of EVC_MOD with EN = 0. -/
def execModDisable (r : Requester) (g : BitVec 4) (v : Word) (s : State) : Host.Outcome State Fault Refusal :=
  s.run (fun d => d.commandWord r (R.EVC_MOD g.toNat) (v &&& 0x7FFFFFFF))

/-- MSIX_SEND (R311). -/
def execMsixSend (vec : BitVec 6) (s : State) : Host.Outcome State Fault Refusal := s.run (fun d => d.msixSend vec)

end Sys2Proof.Machine
end

