-- ==== Sys2Proof/Machine/CmdByway.lean ====
section
/-! DEFINITION. The Byway fabric's commands (R344 to R357). -/

namespace Sys2Proof.Machine

/-- A register with one more bit written 1. -/
def Dev.regWith (d : Dev) (a bit : Nat) : Word := setBit (d.reg a) bit true

/-- A request of the fabric's logic through node 0x0B: one flit, without attributes (R356). -/
def Dev.fabricRequest (d : Dev) (write : Bool) (p : Packet) : Dev :=
  if !d.domOn 1 || d.fld R.BYW_RGNCTL_RUN = 0 || d.tidBusy p.tid.toNat then d else
  let d := d.request (if write then .wr else .rd) { p with src := 0x0B, sys := false, sec := false }
  if d.tidBusy p.tid.toNat then d.modByw (fun b => { b with req := b.req ++ [p.tid] }) else d

/-- FABRIC_FULL_LOAD (R344). -/
def execFabricFullLoad (r : Requester) (s : State) : Host.Outcome State Fault Refusal :=
  s.run (fun d => d.commandWord r R.BYW_CFGCMD 1)

/-- FABRIC_PARTIAL_LOAD (R344). -/
def execFabricPartialLoad (r : Requester) (rgn : BitVec 3) (s : State) : Host.Outcome State Fault Refusal :=
  s.run (fun d => d.commandWord r R.BYW_CFGCMD (BitVec.ofNat 32 (3 + rgn.toNat * 8)))

/-- FABRIC_FRAMES_READ (R344). -/
def execFabricFramesRead (ok : Bool) (s : State) : Host.Outcome State Fault Refusal := s.run (fun d => d.framesRead ok)

/-- FABRIC_VERIFY_DONE (R344, R345). -/
def execFabricVerifyDone (v : Verdict) (s : State) : Host.Outcome State Fault Refusal :=
  s.run (fun d => d.fabricVerified v)

/-- FABRIC_OUTPUTS_ENABLE (R345). -/
def execFabricOutputsEnable (s : State) : Host.Outcome State Fault Refusal := s.run Dev.fabricStart

/-- QUEUE_LINE_BEGIN (R351). -/
def execQueueLineBegin (q : Fin 48) (s : State) : Host.Outcome State Fault Refusal := s.run (fun d => d.queueBegin q)

/-- GATHER_READ (R350). -/
def execGatherRead (q : Fin 48) (s : State) : Host.Outcome State Fault Refusal := s.run (fun d => d.gatherRead q)

/-- QUEUE_POP (R347). -/
def execQueuePop (q : Fin 48) (s : State) : Host.Outcome State Fault Refusal := s.run (fun d => d.queuePop q)

/-- CAPTURE_ARM (R355). -/
def execCaptureArm (r : Requester) (s : State) : Host.Outcome State Fault Refusal :=
  s.run (fun d => d.commandWord r R.BYW_CAPCTL (d.regWith R.BYW_CAPCTL 31))

/-- CAPTURE_TAKE (R355). -/
def execCaptureTake (ffs : List Word) (s : State) : Host.Outcome State Fault Refusal := s.run (fun d => d.captureTake ffs)

/-- CAPTURE_RESUME (R355). -/
def execCaptureResume (r : Requester) (s : State) : Host.Outcome State Fault Refusal :=
  s.run (fun d => d.commandWord r R.BYW_CAPCTL (d.regWith R.BYW_CAPCTL 30))

/-- RBDATA_READ (R355). -/
def execRbdataRead (r : Requester) (s : State) : Host.Outcome State Fault Refusal := s.run (fun d => d.readCommand r R.BYW_RBDATA)

/-- FABRIC_ROAD_REQUEST (R356). -/
def execFabricRoadRequest (write : Bool) (p : Packet) (s : State) : Host.Outcome State Fault Refusal :=
  s.run (fun d => d.fabricRequest write p)

end Sys2Proof.Machine
end

