-- ==== Sys2Proof/Machine/CmdGallery.lean ====
section
/-! DEFINITION. Stairs, gallery, lead mover, line timer and line gate (R173 to R197, R232 to R237). -/

namespace Sys2Proof.Machine

/-- STAIR_TRANSFER_START (R180). -/
def execStairTransferStart (h : LHall) (s : State) : Host.Outcome State Fault Refusal := s.run (fun d => d.startTransfer h)

/-- STAIR_WAIT_TIMEOUT (R180). -/
def execStairWaitTimeout (h : LHall) (s : State) : Host.Outcome State Fault Refusal := s.run (fun d => d.stairTimeout h)

/-- GALLERY_BANK_GRANT (R185): the requests that wait at a bank. -/
def execGalleryBankGrant (bank : Fin 32) (waiting : List GalReq) (s : State) : Host.Outcome State Fault Refusal :=
  s.run (fun d => if d.domOn 0 then d.bankGrant bank waiting else d)

/-- LEAD_COPY_START (R189). -/
def execLeadCopyStart (s : State) : Host.Outcome State Fault Refusal := s.run Dev.leadStart

/-- LEAD_COPY_DONE (R189): with no queue enabled the line is reported done at once (R352). -/
def execLeadCopyDone (s : State) : Host.Outcome State Fault Refusal := s.run (fun d => d.leadDone.reportLines)

/-- SECURE_WIPE (R192). -/
def execSecureWipe (r : Requester) (s : State) : Host.Outcome State Fault Refusal :=
  s.run (fun d => d.commandWord r R.GAL_SEC 0x80000000)

/-- WIPE_CLEAR_DONE (R193). -/
def execWipeClearDone (s : State) : Host.Outcome State Fault Refusal := s.run Dev.wipeCleared

/-- WIPE_READBACK_DONE (R193), and what waits for it: the life-cycle transition that the wipe precedes (R426). -/
def execWipeReadbackDone (nonzero : Bool) (s : State) : Host.Outcome State Fault Refusal :=
  s.run (fun d => if d.gal.wipe = WipePhase.readback then (d.wipeRead nonzero).lifeWiped nonzero else d)

/-- MARCH_START (R196). -/
def execMarchStart (r : Requester) (v : Word) (s : State) : Host.Outcome State Fault Refusal :=
  s.run (fun d => d.commandWord r R.GAL_MCTL (v ||| 0x80000000))

/-- MARCH_DONE (R196). -/
def execMarchDone (fails : List MarchFail) (s : State) : Host.Outcome State Fault Refusal := s.run (fun d => d.marchEnd fails)

/-- RPR_WRITE (R197). -/
def execRprWrite (r : Requester) (n : Fin 320) (v : Word) (s : State) : Host.Outcome State Fault Refusal :=
  s.run (fun d => d.commandWord r (R.GAL_RPR n.val) v)

/-- ENCODER_EDGE (R233). -/
def execEncoderEdge (a b : Bool) (s : State) : Host.Outcome State Fault Refusal := s.run (fun d => d.encoderEdge a b)

/-- LSYNC_PULSE (R233). -/
def execLsyncPulse (lowNs highNs : Nat) (s : State) : Host.Outcome State Fault Refusal :=
  s.run (fun d => d.lsyncPulse lowNs highNs)

/-- LINE_STROBE (R232). -/
def execLineStrobe (t : Nat) (s : State) : Host.Outcome State Fault Refusal := s.run (fun d => d.lineStrobe t)

/-- LINE_GATE_ADMIT (R237). -/
def execLineGateAdmit (s : StreamId) (st : State) : Host.Outcome State Fault Refusal := st.run (fun d => d.gateAdmit s)

end Sys2Proof.Machine
end

