-- ==== Sys2Proof/Machine/CmdHost.lean ====
section
/-! DEFINITION. The host interface's commands: TLPs, resets, doorbells and the queued commands (R223, R231, R359 to R367, R421, R423). -/

namespace Sys2Proof.Machine

/-! Inbound accesses (R359, R360). -/

/-- The road address of an offset in BAR0 or BAR2. -/
def barAddr (bar : Nat) (off : Nat) : Option Nat :=
  if bar = 0 && off < 0x1000000 then some (0x10000000 + off)
  else if bar = 2 && off < 0x2000000 then some (0x40000000 + off) else none

/-- n bytes from an address in pieces along 64-byte boundaries. -/
def pieces64 : Nat → Nat → Nat → List (Nat × Nat)
  | 0, _, _ => []
  | f + 1, a, n => if n = 0 then [] else
    let k := min n (64 - a % 64)
    (a, k) :: pieces64 f (a + k) (n - k)

/-- The same for bytes to be written. -/
def cut64 (a : Nat) (l : List Byte) : List (Nat × List Byte) :=
  (pieces64 (l.length / 64 + 2) a l.length).map (fun p => (p.1, (l.drop (p.1 - a)).take p.2))

/-- The result of a sequence of accesses: the first status other than OK, the bytes read, whether one had to wait. -/
structure Sweep where
  st : BitVec 4 := 0
  data : List Byte := []
  stuck : Bool := false
deriving DecidableEq, Repr

/-- Reads pieces one after another up to the first that fails. -/
def Dev.sweepRead (d : Dev) (w : Who) (a n : Nat) : Sweep × Dev :=
  (pieces64 (n / 64 + 2) a n).foldl (fun (r : Sweep × Dev) p =>
    if r.1.st ≠ 0 || r.1.stuck then r else
    match r.2.read w p.1 p.2 with
    | .answered st l d => ({ r.1 with st := st, data := if st = 0 then r.1.data ++ l else r.1.data }, d)
    | .wait d => ({ r.1 with stuck := true }, d)) ({}, d)

/-- Writes pieces one after another up to the first that fails; data holds the bytes written. -/
def Dev.sweepWrite (d : Dev) (w : Who) (a : Nat) (l : List Byte) : Sweep × Dev :=
  (cut64 a l).foldl (fun (r : Sweep × Dev) p =>
    if r.1.st ≠ 0 || r.1.stuck then r else
    match r.2.write w p.1 p.2 with
    | .answered st _ d => ({ r.1 with st := st, data := if st = 0 then r.1.data ++ p.2 else r.1.data }, d)
    | .wait d => ({ r.1 with stuck := true }, d)) ({}, d)

/-- The interface takes requests: HOST is on, the link is up, the function is in D0. -/
def Dev.hostIn (d : Dev) : Bool := d.domOn 2 && d.flag R.HOST_LSTAT_UP && !d.host.d3hot

def hostWho : Who := ⟨0x08, false, false⟩

/-- A word of BAR4: the MSI-X table, and the pending bit array (R359, R311). -/
def Dev.bar4Word (d : Dev) (i : Nat) : Word :=
  if i < 256 then bankGet (fun k => if k % 4 = 3 then (1 : Word) else 0) d.host.msixTab i
  else if i = 0x800 then d.evc.msix.setWidth 32
  else if i = 0x801 then (d.evc.msix >>> 32).setWidth 32 else 0

/-- A byte of BAR4. -/
def Dev.bar4Byte (d : Dev) (off : Nat) : Byte := ((d.bar4Word (off / 4)) >>> (8 * (off % 4))).setWidth 8

def Dev.setBar4Word (d : Dev) (i : Nat) (v : Word) : Dev :=
  if i < 256 then
    { d with host := { d.host with msixTab := bankSet (fun k => if k % 4 = 3 then (1 : Word) else 0) d.host.msixTab i v } }
  else d

/-- An inbound memory read. -/
def Dev.hostRead (d : Dev) (bar off len : Nat) : Dev :=
  if !d.hostIn then d
  else if bar = 4 then
    if off + len ≤ 0x4000 then d.respond 0 ((List.range len).map (fun i => d.bar4Byte (off + i))) else d.respond 1 []
  else match barAddr bar off with
    | none => d.respond 1 []
    | some a =>
      let r := d.sweepRead hostWho a len
      if r.1.stuck then r.2 else r.2.respond r.1.st r.1.data

/-- Whole aligned blocks of 64 bytes in a row become packets of up to eight flits; other pieces are packets of their own. -/
def joinBlocks : List (Nat × List Byte) → List (Nat × List Byte)
  | [] => []
  | (a, l) :: r =>
    match joinBlocks r with
    | (b, m) :: s =>
      if l.length = 64 && m.length % 64 = 0 && m.length < 512 && b = a + 64 then (a, l ++ m) :: s else (a, l) :: (b, m) :: s
    | [] => [(a, l)]

/-- A posted packet of the host. -/
def hostPacket (p : Nat × List Byte) : Packet := postedPacket 0x08 p.1 p.2

/-- An inbound memory write. -/
def Dev.hostWrite (d : Dev) (bar off : Nat) (l : List Byte) : Dev :=
  if !d.hostIn then d
  else if bar = 4 then
    if off % 4 ≠ 0 || l.length % 4 ≠ 0 || 0x4000 < off + l.length then d.raise 0x61 else
    forEach (List.range (l.length / 4)) d (fun d i =>
      d.setBar4Word (off / 4 + i) (BitVec.ofNat 32 (leNat ((l.drop (4 * i)).take 4))))
  else match barAddr bar off with
    | none => d.raise 0x61
    | some a => (d.postAll .pwr ((joinBlocks (cut64 a l)).map hostPacket)).getD d

/-- The answer to a request that went out to the host (R360). -/
def Dev.hostAnswer (d : Dev) (tid : BitVec 12) (st : BitVec 4) (l : List Byte) : Dev :=
  match d.road.waiting.find? (fun x => x.node = 0x08 && x.tid = tid) with
  | none => d
  | some x => ({ d with road := { d.road with waiting := d.road.waiting.erase x } }).sendResp { x with status := st, data := l }

/-- A configuration write (R361, R362, R311). -/
def Dev.configWrite (d : Dev) (w : CfgWrite) : Dev :=
  if !d.domOn 2 || !d.flag R.HOST_LSTAT_UP then d else
  match w with
  | .busMaster en => { d with host := { d.host with busMaster := en } }
  | .msixEnable en => { d with host := { d.host with msixEn := en } }
  | .msixMask en => { d with host := { d.host with msixMask := en } }
  | .toD0 => { d with host := { d.host with d3hot := false } }

/-! The executor (R364 to R367). -/

def engineOpc (o : Nat) : Bool := o = 1 || o = 2
def firmwareOpc (o : Nat) : Bool := o = 0x10 || o = 0x11 || (0x20 ≤ o && o ≤ 0x24)

/-- A queue whose next entry can be fetched. -/
def Dev.queueFetches (d : Dev) (q : Fin 16) : Bool :=
  d.hostOut && !d.host.d3hot && d.flag (R.HOST_QCFG_EN q.val) && (d.hostQ q).cmd.isNone && !d.flag (R.HOST_QSTAT_QERR q.val) &&
    !d.cqFull q && d.fld (R.HOST_QSQT_TAIL q.val) ≠ d.fld (R.HOST_QSTAT_HEAD q.val)

/-- A queue that has a step for the executor. -/
def Dev.queueWork (d : Dev) (q : Fin 16) : Bool :=
  d.queueFetches q || (d.hostOut && (match (d.hostQ q).cmd with
    | some c => !c.fw
    | none => false))

/-- The queue that is served next. -/
def Dev.nextQueue (d : Dev) : Option (Fin 16) :=
  ((List.range 16).map (fun i => Fin.ofNat 16 (d.host.served + 1 + i))).find? d.queueWork

/-- A step of the executor for queue q, when it is that queue's turn. -/
def Dev.turn (d : Dev) (q : Fin 16) (f : Dev → Dev) : Dev :=
  if d.nextQueue = some q then f { d with host := { d.host with served := q.val } } else d

/-- The 64 bytes of an entry. -/
def Sqe.bytes (e : Sqe) : List Byte :=
  e.opc :: BitVec.ofNat 8 (bn e.fence) :: leBytes 2 e.cid.toNat ++ leBytes 4 0 ++ leBytes 8 e.haddr.toNat ++ leBytes 8 e.raddr.toNat ++
    leBytes 4 e.len.toNat ++ (List.range 36).map (fun i => e.params.getD i 0)

/-- A command completes; where the spec gives no RESULT it is open. -/
def Dev.finish (d : Dev) (q : Fin 16) (st detail : Nat) : Dev :=
  let (n, d) := d.fresh
  d.complete q st detail (Config.freeWord n)

/-- The head moves past an entry, whose command the queue now has. -/
def Dev.takeEntry (d : Dev) (q : Fin 16) (e : Sqe) (fw : Bool) : Dev :=
  let d := d.setFld (R.HOST_QSTAT_HEAD q.val) ((d.fld (R.HOST_QSTAT_HEAD q.val) + 1) % d.hostSize q)
  d.setHostQ q { d.hostQ q with cmd := some ⟨e, 0, fw⟩ }

/-- COMMAND_STEP: the next queue's entry is fetched. A firmware command goes to its mailbox; while that write waits, the entry does. -/
def Dev.fetch (d : Dev) (q : Fin 16) (e : Sqe) : Dev :=
  let others := (List.finRange 16).any (fun k => k ≠ q && (d.hostQ k).cmd.isSome)
  if !d.queueFetches q || (e.fence && others) then d else
  if d.mode = 3 && e.opc ≠ 0x21 then (d.takeEntry q e false).finish q 6 0
  else if firmwareOpc e.opc.toNat then
    let r := d.sweepWrite hostWho (0x40000000 + d.fld R.HOST_MBOX_BASE * 4096 + 64 * q.val) (Sqe.bytes e)
    if r.1.stuck then r.2
    else if r.1.st ≠ 0 then (r.2.takeEntry q e false).finish q 3 r.1.st.toNat
    else (r.2.takeEntry q e true).raise (0x40 + q.val)
  else d.takeEntry q e false

/-- The engine's command of a queue. -/
def Dev.engineCmd (d : Dev) (q : Fin 16) (o : Nat) (f : HostCmd → Dev) : Dev :=
  match (d.hostQ q).cmd with
  | some c => if !c.fw && c.e.opc.toNat = o then f c else d
  | none => d

/-- The engine has moved n bytes more of a command. -/
def Dev.moved (d : Dev) (q : Fin 16) (c : HostCmd) (n : Nat) : Dev :=
  let m := c.moved + n
  if c.e.len.toNat ≤ m then d.finish q 0 0 else d.setHostQ q { d.hostQ q with cmd := some { c with moved := m } }

/-- A step of COPYIN: bytes that the host's memory has returned, or a failed read. -/
def Dev.copyIn (d : Dev) (q : Fin 16) (c : HostCmd) (l : List Byte) (ok : Bool) : Dev :=
  if !ok then d.finish q 4 0 else
  let r := d.sweepWrite hostWho (c.e.raddr.toNat + c.moved) (l.take (c.e.len.toNat - c.moved))
  if r.1.st ≠ 0 then r.2.finish q 3 r.1.st.toNat else r.2.moved q c r.1.data.length

/-- A step of COPYOUT of up to n bytes. -/
def Dev.copyOut (d : Dev) (q : Fin 16) (c : HostCmd) (n : Nat) : Dev :=
  let r := d.sweepRead hostWho (c.e.raddr.toNat + c.moved) (min n (c.e.len.toNat - c.moved))
  if r.1.st ≠ 0 then r.2.finish q 3 r.1.st.toNat else r.2.moved q c r.1.data.length

/-! Firmware's part of the firmware commands (R366). It runs on C0 in system mode without the secure attribute. -/

def fwWho : Who := ⟨0, true, false⟩

/-- The firmware command of a queue with an opcode. -/
def Dev.firmware (d : Dev) (q : Fin 16) (o : Nat) (f : Sqe → Dev) : Dev :=
  match (d.hostQ q).cmd with
  | some c => if c.fw && c.e.opc.toNat = o then f c.e else d
  | none => d

/-- Firmware completes a command through HOST_FWD. -/
def Dev.fwFinish (d : Dev) (q : Fin 16) (st detail : Nat) (result : BitVec 64) : Dev :=
  let d := (d.setReg (R.HOST_FWD q.val) (result.setWidth 32)).setReg (R.HOST_FWDH q.val) ((result >>> 32).setWidth 32)
  ((d.setFld (R.HOST_FWDC_STATUS q.val) st).setFld (R.HOST_FWDC_DETAIL q.val) detail).fwGo q

/-- The same with an open RESULT. -/
def Dev.fwDone (d : Dev) (q : Fin 16) (st detail : Nat) : Dev :=
  let (n, d) := d.fresh
  d.fwFinish q st detail (Config.freeWord n)

/-- A register write by firmware, then f; a failed write completes the command with a road error. -/
def Dev.fwWrite (d : Dev) (q : Fin 16) (a : Nat) (v : Word) (f : Dev → Dev) : Dev :=
  match d.write fwWho a (leBytes 4 v.toNat) with
  | .answered st _ d => if st = 0 then f d else d.fwDone q 3 st.toNat
  | .wait d => d

/-- Positions of hall h (R226). -/
def blockPositions (p : PlanData) (h : Nat) : Nat := min p.perHall (p.positions - h * p.perHall)

/-- Head-map segments that overlap, leave a position uncovered, or reach beyond D. -/
def headsBad (p : PlanData) : Bool :=
  p.heads.any (fun e => p.positions < e.1 + e.2) ||
    (List.range p.heads.length).any (fun i => (List.range i).any (fun j =>
      let a := p.heads.getD i (0, 0)
      let b := p.heads.getD j (0, 0)
      a.1 < b.1 + b.2 && b.1 < a.1 + a.2)) ||
    (p.heads.map Prod.snd).sum < p.positions

/-- The checks of R223 and R231 in the order of their codes; none when the plan passes. Times are in ps. -/
def Dev.planCause (d : Dev) (p : PlanData) : Option Nat :=
  let lines := (96000000 + p.period - 1) / p.period
  let s : Int := p.period - p.work
  let f := (p.perHall + 4095) / 4096
  firstCause
    [(1, p.foen && p.lead < lines + 2),
     (2, p.foen && s < 2 * p.spanTime),
     (3, p.foen && 1000 * s < ((lines + 1) * p.work : Nat)),
     (4, p.foen && (p.halls &&& ~~~d.arr.verified) ≠ 0),
     (5, headsBad p),
     (6, (List.range 16).any (fun h => 1 ≤ blockPositions p h && blockPositions p h ≤ 4096 * (f - 1))),
     (7, p.govEn && (p.guard16 * 16000 < 2 * p.spanTime || ((p.target16 : Int) - p.guard16) * 16000 * 32 < p.period)),
     (8, p.foen && d.flag R.SEQ_RSTAT_LNKF)]

/-- MODE: the request of R401 by firmware on C0. -/
def Dev.hostMode (d : Dev) (q : Fin 16) (e : Sqe) : Dev :=
  let t := (e.params.getD 0 0).toNat % 16
  let ref := d.flag R.PWR_MSTAT_REF
  let d := (d.setFlag R.PWR_MSTAT_REF false).modeRequest 0 t
  if d.flag R.PWR_MSTAT_REF then d.fwDone q 5 (d.fld R.PWR_MSTAT_RCAUSE)
  else (if ref then d.setFlag R.PWR_MSTAT_REF true else d).fwDone q 0 0

/-- NVSWR: LEN bytes from RADDR to an offset of NVS. -/
def Dev.nvsWrite (d : Dev) (q : Fin 16) (e : Sqe) (off : Nat) : Dev :=
  let r := d.sweepRead fwWho e.raddr.toNat e.len.toNat
  if r.1.stuck then r.2
  else if r.1.st ≠ 0 then r.2.fwDone q 3 r.1.st.toNat
  else
    let x := r.2.sweepWrite fwWho (0x20000000 + off) r.1.data
    if x.1.stuck then x.2 else if x.1.st ≠ 0 then x.2.fwDone q 3 x.1.st.toNat else x.2.fwDone q 0 0

/-- The body of a report (R423). -/
def Dev.reportBody (d : Dev) (e : Sqe) (time : BitVec 64) : List Byte :=
  (List.range 8).flatMap (fun k => leBytes 4 (d.reg (R.SEC_DEVID k)).toNat) ++
  (List.range 32).map (fun i => e.params.getD (4 + i) 0) ++
  [BitVec.ofNat 8 d.lcs, BitVec.ofNat 8 (d.fld R.DBG_STAT_LVL), BitVec.ofNat 8 (d.fld R.SEC_LCS_TFUSE),
    BitVec.ofNat 8 (d.fld R.PWR_TAMP_COUNT)] ++
  leBytes 4 d.sec.fwVersion.toNat ++ leBytes 8 time.toNat ++ padTo 32 d.sec.fwDigest ++ padTo 32 d.sec.vendorDigest ++
  padTo 32 d.sec.custDigest ++ padTo 32 (if d.flag R.BYW_CFGSTAT_DONE then d.byw.fullDigest else []) ++ leBytes 4 (d.viewActive .sec R.SEC_KEYS).toNat ++
  leBytes 4 (d.reg R.PWR_RSTC).toNat ++ padTo 40 []

/-- The signature block of a report (R418, R423): the identity public key, and the signature. -/
def reportBlock (sig : List Byte) : SigBlock :=
  ⟨1793, padTo 1793 (Config.identityKey (0x4B :: Config.pufSeed)), min sig.length 1280, sig.take 1280, true⟩

/-- ATTEST: the request, and once its signature is complete the report. -/
def Dev.attest (d : Dev) (q : Fin 16) (e : Sqe) (sig : List Byte) : Dev :=
  if e.len.toNat < 3392 then d.fwFinish q 2 0 3392
  else if !d.sec.sign.contains q then d.startSign q
  else if d.sec.sign.head? = some q && d.fld R.SEC_STAT_SSTEP = 120 then
    let (t, d) := d.readTime
    let report := d.reportBody e t ++ (reportBlock sig).bytes
    ((d.respond 0 report).endSign).fwDone q 0 0
  else d

/-- An address that the source registers of FABLOAD and PATCH can hold. -/
def sourceOk (e : Sqe) : Bool := e.raddr.toNat < 2 ^ 32 && e.raddr.toNat % 8 = 0

/-- HIMG: SEQ_HIMGCMD with OP and HALL; a command that has started is completed by firmware when HIMG_DONE has come. -/
def Dev.hostHimg (d : Dev) (q : Fin 16) (e : Sqe) : Dev :=
  let v := 2 ^ 31 + (e.params.getD 0 0).toNat % 4 * 2 ^ 8 + (e.params.getD 1 0).toNat % 16
  let d := d.setFlag R.SEQ_HIMGCMD_ERR false
  d.fwWrite q R.SEQ_HIMGCMD (BitVec.ofNat 32 v) (fun d =>
    if d.flag R.SEQ_HIMGCMD_ERR then d.fwDone q 5 (d.fld R.SEQ_HIMGCMD_ECAUSE) else d)

/-- FABLOAD. -/
def Dev.hostFabload (d : Dev) (q : Fin 16) (e : Sqe) : Dev :=
  if !sourceOk e then d.fwDone q 2 0 else
  let part := e.params.getD 0 0 = 1
  let v := if part then 3 + (e.params.getD 1 0).toNat % 8 * 8 else 1
  d.fwWrite q R.BYW_CFGSRC (BitVec.ofNat 32 e.raddr.toNat) (fun d =>
    (d.setFlag R.BYW_CFGSTAT_ERR false).fwWrite q R.BYW_CFGCMD (BitVec.ofNat 32 v) (fun d =>
      if d.flag R.BYW_CFGSTAT_ERR then d.fwDone q 5 (d.fld R.BYW_CFGSTAT_ECAUSE) else d))

/-- PATCH. -/
def Dev.hostPatch (d : Dev) (q : Fin 16) (e : Sqe) : Dev :=
  if !sourceOk e then d.fwDone q 2 0 else
  let v := 1 + (e.params.getD 0 0).toNat % 2 * 2
  d.fwWrite q R.SEQ_PLDSRC (BitVec.ofNat 32 e.raddr.toNat) (fun d =>
    (d.setFlag R.SEQ_PLDSTAT_ERR false).fwWrite q R.SEQ_PLDCMD (BitVec.ofNat 32 v) (fun d =>
      if d.flag R.SEQ_PLDSTAT_ERR then d.fwDone q 5 (d.fld R.SEQ_PLDSTAT_ECAUSE) else d))

/-- What the configuration space says of the function (R358); these values are fixed. -/
structure HostIdentity where
  vendor : BitVec 16
  device : BitVec 16
  revision : BitVec 8
  classCode : BitVec 24
  subVendor : BitVec 16
  subDevice : BitVec 16
deriving DecidableEq, Repr

def hostIdentity : HostIdentity := ⟨0x1EB6, 0x6517, 0x11, 0x0B4000, 0x1EB6, 0x6517⟩

/-! The commands. -/

/-- HOST_READ_TLP (R359). -/
def execHostReadTlp (bar : Fin 6) (off : BitVec 32) (len : Nat) (s : State) : Host.Outcome State Fault Refusal :=
  s.run (fun d => d.hostRead bar.val off.toNat len)

/-- HOST_WRITE_TLP (R359). -/
def execHostWriteTlp (bar : Fin 6) (off : BitVec 32) (data : List Byte) (s : State) : Host.Outcome State Fault Refusal :=
  s.run (fun d => d.hostWrite bar.val off.toNat data)

/-- HOST_COMPLETION_TLP (R360). -/
def execHostCompletionTlp (tid : BitVec 12) (ok : Bool) (data : List Byte) (s : State) : Host.Outcome State Fault Refusal :=
  s.run (fun d => d.hostAnswer tid (if ok then 0 else 2) (if ok then data else []))

/-- PERST (R362). -/
def execPerst (s : State) : Host.Outcome State Fault Refusal := s.run Dev.hostReset

/-- HOT_RESET (R362). -/
def execHotReset (s : State) : Host.Outcome State Fault Refusal := s.run Dev.hostReset

/-- FLR (R362). -/
def execFlr (s : State) : Host.Outcome State Fault Refusal := s.run Dev.functionReset

/-- D3HOT_ENTRY (R362). -/
def execD3hotEntry (s : State) : Host.Outcome State Fault Refusal := s.run Dev.enterD3hot

/-- HOST_LINK_CHANGE (R367). -/
def execHostLinkChange (up : Bool) (speed width : BitVec 4) (l1 : Bool) (s : State) : Host.Outcome State Fault Refusal :=
  s.run (fun d => if d.domOn 2 then d.linkState up speed.toNat width.toNat l1 else d)

/-- SQ_DOORBELL (R365). -/
def execSqDoorbell (r : Requester) (q : Fin 16) (tail : BitVec 12) (s : State) : Host.Outcome State Fault Refusal :=
  s.run (fun d => d.commandWord r (R.HOST_QSQT q.val) (tail.setWidth 32))

/-- CQ_DOORBELL (R365). -/
def execCqDoorbell (r : Requester) (q : Fin 16) (head : BitVec 12) (s : State) : Host.Outcome State Fault Refusal :=
  s.run (fun d => d.commandWord r (R.HOST_QCQH q.val) (head.setWidth 32))

/-- COMMAND_STEP (R365). -/
def execCommandStep (e : Sqe) (s : State) : Host.Outcome State Fault Refusal :=
  s.run (fun d => match d.nextQueue with
    | some q => d.turn q (fun d => d.fetch q e)
    | none => d)

/-- COPYIN (R366). -/
def execCopyin (q : Fin 16) (data : List Byte) (ok : Bool) (s : State) : Host.Outcome State Fault Refusal :=
  s.run (fun d => d.turn q (fun d => d.engineCmd q 1 (fun c => d.copyIn q c data ok)))

/-- COPYOUT (R366). -/
def execCopyout (q : Fin 16) (n : Nat) (s : State) : Host.Outcome State Fault Refusal :=
  s.run (fun d => d.turn q (fun d => d.engineCmd q 2 (fun c => d.copyOut q c n)))

/-- PLAN (R223, R231). -/
def execPlan (q : Fin 16) (p : PlanData) (s : State) : Host.Outcome State Fault Refusal :=
  s.run (fun d => d.firmware q 0x10 (fun _ => match d.planCause p with
    | some c => d.fwDone q 5 c
    | none => d.fwDone q 0 0))

/-- MODE (R366). -/
def execMode (q : Fin 16) (s : State) : Host.Outcome State Fault Refusal :=
  s.run (fun d => d.firmware q 0x11 (fun e => d.hostMode q e))

/-- NVSWR (R366). -/
def execNvswr (q : Fin 16) (off : BitVec 23) (s : State) : Host.Outcome State Fault Refusal :=
  s.run (fun d => d.firmware q 0x20 (fun e => d.nvsWrite q e off.toNat))

/-- ATTEST (R423). -/
def execAttest (q : Fin 16) (sig : List Byte) (s : State) : Host.Outcome State Fault Refusal :=
  s.run (fun d => d.firmware q 0x21 (fun e => d.attest q e sig))

/-- HIMG (R366). -/
def execHimg (q : Fin 16) (s : State) : Host.Outcome State Fault Refusal :=
  s.run (fun d => d.firmware q 0x22 (fun e => d.hostHimg q e))

/-- FABLOAD (R366). -/
def execFabload (q : Fin 16) (s : State) : Host.Outcome State Fault Refusal :=
  s.run (fun d => d.firmware q 0x23 (fun e => d.hostFabload q e))

/-- PATCH (R366). -/
def execPatch (q : Fin 16) (s : State) : Host.Outcome State Fault Refusal :=
  s.run (fun d => d.firmware q 0x24 (fun e => d.hostPatch q e))

/-- INVALID_HOST_OPCODE (R366). -/
def execInvalidHostOpcode (q : Fin 16) (s : State) : Host.Outcome State Fault Refusal :=
  s.run (fun d => d.turn q (fun d => match (d.hostQ q).cmd with
    | some c => if !c.fw && !engineOpc c.e.opc.toNat then d.finish q 1 0 else d
    | none => d))

/-- FW_COMPLETE (R366). -/
def execFwComplete (r : Requester) (q : Fin 16) (s : State) : Host.Outcome State Fault Refusal :=
  s.run (fun d => d.commandWord r (R.HOST_FWDC q.val) (setBit (d.reg (R.HOST_FWDC q.val)) 31 true))

/-- COMPLETION_TIMEOUT (R360). -/
def execCompletionTimeout (tid : BitVec 12) (s : State) : Host.Outcome State Fault Refusal := s.run (fun d => d.hostAnswer tid 2 [])

/-- CONFIG_WRITE_TLP (R361, R362, R311). -/
def execConfigWriteTlp (w : CfgWrite) (s : State) : Host.Outcome State Fault Refusal := s.run (fun d => d.configWrite w)

end Sys2Proof.Machine
end

