-- ==== Sys2Proof/Machine/CmdLinks.lean ====
section
/-! DEFINITION. The commands of the DRAM controller, the Ramufin ports and the gallery DMA engines (R241, R371 to R376, R465). -/

namespace Sys2Proof.Machine

def Dev.modLink (d : Dev) (f : LinkState → LinkState) : Dev := { d with link := f d.link }

/-- A port whose training runs. -/
def Dev.portTrains (d : Dev) (p : Fin 4) : Bool := d.domOn 4 && d.flag (R.LINK_PCFG_EN p.val) && d.link.training.getLsbD p.val

/-- A port in service. -/
def Dev.portUp (d : Dev) (p : Fin 4) : Bool := d.domOn 4 && d.flag (R.LINK_PSTAT_UP p.val)

/-- Training completes with a partner (R373). With XTB as the reference the PHYs do not lock, and training fails (R390). -/
def Dev.linkTrained (d : Dev) (p : Fin 4) (chip : BitVec 3) (pedge : Bool) : Dev :=
  if !d.portTrains p || d.xtbRef then d else
  let d := ((d.setFlag (R.LINK_PSTAT_UP p.val) true).setFld (R.LINK_PSTAT_PCHIP p.val) chip.toNat).setFlag (R.LINK_PSTAT_PEDGE p.val) pedge
  d.modLink (fun l => { l with training := setBit l.training p.val false, fails := l.fails.set p 0 })

/-- A training attempt fails (R373). -/
def Dev.linkRetry (d : Dev) (p : Fin 4) : Dev := if d.portTrains p then d.setFlag (R.LINK_PSTAT_TFAIL p.val) true else d

/-- Frames have been received whole: the port expects the next one (R372). -/
def Dev.goodFrames (d : Dev) (p : Fin 4) (n : BitVec 12) : Dev :=
  d.modLink (fun l => { l with fails := l.fails.set p 0, fseq := l.fseq.set p (l.fseq[p] + n) })

def Dev.goodFrame (d : Dev) (p : Fin 4) : Dev := d.goodFrames p 1

/-- A frame's CRC fails: it is sent again; the eighth failed retry in a row takes the port down (R372). -/
def Dev.badFrame (d : Dev) (p : Fin 4) : Dev :=
  if !d.portUp p then d
  else if d.link.fails[p] = 8 then
    let d := (d.setFlag (R.LINK_PSTAT_UP p.val) false).setFlag (R.LINK_PSTAT_PEDGE p.val) false
    d.modLink (fun l => { l with fails := l.fails.set p 0, training := setBit l.training p.val true })
  else (d.modLink (fun l => { l with fails := l.fails.set p (l.fails[p] + 1) })).addFld (R.LINK_PSTAT_RETRY p.val) 1

/-- The edge channel carries tokens while EDGE is 1 at both ends (R373). -/
def Dev.edgeOpen (d : Dev) (p : Fin 4) : Bool :=
  d.portUp p && d.flag (R.LINK_PCFG_EDGE p.val) && d.flag (R.LINK_PSTAT_PEDGE p.val)

/-- A token joins the port's buffer; one whose number the buffer already holds is discarded (R241). An express token occupies two
frames (R373). -/
def Dev.tokenFrame (d : Dev) (express : Bool) (p : Fin 4) (tseq : BitVec 16) (x : BitVec 512) : Dev :=
  if !d.edgeOpen p then d else
  let d := d.goodFrames p (if express then 2 else 1)
  let e := d.edgePort express p
  if (tseq - e.base).toNat = e.buf.length && e.buf.length < (if express then 512 else 4096) then
    d.setEdgePort express p { e with buf := e.buf ++ [x] }
  else d

/-- A request of another device (R374): for this device it enters the road from node 0x0A; for another one it is forwarded, or
answered with DECODE. -/
def Dev.linkRequest (d : Dev) (p : Fin 4) (write : Bool) (pk : Packet) : Dev :=
  if !d.portUp p then d else
  let d := d.goodFrame p
  let a := pk.addr.toNat
  if !(0x2000000000 ≤ a && a < 0x2800000000) then d.respond 1 []
  else
    let n := (a - 0x2000000000) / 0x100000000
    if n = d.chipId then d.request (if write then .wr else .rd) { pk with src := 0x0A, sys := false, sec := false }
    else if (d.devicePort n).isSome then d else d.respond 1 []

/-- A response from another device (R374). -/
def Dev.linkResponse (d : Dev) (p : Fin 4) (tid : BitVec 12) (st : BitVec 4) (l : List Byte) : Dev :=
  if !d.portUp p then d else
  let d := d.goodFrame p
  match d.road.waiting.find? (fun x => x.node = 0x0A && x.tid = tid) with
  | none => d
  | some x => ({ d with road := { d.road with waiting := d.road.waiting.erase x } }).sendResp { x with status := st, data := l }

/-- The logical hall of a stream at the edge that a port serves. -/
def Dev.portHall (d : Dev) (p : Fin 4) (s : StreamId) : LHall :=
  if p = 0 then Fin.ofNat 16 (s.val * d.perStream) else Fin.ofNat 16 (s.val * d.perStream + d.perStream - 1)

/-- An edge GET of a stream waits for a token of the port: a cycle of a microroutine's, or an instruction that acts whole. -/
def Dev.waitsAt (d : Dev) (p : Fin 4) (s : StreamId) : Bool :=
  let h := d.portHall p s
  (match (d.hq h).run with
   | some r => r.stall = 1 && crossGet (feOp r.e) && d.tokenPort s (dirOf (feOp r.e)) = some p && d.tokenMissing s h (feOp r.e)
   | none => false) ||
  (match (d.st s).jobs with
   | j :: _ => !d.isMicro j && (d.jobTokens s j).isNone && d.tokenPort s (dirOf (j.opc.toNat - 0x30)) = some p && d.streamIdle s
   | [] => false)

/-- The wait limit has passed (R375). -/
def Dev.edgeTimeout (d : Dev) (p : Fin 4) (s : StreamId) : Dev :=
  if d.domOn 4 && d.fld R.LINK_EWAIT_LIM ≠ 0 && d.waitsAt p s then
    ((d.setFlag (R.LINK_PSTAT_ETO p.val) true).raise (0xD8 + p.val)).unrecovered s (d.phys (d.portHall p s).val) 127 0
  else d

/-! Gallery DMA (R376). -/

/-- The addresses of an engine; bits [5:0] are 0. -/
def Dev.dmaSrc (d : Dev) (e : Nat) : Nat :=
  d.fld (R.GAL_DMAHI_SHI e) * 2 ^ 32 + (d.reg (R.GAL_DMASRC e)).toNat / 64 * 64
def Dev.dmaDst (d : Dev) (e : Nat) : Nat :=
  d.fld (R.GAL_DMAHI_DHI e) * 2 ^ 32 + (d.reg (R.GAL_DMADST e)).toNat / 64 * 64

/-- What a copy has met: its first error, or a domain that wakes. -/
inductive CopyEnd where
  | ok | error (st : BitVec 4) | stuck
deriving DecidableEq, Repr

/-- Reads n units of 64 bytes one after another, up to the first that fails. -/
def Dev.dmaRead (d : Dev) (w : Who) (src n : Nat) : CopyEnd × List Byte × Dev :=
  (List.range n).foldl (fun (r : CopyEnd × List Byte × Dev) i =>
    if r.1 ≠ .ok then r else
    match r.2.2.read w (src + 64 * i) 64 with
    | .wait d => (.stuck, r.2.1, d)
    | .answered st l d => (if st = 0 then .ok else .error st, r.2.1 ++ l, d)) (.ok, [], d)

/-- A packet's worth of a copy: written with WR in units of 64 bytes, or with one SWR of n units whose fate the engine does not
learn. -/
def Dev.dmaUnit (d : Dev) (w : Who) (posted : Bool) (src dst n : Nat) : CopyEnd × Dev :=
  match d.dmaRead w src n with
  | (.ok, l, d) =>
    if posted then
      match d.postAll .swr [postedPacket 0x0C dst l] with
      | some d => (.ok, d)
      | none => (.stuck, d)
    else match d.write w dst l with
      | .wait d => (.stuck, d)
      | .answered st _ d => (if st = 0 then .ok else .error st, d)
  | (e, _, d) => (e, d)

/-- A copy runs to its end (R376). -/
def Dev.dmaDone (d : Dev) (e : Fin 8) : Dev :=
  if !d.flag (R.GAL_DMACTL_BUSY e.val) then d else
  let w := d.who (.dma e)
  let src := d.dmaSrc e.val
  let dst := d.dmaDst e.val
  let posted := d.flag (R.GAL_DMACTL_POSTED e.val)
  let len := d.fld (R.GAL_DMACTL_LEN64 e.val)
  let u := if posted then 8 else 1
  let r := (List.range ((len + u - 1) / u)).foldl (fun (r : CopyEnd × Dev) i =>
    if r.1 ≠ .ok then r else r.2.dmaUnit w posted (src + 64 * u * i) (dst + 64 * u * i) (min u (len - u * i))) (.ok, d)
  let idle (d : Dev) : Dev := d.setFlag (R.GAL_DMACTL_BUSY e.val) false
  match r.1 with
  | .stuck => r.2
  | .ok => ((idle r.2).setFlag (R.GAL_DMACTL_DONE e.val) true).raise 0xDD
  | .error st => (((idle r.2).setFlag (R.GAL_DMACTL_ERR e.val) true).setFld (R.GAL_DMACTL_RSTAT e.val) st.toNat).raise 0xDD

/-! The commands. -/

/-- DDR_TRAINING_DONE (R371). -/
def execDdrTrainingDone (pass : Bool) (s : State) : Host.Outcome State Fault Refusal := s.run (fun d => d.ddrTrained pass)

/-- DQS_RETRAIN (R371): the channel is taken for at most 1 µs, which delays accesses and changes nothing. -/
def execDqsRetrain (_ch : Bool) (s : State) : Host.Outcome State Fault Refusal := s.run id

/-- LINK_TRAINING_DONE (R373). -/
def execLinkTrainingDone (p : Fin 4) (chip : BitVec 3) (pedge : Bool) (s : State) : Host.Outcome State Fault Refusal :=
  s.run (fun d => d.linkTrained p chip pedge)

/-- LINK_TRAIN_RETRY (R373). -/
def execLinkTrainRetry (p : Fin 4) (s : State) : Host.Outcome State Fault Refusal := s.run (fun d => d.linkRetry p)

/-- NEWS_TOKEN_FRAME (R372). -/
def execNewsTokenFrame (p : Fin 4) (tseq : BitVec 16) (x : BitVec 64) (s : State) : Host.Outcome State Fault Refusal :=
  s.run (fun d => d.tokenFrame false p tseq (x.setWidth 512))

/-- EXPRESS_TOKEN_FRAME (R372). -/
def execExpressTokenFrame (p : Fin 4) (tseq : BitVec 16) (x : BitVec 512) (s : State) : Host.Outcome State Fault Refusal :=
  s.run (fun d => d.tokenFrame true p tseq x)

/-- ROAD_REQUEST_FRAME (R374). -/
def execRoadRequestFrame (p : Fin 4) (write : Bool) (pk : Packet) (s : State) : Host.Outcome State Fault Refusal :=
  s.run (fun d => d.linkRequest p write pk)

/-- ROAD_RESPONSE_FRAME (R372). -/
def execRoadResponseFrame (p : Fin 4) (tid : BitVec 12) (status : BitVec 4) (data : List Byte) (s : State) :
    Host.Outcome State Fault Refusal :=
  s.run (fun d => d.linkResponse p tid status data)

/-- ACK_CREDIT_FRAME (R372). -/
def execAckCreditFrame (p : Fin 4) (_fseq : BitVec 12) (cred : BitVec 16) (s : State) : Host.Outcome State Fault Refusal :=
  s.run (fun d => if d.portUp p then (d.goodFrame p).modLink (fun l => { l with cred := l.cred.set p (l.cred[p] + cred) }) else d)

/-- CONTROL_FRAME (R372, R373): what the partner tells of itself. -/
def execControlFrame (p : Fin 4) (chip : BitVec 3) (pedge : Bool) (s : State) : Host.Outcome State Fault Refusal :=
  s.run (fun d => if d.portUp p then
    ((d.goodFrame p).setFld (R.LINK_PSTAT_PCHIP p.val) chip.toNat).setFlag (R.LINK_PSTAT_PEDGE p.val) pedge else d)

/-- EDGE_WAIT_TIMEOUT (R375). -/
def execEdgeWaitTimeout (p : Fin 4) (st : StreamId) (s : State) : Host.Outcome State Fault Refusal :=
  s.run (fun d => d.edgeTimeout p st)

/-- DMA_START (R376). -/
def execDmaStart (r : Requester) (e : Fin 8) (v : Word) (s : State) : Host.Outcome State Fault Refusal :=
  s.run (fun d => d.commandWord r (R.GAL_DMACTL e.val) (v ||| 0x80000000))

/-- DMA_DONE (R376). -/
def execDmaDone (e : Fin 8) (s : State) : Host.Outcome State Fault Refusal := s.run (fun d => d.dmaDone e)

/-- DDR_VDD2L_PG_CHANGE (R465). -/
def execDdrVdd2lPgChange (high : Bool) (s : State) : Host.Outcome State Fault Refusal := s.run (fun d => d.ddrPg high)

/-- DDR_VDD2L_PG_TIMEOUT (R465). -/
def execDdrVdd2lPgTimeout (s : State) : Host.Outcome State Fault Refusal := s.run Dev.ddrPgTimeout

/-- RAMUFIN_FRAME_CRC_FAIL (R372). -/
def execRamufinFrameCrcFail (p : Fin 4) (s : State) : Host.Outcome State Fault Refusal := s.run (fun d => d.badFrame p)

end Sys2Proof.Machine
end

