-- ==== Sys2Proof/Machine/CmdPower.lean ====
section
/-! DEFINITION. The commands of supplies, domains, clocks, modes, resets and start-up (R377 to R410, R465, R469). -/

namespace Sys2Proof.Machine

/-- A mode request: a write of PWR_MREQ with GO (R401). -/
def Dev.requestMode (d : Dev) (r : Requester) (t : Nat) : Dev := d.commandWord r R.PWR_MREQ (BitVec.ofNat 32 (2 ^ 31 + t))

/-- DOMAIN_UP: with NVS on, the boot ROM goes on to step 6 (R381, R410). -/
def Dev.domainRisen (d : Dev) (k : Nat) : Dev := if k = 5 then (d.domainUp k).tryStep6 else d.domainUp k

/-- RESET_N low (R407). In OFF the level is all that is kept. -/
def Dev.resetPin (d : Dev) : Dev :=
  let d := d.modPow (fun p => { p with resetLow := true })
  if d.mode = 0 then d else d.fullReset R.PWR_RSTC_PIN

/-- VIN_SAMPLE (R377). -/
def execVinSample (mv : BitVec 16) (lowFor highFor : Nat) (s : State) : Host.Outcome State Fault Refusal :=
  s.run (fun d => d.vinSample mv lowFor highFor)

/-- VMID_UNDERVOLTAGE (R379). -/
def execVmidUndervoltage (s : State) : Host.Outcome State Fault Refusal := s.run Dev.vmidUnder

/-- RAMP_RESTART (R377). -/
def execRampRestart (s : State) : Host.Outcome State Fault Refusal := s.run Dev.rampRestart

/-- DOMAIN_REQUEST (R383): a write of PWR_DREQ. -/
def execDomainRequest (r : Requester) (v : Word) (s : State) : Host.Outcome State Fault Refusal :=
  s.run (fun d => d.commandWord r R.PWR_DREQ v)

/-- DOMAIN_UP (R381). -/
def execDomainUp (k : Fin 25) (s : State) : Host.Outcome State Fault Refusal := s.run (fun d => d.domainRisen k.val)

/-- DOMAIN_OFF (R382). -/
def execDomainOff (k : Fin 25) (s : State) : Host.Outcome State Fault Refusal := s.run (fun d => d.domainOff k.val)

/-- HALL_DOMAIN_GROUP_START (R381). -/
def execHallDomainGroupStart (s : State) : Host.Outcome State Fault Refusal := s.run Dev.startGroup

/-- SUPPLY_TRIP (R387). -/
def execSupplyTrip (k : Fin 25) (usec : Nat) (s : State) : Host.Outcome State Fault Refusal := s.run (fun d => d.supplyTrip k.val usec)

/-- HALL_CLOCK_FAIL (R394). -/
def execHallClockFail (h : HallId) (s : State) : Host.Outcome State Fault Refusal := s.run (fun d => d.hallClockFail h)

/-- XTA_CHECK (R389). -/
def execXtaCheck (khz : Nat) (st : Straps) (s : State) : Host.Outcome State Fault Refusal := s.run (fun d => d.xtaCheck khz st)

/-- XTB_CHECK (R389). -/
def execXtbCheck (hz : Nat) (s : State) : Host.Outcome State Fault Refusal := s.run (fun d => d.xtbCheck hz)

/-- CRYSTAL_STOP (R389). -/
def execCrystalStop (xtb : Bool) (s : State) : Host.Outcome State Fault Refusal := s.run (fun d => d.crystalStop xtb)

/-- PLL_LOCK (R391). -/
def execPllLock (n : Fin 4) (s : State) : Host.Outcome State Fault Refusal := s.run (fun d => d.pllLock n)

/-- PLL_LOCK_LOST (R391). -/
def execPllLockLost (n : Fin 4) (s : State) : Host.Outcome State Fault Refusal := s.run (fun d => d.pllLost n)

/-- HALL_TRIM (R393). -/
def execHallTrim (h : HallId) (slower : Bool) (s : State) : Host.Outcome State Fault Refusal := s.run (fun d => d.hallTrim h slower)

/-- FMETER_START (R396): a write of CLK_FMCTL with GO. -/
def execFmeterStart (r : Requester) (v : Word) (s : State) : Host.Outcome State Fault Refusal :=
  s.run (fun d => d.commandWord r R.CLK_FMCTL (v ||| 0x80000000))

/-- FMETER_DONE (R396). -/
def execFmeterDone (count : Nat) (s : State) : Host.Outcome State Fault Refusal := s.run (fun d => d.fmeterDone count)

/-- MODE_REQ_IDLE (R402). -/
def execModeReqIdle (r : Requester) (s : State) : Host.Outcome State Fault Refusal := s.run (fun d => d.requestMode r 6)

/-- MODE_REQ_READY (R402). -/
def execModeReqReady (r : Requester) (s : State) : Host.Outcome State Fault Refusal := s.run (fun d => d.requestMode r 7)

/-- MODE_REQ_PRINT (R402). -/
def execModeReqPrint (r : Requester) (s : State) : Host.Outcome State Fault Refusal := s.run (fun d => d.requestMode r 8)

/-- MODE_REQ_SERVICE (R402). -/
def execModeReqService (r : Requester) (s : State) : Host.Outcome State Fault Refusal := s.run (fun d => d.requestMode r 9)

/-- MODE_REQ_SLEEP (R402). -/
def execModeReqSleep (r : Requester) (s : State) : Host.Outcome State Fault Refusal := s.run (fun d => d.requestMode r 5)

/-- MODE_REQ_STANDBY (R402). -/
def execModeReqStandby (r : Requester) (s : State) : Host.Outcome State Fault Refusal := s.run (fun d => d.requestMode r 4)

/-- MODE_REQ_UNLISTED (R401). -/
def execModeReqUnlisted (r : Requester) (tgt : BitVec 4) (s : State) : Host.Outcome State Fault Refusal :=
  s.run (fun d => d.requestMode r tgt.toNat)

/-- MODE_TRANSITION_DONE (R402). -/
def execModeTransitionDone (s : State) : Host.Outcome State Fault Refusal := s.run Dev.transitionDone

/-- WAKE_PIN (R403). -/
def execWakePin (s : State) : Host.Outcome State Fault Refusal :=
  s.run (fun d => if d.flag R.PWR_WAKE_PIN then d.wake true else d)

/-- WAKE_ALARM (R403). -/
def execWakeAlarm (s : State) : Host.Outcome State Fault Refusal :=
  s.run (fun d => if d.flag R.PWR_WAKE_ALRM then d.wake true else d)

/-- WAKE_HOST (R403): in SLEEP only. -/
def execWakeHost (s : State) : Host.Outcome State Fault Refusal :=
  s.run (fun d => if d.flag R.PWR_WAKE_HOST then d.wake false else d)

/-- BOOT_OFFER (R404): a write of PWR_BOOTADR with GO. -/
def execBootOffer (r : Requester) (v : Word) (s : State) : Host.Outcome State Fault Refusal :=
  s.run (fun d => d.commandWord r R.PWR_BOOTADR (v ||| 0x80000000))

/-- RESET_PIN (R407). -/
def execResetPin (s : State) : Host.Outcome State Fault Refusal := s.run Dev.resetPin

/-- RESET_N_RELEASE (R407). -/
def execResetNRelease (s : State) : Host.Outcome State Fault Refusal :=
  s.run (fun d => d.modPow (fun p => { p with resetLow := false }))

/-- SOFTWARE_RESET (R407): a write of PWR_RST with FULL. -/
def execSoftwareReset (r : Requester) (s : State) : Host.Outcome State Fault Refusal :=
  s.run (fun d => d.commandWord r R.PWR_RST 0x80000000)

/-- WATCHDOG_EXPIRE (R408). -/
def execWatchdogExpire (s : State) : Host.Outcome State Fault Refusal := s.run Dev.watchdogExpire

/-- WATCHDOG_KICK (R408): a write of PWR_WKICK. -/
def execWatchdogKick (r : Requester) (key : BitVec 16) (s : State) : Host.Outcome State Fault Refusal :=
  s.run (fun d => d.commandWord r R.PWR_WKICK (key.setWidth 32))

/-- AON_POWER_GOOD (R410). -/
def execAonPowerGood (st : Straps) (s : State) : Host.Outcome State Fault Refusal := s.run (fun d => d.aonPowerGood st)

/-- AON_POWER_GOOD_TIMEOUT (R410): the converter stops and tries again, and the part stays in RAMP without AON. -/
def execAonPowerGoodTimeout (s : State) : Host.Outcome State Fault Refusal := s.run id

/-- VMID_GOOD (R378). -/
def execVmidGood (s : State) : Host.Outcome State Fault Refusal := s.run Dev.vmidUp

/-- THERMAL_SAMPLE (R469). -/
def execThermalSample (readings : List (BitVec 16)) (msWarm msHot : Nat) (s : State) : Host.Outcome State Fault Refusal :=
  s.run (fun d => d.thermalSample readings msWarm msHot)

end Sys2Proof.Machine
end

