-- ==== Sys2Proof/Machine/CmdRegs.lean ====
section
/-! DEFINITION. Writes of control registers, commits and locks (R3 to R16, R171). -/

namespace Sys2Proof.Machine

/-- Control register space (R23, R24). -/
def inWindows (a : Nat) : Bool := 0x10000000 ≤ a && a < 0x10C00000

/-- REGISTER_WRITE (R3, R6): a write of size bytes. -/
def execRegisterWrite (r : Requester) (addr : BitVec 40) (size : Nat) (v : Word) (s : State) : Host.Outcome State Fault Refusal :=
  s.run (fun d => if inWindows addr.toNat then d.command (d.who r) addr.toNat (leBytes size v.toNat) else d)

/-- COMMIT (R10). -/
def execCommit (r : Requester) (b : Block) (s : State) : Host.Outcome State Fault Refusal :=
  s.run (fun d => d.commandWord r (blockBase b + 0x7FF0) 1)

/-- COMMIT_APPLY (R13). -/
def execCommitApply (b : Block) (s : State) : Host.Outcome State Fault Refusal := s.run (fun d => d.commitApply b)

/-- LOCK (R15). -/
def execLock (r : Requester) (b : Block) (s : State) : Host.Outcome State Fault Refusal :=
  s.run (fun d => d.commandWord r (lockAddr b) 1)

/-- SPLIT_QUIESCED (R171). -/
def execSplitQuiesced (s : State) : Host.Outcome State Fault Refusal := s.run Dev.splitQuiesced

end Sys2Proof.Machine
end

