-- ==== Sys2Proof/Machine/CmdRoad.lean ====
section
/-! DEFINITION. The road's commands: packets, the epoch switch, links, bridges, dead nodes (R318 to R335). -/

namespace Sys2Proof.Machine

/-! Links (R324 to R326). -/

/-- A main link between router 3 and router 2 that the active entries use has failed (R219, R326). -/
def Dev.linkPathFailed (d : Dev) : Bool :=
  let e := d.setFld R.ROAD_LSTAT_FAIL 0
  (e.routeLinks 0x06 10 3 ++ e.routeLinks 0x09 10 2).any (fun l => (d.fld R.ROAD_LSTAT_FAIL).testBit l.1)

/-- SEQ_RSTAT.LNKF stays set until CORE is reset. -/
def Dev.noteLinkPath (d : Dev) : Dev := if d.linkPathFailed then d.setFlag R.SEQ_RSTAT_LNKF true else d

/-- A main link fails (R324). -/
def Dev.linkFail (d : Dev) (k : Nat) : Dev :=
  if (d.fld R.ROAD_LSTAT_FAIL).testBit k then d else
  ((d.setReg R.ROAD_LSTAT (setBit (d.reg R.ROAD_LSTAT) k true)).raise 0xD0).noteLinkPath

def Dev.retries (d : Dev) (i : Nat) : Nat := bankGet (fun _ => 0) d.road.retry i
def Dev.setRetries (d : Dev) (i n : Nat) : Dev := { d with road := { d.road with retry := bankSet (fun _ => 0) d.road.retry i n } }

/-- A flit is received in a direction of a link: a wrong CRC asks for a retry, and after three failed retries the link fails. -/
def Dev.flitReceive (d : Dev) (k : Nat) (up ok : Bool) : Dev :=
  let i := 2 * k + bn up
  if !d.domOn 0 || (d.fld R.ROAD_LSTAT_FAIL).testBit k then d
  else if ok then d.setRetries i 0
  else if d.retries i = 3 then (d.setRetries i 0).linkFail k
  else (d.setRetries i (d.retries i + 1)).addFld R.ROAD_RETRY_COUNT 1

/-! The epoch switch (R329). -/

/-- The input ports of a router. -/
def routerInputs (r : Nat) : List Nat :=
  List.range ((routerNodes[r]?).getD []).length ++ (List.range (routerLinks r).length).map (6 + ·)

/-- A router holds the marker of a VC from every input. -/
def Dev.holdsMarkers (d : Dev) (r vc : Nat) : Bool := (routerInputs r).all (fun p => d.road.markers.contains (r, p, vc))

/-- The inputs of router r from which the old entries send packets out on link k: its endpoints, and the links whose upstream router
sends packets of some node here that go on over k. -/
def Dev.feeders (d : Dev) (r k : Nat) : List Nat :=
  let out (r n : Nat) : Option Nat :=
    if nodeRouter n = r || d.flag (R.ROAD_RT_RING r n) then none else portLink r (d.fld (R.ROAD_RT_PORT r n))
  (routerInputs r).filter (fun p =>
    match portLink r p with
    | none => true
    | some j => allNodes.any (fun n => out (linkPeer r j) n = some j && out r n = some k))

/-- The router upstream of a link input has sent the marker (R329 step 3): it holds it from every input that feeds the link. -/
def Dev.markerSent (d : Dev) (r p vc : Nat) : Bool :=
  match portLink r p with
  | none => true
  | some k => (d.feeders (linkPeer r k) k).all (fun q => d.road.markers.contains (linkPeer r k, q, vc))

/-- The ejection ports of a node (R312). -/
def ejectPorts (n : Nat) : Nat := if n = 0x06 || n = 0x09 then 2 else 1

/-- Every ejection port holds the marker on every VC. -/
def Dev.epochDone (d : Dev) : Bool :=
  allNodes.all (fun n => (List.range 4).all (fun vc => d.road.ejects.count (n, vc) = ejectPorts n))

/-- The old entries are released: the set is active. -/
def Dev.endEpoch (d : Dev) : Dev :=
  let d := match d.capture? .road with
    | some c => d.applySet .road c
    | none => d
  let d := (d.setFlag R.ROAD_EPOCH_SW false).setFld R.ROAD_EPOCH_NSW (d.fld R.ROAD_EPOCH_NSW + 1)
  ({ d with road := { d.road with markers := [], ejects := [] } }.applied .road).noteLinkPath

/-- A marker as the probes see it: TYPE 9, injected by the node of an endpoint port, or sent over a link. The rest of its header is
open. -/
def Dev.probeMarker (d : Dev) (r p vc : Nat) : Dev :=
  let (n, d) := d.fresh
  let hdr : BitVec 64 := BitVec.ofNat 64 (9 * 2 ^ 60) ||| ((Config.freeWord n).setWidth 60).setWidth 64
  match portLink r p with
  | some k => d.probeAlong 9 vc 0x3F [(k, decide (linkPeer r k < r))] false hdr 1
  | none => d.probeAlong 9 vc ((((routerNodes[r]?).getD [])[p]?).getD 0x3F) [] true hdr 1

/-- A marker arrives at an input of a router, from its endpoint or from a router that has sent it on, or at an ejection port of a node
whose router holds it from every input. -/
def Dev.marker (d : Dev) (x : EpochAt) : Dev :=
  if !d.flag R.ROAD_EPOCH_SW then d else
  match x with
  | .router r p vc =>
    let m := (r.val, p.val, vc.val)
    if !(routerInputs r.val).contains p.val || d.road.markers.contains m || !d.markerSent r.val p.val vc.val then d
    else { d with road := { d.road with markers := d.road.markers ++ [m] } }.probeMarker r.val p.val vc.val
  | .eject n vc =>
    let m := (n.toNat, vc.val)
    if !allNodes.contains n.toNat || ejectPorts n.toNat ≤ d.road.ejects.count m || !d.holdsMarkers (nodeRouter n.toNat) vc.val then d else
    let d := { d with road := { d.road with ejects := d.road.ejects ++ [m] } }
    if d.epochDone then d.endEpoch else d

/-! Bridges (R331 to R335). -/

/-- Nothing that DRAIN waits for is left: every accepted request is answered, every response to the node is delivered. -/
def Dev.drainedAt (d : Dev) (n : Nat) : Bool :=
  (d.road.resp ++ d.road.waiting).all (fun x => x.node.toNat ≠ n) && (d.owedTo n).isEmpty

/-- DRAIN ends: ISOLATED. -/
def Dev.drainEnd (d : Dev) (n : Nat) : Dev := if hasBridge n && d.brState n = 2 && d.drainedAt n then d.setBr n 3 else d

/-- DRAIN has not ended after DTMO: the bridge is up again, PWR is told. -/
def Dev.drainTimeout (d : Dev) (n : Nat) : Dev :=
  if hasBridge n && d.brState n = 2 then
    (d.abortDown n).raise 0xD2
  else d

/-- The node half has power and is out of reset. -/
def Dev.nodeAlive (d : Dev) (n : Nat) : Bool :=
  if h : n < 4 then (d.co ⟨n, h⟩).mode ≠ .reset
  else match nodeDom n with
    | some k => d.domOn k
    | none => d.domOn 0

/-- The reset exchange (R333): in RESETX, once no response owed to the node is outstanding. -/
def Dev.resetExchange (d : Dev) (n : Nat) : Dev :=
  if hasBridge n && d.brState n = 5 && d.nodeAlive n && (d.owedTo n).isEmpty then
    d.setBr n 0
  else d

/-- A request at a node is unanswered for TTMO (R335). -/
def Dev.targetTimeout (d : Dev) (n : Nat) : Dev :=
  if d.domOn 0 && d.fld R.ROAD_CTRL_TTMO ≠ 0 && d.road.waiting.any (fun x => x.node.toNat = n) then d.declareDead n else d

/-! The commands. -/

/-- RD (R318). -/
def execRd (p : Packet) (s : State) : Host.Outcome State Fault Refusal := s.run (fun d => d.request .rd p)

/-- WR (R318). -/
def execWr (p : Packet) (s : State) : Host.Outcome State Fault Refusal := s.run (fun d => d.request .wr p)

/-- PWR (R318). -/
def execPwr (p : Packet) (s : State) : Host.Outcome State Fault Refusal := s.run (fun d => d.request .pwr p)

/-- SWR (R318). -/
def execSwr (p : Packet) (s : State) : Host.Outcome State Fault Refusal := s.run (fun d => d.request .swr p)

/-- RSP (R318). -/
def execRsp (tid : BitVec 12) (s : State) : Host.Outcome State Fault Refusal := s.run (fun d => d.response false tid)

/-- MRD (R318). -/
def execMrd (p : Packet) (s : State) : Host.Outcome State Fault Refusal := s.run (fun d => d.request .mrd p)

/-- MWR (R318). -/
def execMwr (p : Packet) (s : State) : Host.Outcome State Fault Refusal := s.run (fun d => d.request .mwr p)

/-- MRSP (R318). -/
def execMrsp (tid : BitVec 12) (s : State) : Host.Outcome State Fault Refusal := s.run (fun d => d.response true tid)

/-- MSG (R318). -/
def execMsg (p : Packet) (s : State) : Host.Outcome State Fault Refusal := s.run (fun d => d.request .msg p)

/-- EPOCH (R329). -/
def execEpoch (x : EpochAt) (s : State) : Host.Outcome State Fault Refusal := s.run (fun d => d.marker x)

/-- ROAD_FLIT_RECEIVE (R324). -/
def execRoadFlitReceive (link : Fin 15) (up crcOk : Bool) (s : State) : Host.Outcome State Fault Refusal :=
  s.run (fun d => d.flitReceive link.val up crcOk)

/-- LINK_HEARTBEAT_TIMEOUT (R324). -/
def execLinkHeartbeatTimeout (link : Fin 15) (s : State) : Host.Outcome State Fault Refusal :=
  s.run (fun d => if d.domOn 0 then d.linkFail link.val else d)

/-- BRIDGE_DRAIN_END (R331). -/
def execBridgeDrainEnd (n : BitVec 6) (s : State) : Host.Outcome State Fault Refusal := s.run (fun d => d.drainEnd n.toNat)

/-- BRIDGE_DRAIN_TIMEOUT (R331). -/
def execBridgeDrainTimeout (n : BitVec 6) (s : State) : Host.Outcome State Fault Refusal := s.run (fun d => d.drainTimeout n.toNat)

/-- BRIDGE_LINK_DOWN (R334): the node side is reset or loses power without a completed ISOLATE. -/
def execBridgeLinkDown (n : BitVec 6) (s : State) : Host.Outcome State Fault Refusal :=
  s.run (fun d => if d.domOn 0 && d.brState n.toNat ≠ 3 then d.bridgeReset n.toNat else d)

/-- RESET_EXCHANGE (R333). -/
def execResetExchange (n : BitVec 6) (s : State) : Host.Outcome State Fault Refusal := s.run (fun d => d.resetExchange n.toNat)

/-- TARGET_TIMEOUT (R335). -/
def execTargetTimeout (n : BitVec 6) (s : State) : Host.Outcome State Fault Refusal := s.run (fun d => d.targetTimeout n.toNat)

/-- ROAD_KILL (R335). -/
def execRoadKill (r : Requester) (n : BitVec 6) (s : State) : Host.Outcome State Fault Refusal :=
  s.run (fun d => d.commandWord r R.ROAD_KILL (n.setWidth 32))

/-- DEAD_REVIVE (R335): bits of ROAD_DEAD written 1. -/
def execDeadRevive (r : Requester) (w : Fin 2) (v : Word) (s : State) : Host.Outcome State Fault Refusal :=
  s.run (fun d => d.commandWord r (R.ROAD_DEAD w.val) v)

end Sys2Proof.Machine
end

