-- ==== Sys2Proof/Machine/CmdSecurity.lean ====
section
/-! DEFINITION. The commands of the security engine, tamper and debug (R405, R411 to R434). -/

namespace Sys2Proof.Machine

/-- A write of DBG_TOKCMD with NEWCH, and the nonce that the engine's random bits give (R433). -/
def Dev.drawNonce (d : Dev) (r : Requester) (nonce : List Word) : Dev :=
  let w := d.who r
  let v := d.regWith R.DBG_TOKCMD 30
  if !d.canRequest w.node then d
  else if d.writeRefused w .dbg R.DBG_TOKCMD v then (d.respond 2 []).lateBusError w 2 (BitVec.ofNat 32 R.DBG_TOKCMD)
  else (d.tokenWrite w v nonce).respond 0 []

/-- SEC_STEP_END (R412). -/
def execSecStepEnd (s : State) : Host.Outcome State Fault Refusal := s.run Dev.secStep

/-- FUSE_BURN_DONE (R416). -/
def execFuseBurnDone (s : State) : Host.Outcome State Fault Refusal := s.run Dev.burnDone

/-- TAMPER_DETECT (R429). -/
def execTamperDetect (src : Fin 5) (s : State) : Host.Outcome State Fault Refusal := s.run (fun d => d.tamper src)

/-- DEBUG_NEWCH (R433). -/
def execDebugNewch (r : Requester) (nonce : List Word) (s : State) : Host.Outcome State Fault Refusal :=
  s.run (fun d => d.drawNonce r nonce)

/-- DEBUG_TOKEN_GO (R433). -/
def execDebugTokenGo (r : Requester) (s : State) : Host.Outcome State Fault Refusal :=
  s.run (fun d => d.commandWord r R.DBG_TOKCMD (d.regWith R.DBG_TOKCMD 31))

/-- DEBUG_TOKEN_DONE (R433). -/
def execDebugTokenDone (v : Verdict) (s : State) : Host.Outcome State Fault Refusal := s.run (fun d => d.tokenDone v)

/-- NEWCH_BLOCK_EXPIRE (R433). -/
def execNewchBlockExpire (s : State) : Host.Outcome State Fault Refusal := s.run Dev.unblock

/-- DEBUG_HALT (R434). -/
def execDebugHalt (r : Requester) (hreq : BitVec 4) (s : State) : Host.Outcome State Fault Refusal :=
  s.run (fun d => d.commandWord r R.DBG_HALT (hreq.setWidth 32))

/-- DEBUG_RESUME (R402). -/
def execDebugResume (r : Requester) (s : State) : Host.Outcome State Fault Refusal :=
  s.run (fun d => d.commandWord r R.DBG_HALT 0x80000000)

/-- MEM_PORT_ACCESS (R431). -/
def execMemPortAccess (r : Requester) (write : Bool) (v : Word) (s : State) : Host.Outcome State Fault Refusal :=
  s.run (fun d => if write then d.commandWord r R.DBG_MDATA v else d.readCommand r R.DBG_MDATA)

/-- FIRMWARE_VERIFY_DONE (R419). -/
def execFirmwareVerifyDone (v : Verdict) (s : State) : Host.Outcome State Fault Refusal := s.run (fun d => d.firmwareVerified v)

end Sys2Proof.Machine
end

