-- ==== Sys2Proof/Machine/CmdSeq.lean ====
section
/-! DEFINITION. The sequencer's events: routines, microwords, halls, OR samples, patch loads, preemption (R97 to R170, R202 to R212). -/

namespace Sys2Proof.Machine

/-- Applies f to the stream that a logical hall belongs to. -/
def Dev.hallStream (d : Dev) (h : LHall) (f : StreamId → Dev) : Dev :=
  match d.stream? (d.streamOf h.val) with
  | some s => f s
  | none => d

/-- Applies f to a stream of the active configuration. -/
def Dev.onStream (d : Dev) (s : StreamId) (f : Dev → Dev) : Dev := if s.val < d.numStreams then f d else d

/-- ARRAY_FP_TRAP (R125). -/
def execArrayFpTrap (s : StreamId) (st : State) : Host.Outcome State Fault Refusal := st.run (fun d => d.arrayFpTrap s)

/-- ROUTINE_START (R132). -/
def execRoutineStart (s : StreamId) (st : State) : Host.Outcome State Fault Refusal :=
  st.run (fun d => d.onStream s (fun d => d.startQueued s))

/-- MICROWORD_ISSUE (R133). -/
def execMicrowordIssue (s : StreamId) (st : State) : Host.Outcome State Fault Refusal :=
  st.run (fun d => d.onStream s (fun d => d.issueWord s))

/-- ROUTINE_TIMEOUT (R151). -/
def execRoutineTimeout (s : StreamId) (st : State) : Host.Outcome State Fault Refusal :=
  st.run (fun d => d.onStream s (fun d => d.routineTimeout s))

/-- MICROWORD_ARRIVE (R159). -/
def execMicrowordArrive (h : LHall) (st : State) : Host.Outcome State Fault Refusal := st.run (fun d => d.arriveWord h)

/-- CREDIT_RETURN (R160). -/
def execCreditReturn (h : LHall) (st : State) : Host.Outcome State Fault Refusal := st.run (fun d => d.returnCredit h)

/-- HALL_ENTRY_START (R162). -/
def execHallEntryStart (h : LHall) (st : State) : Host.Outcome State Fault Refusal :=
  st.run (fun d => d.hallStream h (fun s => d.startEntry s h))

/-- STALL_END (R163). -/
def execStallEnd (h : LHall) (st : State) : Host.Outcome State Fault Refusal :=
  st.run (fun d => d.hallStream h (fun s => d.endStall s h))

/-- TOKEN_TIMEOUT (R165). -/
def execTokenTimeout (h : LHall) (edge : BitVec 2) (faulty : LHall) (st : State) : Host.Outcome State Fault Refusal :=
  st.run (fun d => d.tokenTimeout h edge faulty)

/-- REP_REPORT (R167). -/
def execRepReport (h : LHall) (st : State) : Host.Outcome State Fault Refusal := st.run (fun d => d.repReport h)

/-- OR_RELEASE (R204). -/
def execOrRelease (h : LHall) (st : State) : Host.Outcome State Fault Refusal :=
  st.run (fun d => d.hallStream h (fun s => d.releaseOr s h))

/-- OR_RESULT_FORMED (R70). -/
def execOrResultFormed (s : StreamId) (st : State) : Host.Outcome State Fault Refusal :=
  st.run (fun d => d.onStream s (fun d => d.formOr s))

/-- PATCH_LOAD (R145): GO with HALF as the register holds it. -/
def execPatchLoad (r : Requester) (st : State) : Host.Outcome State Fault Refusal :=
  st.run (fun d => d.commandWord r R.SEQ_PLDCMD (d.reg R.SEQ_PLDCMD ||| 1))

/-- PATCH_STAGING_DONE (R145). -/
def execPatchStagingDone (ok : Bool) (st : State) : Host.Outcome State Fault Refusal := st.run (fun d => d.patchStaged ok)

/-- PATCH_VERIFY_DONE (R145). -/
def execPatchVerifyDone (v : Verdict) (st : State) : Host.Outcome State Fault Refusal :=
  st.run (fun d => d.patchVerified v)

/-- PREEMPT_STOP (R155). -/
def execPreemptStop (s : StreamId) (st : State) : Host.Outcome State Fault Refusal :=
  st.run (fun d => d.onStream s (fun d => d.preemptStop s))

/-- PREEMPT_RESUME (R157). -/
def execPreemptResume (s : StreamId) (st : State) : Host.Outcome State Fault Refusal :=
  st.run (fun d => d.onStream s (fun d => d.preemptResume s))

/-- SPAN_OVERRUN (R202). -/
def execSpanOverrun (s : StreamId) (st : State) : Host.Outcome State Fault Refusal :=
  st.run (fun d => d.onStream s (fun d => d.spanOverrun s))

/-- MILESTONE_COMMIT (R218). -/
def execMilestoneCommit (s : StreamId) (t : Int) (st : State) : Host.Outcome State Fault Refusal :=
  st.run (fun d => d.onStream s (fun d => d.milestoneCommit s t))

/-- UPSET_RECOVERY (R207). -/
def execUpsetRecovery (reps : List (HallId × UpsetRep)) (st : State) : Host.Outcome State Fault Refusal :=
  st.run (fun d => d.upsetRecovery reps)

/-- COLUMN_RETIREMENT (R215). -/
def execColumnRetirement (h : HallId) (st : State) : Host.Outcome State Fault Refusal := st.run (fun d => d.beginRetire h)

/-- RETIRE_REFILL_START (R215). -/
def execRetireRefillStart (h : HallId) (st : State) : Host.Outcome State Fault Refusal := st.run (fun d => d.startRefill h)

/-- RETIRE_REFILL_DONE (R215). -/
def execRetireRefillDone (h : HallId) (st : State) : Host.Outcome State Fault Refusal := st.run (fun d => d.refillDone h)

/-- FAILOVER_IMAGE_LOADED (R219). -/
def execFailoverImageLoaded (ok : Bool) (st : State) : Host.Outcome State Fault Refusal := st.run (fun d => d.imageLoaded ok)

/-- FAILOVER_RESUME (R219). -/
def execFailoverResume (ok : Bool) (st : State) : Host.Outcome State Fault Refusal := st.run (fun d => d.failoverResume ok)

/-- FAULT_RECORD_WRITE (R225). -/
def execFaultRecordWrite (st : State) : Host.Outcome State Fault Refusal := st.run Dev.writeRecord

/-- A GO of SEQ_HIMGCMD with an operation and a hall (R224). -/
def himgWord (op : Nat) (h : LHall) : Word := BitVec.ofNat 32 (2 ^ 31 + op * 2 ^ 8 + h.val)

/-- HIMG_UNLOAD (R224). -/
def execHimgUnload (r : Requester) (h : LHall) (st : State) : Host.Outcome State Fault Refusal :=
  st.run (fun d => d.commandWord r R.SEQ_HIMGCMD (himgWord 0 h))

/-- HIMG_LOAD (R224). -/
def execHimgLoad (r : Requester) (h : LHall) (st : State) : Host.Outcome State Fault Refusal :=
  st.run (fun d => d.commandWord r R.SEQ_HIMGCMD (himgWord 1 h))

/-- HIMG_VERIFY (R224). -/
def execHimgVerify (r : Requester) (h : LHall) (st : State) : Host.Outcome State Fault Refusal :=
  st.run (fun d => d.commandWord r R.SEQ_HIMGCMD (himgWord 2 h))

/-- HIMG_DONE (R224). -/
def execHimgDone (st : State) : Host.Outcome State Fault Refusal := st.run Dev.himgDone

end Sys2Proof.Machine
end

