-- ==== Sys2Proof/Machine/Pins.lean ====
section
/-! DEFINITION. What the part's balls show: the Byway pins in their states, under boundary scan and under the interconnect test, and the
states of the other signals while their domain is off (R341, R342, R346, R444, R449, R455, R456, R465). -/

namespace Sys2Proof.Machine

/-- What the part puts on a ball: nothing, with or without a weak pull to a level; a level; the weak drive of the interconnect test. -/
inductive PinLevel where
  | z (pull : Option Bool)
  | drive (v : Bool)
  | weak
deriving DecidableEq, Repr

/-- The safe state of a single-ended pin, and of the legs of a pair. -/
def safeSingle (strap : Nat) : PinLevel :=
  match strap with | 0 => .z (some false) | 1 => .z (some true) | 2 => .drive false | _ => .z none
def safePair (strap : Nat) : PinLevel × PinLevel :=
  match strap with
  | 0 => (.z (some false), .z (some false)) | 1 => (.z (some false), .z (some false))
  | 2 => (.drive false, .drive true) | _ => (.z none, .z none)

/-- The output and the enable of a cell as its pin shows them; within a cycle of double data rate, the later edge. -/
def Dev.cellDrives (d : Dev) (k i : Nat) : Bool × Bool :=
  let x := d.cell (20 * k + i)
  if d.byw.pins.toList.getD k .safe = .held then x.kept else (x.out.getLsbD 1, x.oe.getLsbD 1)

/-! Who has the balls (R444, R449). -/

/-- A ball under boundary scan: HIGHZ floats it; else the boundary register drives it where its control cell says so. A ball of a domain
that is off does not drive. The order of the cells is a file of the toolchain: opaque. -/
def Dev.scanned (d : Dev) (ball : Nat) : PinLevel :=
  if d.tap.instr = .highz || !d.domOn 1 then .z none
  else if d.tap.boundary.getLsbD (Config.scanCell ball true) then .drive (d.tap.boundary.getLsbD (Config.scanCell ball false)) else .z none

/-- The interconnect test runs (R444). -/
def Dev.ballTest (d : Dev) : Bool := (d.test.map (·.1)) = some 1

/-- What ball n shows: the logic's level l, unless the boundary scan or the interconnect test has the balls. -/
def Dev.ball (d : Dev) (n : Nat) (l : PinLevel) : PinLevel :=
  if d.tap.instr.takesBalls then d.scanned n else if d.ballTest then .weak else l

/-- BY_SE: single-ended pin j of bank k. -/
def Dev.singlePin (d : Dev) (k j : Nat) : PinLevel :=
  if !Config.viobPresent k then .z none
  else d.ball (256 + 4 * k + j) (
    if !d.inputsSeen k then safeSingle (d.fld R.PWR_STRAP_SAFE)
    else
      let x := d.cellDrives k (16 + j)
      if x.2 then .drive x.1 else .z none)

/-- BY_P and BY_N: pair j of bank k. -/
def Dev.pairPin (d : Dev) (k j : Nat) : PinLevel × PinLevel :=
  if !Config.viobPresent k then (.z none, .z none)
  else
    let l := if !d.inputsSeen k then safePair (d.fld R.PWR_STRAP_SAFE)
      else
        let x := d.cellDrives k j
        if x.2 then (.drive x.1, .drive (!x.1)) else (.z none, .z none)
    (d.ball (16 * k + j) l.1, d.ball (128 + 16 * k + j) l.2)

/-! The other signals (R455). -/

/-- The signals of R455, those of one row together where their state is one. -/
inductive Signal where
  | byPair | bySingle | pcieTx | pcieRx | refclk | perst | ddrClock | ddrStrobe | ddrData | ddrReset | vdd2lEn | vdd2lPg | linkTx | linkRx
  | xta | xtb | encoder | lsync | wakeTamperReset | tck | tapIn | tdo | strap
deriving DecidableEq, Repr

/-- The state of a signal while its domain is off or in reset (R455). -/
inductive IdleState where
  | strapSafe | unpowered | ignored | low | highZ | oscillatorOff | oscillatorOn | input | sensed | notDriven | latchedOnly
deriving DecidableEq, Repr

def Signal.idle : Signal → IdleState
  | .byPair => .strapSafe
  | .bySingle => .strapSafe
  | .pcieTx => .unpowered
  | .pcieRx => .unpowered
  | .refclk => .unpowered
  | .perst => .ignored
  | .ddrClock => .low
  | .ddrStrobe => .low
  | .ddrData => .highZ
  | .ddrReset => .low
  | .vdd2lEn => .low
  | .vdd2lPg => .ignored
  | .linkTx => .unpowered
  | .linkRx => .unpowered
  | .xta => .oscillatorOff
  | .xtb => .oscillatorOn
  | .encoder => .ignored
  | .lsync => .input
  | .wakeTamperReset => .sensed
  | .tck => .sensed
  | .tapIn => .sensed
  | .tdo => .notDriven
  | .strap => .latchedOnly

/-- DDR_VDD2L_EN (R465): high from the ramp of VDD2H on, low once the power-down or a failed start has begun. -/
def Dev.vdd2lEn (d : Dev) : Bool :=
  match d.ddr with
  | .off => false
  | .waitPg => true
  | .powered => true
  | .training => true
  | .ready => true
  | .failed => d.pow.ddrPg
  | .waitFall => false

/-- DDR_RESET_N is released once VDDQ has ramped (R465). -/
def Dev.ddrResetReleased (d : Dev) : Bool := d.vdd2lEn && d.ddr ≠ .waitPg

end Sys2Proof.Machine
end

