-- ==== Sys2Proof/Machine/CmdTest.lean ====
section
/-! DEFINITION. The commands of the waymark units, the self-tests and the TAP (R436 to R451). -/

namespace Sys2Proof.Machine

/-- A write of TEST_BCMD with GO (R441 to R444). -/
def Dev.startTest (d : Dev) (r : Requester) (t : Nat) (hmask : BitVec 17) : Dev :=
  d.commandWord r R.TEST_BCMD (BitVec.ofNat 32 (2 ^ 31 + t * 2 ^ 28 + hmask.toNat))

def Dev.setTap (d : Dev) (i : TapInstr) : Dev := { d with tap := { d.tap with instr := i } }

/-- What a capture of the access register returns: the outcome of the latest access (R451). -/
def Dev.captureAccess (d : Dev) : Dev :=
  let x := d.tap.acc
  ({ d with tap := { d.tap with acc := { x with done := false } } }).respond (x.resp.setWidth 4) (leBytes 4 x.data.toNat)

/-- One scan of the access register (R451): the capture, and with GO one access at the window's base. -/
def Dev.tapAccess (d : Dev) (i : TapInstr) (base : Nat) (go wr : Bool) (off : BitVec 16) (v : Word) : Dev :=
  let d := (d.setTap i).captureAccess
  if !go then d else
  let w := d.who .tap
  let a := base + off.toNat
  let keep (d : Dev) (x : TapAccess) : Dev := { d with tap := { d.tap with acc := x } }
  if wr then
    match d.write w a (leBytes 4 v.toNat) with
    | .answered st _ e => keep e ⟨true, off, v, if st = 0 then 0 else 1, true⟩
    | .wait e => keep e { d.tap.acc with resp := 2 }
  else
    match d.read w a 4 with
    | .answered st l e => keep e ⟨false, off, BitVec.ofNat 32 (leNat l), if st = 0 then 0 else 1, true⟩
    | .wait e => keep e { d.tap.acc with resp := 2 }

/-- WAYMARK_SAMPLE (R437). -/
def execWaymarkSample (src : BitVec 4) (sel : BitVec 5) (v : BitVec 32) (s : State) : Host.Outcome State Fault Refusal :=
  s.run (fun d => if d.domOn 0 then d.wayDeliver src.toNat sel.toNat v.toInt else d)

/-- WAYMARK_WINDOW_END (R438). -/
def execWaymarkWindowEnd (w : Fin 16) (s : State) : Host.Outcome State Fault Refusal := s.run (fun d => d.wayWindowEnd w.val)

/-- WAYMARK_CLEAR (R439). -/
def execWaymarkClear (r : Requester) (w : Fin 16) (s : State) : Host.Outcome State Fault Refusal :=
  s.run (fun d => d.commandWord r (R.WAY_CTL w.val) 0x40000000)

/-- WAYMARK_SNAP (R439). -/
def execWaymarkSnap (r : Requester) (w : Fin 16) (s : State) : Host.Outcome State Fault Refusal :=
  s.run (fun d => d.commandWord r (R.WAY_CTL w.val) 0x80000000)

/-- BIST_INTERCONNECT (R444). -/
def execBistInterconnect (r : Requester) (hmask : BitVec 17) (s : State) : Host.Outcome State Fault Refusal :=
  s.run (fun d => d.startTest r 1 hmask)

/-- BIST_HALL_LOGIC (R441). -/
def execBistHallLogic (r : Requester) (hmask : BitVec 17) (s : State) : Host.Outcome State Fault Refusal :=
  s.run (fun d => d.startTest r 2 hmask)

/-- BIST_PE_MARCH (R441). -/
def execBistPeMarch (r : Requester) (hmask : BitVec 17) (s : State) : Host.Outcome State Fault Refusal :=
  s.run (fun d => d.startTest r 3 hmask)

/-- BIST_SPARE_ROWS (R441). -/
def execBistSpareRows (r : Requester) (hmask : BitVec 17) (s : State) : Host.Outcome State Fault Refusal :=
  s.run (fun d => d.startTest r 4 hmask)

/-- BIST_DONE (R443). -/
def execBistDone (res : BistRes) (s : State) : Host.Outcome State Fault Refusal := s.run (fun d => d.testDone res)

/-- FUSE_REPAIR_BURN (R446). -/
def execFuseRepairBurn (r : Requester) (s : State) : Host.Outcome State Fault Refusal :=
  s.run (fun d => d.commandWord r R.TEST_FUSE 0x80000000)

/-- FUSE_REPAIR_DONE (R446). -/
def execFuseRepairDone (bad : List (Fin 320)) (s : State) : Host.Outcome State Fault Refusal := s.run (fun d => d.repairBurned bad)

/-- TAP_RESET (R447). -/
def execTapReset (s : State) : Host.Outcome State Fault Refusal := s.run (fun d => d.setTap .idcode)

/-- EXTEST (R449): the balls follow the boundary register. -/
def execExtest (s : State) : Host.Outcome State Fault Refusal := s.run (fun d => d.setTap .extest)

/-- IDCODE (R448): the identification register is captured. -/
def execIdcode (s : State) : Host.Outcome State Fault Refusal :=
  s.run (fun d => (d.setTap .idcode).respond 0 (leBytes 4 0x1651734B))

/-- SAMPLE_PRELOAD (R447): the boundary register takes the cells shifted in. -/
def execSamplePreload (cells : BitVec 1536) (s : State) : Host.Outcome State Fault Refusal :=
  s.run (fun d => { d with tap := { d.tap with instr := .sample, boundary := cells } })

/-- EXTEST_PULSE (R450). -/
def execExtestPulse (s : State) : Host.Outcome State Fault Refusal := s.run (fun d => d.setTap .extestPulse)

/-- EXTEST_TRAIN (R450). -/
def execExtestTrain (s : State) : Host.Outcome State Fault Refusal := s.run (fun d => d.setTap .extestTrain)

/-- CLAMP (R449). -/
def execClamp (s : State) : Host.Outcome State Fault Refusal := s.run (fun d => d.setTap .clamp)

/-- HIGHZ (R449). -/
def execHighz (s : State) : Host.Outcome State Fault Refusal := s.run (fun d => d.setTap .highz)

/-- BYPASS (R447). -/
def execBypass (s : State) : Host.Outcome State Fault Refusal := s.run (fun d => d.setTap .bypass)

/-- DBGACC (R451). -/
def execDbgacc (go wr : Bool) (off : BitVec 16) (v : Word) (s : State) : Host.Outcome State Fault Refusal :=
  s.run (fun d => d.tapAccess .dbgacc (blockBase .dbg) go wr off v)

/-- TESTACC (R451). -/
def execTestacc (go wr : Bool) (off : BitVec 16) (v : Word) (s : State) : Host.Outcome State Fault Refusal :=
  s.run (fun d => d.tapAccess .testacc (blockBase .test) go wr off v)

end Sys2Proof.Machine
end

