-- ==== Sys2Proof/Machine/CoreAlu.lean ====
section
/-! DEFINITION. A Flivin core's ALU, address, compare, predicate, branch and return-stack instructions (R252, R253, R256, R265 to R267). -/

namespace Sys2Proof.Machine

/-! Shared forms. -/

/-- A 16-bit form that works in registers alone, in one cycle. -/
def Dev.short (d : Dev) (c : CoreId) (n : Names) (f : CoreState → CoreState) : Dev :=
  d.op16 c n (fun d => d.modCo c (fun k => (f k).advance 2 1))

/-- A 32-bit form that works in registers alone. -/
def Dev.long (d : Dev) (c : CoreId) (p : Pred) (n : Names) (cycles : Nat) (f : CoreState → CoreState) : Dev :=
  d.op32 c p n (fun d => d.modCo c (fun k => (f k).advance 4 cycles))

/-- Dd := Ds op Dt of a 32-bit form (R253). -/
def Dev.alu3 (d : Dev) (c : CoreId) (p : Pred) (rd s t : DReg) (op : Word → Word → Word) : Dev :=
  d.long c p { ds := [rd, s, t] } 1 (fun k => k.wrd rd (op (k.rd s) (k.rd t)))

/-- An ALU operation in its two forms (R252, R253). -/
def Dev.alu (d : Dev) (c : CoreId) (f : AluForm) (op : Word → Word → Word) : Dev :=
  match f with
  | .short rd s => d.short c { ds := [rd, s] } (fun k => k.wrd rd (op (k.rd rd) (k.rd s)))
  | .long p rd s t => d.alu3 c p rd s t op

/-- The shift distance: bits [5:0] of the operand (R252). -/
def shiftBy (t : Word) : Nat := t.toNat % 64

/-- The instruction's own operations. -/
def opShl (s t : Word) : Word := s <<< shiftBy t
def opShru (s t : Word) : Word := s >>> shiftBy t
def opShrs (s t : Word) : Word := s.sshiftRight (shiftBy t)
def opRol (s t : Word) : Word := s.rotateLeft (shiftBy t % 32)
def opMins (s t : Word) : Word := if s.toInt ≤ t.toInt then s else t
def opMaxs (s t : Word) : Word := if s.toInt ≤ t.toInt then t else s
def opMinu (s t : Word) : Word := if s.toNat ≤ t.toNat then s else t
def opMaxu (s t : Word) : Word := if s.toNat ≤ t.toNat then t else s

/-- A compare (R253): the immediate is sign-extended. -/
def Dev.compare (d : Dev) (c : CoreId) (p : Pred) (pd : PReg) (s : DReg) (o : CmpOp) (cc : Word → Word → Bool) : Dev :=
  match o with
  | .reg t => d.long c p { ps := [pd], ds := [s, t], legal := pd ≠ 0 } 1 (fun k => k.wrp pd (cc (k.rd s) (k.rd t)))
  | .imm i => d.long c p { ps := [pd], ds := [s], legal := pd ≠ 0 } 1 (fun k => k.wrp pd (cc (k.rd s) (i.signExtend 32)))

/-- Predicate logic: Pd := Pa op Pb (R253). -/
def Dev.predLogic (d : Dev) (c : CoreId) (p : Pred) (pd a b : PReg) (op : Bool → Bool → Bool) : Dev :=
  d.long c p { ps := [pd, a, b], legal := pd ≠ 0 } 1 (fun k => k.wrp pd (op (k.rp a) (k.rp b)))

/-- A branch target: a signed offset in halfwords from the branch (R252). -/
def branchTarget (pc : Word) {n : Nat} (off : BitVec n) : Word := pc + off.signExtend 32 * 2

/-- Pushes at the top of the return stack (R265, R266); none when the push is not performed. -/
def CoreState.push (k : CoreState) (v : Word) : Option CoreState :=
  if k.rs.length < 16 then some { k with rs := v :: k.rs }
  else if k.cfg.getLsbD 0 then none
  else some { k with rs := (v :: k.rs).take 16 }

/-- CALL and CALLA: push the next address and go to the target. -/
def Dev.callTo (d : Dev) (c : CoreId) (len : Nat) (target : Word) : Dev :=
  let k := d.co c
  match k.push (k.pc + BitVec.ofNat 32 len) with
  | some k => d.setCo c (k.jump target 2)
  | none => d.trapHere c .rsOver

/-! The instructions. -/

/-- CORE_MOV (R252). -/
def execCoreMov (c : CoreId) (d s : DReg) (st : State) : Host.Outcome State Fault Refusal :=
  st.run (fun v => v.short c { ds := [d, s] } (fun k => k.wrd d (k.rd s)))

/-- CORE_ADD (R253). -/
def execCoreAdd (c : CoreId) (f : AluForm) (s : State) : Host.Outcome State Fault Refusal := s.run (fun d => d.alu c f (· + ·))

/-- CORE_SUB (R253). -/
def execCoreSub (c : CoreId) (f : AluForm) (s : State) : Host.Outcome State Fault Refusal := s.run (fun d => d.alu c f (· - ·))

/-- CORE_AND (R253). -/
def execCoreAnd (c : CoreId) (f : AluForm) (s : State) : Host.Outcome State Fault Refusal := s.run (fun d => d.alu c f (· &&& ·))

/-- CORE_OR (R253). -/
def execCoreOr (c : CoreId) (f : AluForm) (s : State) : Host.Outcome State Fault Refusal := s.run (fun d => d.alu c f (· ||| ·))

/-- CORE_XOR (R253). -/
def execCoreXor (c : CoreId) (f : AluForm) (s : State) : Host.Outcome State Fault Refusal := s.run (fun d => d.alu c f (· ^^^ ·))

/-- CORE_ANDN (R253): AND with the complement, as the array's ANDN (R85). -/
def execCoreAndn (c : CoreId) (p : Pred) (d s t : DReg) (st : State) : Host.Outcome State Fault Refusal :=
  st.run (fun v => v.alu3 c p d s t (fun a b => a &&& ~~~b))

/-- CORE_NOT (R252). -/
def execCoreNot (c : CoreId) (d s : DReg) (st : State) : Host.Outcome State Fault Refusal :=
  st.run (fun v => v.short c { ds := [d, s] } (fun k => k.wrd d (~~~(k.rd s))))

/-- CORE_NEG (R252). -/
def execCoreNeg (c : CoreId) (d s : DReg) (st : State) : Host.Outcome State Fault Refusal :=
  st.run (fun v => v.short c { ds := [d, s] } (fun k => k.wrd d (-(k.rd s))))

/-- CORE_SHL (R253). -/
def execCoreShl (c : CoreId) (f : AluForm) (s : State) : Host.Outcome State Fault Refusal := s.run (fun d => d.alu c f opShl)

/-- CORE_SHRU (R253). -/
def execCoreShru (c : CoreId) (f : AluForm) (s : State) : Host.Outcome State Fault Refusal := s.run (fun d => d.alu c f opShru)

/-- CORE_SHRS (R253). -/
def execCoreShrs (c : CoreId) (f : AluForm) (s : State) : Host.Outcome State Fault Refusal := s.run (fun d => d.alu c f opShrs)

/-- CORE_ROL (R253). -/
def execCoreRol (c : CoreId) (p : Pred) (d s t : DReg) (st : State) : Host.Outcome State Fault Refusal :=
  st.run (fun v => v.alu3 c p d s t opRol)

/-- CORE_MINS (R253). -/
def execCoreMins (c : CoreId) (p : Pred) (d s t : DReg) (st : State) : Host.Outcome State Fault Refusal :=
  st.run (fun v => v.alu3 c p d s t opMins)

/-- CORE_MAXS (R253). -/
def execCoreMaxs (c : CoreId) (p : Pred) (d s t : DReg) (st : State) : Host.Outcome State Fault Refusal :=
  st.run (fun v => v.alu3 c p d s t opMaxs)

/-- CORE_MINU (R253). -/
def execCoreMinu (c : CoreId) (p : Pred) (d s t : DReg) (st : State) : Host.Outcome State Fault Refusal :=
  st.run (fun v => v.alu3 c p d s t opMinu)

/-- CORE_MAXU (R253). -/
def execCoreMaxu (c : CoreId) (p : Pred) (d s t : DReg) (st : State) : Host.Outcome State Fault Refusal :=
  st.run (fun v => v.alu3 c p d s t opMaxu)

/-- ASET (R252). -/
def execAset (c : CoreId) (d : AReg) (s : DReg) (st : State) : Host.Outcome State Fault Refusal :=
  st.run (fun v => v.short c { ds := [s] } (fun k => k.wra d (k.rd s)))

/-- AGET (R252). -/
def execAget (c : CoreId) (d : DReg) (s : AReg) (st : State) : Host.Outcome State Fault Refusal :=
  st.run (fun v => v.short c { ds := [d] } (fun k => k.wrd d (k.ra s)))

/-- AADD (R252). -/
def execAadd (c : CoreId) (d : AReg) (s : DReg) (st : State) : Host.Outcome State Fault Refusal :=
  st.run (fun v => v.short c { ds := [s] } (fun k => k.wra d (k.ra d + k.rd s)))

/-- LEA (R253). -/
def execLea (c : CoreId) (p : Pred) (d s : AReg) (imm : BitVec 16) (st : State) : Host.Outcome State Fault Refusal :=
  st.run (fun v => v.long c p {} 1 (fun k => k.wra d (k.ra s + imm.signExtend 32)))

/-- MOVI (R252, R253). -/
def execMovi (c : CoreId) (f : ImmForm) (st : State) : Host.Outcome State Fault Refusal :=
  st.run (fun v => match f with
    | .short d imm => v.short c { ds := [d] } (fun k => k.wrd d (imm.signExtend 32))
    | .long p d imm => v.long c p { ds := [d] } 1 (fun k => k.wrd d (imm.signExtend 32)))

/-- MOVHI (R253). -/
def execMovhi (c : CoreId) (p : Pred) (d : DReg) (imm : BitVec 16) (st : State) : Host.Outcome State Fault Refusal :=
  st.run (fun v => v.long c p { ds := [d] } 1 (fun k => k.wrd d (imm.append ((k.rd d).setWidth 16))))

/-- ADDI (R252, R253). -/
def execAddi (c : CoreId) (f : ImmForm) (st : State) : Host.Outcome State Fault Refusal :=
  st.run (fun v => match f with
    | .short d imm => v.short c { ds := [d] } (fun k => k.wrd d (k.rd d + imm.signExtend 32))
    | .long p d imm => v.long c p { ds := [d] } 1 (fun k => k.wrd d (k.rd d + imm.signExtend 32)))

/-- CMP_EQ (R253). -/
def execCmpEq (c : CoreId) (p : Pred) (d : PReg) (s : DReg) (o : CmpOp) (st : State) : Host.Outcome State Fault Refusal :=
  st.run (fun v => v.compare c p d s o (fun a b => a = b))

/-- CMP_NE (R253). -/
def execCmpNe (c : CoreId) (p : Pred) (d : PReg) (s : DReg) (o : CmpOp) (st : State) : Host.Outcome State Fault Refusal :=
  st.run (fun v => v.compare c p d s o (fun a b => a ≠ b))

/-- CMP_LTS (R253). -/
def execCmpLts (c : CoreId) (p : Pred) (d : PReg) (s : DReg) (o : CmpOp) (st : State) : Host.Outcome State Fault Refusal :=
  st.run (fun v => v.compare c p d s o (fun a b => a.slt b))

/-- CMP_GES (R253). -/
def execCmpGes (c : CoreId) (p : Pred) (d : PReg) (s : DReg) (o : CmpOp) (st : State) : Host.Outcome State Fault Refusal :=
  st.run (fun v => v.compare c p d s o (fun a b => b.sle a))

/-- CMP_LTU (R253). -/
def execCmpLtu (c : CoreId) (p : Pred) (d : PReg) (s : DReg) (o : CmpOp) (st : State) : Host.Outcome State Fault Refusal :=
  st.run (fun v => v.compare c p d s o (fun a b => a.ult b))

/-- CMP_GEU (R253). -/
def execCmpGeu (c : CoreId) (p : Pred) (d : PReg) (s : DReg) (o : CmpOp) (st : State) : Host.Outcome State Fault Refusal :=
  st.run (fun v => v.compare c p d s o (fun a b => b.ule a))

/-- PRED_AND (R253). -/
def execPredAnd (c : CoreId) (p : Pred) (d a b : PReg) (st : State) : Host.Outcome State Fault Refusal :=
  st.run (fun v => v.predLogic c p d a b (fun x y => x && y))

/-- PRED_OR (R253). -/
def execPredOr (c : CoreId) (p : Pred) (d a b : PReg) (st : State) : Host.Outcome State Fault Refusal :=
  st.run (fun v => v.predLogic c p d a b (fun x y => x || y))

/-- PRED_XOR (R253). -/
def execPredXor (c : CoreId) (p : Pred) (d a b : PReg) (st : State) : Host.Outcome State Fault Refusal :=
  st.run (fun v => v.predLogic c p d a b (fun x y => x != y))

/-- PRED_ANDN (R253). -/
def execPredAndn (c : CoreId) (p : Pred) (d a b : PReg) (st : State) : Host.Outcome State Fault Refusal :=
  st.run (fun v => v.predLogic c p d a b (fun x y => x && !y))

/-- BR (R252, R253). -/
def execBr (c : CoreId) (f : BrForm) (st : State) : Host.Outcome State Fault Refusal :=
  st.run (fun v => match f with
    | .short off => v.op16 c {} (fun v => v.modCo c (fun k => k.jump (branchTarget k.pc off) 2))
    | .long p off => v.op32 c p {} (fun v => v.modCo c (fun k => k.jump (branchTarget k.pc off) 2)))

/-- BRP (R252): the condition of R257 on a 16-bit form. -/
def execBrp (c : CoreId) (p : Pred) (off : BitVec 8) (st : State) : Host.Outcome State Fault Refusal :=
  st.run (fun v => v.op16 c { ps := [p.p] } (fun v => v.modCo c (fun k =>
    if k.holds p then k.jump (branchTarget k.pc off) 2 else k.advance 2 1)))

/-- CALL (R265). -/
def execCall (c : CoreId) (f : BrForm) (st : State) : Host.Outcome State Fault Refusal :=
  st.run (fun v => match f with
    | .short off => v.op16 c {} (fun v => v.callTo c 2 (branchTarget (v.co c).pc off))
    | .long p off => v.op32 c p {} (fun v => v.callTo c 4 (branchTarget (v.co c).pc off)))

/-- JMP (R253). -/
def execJmp (c : CoreId) (p : Pred) (a : AReg) (st : State) : Host.Outcome State Fault Refusal :=
  st.run (fun v => v.op32 c p {} (fun v => v.modCo c (fun k => k.jump (k.ra a) 2)))

/-- CALLA (R265). -/
def execCalla (c : CoreId) (p : Pred) (a : AReg) (st : State) : Host.Outcome State Fault Refusal :=
  st.run (fun v => v.op32 c p {} (fun v => v.callTo c 4 ((v.co c).ra a)))

/-- RET (R265, R266). -/
def execRet (c : CoreId) (st : State) : Host.Outcome State Fault Refusal :=
  st.run (fun v => v.op16 c {} (fun v =>
    match (v.co c).rs with
    | [] => v.trapHere c .rsUnder
    | a :: r => v.modCo c (fun k => { k with rs := r }.jump a 2)))

/-- RSPUSH (R265, R266). -/
def execRspush (c : CoreId) (p : Pred) (d : DReg) (st : State) : Host.Outcome State Fault Refusal :=
  st.run (fun v => v.op32 c p { ds := [d] } (fun v =>
    match (v.co c).push ((v.co c).rd d) with
    | some k => v.setCo c (k.advance 4 1)
    | none => v.trapHere c .rsOver))

/-- RSPOP (R265, R266). -/
def execRspop (c : CoreId) (p : Pred) (d : DReg) (st : State) : Host.Outcome State Fault Refusal :=
  st.run (fun v => v.op32 c p { ds := [d] } (fun v =>
    match (v.co c).rs with
    | [] => v.trapHere c .rsUnder
    | a :: r => v.modCo c (fun k => ({ k with rs := r }.wrd d a).advance 4 1)))

/-- RSPUSHB (R265, R266): inserts at the bottom, and traps at depth 16 in both settings. -/
def execRspushb (c : CoreId) (p : Pred) (d : DReg) (st : State) : Host.Outcome State Fault Refusal :=
  st.run (fun v => v.op32 c p { ds := [d] } (fun v =>
    if 16 ≤ (v.co c).rs.length then v.trapHere c .rsOver
    else v.modCo c (fun k => { k with rs := k.rs ++ [k.rd d] }.advance 4 1)))

/-- RSPOPB (R265, R266): removes the oldest entry. -/
def execRspopb (c : CoreId) (p : Pred) (d : DReg) (st : State) : Host.Outcome State Fault Refusal :=
  st.run (fun v => v.op32 c p { ds := [d] } (fun v =>
    match (v.co c).rs.getLast? with
    | none => v.trapHere c .rsUnder
    | some a => v.modCo c (fun k => ({ k with rs := k.rs.dropLast }.wrd d a).advance 4 1)))

end Sys2Proof.Machine
end

