-- ==== Sys2Proof/Machine/CoreFp.lean ====
section
/-! DEFINITION. A Flivin core's multiply, accumulator, division-step and floating-point instructions (R268, R269, R281 to R294). -/

namespace Sys2Proof.Machine

/-! Multiply timing (R282). -/

/-- The unsigned significance u(t). -/
def sigU (t : Word) : Nat := if t = 0 then 0 else Nat.log2 t.toNat + 1

/-- The signed significance v(t): 33 less the number of leading bits equal to bit 31. -/
def sigV (t : Word) : Nat :=
  if t = 0 then 0 else
  let m := if t.getLsbD 31 then ~~~t else t
  1 + sigU m

/-- Cycles of a multiply: 5 with CT, else 1 + ceil(σ / 8). -/
def mulCycles (ct : Bool) (sig : Nat) : Nat := if ct then 5 else 1 + (sig + 7) / 8

/-- The signed and unsigned 64-bit products. -/
def prodS (s t : Word) : BitVec 64 := BitVec.ofInt 64 (s.toInt * t.toInt)
def prodU (s t : Word) : BitVec 64 := BitVec.ofNat 64 (s.toNat * t.toNat)

def evenReg (n : DReg) : Bool := !n.getLsbD 0

/-- A multiply with a word result (R281). -/
def Dev.mulWord (d : Dev) (c : CoreId) (p : Pred) (rd s t : DReg) (ct : Bool) (sig : Word → Nat) (f : Word → Word → Word) : Dev :=
  d.op32 c p { ds := [rd, s, t] } (fun d =>
    d.modCo c (fun k => (k.wrd rd (f (k.rd s) (k.rd t))).advance 4 (mulCycles ct (sig (k.rd t)))))

/-- A multiply with a pair result (R248, R281). -/
def Dev.mulPair (d : Dev) (c : CoreId) (p : Pred) (rd s t : DReg) (ct : Bool) (sig : Word → Nat) (f : Word → Word → BitVec 64) :
    Dev :=
  d.op32 c p { ds := [rd, rd ||| 1, s, t], legal := evenReg rd } (fun d =>
    d.modCo c (fun k => (k.wpair rd (f (k.rd s) (k.rd t))).advance 4 (mulCycles ct (sig (k.rd t)))))

/-- The 72-bit sum: it wraps, or with CFG.ACSAT clamps (R268). -/
def accSum (sat : Bool) (a : BitVec 72) (x : Int) : BitVec 72 :=
  let t := a.toInt + x
  if sat then BitVec.ofInt 72 (max (-(2 ^ 71)) (min (2 ^ 71 - 1) t)) else BitVec.ofInt 72 t

def CoreState.acsat (k : CoreState) : Bool := k.cfg.getLsbD 1

/-- A multiply-accumulate of two registers (R281). -/
def Dev.macReg (d : Dev) (c : CoreId) (p : Pred) (n : BitVec 2) (s t : DReg) (ct : Bool) (sig : Word → Nat)
    (f : Word → Word → Int) : Dev :=
  d.op32 c p { ds := [s, t] } (fun d => d.modCo c (fun k =>
    (k.wac n (accSum k.acsat (k.rac n) (f (k.rd s) (k.rd t)))).advance 4 (mulCycles ct (sig (k.rd t)))))

/-- The 16-bit halves of a word as signed numbers. -/
def halfS (w : Word) (hi : Bool) : Int := (if hi then (w >>> 16).setWidth 16 else w.setWidth 16 : BitVec 16).toInt

/-- The sum of products that MAC.H2 adds. -/
def dot2 (u v : Word) : Int := halfS u false * halfS v false + halfS u true * halfS v true

/-- An aligned word address in the 64 KiB from lo. -/
def wordIn (lo : Nat) (a : Word) : Bool := a.toNat % 4 = 0 && lo ≤ a.toNat && a.toNat < lo + 0x10000

/-- An accumulator moved right and clamped to 32 bits (R269). -/
def accMove (a : BitVec 72) (sh : Nat) : Word :=
  BitVec.ofInt 32 (max (-(2 ^ 31)) (min (2 ^ 31 - 1) (a.toInt / (2 ^ sh : Nat))))

def accPart (a : BitVec 72) (part : Nat) : Word :=
  match part with
  | 0 => a.setWidth 32
  | 1 => (a >>> 32).setWidth 32
  | _ => ((a >>> 64).setWidth 8 : BitVec 8).signExtend 32

def accPut (a : BitVec 72) (part : Nat) (v : Word) : BitVec 72 :=
  match part with
  | 0 => merge (BitVec.ofNat 72 (2 ^ 32 - 1)) a (v.setWidth 72)
  | 1 => merge (BitVec.ofNat 72 ((2 ^ 32 - 1) * 2 ^ 32)) a (v.setWidth 72 <<< 32)
  | _ => merge (BitVec.ofNat 72 ((2 ^ 8 - 1) * 2 ^ 64)) a (v.setWidth 72 <<< 64)

/-- One restoring step (R284): the remainder and the quotient register. -/
def divStep (r q v : Word) : Word × Word :=
  let t := 2 * r.toNat + bn (q.getLsbD 31)
  if v.toNat ≤ t then (BitVec.ofNat 32 (t - v.toNat), (q <<< 1) ||| 1) else (BitVec.ofNat 32 t, q <<< 1)

/-! The FPU (R286 to R294). -/

/-- The format that PR names. -/
def fpFmt (pr : Bool) : Fmt := if pr then double else single

/-- The registers of operands in a format, with the even-register rule (R286). -/
def fpRegs (pr : Bool) (l : List DReg) : List DReg := if pr then l.flatMap (fun n => [n, n ||| 1]) else l
def fpEven (pr : Bool) (l : List DReg) : Bool := !pr || l.all evenReg

/-- An operand's pattern, and a result written. -/
def CoreState.fpr (k : CoreState) (pr : Bool) (n : DReg) : Nat := if pr then (k.rpair n).toNat else (k.rd n).toNat
def CoreState.fpw (k : CoreState) (pr : Bool) (n : DReg) (v : Nat) : CoreState :=
  if pr then k.wpair n (BitVec.ofNat 64 v) else k.wrd n (BitVec.ofNat 32 v)

/-- FPCR: the rounding mode and the default-NaN bit (R287). -/
def CoreState.rm (k : CoreState) : RMode := rmodeOf (bits k.fpcr.toNat 1 0)
def CoreState.dn (k : CoreState) : Bool := k.fpcr.getLsbD 2

/-- Flags in the bit order of FPSR.FLAGS. -/
def flagWord (f : FFlags) : Word := BitVec.ofNat 32 (ofBits [f.nx, f.uf, f.of, f.dz, f.nv])

/-- The end of an FPU instruction (R292): the result and the flags, or the floating-point trap without the result. -/
def Dev.fpEnd (d : Dev) (c : CoreId) (fl : FFlags) (cycles : Nat) (write : CoreState → CoreState) : Dev :=
  let k := d.co c
  let w := flagWord fl
  let sr := k.fpsr ||| w
  if w &&& ((k.fpcr >>> 8) &&& 0x1F) ≠ 0 then
    (d.setCo c { k with fpsr := setBits sr 12 8 w.toNat }).trapHere c .fp
  else d.setCo c ((write { k with fpsr := sr }).advance 4 cycles)

/-- An FPU instruction: its operation gives a pattern and flags. -/
def Dev.fpu (d : Dev) (c : CoreId) (p : Pred) (n : Names) (cycles : Nat) (op : CoreState → Nat × FFlags)
    (write : CoreState → Nat → CoreState) : Dev :=
  d.op32 c p n (fun d =>
    let r := op (d.co c)
    d.fpEnd c r.2 cycles (fun k => write k r.1))

/-- The same with a predicate result. -/
def Dev.fpuCmp (d : Dev) (c : CoreId) (p : Pred) (pr : Bool) (pd : PReg) (s t : DReg)
    (op : Fmt → Bool → Nat → Nat → Bool × FFlags) : Dev :=
  d.op32 c p { ps := [pd], ds := fpRegs pr [s, t], legal := fpEven pr [s, t] && pd ≠ 0 } (fun d =>
    let k := d.co c
    let r := op (fpFmt pr) false (k.fpr pr s) (k.fpr pr t)
    d.fpEnd c r.2 1 (fun k => k.wrp pd r.1))

/-- A NaN with its quiet bit set. -/
def quieted (f : Fmt) (a : Nat) : Nat := if a.testBit (f.p - 2) then a else a + 2 ^ (f.p - 2)

/-- The NaN result of R289 for operands in the order s, t, d; none without a NaN operand. -/
def nanResult (f : Fmt) (dn : Bool) (l : List Nat) : Option (Nat × FFlags) :=
  match l.find? (isSnan f) with
  | some a => some (if dn then f.qnan else quieted f a, { nv := true })
  | none => (l.find? (isNan f)).map (fun a => (if dn then f.qnan else a, {}))

/-- An operation with NaN operands handled by R289. -/
def withNans (f : Fmt) (dn : Bool) (l : List Nat) (r : Nat × FFlags) : Nat × FFlags := (nanResult f dn l).getD r

/-- A product of 0 and ∞. -/
def zeroInf (f : Fmt) (a b : Nat) : Bool :=
  match unpack f false a, unpack f false b with
  | .inf _, .fin _ m _ => m = 0
  | .fin _ m _, .inf _ => m = 0
  | _, _ => false

/-- s × t + d, or with neg d − s × t (R286, R289). -/
def coreFma (f : Fmt) (rm : RMode) (dn neg : Bool) (s t d : Nat) : Nat × FFlags :=
  if zeroInf f s t then canonNan f true
  else withNans f dn [s, t, d] (fpFma f rm false false (if neg then fpFlip f s else s) t d)

/-- FMIN and FMAX (R290). -/
def coreMinMax (f : Fmt) (dn mx : Bool) (s t : Nat) : Nat × FFlags :=
  let nv : FFlags := { nv := isSnan f s || isSnan f t }
  match isNan f s, isNan f t with
  | true, true => withNans f dn [s, t] (s, nv)
  | true, false => (t, nv)
  | false, true => (s, nv)
  | false, false =>
    let neg := s.testBit (f.width - 1)
    match fpCompare f false s t with
    | some .lt => (if mx then t else s, {})
    | some .gt => (if mx then s else t, {})
    | _ => (if neg != mx then s else t, {})

/-- FCVT between the formats (R286, R289): a NaN keeps its sign and its high fraction bits. -/
def coreConvert (dn pr : Bool) (rm : RMode) (a : Nat) : Nat × FFlags :=
  let src := fpFmt pr
  let dst := fpFmt (!pr)
  if isNan src a then
    let frac := a % 2 ^ (src.p - 1)
    let fr := if pr then frac / 2 ^ (double.p - single.p) else frac * 2 ^ (double.p - single.p)
    (if dn then dst.qnan else quieted dst (dst.sign (a.testBit (src.width - 1)) + dst.inf + fr % 2 ^ (dst.p - 1)),
      { nv := isSnan src a })
  else fpConvert src dst rm false false a

/-- ⌊√n⌋ for n below 2^520. -/
def isqrt (n : Nat) : Nat :=
  (List.range 260).foldr (fun i r => if (r + 2 ^ i) * (r + 2 ^ i) ≤ n then r + 2 ^ i else r) 0

/-- A dyadic number p × 2^x as a fraction. -/
def dyadic (p : Nat) (x : Int) : Nat × Nat := (p * 2 ^ x.toNat, 2 ^ (-x).toNat)

/-- An estimate y of 1 / (m × 2^e) is a finite positive number with a relative error below 2⁻¹² (R291). -/
def recipClose (f : Fmt) (m : Nat) (e : Int) (y : Nat) : Bool :=
  match unpack f false y with
  | .fin false k x =>
    let (a, b) := dyadic (m * k) (e + x)
    decide ((max a b - min a b) * 2 ^ 12 < b)
  | _ => false

/-- The same for 1 / √(m × 2^e). -/
def rsqrtClose (f : Fmt) (m : Nat) (e : Int) (y : Nat) : Bool :=
  match unpack f false y with
  | .fin false k x =>
    let (a, b) := dyadic (m * k * k) (e + 2 * x)
    decide (b * (2 ^ 12 - 1) ^ 2 < a * 2 ^ 24) && decide (a * 2 ^ 24 < b * (2 ^ 12 + 1) ^ 2)
  | _ => false

/-- The estimate that the part gives: open within the bound; a constant outside the bound stands for the rounded value. -/
def recipValue (pr : Bool) (m : Nat) (e : Int) (a : Nat) : Nat :=
  let f := fpFmt pr
  let y := (Config.reciprocalEstimate pr (BitVec.ofNat 64 a)).toNat
  if recipClose f m e y then y else (roundTo f .rne false false (2 ^ 200 / m * 2 + 1) (-201 - e)).1

def rsqrtValue (pr : Bool) (m : Nat) (e : Int) (a : Nat) : Nat :=
  let f := fpFmt pr
  let y := (Config.rsqrtEstimate pr (BitVec.ofNat 64 a)).toNat
  if rsqrtClose f m e y then y else
  let m' := if e % 2 = 0 then m else 2 * m
  let e' := if e % 2 = 0 then e else e - 1
  (roundTo f .rne false false (isqrt (2 ^ 400 / m') * 2 + 1) (-201 - e' / 2)).1

/-- FRECE (R291). -/
def coreRecip (pr dn : Bool) (a : Nat) : Nat × FFlags :=
  let f := fpFmt pr
  match unpack f false a with
  | .nan _ => withNans f dn [a] (f.qnan, {})
  | .inf s => (f.sign s, {})
  | .fin s m e =>
    if m = 0 then (f.sign s + f.inf, { dz := true }) else
    let top := dyadic (m * (2 ^ f.p - 1)) (e + f.bias + 1 - f.p)
    let low := dyadic m (e + f.qmin + f.p - 1)
    if top.1 < top.2 then (f.sign s + f.inf, { of := true, nx := true })
    else if low.2 < low.1 then (f.sign s, { uf := true, nx := true })
    else (f.sign s + recipValue pr m e (a % 2 ^ (f.width - 1)), {})

/-- FRSQE (R291). -/
def coreRsqrt (pr dn : Bool) (a : Nat) : Nat × FFlags :=
  let f := fpFmt pr
  match unpack f false a with
  | .nan _ => withNans f dn [a] (f.qnan, {})
  | .inf s => if s then canonNan f true else (0, {})
  | .fin s m e =>
    if m = 0 then (f.sign s + f.inf, { dz := true })
    else if s then canonNan f true
    else (rsqrtValue pr m e a, {})

/-- The cycles of a form, for binary32 and binary64. -/
def fpCycles (pr : Bool) (s d : Nat) : Nat := if pr then d else s

/-- d := s op t (R286). -/
def Dev.fpTwo (d : Dev) (c : CoreId) (p : Pred) (pr : Bool) (rd s t : DReg) (cycles : Nat)
    (op : CoreState → Nat → Nat → Nat × FFlags) : Dev :=
  d.fpu c p { ds := fpRegs pr [rd, s, t], legal := fpEven pr [rd, s, t] } cycles
    (fun k => op k (k.fpr pr s) (k.fpr pr t)) (fun k v => k.fpw pr rd v)

/-- The rounding operations, with NaN operands by R289. -/
def Dev.fpRound (d : Dev) (c : CoreId) (p : Pred) (pr : Bool) (rd s t : DReg) (cycles : Nat)
    (op : Fmt → RMode → Bool → Bool → Nat → Nat → Nat × FFlags) : Dev :=
  d.fpTwo c p pr rd s t cycles (fun k a b => withNans (fpFmt pr) k.dn [a, b] (op (fpFmt pr) k.rm false false a b))

/-- d := op s in one format. -/
def Dev.fpOne (d : Dev) (c : CoreId) (p : Pred) (pr : Bool) (rd s : DReg) (cycles : Nat) (op : CoreState → Nat → Nat × FFlags) : Dev :=
  d.fpu c p { ds := fpRegs pr [rd, s], legal := fpEven pr [rd, s] } cycles (fun k => op k (k.fpr pr s)) (fun k v => k.fpw pr rd v)

/-- A conversion to a 32-bit integer (R286). -/
def Dev.fpToWord (d : Dev) (c : CoreId) (p : Pred) (pr : Bool) (rd s : DReg) (lo hi : Int) : Dev :=
  d.fpu c p { ds := rd :: fpRegs pr [s], legal := fpEven pr [s] } (fpCycles pr 2 3)
    (fun k => let r := fpToInt (fpFmt pr) k.rm false lo hi 0 (k.fpr pr s); (wrapInt 32 r.1, r.2))
    (fun k v => k.wrd rd (BitVec.ofNat 32 v))

/-- A conversion from a 32-bit integer (R286). -/
def Dev.fpOfWord (d : Dev) (c : CoreId) (p : Pred) (pr : Bool) (rd s : DReg) (val : Word → Int) : Dev :=
  d.fpu c p { ds := s :: fpRegs pr [rd], legal := fpEven pr [rd] } (fpCycles pr 2 3)
    (fun k => fpOfInt (fpFmt pr) k.rm (val (k.rd s))) (fun k v => k.fpw pr rd v)

/-! The instructions. -/

/-- MAC_H2 (R268). -/
def execMacH2 (c : CoreId) (p : Pred) (n x y : BitVec 2) (st : State) : Host.Outcome State Fault Refusal :=
  st.run (fun d => d.op32 c p {} (fun d =>
    let k := d.co c
    let ax : AReg := x.setWidth 3
    let ay : AReg := y.setWidth 3 ||| 4
    if !wordIn 0x08010000 (k.ra ax) then d.trap c .mac k.pc (k.ra ax) false
    else if !wordIn 0x08020000 (k.ra ay) then d.trap c .mac k.pc (k.ra ay) false
    else
      let base := 0x0C000000 + c.val * 0x01000000
      let u := d.word32 (base + (k.ra ax).toNat % 0x01000000)
      let v := d.word32 (base + (k.ra ay).toNat % 0x01000000)
      d.modCo c (fun k =>
        (((k.wac n (accSum k.acsat (k.rac n) (dot2 u v))).wra ax (k.ra ax + 4)).wra ay (k.ra ay + 4)).advance 4 1)))

/-- ACMOV (R269). -/
def execAcmov (c : CoreId) (p : Pred) (d : DReg) (n : BitVec 2) (sh : BitVec 6) (st : State) : Host.Outcome State Fault Refusal :=
  st.run (fun v => v.long c p { ds := [d] } 1 (fun k => k.wrd d (accMove (k.rac n) sh.toNat)))

/-- ACCLR (R269). -/
def execAcclr (c : CoreId) (p : Pred) (n : BitVec 2) (st : State) : Host.Outcome State Fault Refusal :=
  st.run (fun v => v.long c p {} 1 (fun k => k.wac n 0))

/-- ACRD (R269). -/
def execAcrd (c : CoreId) (p : Pred) (d : DReg) (n part : BitVec 2) (st : State) : Host.Outcome State Fault Refusal :=
  st.run (fun v => v.long c p { ds := [d], legal := part ≠ 3 } 1 (fun k => k.wrd d (accPart (k.rac n) part.toNat)))

/-- ACWR (R269). -/
def execAcwr (c : CoreId) (p : Pred) (n : BitVec 2) (s : DReg) (part : BitVec 2) (st : State) : Host.Outcome State Fault Refusal :=
  st.run (fun v => v.long c p { ds := [s], legal := part ≠ 3 } 1 (fun k => k.wac n (accPut (k.rac n) part.toNat (k.rd s))))

/-- MUL (R281). -/
def execMul (c : CoreId) (p : Pred) (d s t : DReg) (ct : Bool) (st : State) : Host.Outcome State Fault Refusal :=
  st.run (fun v => v.mulWord c p d s t ct sigV (fun a b => a * b))

/-- MULHS (R281). -/
def execMulhs (c : CoreId) (p : Pred) (d s t : DReg) (ct : Bool) (st : State) : Host.Outcome State Fault Refusal :=
  st.run (fun v => v.mulWord c p d s t ct sigV (fun a b => (prodS a b >>> 32).setWidth 32))

/-- MULHU (R281). -/
def execMulhu (c : CoreId) (p : Pred) (d s t : DReg) (ct : Bool) (st : State) : Host.Outcome State Fault Refusal :=
  st.run (fun v => v.mulWord c p d s t ct sigU (fun a b => (prodU a b >>> 32).setWidth 32))

/-- MULDS (R281). -/
def execMulds (c : CoreId) (p : Pred) (d s t : DReg) (ct : Bool) (st : State) : Host.Outcome State Fault Refusal :=
  st.run (fun v => v.mulPair c p d s t ct sigV prodS)

/-- MULDU (R281). -/
def execMuldu (c : CoreId) (p : Pred) (d s t : DReg) (ct : Bool) (st : State) : Host.Outcome State Fault Refusal :=
  st.run (fun v => v.mulPair c p d s t ct sigU prodU)

/-- CORE_DSTEP (R284). -/
def execCoreDstep (c : CoreId) (p : Pred) (r q v : DReg) (st : State) : Host.Outcome State Fault Refusal :=
  st.run (fun d => d.long c p { ds := [r, q, v], legal := r ≠ q } 1 (fun k =>
    let x := divStep (k.rd r) (k.rd q) (k.rd v)
    (k.wrd r x.1).wrd q x.2))

/-- MACS (R281). -/
def execMacs (c : CoreId) (p : Pred) (n : BitVec 2) (s t : DReg) (ct : Bool) (st : State) : Host.Outcome State Fault Refusal :=
  st.run (fun v => v.macReg c p n s t ct sigV (fun a b => a.toInt * b.toInt))

/-- MACU (R281). -/
def execMacu (c : CoreId) (p : Pred) (n : BitVec 2) (s t : DReg) (ct : Bool) (st : State) : Host.Outcome State Fault Refusal :=
  st.run (fun v => v.macReg c p n s t ct sigU (fun a b => ((a.toNat * b.toNat : Nat) : Int)))

/-- MSUS (R281). -/
def execMsus (c : CoreId) (p : Pred) (n : BitVec 2) (s t : DReg) (ct : Bool) (st : State) : Host.Outcome State Fault Refusal :=
  st.run (fun v => v.macReg c p n s t ct sigV (fun a b => -(a.toInt * b.toInt)))

/-- FADD (R286). -/
def execFadd (c : CoreId) (p : Pred) (pr : Bool) (d s t : DReg) (st : State) : Host.Outcome State Fault Refusal :=
  st.run (fun v => v.fpRound c p pr d s t (fpCycles pr 3 4) fpAdd)

/-- FSUB (R286). -/
def execFsub (c : CoreId) (p : Pred) (pr : Bool) (d s t : DReg) (st : State) : Host.Outcome State Fault Refusal :=
  st.run (fun v => v.fpRound c p pr d s t (fpCycles pr 3 4) fpSub)

/-- FMUL (R286). -/
def execFmul (c : CoreId) (p : Pred) (pr : Bool) (d s t : DReg) (st : State) : Host.Outcome State Fault Refusal :=
  st.run (fun v => v.fpRound c p pr d s t (fpCycles pr 3 6) fpMul)

/-- FMA (R286). -/
def execFma (c : CoreId) (p : Pred) (pr : Bool) (d s t : DReg) (st : State) : Host.Outcome State Fault Refusal :=
  st.run (fun v => v.fpTwo c p pr d s t (fpCycles pr 4 7) (fun k a b => coreFma (fpFmt pr) k.rm k.dn false a b (k.fpr pr d)))

/-- FNMS (R286). -/
def execFnms (c : CoreId) (p : Pred) (pr : Bool) (d s t : DReg) (st : State) : Host.Outcome State Fault Refusal :=
  st.run (fun v => v.fpTwo c p pr d s t (fpCycles pr 4 7) (fun k a b => coreFma (fpFmt pr) k.rm k.dn true a b (k.fpr pr d)))

/-- FMIN (R290). -/
def execFmin (c : CoreId) (p : Pred) (pr : Bool) (d s t : DReg) (st : State) : Host.Outcome State Fault Refusal :=
  st.run (fun v => v.fpTwo c p pr d s t 1 (fun k a b => coreMinMax (fpFmt pr) k.dn false a b))

/-- FMAX (R290). -/
def execFmax (c : CoreId) (p : Pred) (pr : Bool) (d s t : DReg) (st : State) : Host.Outcome State Fault Refusal :=
  st.run (fun v => v.fpTwo c p pr d s t 1 (fun k a b => coreMinMax (fpFmt pr) k.dn true a b))

/-- FNEG (R286). -/
def execFneg (c : CoreId) (p : Pred) (pr : Bool) (d s : DReg) (st : State) : Host.Outcome State Fault Refusal :=
  st.run (fun v => v.fpOne c p pr d s 1 (fun _ a => (fpFlip (fpFmt pr) a, {})))

/-- FABS (R286). -/
def execFabs (c : CoreId) (p : Pred) (pr : Bool) (d s : DReg) (st : State) : Host.Outcome State Fault Refusal :=
  st.run (fun v => v.fpOne c p pr d s 1 (fun _ a => (a % 2 ^ ((fpFmt pr).width - 1), {})))

/-- FMOV (R286). -/
def execFmov (c : CoreId) (p : Pred) (pr : Bool) (d s : DReg) (st : State) : Host.Outcome State Fault Refusal :=
  st.run (fun v => v.fpOne c p pr d s 1 (fun _ a => (a, {})))

/-- FCEQ (R286). -/
def execFceq (c : CoreId) (p : Pred) (pr : Bool) (d : PReg) (s t : DReg) (st : State) : Host.Outcome State Fault Refusal :=
  st.run (fun v => v.fpuCmp c p pr d s t fpEq)

/-- FCLT (R286). -/
def execFclt (c : CoreId) (p : Pred) (pr : Bool) (d : PReg) (s t : DReg) (st : State) : Host.Outcome State Fault Refusal :=
  st.run (fun v => v.fpuCmp c p pr d s t fpLt)

/-- FCLE (R286). -/
def execFcle (c : CoreId) (p : Pred) (pr : Bool) (d : PReg) (s t : DReg) (st : State) : Host.Outcome State Fault Refusal :=
  st.run (fun v => v.fpuCmp c p pr d s t fpLe)

/-- FCVT (R286). -/
def execFcvt (c : CoreId) (p : Pred) (pr : Bool) (d s : DReg) (st : State) : Host.Outcome State Fault Refusal :=
  st.run (fun v => v.fpu c p { ds := fpRegs (!pr) [d] ++ fpRegs pr [s], legal := fpEven (!pr) [d] && fpEven pr [s] }
    (fpCycles pr 2 3) (fun k => coreConvert k.dn pr k.rm (k.fpr pr s)) (fun k x => k.fpw (!pr) d x))

/-- FCVT_W (R286, R289). -/
def execFcvtW (c : CoreId) (p : Pred) (pr : Bool) (d s : DReg) (st : State) : Host.Outcome State Fault Refusal :=
  st.run (fun v => v.fpToWord c p pr d s (-(2 ^ 31)) (2 ^ 31 - 1))

/-- FCVT_F_W (R286). -/
def execFcvtFW (c : CoreId) (p : Pred) (pr : Bool) (d s : DReg) (st : State) : Host.Outcome State Fault Refusal :=
  st.run (fun v => v.fpOfWord c p pr d s BitVec.toInt)

/-- FCVT_WU (R286, R289). -/
def execFcvtWu (c : CoreId) (p : Pred) (pr : Bool) (d s : DReg) (st : State) : Host.Outcome State Fault Refusal :=
  st.run (fun v => v.fpToWord c p pr d s 0 (2 ^ 32 - 1))

/-- FCVT_F_WU (R286). -/
def execFcvtFWu (c : CoreId) (p : Pred) (pr : Bool) (d s : DReg) (st : State) : Host.Outcome State Fault Refusal :=
  st.run (fun v => v.fpOfWord c p pr d s (fun w => (w.toNat : Int)))

/-- FRECE (R291). -/
def execFrece (c : CoreId) (p : Pred) (pr : Bool) (d s : DReg) (st : State) : Host.Outcome State Fault Refusal :=
  st.run (fun v => v.fpOne c p pr d s 2 (fun k a => coreRecip pr k.dn a))

/-- FRSQE (R291). -/
def execFrsqe (c : CoreId) (p : Pred) (pr : Bool) (d s : DReg) (st : State) : Host.Outcome State Fault Refusal :=
  st.run (fun v => v.fpOne c p pr d s 2 (fun k a => coreRsqrt pr k.dn a))

end Sys2Proof.Machine
end

