-- ==== Sys2Proof/Machine/CoreMem.lean ====
section
/-! DEFINITION. A Flivin core's loads and stores (R244, R254, R257 to R264, R275). -/

namespace Sys2Proof.Machine

/-- The road address of a Flivin address outside the local alias (R23, R26). -/
def Dev.roadOf (d : Dev) (c : CoreId) (a : Word) : Nat :=
  if a.toNat < 0x80000000 then a.toNat
  else 0x100000000 + d.fld (R.SYS_DWIN_BASE c.val) * 0x40000000 + (a.toNat - 0x80000000)

/-- An address in the core's own alias of its local space (R23). -/
def localAlias (a : Word) : Bool := a.toNat / 0x01000000 = 8

/-- A load or store with its fields worked out: size in bytes, data register, the address, the address register's new value. -/
structure Access where
  size : Nat
  reg : DReg
  addr : Word
  areg : AReg
  upd : Word
  sx : Bool
deriving DecidableEq, Repr

/-- The bytes that SIZE names. -/
def accessBytes (size : BitVec 2) : Nat := 2 ^ size.toNat

/-- The register x of MODE 0b100 (R254). -/
def indexReg (opd : BitVec 9) : DReg := (opd >>> 5).setWidth 4

/-- The legality of a 32-bit form (R248, R254, R255). -/
def memLegal (store : Bool) (size : BitVec 2) (d : DReg) (mode : BitVec 3) (sx : Bool) (opd : BitVec 9) : Bool :=
  decide (mode.toNat ≤ 4) && (size ≠ 3 || !d.getLsbD 0) && (!sx || (!store && decide (size.toNat < 2))) &&
    (match mode.toNat with
      | 1 => opd = 0
      | 2 => opd = 0
      | 4 => opd.setWidth 3 = (0 : BitVec 3)
      | _ => true)

/-- The access of a 32-bit form (R254). -/
def CoreState.access (k : CoreState) (size : BitVec 2) (d : DReg) (a : AReg) (mode : BitVec 3) (sx : Bool) (opd : BitVec 9) : Access :=
  let s := accessBytes size
  let w := BitVec.ofNat 32 s
  let base := k.ra a
  let disp := opd.signExtend 32 * w
  match mode.toNat with
  | 0 => ⟨s, d, base + disp, a, base, sx⟩
  | 1 => ⟨s, d, base, a, base + w, sx⟩
  | 2 => ⟨s, d, base - w, a, base - w, sx⟩
  | 3 => ⟨s, d, base, a, base + disp, sx⟩
  | _ => ⟨s, d, base + (k.rd (indexReg opd) <<< (bits opd.toNat 4 3)), a, base, sx⟩

/-- The access of a 16-bit form (R252). -/
def CoreState.accessShort (k : CoreState) (d : DReg) (a : AReg) (mode : BitVec 2) (x : BitVec 3) : Access :=
  let base := k.ra a
  match mode.toNat with
  | 0 => ⟨4, d, base, a, base, false⟩
  | 1 => ⟨4, d, base, a, base + 4, false⟩
  | 2 => ⟨4, d, base - 4, a, base - 4, false⟩
  | _ => ⟨4, d, base + BitVec.ofNat 32 (4 * x.toNat), a, base, false⟩

/-- Both forms: the checks of R255, then f with the access and the instruction's length. -/
def Dev.memOp (d : Dev) (c : CoreId) (store : Bool) (f : MemForm) (g : Dev → Nat → Access → Dev) : Dev :=
  match f with
  | .short r a mode x =>
    d.op16 c { ds := [r], legal := mode = 3 || x = 0 } (fun d => g d 2 ((d.co c).accessShort r a mode x))
  | .long p size r a mode sx opd =>
    let pair := if size = 3 then [r, r ||| 1] else [r]
    let idx := if mode = 4 then [indexReg opd] else []
    d.op32 c p { ds := pair ++ idx, legal := memLegal store size r mode sx opd } (fun d =>
      g d 4 ((d.co c).access size r a mode sx opd))

/-- The bytes that a store writes. -/
def CoreState.storeBytes (k : CoreState) (x : Access) : List Byte :=
  if x.size = 8 then leBytes 8 (k.rpair x.reg).toNat else leBytes x.size (k.rd x.reg).toNat

/-- The instruction goes on: the address register is updated (R254, R256). -/
def CoreState.accessed (k : CoreState) (len : Nat) (x : Access) : CoreState := (k.wra x.areg x.upd).advance len 1

/-- A load's value is on its way to its destination (R262). -/
def CoreState.loading (k : CoreState) (x : Access) (l : List Byte) : CoreState :=
  let w := loadWords x.size x.sx l
  { k with loads := k.loads ++ [{ dst := x.reg, lo := w.1, hi := w.2, slots := 2 }] }

/-- A load whose data comes later (R263). -/
def CoreState.loadingLate (k : CoreState) (x : Access) (tid : BitVec 12) : CoreState :=
  { k with loads := k.loads ++ [⟨x.reg, 0, none, 2, some tid, x.size, x.sx⟩] }

/-- A load (R260, R262, R263, R275). -/
def Dev.loadAt (d : Dev) (c : CoreId) (len : Nat) (x : Access) : Dev :=
  let k := d.co c
  if x.addr.toNat % x.size ≠ 0 then d.trap c .misaligned k.pc x.addr false
  else if localAlias x.addr then
    match ownTcm c x.addr.toNat with
    | none => d.trap c .bus k.pc x.addr false
    | some a => d.setCo c ((k.accessed len x).loading x (d.bytes a x.size))
  else
    match d.issueRead (d.who (.core c)) (d.roadOf c x.addr) x.size with
    | .answered st l d =>
      let d := d.modCo c (fun k => k.accessed len x)
      if st = 0 then d.modCo c (fun k => k.loading x l) else d.imprecise c .bus x.addr
    | .sent tid d => d.modCo c (fun k => (k.accessed len x).loadingLate x tid)
    | .wait d => d

/-- A store (R260, R275). At a domain that wakes, it waits at the bridge and the core goes on (R332). -/
def Dev.storeAt (d : Dev) (c : CoreId) (len : Nat) (x : Access) : Dev :=
  let k := d.co c
  let l := k.storeBytes x
  if x.addr.toNat % x.size ≠ 0 then d.trap c .misaligned k.pc x.addr false
  else if localAlias x.addr then
    match ownTcm c x.addr.toNat with
    | none => d.trap c .bus k.pc x.addr false
    | some a => (d.setCo c (k.accessed len x)).setBytes a l
  else
    let w := d.who (.core c)
    match (d.setCo c (k.accessed len x)).issueWrite w (d.roadOf c x.addr) l with
    | .answered st _ d => d.lateBusError w st x.addr
    | .sent _ d => d
    | .wait d => d.setCo c k

/-- LOAD (R254, R262). -/
def execLoad (c : CoreId) (f : MemForm) (s : State) : Host.Outcome State Fault Refusal :=
  s.run (fun d => d.memOp c false f (fun d len x => d.loadAt c len x))

/-- STORE (R254). -/
def execStore (c : CoreId) (f : MemForm) (s : State) : Host.Outcome State Fault Refusal :=
  s.run (fun d => d.memOp c true f (fun d len x => d.storeAt c len x))

end Sys2Proof.Machine
end

