-- ==== Sys2Proof/Machine/CoreSys.lean ====
section
/-! DEFINITION. A Flivin core's system registers, traps, event entry and exit, waiting and halting (R245, R255, R261, R270 to R278,
R287, R303 to R310, R434). -/

namespace Sys2Proof.Machine

/-! System registers (R272, R287). -/

/-- The registers of R272 and R287. -/
def sysListed (n : Nat) : Bool := n ≤ 9

/-- A read and a write that user mode may not make (R272). -/
def sysRead (n : Nat) : Bool := 1 ≤ n && n ≤ 5
def sysWrite (n : Nat) : Bool := n < 8

/-- The value that MFSR returns, but for CYCL. -/
def CoreState.sysReg (k : CoreState) (n : Nat) : Word :=
  match n with
  | 0 => k.srWord | 1 => k.cfg | 2 => k.vtb | 3 => k.tcause | 4 => k.taddr | 5 => k.tsp
  | 6 => k.cyc.setWidth 32 | 7 => k.cych | 8 => k.fpcr | _ => k.fpsr

/-- SR as MTSR writes it: SYS, IE and LVL take the value, a 1 in SEC clears it (R271, R272). -/
def srWrite (old v : Word) : Word :=
  merge 0xAF000000 old v &&& ~~~(v &&& 0x40000000)

/-- A write by MTSR; read-only registers do not change (R3). -/
def CoreState.setSysReg (k : CoreState) (n : Nat) (v : Word) : CoreState :=
  match n with
  | 0 => { k with sr := srWrite k.sr v }
  | 1 => { k with cfg := v &&& 3 }
  | 2 => { k with vtb := v &&& 0xFFFFF000 }
  | 5 => { k with tsp := v }
  | 8 => { k with fpcr := v &&& 0x1F07 }
  | 9 => { k with fpsr := v &&& 0x1F1F }
  | _ => k

/-- A read of CYCL: the cycles of stalls and of waiting are open; bits [63:32] are captured for CYCH (R272). -/
def Dev.readCycles (d : Dev) (c : CoreId) : Dev :=
  let (n, d) := d.fresh
  d.modCo c (fun k => { k with cyc := k.cyc + Config.freeWord n, cych := ((k.cyc + Config.freeWord n) >>> 32).setWidth 32 })

/-! Accesses that have not been performed at their targets (R261). -/

def Dev.accessOwed (d : Dev) (c : CoreId) : Bool :=
  d.road.hold.any (fun x => x.2.2.src.toNat = c.val) || d.road.waiting.any (fun x => x.src.toNat = c.val)

def Dev.storeOwed (d : Dev) (c : CoreId) : Bool :=
  d.road.hold.any (fun x => x.2.2.src.toNat = c.val && x.2.1 ≠ .rd) ||
    d.road.waiting.any (fun x => x.src.toNat = c.val && !(d.co c).loads.any (fun l => l.tid = some x.tid))

/-! Events (R303 to R310). -/

/-- The offer of a core above a level. -/
def Dev.offerAbove (d : Dev) (c : CoreId) (lvl : Nat) : Option Nat :=
  (d.offer c.val).filter (fun n => decide (lvl < d.fld (R.EVC_SRC_PRIO n)))

/-- The core runs a handler of a priority: what it preempts (R152). -/
def Dev.handler (d : Dev) (c : CoreId) (prio : Nat) : Dev := if (d.co c).mode = .run then d.preRequest c prio else d

/-- A source that entry has claimed gives way to one of higher PRIO: it is pending and unowned again, and offered to every target
(R304). -/
def Dev.giveBack (d : Dev) (n : Nat) : Dev := (((d.setAct n false).setOwner n 5).setPend n true).askHost n

/-- The core goes on at the vector of a source at its PRIO; what the frame saved stays (R304, R305). -/
def Dev.toVector (d : Dev) (c : CoreId) (n : Nat) (f : CoreState → CoreState) : Dev :=
  let prio := d.fld (R.EVC_SRC_PRIO n)
  let vec := (d.co c).vtb + BitVec.ofNat 32 (8 * (32 + n))
  let d := d.modCo c (fun k => { (f k).setLvl prio with pc := vec })
  (if (d.co c).fetchable vec then d else d.doubleFault c).handler c prio

/-- Event entry (R303). A higher offer that comes before the handler's first instruction takes the entry over (R304). -/
def Dev.eventEntry (d : Dev) (c : CoreId) : Dev :=
  let k := d.co c
  if !d.coreReady c || !k.ie || k.inSlots then d else
  match d.offerAbove c k.lvl with
  | none => d
  | some n =>
    let d := (d.claim c.val).2
    match k.entering with
    | some e => ((d.giveBack e).modCo c (fun k => { k with entering := some n })).toVector c n id
    | none =>
      let prio := d.fld (R.EVC_SRC_PRIO n)
      (d.enter c k.pc (32 + n) (fun k => { k.setLvl prio with entering := some n })).handler c prio

/-- A word of a frame (R277): from the core's own TCMs, or over the road. -/
def Dev.frameWord (d : Dev) (c : CoreId) (a : Word) : Done Word :=
  match ownTcm c a.toNat with
  | some r => .answered 0 (d.word32 r) d
  | none =>
    if localAlias a then .answered 1 0 d else
    match d.read (d.who (.core c)) (d.roadOf c a) 4 with
    | .answered st l d => .answered st (BitVec.ofNat 32 (leNat l)) d
    | .wait d => .wait d

/-- The end of RETE with the frame read (R277, R305): a tail chain when an offer is above the saved level, otherwise the return.
No event is taken in the delay slot of a load (R264). -/
def Dev.returnTo (d : Dev) (c : CoreId) (pc sr : Word) : Dev :=
  let k := d.co c
  let back : CoreState := { k with sr := sr }
  match (if back.ie && !(k.retire 4).inSlots then d.offerAbove c back.lvl else none) with
  | some n => (d.claim c.val).2.toVector c n (fun k => (k.retire 4).setIe back.ie)
  | none =>
    let sec := k.sec && back.sec
    let k := { k with sr := setBit (sr &&& 0xAF000000) 30 sec, tsp := k.tsp + 8 }
    d.setCo c (k.jump pc 4)

/-- RETE (R277): PC from [TSP], SR from [TSP + 4]. -/
def Dev.returnFrom (d : Dev) (c : CoreId) : Dev :=
  let k := d.co c
  if k.tsp.toNat % 8 ≠ 0 then d.trap c .misaligned k.pc k.tsp false else
  match d.frameWord c k.tsp with
  | .wait d => d
  | .answered st pc d =>
    if st ≠ 0 then d.trap c .bus k.pc k.tsp false else
    match d.frameWord c (k.tsp + 4) with
    | .wait d => d
    | .answered st sr d => if st ≠ 0 then d.trap c .bus k.pc (k.tsp + 4) false else d.returnTo c pc sr

/-- A core enters WAIT: what moderation holds from it is released to it (R306). -/
def Dev.releaseHeld (d : Dev) (c : CoreId) : Dev :=
  forEach (d.evc.held.map Prod.fst) d (fun d n => d.setHeld n (setBit (d.evcHeld n) c.val false))

/-- WAIT (R310). -/
def Dev.waitFor (d : Dev) (c : CoreId) : Dev :=
  let d := (d.modCo c (fun k => k.advance 2 1)).releaseHeld c
  if (d.offerAbove c (d.co c).lvl).isSome then d else d.modCo c (fun k => { k with mode := .wait })

/-- A core in WAIT goes on when it has an offer above LVL (R310). -/
def Dev.wakeCore (d : Dev) (c : CoreId) : Dev :=
  if (d.co c).mode = .wait && !(d.co c).halted && (d.offerAbove c (d.co c).lvl).isSome then
    d.modCo c (fun k => { k with mode := .run })
  else d

/-- The trap of an entry number. -/
def trapOf (n : BitVec 5) : Trap :=
  match n.toNat with
  | 9 => .array | 10 => .arrayFp | _ => .bus

/-- The first imprecise trap that waits is taken (R275); it ends WAIT. -/
def Dev.takeImprecise (d : Dev) (c : CoreId) : Dev :=
  let k := d.co c
  match k.impr with
  | [] => d
  | (n, a) :: r =>
    if k.halted || k.due.isSome || !(k.mode = .run || k.mode = .wait) then d
    else (d.setCo c { k with impr := r, mode := .run }).trap c (trapOf n) k.pc a true

/-- Whether debug takes a BKPT of a core: level FULL, its HREQ bit, and a mode from which HALT is entered (R275, R434). -/
def Dev.breakHalts (d : Dev) (c : CoreId) : Bool :=
  d.debugLevel = 2 && (d.fld R.DBG_HALT_HREQ).testBit c.val && !d.flag R.PWR_MSTAT_BUSY && 6 ≤ d.mode && d.mode ≤ 9

/-! The instructions and the events. -/

/-- MFSR (R272). -/
def execMfsr (c : CoreId) (p : Pred) (d : DReg) (n : BitVec 8) (st : State) : Host.Outcome State Fault Refusal :=
  st.run (fun v => v.op32 c p { ds := [d], legal := sysListed n.toNat, sysOnly := sysRead n.toNat } (fun v =>
    let v := if n = 6 then v.readCycles c else v
    v.modCo c (fun k => (k.wrd d (k.sysReg n.toNat)).advance 4 1)))

/-- MTSR (R272). -/
def execMtsr (c : CoreId) (p : Pred) (d : DReg) (n : BitVec 8) (st : State) : Host.Outcome State Fault Refusal :=
  st.run (fun v => v.long c p { ds := [d], legal := sysListed n.toNat, sysOnly := sysWrite n.toNat } 1
    (fun k => k.setSysReg n.toNat (k.rd d)))

/-- RETE (R277). -/
def execRete (c : CoreId) (p : Pred) (st : State) : Host.Outcome State Fault Refusal :=
  st.run (fun v => v.op32 c p { sysOnly := true } (fun v => v.returnFrom c))

/-- SYSC (R275): the return address is the next instruction. The code is the handler's to read. -/
def execSysc (c : CoreId) (p : Pred) (_code : BitVec 8) (st : State) : Host.Outcome State Fault Refusal :=
  st.run (fun v => v.op32 c p {} (fun v => v.trap c .sysc ((v.co c).pc + 4) 0 false))

/-- ILLEGAL_INSTRUCTION (R255). -/
def execIllegalInstruction (c : CoreId) (st : State) : Host.Outcome State Fault Refusal :=
  st.run (fun v => v.instr c 2 [] [] (fun v => v.trapHere c .illegal))

/-- NOP (R252). -/
def execNop (c : CoreId) (st : State) : Host.Outcome State Fault Refusal := st.run (fun v => v.short c {} id)

/-- WAIT (R310). -/
def execWait (c : CoreId) (st : State) : Host.Outcome State Fault Refusal := st.run (fun v => v.op16 c {} (fun v => v.waitFor c))

/-- FENCE (R261): it waits for the accesses of the core that have not been performed. -/
def execFence (c : CoreId) (st : State) : Host.Outcome State Fault Refusal :=
  st.run (fun v => if v.accessOwed c then v else v.short c {} id)

/-- ISYNC (R261): it waits for the stores. -/
def execIsync (c : CoreId) (st : State) : Host.Outcome State Fault Refusal :=
  st.run (fun v => if v.storeOwed c then v else v.short c {} id)

/-- BKPT (R275, R434). -/
def execBkpt (c : CoreId) (st : State) : Host.Outcome State Fault Refusal :=
  st.run (fun v => v.op16 c {} (fun v => if v.breakHalts c then v.enterHalt else v.trapHere c .bkpt))

/-- EVENT_ENTRY (R303). -/
def execEventEntry (c : CoreId) (st : State) : Host.Outcome State Fault Refusal := st.run (fun v => v.eventEntry c)

/-- IMPRECISE_TRAP (R275). -/
def execImpreciseTrap (c : CoreId) (st : State) : Host.Outcome State Fault Refusal := st.run (fun v => v.takeImprecise c)

/-- WAIT_WAKE (R310). -/
def execWaitWake (c : CoreId) (st : State) : Host.Outcome State Fault Refusal := st.run (fun v => v.wakeCore c)

/-- CORE_RUN (R273): a write of SYS_CRUN. -/
def execCoreRun (r : Requester) (v : Word) (st : State) : Host.Outcome State Fault Refusal :=
  st.run (fun d => d.commandWord r R.SYS_CRUN v)

end Sys2Proof.Machine
end

