-- ==== Sys2Proof/Machine/Dispatch.lean ====
section
/-! DEFINITION. The dispatch: one arm for each command. -/

namespace Sys2Proof.Machine

/-- The effect of a command on everything but the queue. -/
def exec (i : Instr) (s : State) : Host.Outcome State Fault Refusal :=
  match i with
  | .registerWrite r addr size v => Sys2Proof.Machine.execRegisterWrite r addr size v s
  | .commit r b => Sys2Proof.Machine.execCommit r b s
  | .commitApply b => Sys2Proof.Machine.execCommitApply b s
  | .lock r b => Sys2Proof.Machine.execLock r b s
  | .splitQuiesced => Sys2Proof.Machine.execSplitQuiesced s
  | .mov a => Sys2Proof.Machine.execMov a s
  | .not a => Sys2Proof.Machine.execNot a s
  | .and a => Sys2Proof.Machine.execAnd a s
  | .or a => Sys2Proof.Machine.execOr a s
  | .xor a => Sys2Proof.Machine.execXor a s
  | .andn a => Sys2Proof.Machine.execAndn a s
  | .set a => Sys2Proof.Machine.execSet a s
  | .clr a => Sys2Proof.Machine.execClr a s
  | .movs a => Sys2Proof.Machine.execMovs a s
  | .add a => Sys2Proof.Machine.execAdd a s
  | .adc a => Sys2Proof.Machine.execAdc a s
  | .sub a => Sys2Proof.Machine.execSub a s
  | .sbc a => Sys2Proof.Machine.execSbc a s
  | .addsu a => Sys2Proof.Machine.execAddsu a s
  | .addss a => Sys2Proof.Machine.execAddss a s
  | .subsu a => Sys2Proof.Machine.execSubsu a s
  | .subss a => Sys2Proof.Machine.execSubss a s
  | .neg a => Sys2Proof.Machine.execNeg a s
  | .cmpeq a => Sys2Proof.Machine.execCmpeq a s
  | .cmpltu a => Sys2Proof.Machine.execCmpltu a s
  | .cmplts a => Sys2Proof.Machine.execCmplts a s
  | .minu a => Sys2Proof.Machine.execMinu a s
  | .maxu a => Sys2Proof.Machine.execMaxu a s
  | .mins a => Sys2Proof.Machine.execMins a s
  | .maxs a => Sys2Proof.Machine.execMaxs a s
  | .mulu a => Sys2Proof.Machine.execMulu a s
  | .muls a => Sys2Proof.Machine.execMuls a s
  | .dstep a => Sys2Proof.Machine.execDstep a s
  | .shl a hi => Sys2Proof.Machine.execShl a hi s
  | .shru a hi => Sys2Proof.Machine.execShru a hi s
  | .shrs a hi => Sys2Proof.Machine.execShrs a hi s
  | .rol a hi => Sys2Proof.Machine.execRol a hi s
  | .getn a => Sys2Proof.Machine.execGetn a s
  | .gets a => Sys2Proof.Machine.execGets a s
  | .gete a => Sys2Proof.Machine.execGete a s
  | .getw a => Sys2Proof.Machine.execGetw a s
  | .xgetn a => Sys2Proof.Machine.execXgetn a s
  | .xgets a => Sys2Proof.Machine.execXgets a s
  | .xgete a => Sys2Proof.Machine.execXgete a s
  | .xgetw a => Sys2Proof.Machine.execXgetw a s
  | .sel a => Sys2Proof.Machine.execSel a s
  | .seln a => Sys2Proof.Machine.execSeln a s
  | .actall a => Sys2Proof.Machine.execActall a s
  | .actld a => Sys2Proof.Machine.execActld a s
  | .actpush a => Sys2Proof.Machine.execActpush a s
  | .actpushn a => Sys2Proof.Machine.execActpushn a s
  | .actpop a => Sys2Proof.Machine.execActpop a s
  | .actelse a => Sys2Proof.Machine.execActelse a s
  | .lookup a => Sys2Proof.Machine.execLookup a s
  | .afd a => Sys2Proof.Machine.execAfd a s
  | .agor a => Sys2Proof.Machine.execAgor a s
  | .agorB a => Sys2Proof.Machine.execAgorB a s
  | .hor a => Sys2Proof.Machine.execHor a s
  | .horB a => Sys2Proof.Machine.execHorB a s
  | .faddH a => Sys2Proof.Machine.execFaddH a s
  | .faddS a => Sys2Proof.Machine.execFaddS a s
  | .fsubH a => Sys2Proof.Machine.execFsubH a s
  | .fsubS a => Sys2Proof.Machine.execFsubS a s
  | .fmulH a => Sys2Proof.Machine.execFmulH a s
  | .fmulS a => Sys2Proof.Machine.execFmulS a s
  | .fmaH a => Sys2Proof.Machine.execFmaH a s
  | .fmaS a => Sys2Proof.Machine.execFmaS a s
  | .fceqH a => Sys2Proof.Machine.execFceqH a s
  | .fceqS a => Sys2Proof.Machine.execFceqS a s
  | .fcltH a => Sys2Proof.Machine.execFcltH a s
  | .fcltS a => Sys2Proof.Machine.execFcltS a s
  | .fcleH a => Sys2Proof.Machine.execFcleH a s
  | .fcleS a => Sys2Proof.Machine.execFcleS a s
  | .fcvtSH a => Sys2Proof.Machine.execFcvtSH a s
  | .fcvtHS a => Sys2Proof.Machine.execFcvtHS a s
  | .fcvtHI a => Sys2Proof.Machine.execFcvtHI a s
  | .fcvtSI a => Sys2Proof.Machine.execFcvtSI a s
  | .fcvtIH a => Sys2Proof.Machine.execFcvtIH a s
  | .fcvtIS a => Sys2Proof.Machine.execFcvtIS a s
  | .strin a => Sys2Proof.Machine.execStrin a s
  | .strout a => Sys2Proof.Machine.execStrout a s
  | .milestone a => Sys2Proof.Machine.execMilestone a s
  | .amode a => Sys2Proof.Machine.execAmode a s
  | .customerOpcode n a => Sys2Proof.Machine.execCustomerOpcode n a s
  | .reservedArrayOpcode opc a => Sys2Proof.Machine.execReservedArrayOpcode opc a s
  | .arrayFpTrap sx => Sys2Proof.Machine.execArrayFpTrap sx s
  | .routineStart sx => Sys2Proof.Machine.execRoutineStart sx s
  | .microwordIssue sx => Sys2Proof.Machine.execMicrowordIssue sx s
  | .routineTimeout sx => Sys2Proof.Machine.execRoutineTimeout sx s
  | .microwordArrive h => Sys2Proof.Machine.execMicrowordArrive h s
  | .creditReturn h => Sys2Proof.Machine.execCreditReturn h s
  | .hallEntryStart h => Sys2Proof.Machine.execHallEntryStart h s
  | .stallEnd h => Sys2Proof.Machine.execStallEnd h s
  | .tokenTimeout h edge faulty => Sys2Proof.Machine.execTokenTimeout h edge faulty s
  | .repReport h => Sys2Proof.Machine.execRepReport h s
  | .orRelease h => Sys2Proof.Machine.execOrRelease h s
  | .orResultFormed sx => Sys2Proof.Machine.execOrResultFormed sx s
  | .patchLoad r => Sys2Proof.Machine.execPatchLoad r s
  | .patchStagingDone ok => Sys2Proof.Machine.execPatchStagingDone ok s
  | .patchVerifyDone v => Sys2Proof.Machine.execPatchVerifyDone v s
  | .preemptStop sx => Sys2Proof.Machine.execPreemptStop sx s
  | .preemptResume sx => Sys2Proof.Machine.execPreemptResume sx s
  | .stairTransferStart h => Sys2Proof.Machine.execStairTransferStart h s
  | .stairWaitTimeout h => Sys2Proof.Machine.execStairWaitTimeout h s
  | .galleryBankGrant bank waiting => Sys2Proof.Machine.execGalleryBankGrant bank waiting s
  | .milestoneCommit sx t => Sys2Proof.Machine.execMilestoneCommit sx t s
  | .leadCopyStart => Sys2Proof.Machine.execLeadCopyStart s
  | .leadCopyDone => Sys2Proof.Machine.execLeadCopyDone s
  | .secureWipe r => Sys2Proof.Machine.execSecureWipe r s
  | .wipeClearDone => Sys2Proof.Machine.execWipeClearDone s
  | .wipeReadbackDone nonzero => Sys2Proof.Machine.execWipeReadbackDone nonzero s
  | .marchStart r v => Sys2Proof.Machine.execMarchStart r v s
  | .marchDone fails => Sys2Proof.Machine.execMarchDone fails s
  | .rprWrite r n v => Sys2Proof.Machine.execRprWrite r n v s
  | .upsetRecovery reps => Sys2Proof.Machine.execUpsetRecovery reps s
  | .spanOverrun sx => Sys2Proof.Machine.execSpanOverrun sx s
  | .columnRetirement h => Sys2Proof.Machine.execColumnRetirement h s
  | .retireRefillStart h => Sys2Proof.Machine.execRetireRefillStart h s
  | .retireRefillDone h => Sys2Proof.Machine.execRetireRefillDone h s
  | .failoverImageLoaded ok => Sys2Proof.Machine.execFailoverImageLoaded ok s
  | .failoverResume ok => Sys2Proof.Machine.execFailoverResume ok s
  | .faultRecordWrite => Sys2Proof.Machine.execFaultRecordWrite s
  | .himgUnload r h => Sys2Proof.Machine.execHimgUnload r h s
  | .himgLoad r h => Sys2Proof.Machine.execHimgLoad r h s
  | .himgVerify r h => Sys2Proof.Machine.execHimgVerify r h s
  | .himgDone => Sys2Proof.Machine.execHimgDone s
  | .encoderEdge a b => Sys2Proof.Machine.execEncoderEdge a b s
  | .lsyncPulse lowNs highNs => Sys2Proof.Machine.execLsyncPulse lowNs highNs s
  | .lineStrobe t => Sys2Proof.Machine.execLineStrobe t s
  | .lineGateAdmit sx => Sys2Proof.Machine.execLineGateAdmit sx s
  | .eventEntry c => Sys2Proof.Machine.execEventEntry c s
  | .impreciseTrap c => Sys2Proof.Machine.execImpreciseTrap c s
  | .coreRun r v => Sys2Proof.Machine.execCoreRun r v s
  | .coreMov c d sx => Sys2Proof.Machine.execCoreMov c d sx s
  | .coreAdd c f => Sys2Proof.Machine.execCoreAdd c f s
  | .coreSub c f => Sys2Proof.Machine.execCoreSub c f s
  | .coreAnd c f => Sys2Proof.Machine.execCoreAnd c f s
  | .coreOr c f => Sys2Proof.Machine.execCoreOr c f s
  | .coreXor c f => Sys2Proof.Machine.execCoreXor c f s
  | .coreAndn c p d sx t => Sys2Proof.Machine.execCoreAndn c p d sx t s
  | .coreNot c d sx => Sys2Proof.Machine.execCoreNot c d sx s
  | .coreNeg c d sx => Sys2Proof.Machine.execCoreNeg c d sx s
  | .coreShl c f => Sys2Proof.Machine.execCoreShl c f s
  | .coreShru c f => Sys2Proof.Machine.execCoreShru c f s
  | .coreShrs c f => Sys2Proof.Machine.execCoreShrs c f s
  | .coreRol c p d sx t => Sys2Proof.Machine.execCoreRol c p d sx t s
  | .coreMins c p d sx t => Sys2Proof.Machine.execCoreMins c p d sx t s
  | .coreMaxs c p d sx t => Sys2Proof.Machine.execCoreMaxs c p d sx t s
  | .coreMinu c p d sx t => Sys2Proof.Machine.execCoreMinu c p d sx t s
  | .coreMaxu c p d sx t => Sys2Proof.Machine.execCoreMaxu c p d sx t s
  | .aset c d sx => Sys2Proof.Machine.execAset c d sx s
  | .aget c d sx => Sys2Proof.Machine.execAget c d sx s
  | .aadd c d sx => Sys2Proof.Machine.execAadd c d sx s
  | .lea c p d sx imm => Sys2Proof.Machine.execLea c p d sx imm s
  | .movi c f => Sys2Proof.Machine.execMovi c f s
  | .movhi c p d imm => Sys2Proof.Machine.execMovhi c p d imm s
  | .addi c f => Sys2Proof.Machine.execAddi c f s
  | .load c f => Sys2Proof.Machine.execLoad c f s
  | .store c f => Sys2Proof.Machine.execStore c f s
  | .cmpEq c p d sx o => Sys2Proof.Machine.execCmpEq c p d sx o s
  | .cmpNe c p d sx o => Sys2Proof.Machine.execCmpNe c p d sx o s
  | .cmpLts c p d sx o => Sys2Proof.Machine.execCmpLts c p d sx o s
  | .cmpGes c p d sx o => Sys2Proof.Machine.execCmpGes c p d sx o s
  | .cmpLtu c p d sx o => Sys2Proof.Machine.execCmpLtu c p d sx o s
  | .cmpGeu c p d sx o => Sys2Proof.Machine.execCmpGeu c p d sx o s
  | .predAnd c p d a b => Sys2Proof.Machine.execPredAnd c p d a b s
  | .predOr c p d a b => Sys2Proof.Machine.execPredOr c p d a b s
  | .predXor c p d a b => Sys2Proof.Machine.execPredXor c p d a b s
  | .predAndn c p d a b => Sys2Proof.Machine.execPredAndn c p d a b s
  | .br c f => Sys2Proof.Machine.execBr c f s
  | .brp c p off => Sys2Proof.Machine.execBrp c p off s
  | .call c f => Sys2Proof.Machine.execCall c f s
  | .jmp c p a => Sys2Proof.Machine.execJmp c p a s
  | .calla c p a => Sys2Proof.Machine.execCalla c p a s
  | .ret c => Sys2Proof.Machine.execRet c s
  | .nop c => Sys2Proof.Machine.execNop c s
  | .wait c => Sys2Proof.Machine.execWait c s
  | .fence c => Sys2Proof.Machine.execFence c s
  | .bkpt c => Sys2Proof.Machine.execBkpt c s
  | .isync c => Sys2Proof.Machine.execIsync c s
  | .macH2 c p n x y => Sys2Proof.Machine.execMacH2 c p n x y s
  | .acmov c p d n sh => Sys2Proof.Machine.execAcmov c p d n sh s
  | .acclr c p n => Sys2Proof.Machine.execAcclr c p n s
  | .acrd c p d n part => Sys2Proof.Machine.execAcrd c p d n part s
  | .acwr c p n sx part => Sys2Proof.Machine.execAcwr c p n sx part s
  | .mul c p d sx t ct => Sys2Proof.Machine.execMul c p d sx t ct s
  | .mulhs c p d sx t ct => Sys2Proof.Machine.execMulhs c p d sx t ct s
  | .mulhu c p d sx t ct => Sys2Proof.Machine.execMulhu c p d sx t ct s
  | .mulds c p d sx t ct => Sys2Proof.Machine.execMulds c p d sx t ct s
  | .muldu c p d sx t ct => Sys2Proof.Machine.execMuldu c p d sx t ct s
  | .coreDstep c p r q v => Sys2Proof.Machine.execCoreDstep c p r q v s
  | .macs c p n sx t ct => Sys2Proof.Machine.execMacs c p n sx t ct s
  | .macu c p n sx t ct => Sys2Proof.Machine.execMacu c p n sx t ct s
  | .msus c p n sx t ct => Sys2Proof.Machine.execMsus c p n sx t ct s
  | .fadd c p pr d sx t => Sys2Proof.Machine.execFadd c p pr d sx t s
  | .fsub c p pr d sx t => Sys2Proof.Machine.execFsub c p pr d sx t s
  | .fmul c p pr d sx t => Sys2Proof.Machine.execFmul c p pr d sx t s
  | .fma c p pr d sx t => Sys2Proof.Machine.execFma c p pr d sx t s
  | .fnms c p pr d sx t => Sys2Proof.Machine.execFnms c p pr d sx t s
  | .fmin c p pr d sx t => Sys2Proof.Machine.execFmin c p pr d sx t s
  | .fmax c p pr d sx t => Sys2Proof.Machine.execFmax c p pr d sx t s
  | .fneg c p pr d sx => Sys2Proof.Machine.execFneg c p pr d sx s
  | .fabs c p pr d sx => Sys2Proof.Machine.execFabs c p pr d sx s
  | .fmov c p pr d sx => Sys2Proof.Machine.execFmov c p pr d sx s
  | .fceq c p pr d sx t => Sys2Proof.Machine.execFceq c p pr d sx t s
  | .fclt c p pr d sx t => Sys2Proof.Machine.execFclt c p pr d sx t s
  | .fcle c p pr d sx t => Sys2Proof.Machine.execFcle c p pr d sx t s
  | .fcvt c p pr d sx => Sys2Proof.Machine.execFcvt c p pr d sx s
  | .fcvtW c p pr d sx => Sys2Proof.Machine.execFcvtW c p pr d sx s
  | .fcvtFW c p pr d sx => Sys2Proof.Machine.execFcvtFW c p pr d sx s
  | .fcvtWu c p pr d sx => Sys2Proof.Machine.execFcvtWu c p pr d sx s
  | .fcvtFWu c p pr d sx => Sys2Proof.Machine.execFcvtFWu c p pr d sx s
  | .frece c p pr d sx => Sys2Proof.Machine.execFrece c p pr d sx s
  | .frsqe c p pr d sx => Sys2Proof.Machine.execFrsqe c p pr d sx s
  | .mfsr c p d n => Sys2Proof.Machine.execMfsr c p d n s
  | .mtsr c p d n => Sys2Proof.Machine.execMtsr c p d n s
  | .rete c p => Sys2Proof.Machine.execRete c p s
  | .sysc c p code => Sys2Proof.Machine.execSysc c p code s
  | .rspush c p d => Sys2Proof.Machine.execRspush c p d s
  | .rspop c p d => Sys2Proof.Machine.execRspop c p d s
  | .rspushb c p d => Sys2Proof.Machine.execRspushb c p d s
  | .rspopb c p d => Sys2Proof.Machine.execRspopb c p d s
  | .illegalInstruction c => Sys2Proof.Machine.execIllegalInstruction c s
  | .eventLineChange src v => Sys2Proof.Machine.execEventLineChange src v s
  | .eventSet r w v => Sys2Proof.Machine.execEventSet r w v s
  | .claim c => Sys2Proof.Machine.execClaim c s
  | .done owner src => Sys2Proof.Machine.execDone owner src s
  | .modTimerExpire g => Sys2Proof.Machine.execModTimerExpire g s
  | .modDisable r g v => Sys2Proof.Machine.execModDisable r g v s
  | .waitWake c => Sys2Proof.Machine.execWaitWake c s
  | .msixSend vec => Sys2Proof.Machine.execMsixSend vec s
  | .rd p => Sys2Proof.Machine.execRd p s
  | .wr p => Sys2Proof.Machine.execWr p s
  | .pwr p => Sys2Proof.Machine.execPwr p s
  | .swr p => Sys2Proof.Machine.execSwr p s
  | .rsp tid => Sys2Proof.Machine.execRsp tid s
  | .mrd p => Sys2Proof.Machine.execMrd p s
  | .mwr p => Sys2Proof.Machine.execMwr p s
  | .mrsp tid => Sys2Proof.Machine.execMrsp tid s
  | .msg p => Sys2Proof.Machine.execMsg p s
  | .epoch at_ => Sys2Proof.Machine.execEpoch at_ s
  | .roadFlitReceive link up crcOk => Sys2Proof.Machine.execRoadFlitReceive link up crcOk s
  | .linkHeartbeatTimeout link => Sys2Proof.Machine.execLinkHeartbeatTimeout link s
  | .bridgeDrainEnd n => Sys2Proof.Machine.execBridgeDrainEnd n s
  | .bridgeDrainTimeout n => Sys2Proof.Machine.execBridgeDrainTimeout n s
  | .bridgeLinkDown n => Sys2Proof.Machine.execBridgeLinkDown n s
  | .resetExchange n => Sys2Proof.Machine.execResetExchange n s
  | .targetTimeout n => Sys2Proof.Machine.execTargetTimeout n s
  | .roadKill r n => Sys2Proof.Machine.execRoadKill r n s
  | .deadRevive r w v => Sys2Proof.Machine.execDeadRevive r w v s
  | .fabricFullLoad r => Sys2Proof.Machine.execFabricFullLoad r s
  | .fabricPartialLoad r rgn => Sys2Proof.Machine.execFabricPartialLoad r rgn s
  | .fabricFramesRead res => Sys2Proof.Machine.execFabricFramesRead res s
  | .fabricVerifyDone v => Sys2Proof.Machine.execFabricVerifyDone v s
  | .fabricOutputsEnable => Sys2Proof.Machine.execFabricOutputsEnable s
  | .queueLineBegin q => Sys2Proof.Machine.execQueueLineBegin q s
  | .gatherRead q => Sys2Proof.Machine.execGatherRead q s
  | .queuePop q => Sys2Proof.Machine.execQueuePop q s
  | .captureArm r => Sys2Proof.Machine.execCaptureArm r s
  | .captureTake ffs => Sys2Proof.Machine.execCaptureTake ffs s
  | .captureResume r => Sys2Proof.Machine.execCaptureResume r s
  | .rbdataRead r => Sys2Proof.Machine.execRbdataRead r s
  | .fabricRoadRequest write p => Sys2Proof.Machine.execFabricRoadRequest write p s
  | .hostReadTlp bar off len => Sys2Proof.Machine.execHostReadTlp bar off len s
  | .hostWriteTlp bar off data => Sys2Proof.Machine.execHostWriteTlp bar off data s
  | .hostCompletionTlp tid ok data => Sys2Proof.Machine.execHostCompletionTlp tid ok data s
  | .perst => Sys2Proof.Machine.execPerst s
  | .hotReset => Sys2Proof.Machine.execHotReset s
  | .flr => Sys2Proof.Machine.execFlr s
  | .d3hotEntry => Sys2Proof.Machine.execD3hotEntry s
  | .hostLinkChange up speed width l1 => Sys2Proof.Machine.execHostLinkChange up speed width l1 s
  | .sqDoorbell r q tail => Sys2Proof.Machine.execSqDoorbell r q tail s
  | .cqDoorbell r q head => Sys2Proof.Machine.execCqDoorbell r q head s
  | .commandStep e => Sys2Proof.Machine.execCommandStep e s
  | .copyin q data ok => Sys2Proof.Machine.execCopyin q data ok s
  | .copyout q n => Sys2Proof.Machine.execCopyout q n s
  | .plan q p => Sys2Proof.Machine.execPlan q p s
  | .mode q => Sys2Proof.Machine.execMode q s
  | .nvswr q off => Sys2Proof.Machine.execNvswr q off s
  | .attest q sig => Sys2Proof.Machine.execAttest q sig s
  | .himg q => Sys2Proof.Machine.execHimg q s
  | .fabload q => Sys2Proof.Machine.execFabload q s
  | .patch q => Sys2Proof.Machine.execPatch q s
  | .invalidHostOpcode q => Sys2Proof.Machine.execInvalidHostOpcode q s
  | .fwComplete r q => Sys2Proof.Machine.execFwComplete r q s
  | .ddrTrainingDone pass => Sys2Proof.Machine.execDdrTrainingDone pass s
  | .dqsRetrain ch => Sys2Proof.Machine.execDqsRetrain ch s
  | .linkTrainingDone p chip pedge => Sys2Proof.Machine.execLinkTrainingDone p chip pedge s
  | .linkTrainRetry p => Sys2Proof.Machine.execLinkTrainRetry p s
  | .newsTokenFrame p tseq x => Sys2Proof.Machine.execNewsTokenFrame p tseq x s
  | .expressTokenFrame p tseq x => Sys2Proof.Machine.execExpressTokenFrame p tseq x s
  | .roadRequestFrame p write pk => Sys2Proof.Machine.execRoadRequestFrame p write pk s
  | .roadResponseFrame p tid status data => Sys2Proof.Machine.execRoadResponseFrame p tid status data s
  | .ackCreditFrame p fseq cred => Sys2Proof.Machine.execAckCreditFrame p fseq cred s
  | .controlFrame p chip pedge => Sys2Proof.Machine.execControlFrame p chip pedge s
  | .edgeWaitTimeout p sx => Sys2Proof.Machine.execEdgeWaitTimeout p sx s
  | .dmaStart r e v => Sys2Proof.Machine.execDmaStart r e v s
  | .dmaDone e => Sys2Proof.Machine.execDmaDone e s
  | .vinSample mv lowFor highFor => Sys2Proof.Machine.execVinSample mv lowFor highFor s
  | .vmidUndervoltage => Sys2Proof.Machine.execVmidUndervoltage s
  | .rampRestart => Sys2Proof.Machine.execRampRestart s
  | .domainRequest r v => Sys2Proof.Machine.execDomainRequest r v s
  | .domainUp d => Sys2Proof.Machine.execDomainUp d s
  | .domainOff d => Sys2Proof.Machine.execDomainOff d s
  | .supplyTrip d usec => Sys2Proof.Machine.execSupplyTrip d usec s
  | .hallClockFail h => Sys2Proof.Machine.execHallClockFail h s
  | .xtaCheck khz st => Sys2Proof.Machine.execXtaCheck khz st s
  | .xtbCheck hz => Sys2Proof.Machine.execXtbCheck hz s
  | .crystalStop xtb => Sys2Proof.Machine.execCrystalStop xtb s
  | .pllLock n => Sys2Proof.Machine.execPllLock n s
  | .pllLockLost n => Sys2Proof.Machine.execPllLockLost n s
  | .hallTrim h slower => Sys2Proof.Machine.execHallTrim h slower s
  | .fmeterStart r v => Sys2Proof.Machine.execFmeterStart r v s
  | .fmeterDone count => Sys2Proof.Machine.execFmeterDone count s
  | .modeReqIdle r => Sys2Proof.Machine.execModeReqIdle r s
  | .modeReqReady r => Sys2Proof.Machine.execModeReqReady r s
  | .modeReqPrint r => Sys2Proof.Machine.execModeReqPrint r s
  | .modeReqService r => Sys2Proof.Machine.execModeReqService r s
  | .modeReqSleep r => Sys2Proof.Machine.execModeReqSleep r s
  | .modeReqStandby r => Sys2Proof.Machine.execModeReqStandby r s
  | .modeReqUnlisted r tgt => Sys2Proof.Machine.execModeReqUnlisted r tgt s
  | .modeTransitionDone => Sys2Proof.Machine.execModeTransitionDone s
  | .wakePin => Sys2Proof.Machine.execWakePin s
  | .wakeAlarm => Sys2Proof.Machine.execWakeAlarm s
  | .wakeHost => Sys2Proof.Machine.execWakeHost s
  | .bootOffer r v => Sys2Proof.Machine.execBootOffer r v s
  | .resetPin => Sys2Proof.Machine.execResetPin s
  | .softwareReset r => Sys2Proof.Machine.execSoftwareReset r s
  | .watchdogExpire => Sys2Proof.Machine.execWatchdogExpire s
  | .watchdogKick r key => Sys2Proof.Machine.execWatchdogKick r key s
  | .aonPowerGood st => Sys2Proof.Machine.execAonPowerGood st s
  | .vmidGood => Sys2Proof.Machine.execVmidGood s
  | .secStepEnd => Sys2Proof.Machine.execSecStepEnd s
  | .fuseBurnDone => Sys2Proof.Machine.execFuseBurnDone s
  | .tamperDetect src => Sys2Proof.Machine.execTamperDetect src s
  | .debugNewch r nonce => Sys2Proof.Machine.execDebugNewch r nonce s
  | .debugTokenGo r => Sys2Proof.Machine.execDebugTokenGo r s
  | .debugTokenDone v => Sys2Proof.Machine.execDebugTokenDone v s
  | .newchBlockExpire => Sys2Proof.Machine.execNewchBlockExpire s
  | .debugHalt r hreq => Sys2Proof.Machine.execDebugHalt r hreq s
  | .debugResume r => Sys2Proof.Machine.execDebugResume r s
  | .memPortAccess r write v => Sys2Proof.Machine.execMemPortAccess r write v s
  | .waymarkSample src sel v => Sys2Proof.Machine.execWaymarkSample src sel v s
  | .waymarkWindowEnd w => Sys2Proof.Machine.execWaymarkWindowEnd w s
  | .waymarkClear r w => Sys2Proof.Machine.execWaymarkClear r w s
  | .waymarkSnap r w => Sys2Proof.Machine.execWaymarkSnap r w s
  | .bistInterconnect r hmask => Sys2Proof.Machine.execBistInterconnect r hmask s
  | .bistHallLogic r hmask => Sys2Proof.Machine.execBistHallLogic r hmask s
  | .bistPeMarch r hmask => Sys2Proof.Machine.execBistPeMarch r hmask s
  | .bistSpareRows r hmask => Sys2Proof.Machine.execBistSpareRows r hmask s
  | .bistDone res => Sys2Proof.Machine.execBistDone res s
  | .fuseRepairBurn r => Sys2Proof.Machine.execFuseRepairBurn r s
  | .fuseRepairDone bad => Sys2Proof.Machine.execFuseRepairDone bad s
  | .tapReset => Sys2Proof.Machine.execTapReset s
  | .extest => Sys2Proof.Machine.execExtest s
  | .idcode => Sys2Proof.Machine.execIdcode s
  | .samplePreload cells => Sys2Proof.Machine.execSamplePreload cells s
  | .extestPulse => Sys2Proof.Machine.execExtestPulse s
  | .extestTrain => Sys2Proof.Machine.execExtestTrain s
  | .clamp => Sys2Proof.Machine.execClamp s
  | .highz => Sys2Proof.Machine.execHighz s
  | .bypass => Sys2Proof.Machine.execBypass s
  | .dbgacc go wr off v => Sys2Proof.Machine.execDbgacc go wr off v s
  | .testacc go wr off v => Sys2Proof.Machine.execTestacc go wr off v s
  | .thermalSample readings msWarm msHot => Sys2Proof.Machine.execThermalSample readings msWarm msHot s
  | .completionTimeout tid => Sys2Proof.Machine.execCompletionTimeout tid s
  | .configWriteTlp w => Sys2Proof.Machine.execConfigWriteTlp w s
  | .ramufinFrameCrcFail p => Sys2Proof.Machine.execRamufinFrameCrcFail p s
  | .aonPowerGoodTimeout => Sys2Proof.Machine.execAonPowerGoodTimeout s
  | .hallDomainGroupStart => Sys2Proof.Machine.execHallDomainGroupStart s
  | .ddrVdd2lPgChange high => Sys2Proof.Machine.execDdrVdd2lPgChange high s
  | .ddrVdd2lPgTimeout => Sys2Proof.Machine.execDdrVdd2lPgTimeout s
  | .resetNRelease => Sys2Proof.Machine.execResetNRelease s
  | .firmwareVerifyDone v => Sys2Proof.Machine.execFirmwareVerifyDone v s

end Sys2Proof.Machine
end

