-- ==== Sys2Proof/Safety.lean ====
section
/-! DEFINITION. What claims speak of: a step that goes on, the conditions under which a core executes an instruction and the road
carries a request, and the outcome of a command. -/

namespace Sys2Proof.Machine

/-- Nothing waits that follows a command at once: no request is held at a bridge (R332), no fatal fault is due (R406). -/
def Dev.Quiet (d : Dev) : Prop := d.road.hold = [] ∧ d.fatal = none

/-- The outcome of a command that leaves the part in a given state, with what follows at once; the queue is as it was. -/
def State.after (s : State) (d : Dev) : Host.Outcome State Fault Refusal := .next { s with dev := d.settle }

/-- A run is safe while every step answers a next state. -/
def State.Goes (s : State) : Prop := ∃ t, step s = .next t

/-! Cores. -/

/-- Core c executes a 16-bit form: it takes instructions, its halfword can be fetched (R245), no register that the form names is
pending (R98, R258). -/
def Dev.Runs16 (d : Dev) (c : CoreId) (ps : List PReg) (ds : List DReg) : Prop :=
  d.coreReady c = true ∧ (d.co c).fetchable (d.co c).pc = true ∧ (d.co c).pends ps ds = false

/-- Core c comes to the condition of a 32-bit form: it takes instructions, both halfwords can be fetched, nothing that the form names
is pending. -/
def Dev.Meets32 (d : Dev) (c : CoreId) (p : Pred) (ps : List PReg) (ds : List DReg) : Prop :=
  d.coreReady c = true ∧ (d.co c).fetchable (d.co c).pc = true ∧ (d.co c).fetchable ((d.co c).pc + 2) = true ∧
    (d.co c).pends (p.p :: ps) ds = false

/-- Core c executes a 32-bit form: its condition holds too (R257). -/
def Dev.Runs32 (d : Dev) (c : CoreId) (p : Pred) (ps : List PReg) (ds : List DReg) : Prop :=
  d.Meets32 c p ps ds ∧ (d.co c).holds p = true

/-- The vector of an entry (R274, R276). -/
def CoreState.vector (k : CoreState) (entry : Nat) : Word := k.vtb + BitVec.ofNat 32 (8 * entry)

/-- A core's entry succeeds (R276, R278): the frame lies in its TCMs, aligned, at road address ra, and the vector can be fetched in
system mode. -/
def CoreState.EntersAt (k : CoreState) (c : CoreId) (entry ra : Nat) : Prop :=
  ownTcm c (k.tsp - 8).toNat = some ra ∧ (k.tsp - 8).toNat % 8 = 0 ∧
    ((0x08000000 ≤ (k.vector entry).toNat ∧ (k.vector entry).toNat < 0x08008000) ∨ (k.vector entry).toNat < 0x10000)

/-- The core after the entry of a trap (R275, R276): the frame's room taken, IE 0, system mode, the cause and the address recorded,
the vector fetched after six cycles. -/
def CoreState.trapped (k : CoreState) (t : Trap) (taddr : Word) (impr : Bool) : CoreState :=
  { k with
    tsp := k.tsp - 8, sr := setBit (setBit k.sr 29 false) 31 true, tcause := BitVec.ofNat 32 (bn impr * 2 ^ 31 + (trapNo t).toNat),
    taddr := taddr, pc := k.vector (trapNo t).toNat, cyc := k.cyc + 6,
    entering := none }

/-- The part after a core's synchronous trap: the frame at ra holds the return address and SR (R276). -/
def Dev.trapTaken (d : Dev) (c : CoreId) (ra : Nat) (t : Trap) (ret taddr : Word) (impr : Bool) : Dev :=
  ((d.setWord32 ra ret).setWord32 (ra + 4) (d.co c).srWord).setCo c ((d.co c).trapped t taddr impr)

/-- No enabled floating-point exception is among the flags (R292). -/
def CoreState.NoFpTrap (k : CoreState) (f : FFlags) : Prop := flagWord f &&& ((k.fpcr >>> 8) &&& 0x1F) = 0

/-- The core with an instruction's flags added to FPSR. -/
def CoreState.flagged (k : CoreState) (f : FFlags) : CoreState := { k with fpsr := k.fpsr ||| flagWord f }

/-! The array. -/

/-- An array instruction comes to its acceptance (R20, R74, R98): its core executes it, owns a stream, and no register that it must
wait for is pending. -/
def Dev.Offers (d : Dev) (opc : Nat) (a : AOp) : Prop :=
  d.Runs32 a.core a.pred [] [] ∧ d.ownsStream a.core = true ∧
    (opc = 0x4C → (d.co a.core).pendD.getLsbD (a.sa.toNat % 16) = false ∧ (d.co a.core).pendD.getLsbD (a.sb.toNat % 16) = false) ∧
    (opc = 0x50 ∨ opc = 0x51 → (d.co a.core).pendP.getLsbD (a.sd.toNat % 8) = false) ∧
    (opc = 0x52 ∨ opc = 0x53 → (d.co a.core).pendD.getLsbD (a.sd.toNat % 16) = false)

/-- The sequencer accepts it (R103, R132). -/
def Dev.Accepts (d : Dev) (opc : Nat) (a : AOp) : Prop := d.Offers opc a ∧ d.judge a.core (d.makeJob a.core opc a) = .accept

/-- The part after an acceptance: queue and log hold the instruction, its target is pending, its core goes on. -/
def Dev.accepted (d : Dev) (opc : Nat) (a : AOp) : Dev :=
  let j := d.makeJob a.core opc a
  (((d.enqueue a.core j).markPending j).markHold a.core j).modCo a.core (fun k => k.advance 4 1)

/-- The same with the instruction taken from the queue by an idle stream. -/
def Dev.started (d : Dev) (opc : Nat) (a : AOp) : Dev := (d.accepted opc a).modSt a.core (fun x => { x with jobs := [] })

/-- The sequencer accepts it and the idle stream begins it at once, as a vendor routine of the ROM whose entry
word is valid (R75, R131, R132, R147). -/
def Dev.Begins (d : Dev) (opc : Nat) (a : AOp) : Prop :=
  d.Accepts opc a ∧ (d.st a.core).jobs = [] ∧ (d.accepted opc a).canStart a.core (d.makeJob a.core opc a) = true ∧
    (d.started opc a).redirected (BitVec.ofNat 7 opc) = false ∧
    (opc ≠ 0x6F → microFind ((d.started opc a).uErrOf (vendorEntry (BitVec.ofNat 7 opc)).toNat) = .good)

/-- An integer or logic instruction in every row of its stream, after the compare of the latches at its start (R40), then X, Y and
the scratch segment left undefined (R79, R83). -/
def Dev.everyRow (d : Dev) (s : StreamId) (f : Nat → Dev → Nat → Nat → Nat → Dev) : Dev :=
  let e := d.twinStream s
  (({ e with free := e.free + 1 } : Dev).forRows s.val (f e.free)).looseEnd s.val

/-- A routine's cost is added to its stream's span (R200, R202). -/
def Dev.charge (d : Dev) (s : StreamId) (n : Nat) : Dev := d.modSt s (fun x => { x with span := x.span + n })

/-- The halls of a stream as a mask. -/
def Dev.halls16 (d : Dev) (s : StreamId) : BitVec 16 := (d.streamHalls s.val).foldl (fun v h => setBit v h true) 0

/-! The road (R313, R319, R332 to R336). -/

/-- No probe counts or traces packets (R336). -/
def Dev.ProbesOff (d : Dev) : Prop := ∀ k, k < 4 → d.flag (R.ROAD_PRBCFG_EN k) = false

/-- A TID of a node's slice is free (R319). -/
def Dev.TidFree (d : Dev) (n : Nat) : Prop := ∃ i, i < (d.slice n).2 ∧ d.tidBusy ((d.slice n).1 + i) = false

/-- A request of a node reaches a target node at once: CORE is on, the requester's bridge is not in RESETX, the target is alive
and, if it has a bridge, UP; a TID of the requester's slice is free; no probe looks on; the requester itself is alive. -/
def Dev.Carries (d : Dev) (w : Who) (node : Nat) : Prop :=
  d.domOn 0 = true ∧ d.brState w.node ≠ 5 ∧ d.nodeDead node = false ∧ (hasBridge node = true → d.brState node = 0) ∧
    d.TidFree w.node ∧ d.ProbesOff ∧ d.nodeDead w.node = false

/-- A requester's write of a register: the road carries it, it names a register outside the read-only mirror, and no rule refuses
it to the requester (R6, R25, R106, R431). -/
def Dev.Writes (d : Dev) (r : Requester) (b : Block) (a : Nat) (v : Word) : Prop :=
  d.place a = some (.window b (a - blockBase b)) ∧ (∃ node, nodeOfAddr d.chipId a = some node ∧ d.Carries (d.who r) node) ∧
    (a - blockBase b) % 4 = 0 ∧ blockBase b ≤ a ∧ a - blockBase b < 0x8000 ∧ (regIn b (a - blockBase b)).isSome = true ∧
    d.writeRefused (d.who r) b a v = false ∧ a ≠ R.DBG_MDATA

/-- The part at the target of a request: the TID that was drawn has used one free value. -/
def Dev.drawn (d : Dev) : Dev := { d with free := d.free + 1 }

/-- The same with a register's fields as the written value leaves them, each by its type (R3, R15); a COMMIT's GO captures (R10). -/
def Dev.fielded (d : Dev) (r : Requester) (b : Block) (a : Nat) (v : Word) : Dev := d.drawn.plainWrite (d.who r) b a v

/-- The outcome of a register command whose write the target has performed: the response is OK. -/
def State.wrote (s : State) (d : Dev) : Host.Outcome State Fault Refusal := s.after (d.respond 0 [])

end Sys2Proof.Machine
end

