-- ==== Sys2Proof/Certificates/Slice0/Obligations.lean ====
section
/-! DEFINITION. The statements for the provers: what the spec's rules say of the commands, of the state after reset, and of every step. -/

open Sys2Proof Sys2Proof.Machine

/-! Flivin cores. -/

/-- R252, R253, R256: the register ALU operations in both forms. A result goes to Dd alone, the core goes on after one cycle, and
nothing else of the part changes. The shift distance of the 32-bit forms is the model's choice (log entry 4). -/
def Obligations.CoreAluComputes : Prop :=
  ∀ e ∈ ([(Instr.coreAdd, fun a b => a + b), (Instr.coreSub, fun a b => a - b), (Instr.coreAnd, fun a b => a &&& b),
      (Instr.coreOr, fun a b => a ||| b), (Instr.coreXor, fun a b => a ^^^ b), (Instr.coreShl, fun a b => a <<< (b.toNat % 64)),
      (Instr.coreShru, fun a b => a >>> (b.toNat % 64)), (Instr.coreShrs, fun a b => a.sshiftRight (b.toNat % 64))] :
      List ((CoreId → AluForm → Instr) × (Word → Word → Word))),
    ∀ (s : State) (c : CoreId),
      (∀ rd rs, s.dev.Runs16 c [] [rd, rs] →
        exec (e.1 c (.short rd rs)) s =
          s.after (s.dev.setCo c (((s.dev.co c).wrd rd (e.2 ((s.dev.co c).rd rd) ((s.dev.co c).rd rs))).advance 2 1))) ∧
      (∀ p rd rs rt, s.dev.Runs32 c p [] [rd, rs, rt] →
        exec (e.1 c (.long p rd rs rt)) s =
          s.after (s.dev.setCo c (((s.dev.co c).wrd rd (e.2 ((s.dev.co c).rd rs) ((s.dev.co c).rd rt))).advance 4 1)))

/-- R253: the register operations that have a 32-bit form alone. The rotate's distance is taken modulo 32 (log entry 4). -/
def Obligations.CoreAluLongComputes : Prop :=
  ∀ e ∈ ([(Instr.coreAndn, fun a b => a &&& ~~~b), (Instr.coreRol, fun a b => a.rotateLeft (b.toNat % 32)),
      (Instr.coreMins, fun a b => if a.toInt ≤ b.toInt then a else b), (Instr.coreMaxs, fun a b => if a.toInt ≤ b.toInt then b else a),
      (Instr.coreMinu, fun a b => if a.toNat ≤ b.toNat then a else b), (Instr.coreMaxu, fun a b => if a.toNat ≤ b.toNat then b else a)] :
      List ((CoreId → Pred → DReg → DReg → DReg → Instr) × (Word → Word → Word))),
    ∀ (s : State) (c : CoreId) p rd rs rt, s.dev.Runs32 c p [] [rd, rs, rt] →
      exec (e.1 c p rd rs rt) s =
        s.after (s.dev.setCo c (((s.dev.co c).wrd rd (e.2 ((s.dev.co c).rd rs) ((s.dev.co c).rd rt))).advance 4 1))

/-- R252, R253: moves, immediates and address arithmetic. -/
def Obligations.CoreMovesAndImmediates : Prop :=
  ∀ (s : State) (c : CoreId),
    let k := s.dev.co c
    let to16 := fun k : CoreState => s.after (s.dev.setCo c (k.advance 2 1))
    let to32 := fun k : CoreState => s.after (s.dev.setCo c (k.advance 4 1))
    (∀ d r, s.dev.Runs16 c [] [d, r] → exec (.coreMov c d r) s = to16 (k.wrd d (k.rd r)) ∧
      exec (.coreNot c d r) s = to16 (k.wrd d (~~~(k.rd r))) ∧ exec (.coreNeg c d r) s = to16 (k.wrd d (-(k.rd r)))) ∧
    (∀ a r, s.dev.Runs16 c [] [r] → exec (.aset c a r) s = to16 (k.wra a (k.rd r)) ∧
      exec (.aadd c a r) s = to16 (k.wra a (k.ra a + k.rd r))) ∧
    (∀ d a, s.dev.Runs16 c [] [d] → exec (.aget c d a) s = to16 (k.wrd d (k.ra a))) ∧
    (∀ d imm, s.dev.Runs16 c [] [d] → exec (.movi c (.short d imm)) s = to16 (k.wrd d (imm.signExtend 32)) ∧
      exec (.addi c (.short d imm)) s = to16 (k.wrd d (k.rd d + imm.signExtend 32))) ∧
    (∀ p d imm, s.dev.Runs32 c p [] [d] → exec (.movi c (.long p d imm)) s = to32 (k.wrd d (imm.signExtend 32)) ∧
      exec (.addi c (.long p d imm)) s = to32 (k.wrd d (k.rd d + imm.signExtend 32)) ∧
      exec (.movhi c p d imm) s = to32 (k.wrd d (imm.append ((k.rd d).setWidth 16 : BitVec 16)))) ∧
    (∀ p d a imm, s.dev.Runs32 c p [] [] → exec (.lea c p d a imm) s = to32 (k.wra d (k.ra a + imm.signExtend 32)))

/-- R249, R253: compares and predicate logic write the predicate named, from the operands before the instruction. R249: P0 reads 1 and
cannot be written; a write of another predicate reads back and leaves the other predicates alone. -/
def Obligations.CoreComparesAndPredicates : Prop :=
  ((∀ e ∈ ([(Instr.cmpEq, fun a b => decide (a = b)), (Instr.cmpNe, fun a b => decide (a ≠ b)), (Instr.cmpLts, fun a b => a.slt b),
       (Instr.cmpGes, fun a b => b.sle a), (Instr.cmpLtu, fun a b => a.ult b),
       (Instr.cmpGeu, fun a b => b.ule a)] :
       List ((CoreId → Pred → PReg → DReg → CmpOp → Instr) × (Word → Word → Bool))),
     ∀ (s : State) (c : CoreId) p (pd : PReg) rs, pd ≠ 0 →
       (∀ rt, s.dev.Runs32 c p [pd] [rs, rt] →
         exec (e.1 c p pd rs (.reg rt)) s =
           s.after (s.dev.setCo c (((s.dev.co c).wrp pd (e.2 ((s.dev.co c).rd rs) ((s.dev.co c).rd rt))).advance 4 1))) ∧
       (∀ imm, s.dev.Runs32 c p [pd] [rs] →
         exec (e.1 c p pd rs (.imm imm)) s =
           s.after (s.dev.setCo c (((s.dev.co c).wrp pd (e.2 ((s.dev.co c).rd rs) (imm.signExtend 32))).advance 4 1)))) ∧
   (∀ e ∈ ([(Instr.predAnd, fun a b => a && b), (Instr.predOr, fun a b => a || b), (Instr.predXor, fun a b => a != b),
       (Instr.predAndn, fun a b => a && !b)] : List ((CoreId → Pred → PReg → PReg → PReg → Instr) × (Bool → Bool → Bool))),
     ∀ (s : State) (c : CoreId) p (pd a b : PReg), pd ≠ 0 → s.dev.Runs32 c p [pd, a, b] [] →
       exec (e.1 c p pd a b) s =
         s.after (s.dev.setCo c (((s.dev.co c).wrp pd (e.2 ((s.dev.co c).rp a) ((s.dev.co c).rp b))).advance 4 1)))) ∧
  (∀ (k : CoreState) (n m : PReg) (b : Bool),
     k.rp 0 = true ∧ k.wrp 0 b = k ∧ (n ≠ 0 → (k.wrp n b).rp n = b) ∧ (m ≠ n → (k.wrp n b).rp m = k.rp m))

/-- R281, R282, R248: the multiplies. The word or the even pair Dd gets the product, and the instruction takes 5 cycles with CT and
otherwise one more than an eighth, rounded up, of the significance of Dt. R282: the significances that the multiply's time depends on:
both are 0 for 0; u bits hold an unsigned operand and no fewer do; v bits hold a signed one in two's complement and no fewer do. -/
def Obligations.CoreMultipliesCompute : Prop :=
  (∀ (s : State) (c : CoreId) p rd rs rt (ct : Bool),
     let k := s.dev.co c
     let a := k.rd rs
     let b := k.rd rt
     let signed := fun k : CoreState => s.after (s.dev.setCo c (k.advance 4 (if ct then 5 else 1 + (sigV b + 7) / 8)))
     let unsigned := fun k : CoreState => s.after (s.dev.setCo c (k.advance 4 (if ct then 5 else 1 + (sigU b + 7) / 8)))
     (s.dev.Runs32 c p [] [rd, rs, rt] →
       exec (.mul c p rd rs rt ct) s = signed (k.wrd rd (a * b)) ∧
       exec (.mulhs c p rd rs rt ct) s = signed (k.wrd rd (BitVec.ofInt 32 (a.toInt * b.toInt / 2 ^ 32))) ∧
       exec (.mulhu c p rd rs rt ct) s = unsigned (k.wrd rd (BitVec.ofNat 32 (a.toNat * b.toNat / 2 ^ 32)))) ∧
     (rd.getLsbD 0 = false → s.dev.Runs32 c p [] [rd, rd ||| 1, rs, rt] →
       exec (.mulds c p rd rs rt ct) s = signed (k.wpair rd (BitVec.ofInt 64 (a.toInt * b.toInt))) ∧
       exec (.muldu c p rd rs rt ct) s = unsigned (k.wpair rd (BitVec.ofNat 64 (a.toNat * b.toNat))))) ∧
  (sigU 0 = 0 ∧ sigV 0 = 0 ∧
   ∀ t : Word, t ≠ 0 →
     2 ^ (sigU t - 1) ≤ t.toNat ∧ t.toNat < 2 ^ sigU t ∧ 1 ≤ sigV t ∧ sigV t ≤ 32 ∧
     ∀ n : Nat, 1 ≤ n → (sigV t ≤ n ↔ -(2 ^ (n - 1)) ≤ t.toInt ∧ t.toInt < 2 ^ (n - 1)))

/-- R268, R269, R281, R284: the accumulators and the division step. A sum wraps at 72 bits or, with CFG.ACSAT, is clamped; MAC.H2
takes its words from the two data TCMs and advances both addresses. -/
def Obligations.CoreAccumulatorsCompute : Prop :=
  ∀ (s : State) (c : CoreId) (p : Pred),
    let k := s.dev.co c
    let clamp := fun x : Int => if k.cfg.getLsbD 1 then max (-(2 ^ 71)) (min (2 ^ 71 - 1) x) else x
    let goes := fun k : CoreState => s.after (s.dev.setCo c (k.advance 4 1))
    (∀ n rs rt (ct : Bool), s.dev.Runs32 c p [] [rs, rt] →
      let cyc := fun sig : Word → Nat => if ct then 5 else 1 + (sig (k.rd rt) + 7) / 8
      exec (.macs c p n rs rt ct) s = s.after (s.dev.setCo c ((k.wac n (BitVec.ofInt 72
        (clamp ((k.rac n).toInt + (k.rd rs).toInt * (k.rd rt).toInt)))).advance 4 (cyc sigV))) ∧
      exec (.macu c p n rs rt ct) s = s.after (s.dev.setCo c ((k.wac n (BitVec.ofInt 72
        (clamp ((k.rac n).toInt + (k.rd rs).toNat * (k.rd rt).toNat)))).advance 4 (cyc sigU))) ∧
      exec (.msus c p n rs rt ct) s = s.after (s.dev.setCo c ((k.wac n (BitVec.ofInt 72
        (clamp ((k.rac n).toInt - (k.rd rs).toInt * (k.rd rt).toInt)))).advance 4 (cyc sigV)))) ∧
    (∀ n (x y : BitVec 2), s.dev.Runs32 c p [] [] →
      let ax : AReg := x.setWidth 3
      let ay : AReg := y.setWidth 3 + 4
      (k.ra ax).toNat % 4 = 0 → 0x08010000 ≤ (k.ra ax).toNat → (k.ra ax).toNat < 0x08020000 →
      (k.ra ay).toNat % 4 = 0 → 0x08020000 ≤ (k.ra ay).toNat → (k.ra ay).toNat < 0x08030000 →
      let u := s.dev.word32 (0x04000000 + c.val * 0x01000000 + (k.ra ax).toNat)
      let v := s.dev.word32 (0x04000000 + c.val * 0x01000000 + (k.ra ay).toNat)
      let half := fun (w : Word) (i : Nat) => ((w >>> (16 * i)).setWidth 16 : BitVec 16).toInt
      exec (.macH2 c p n x y) s = goes (((k.wac n (BitVec.ofInt 72
        (clamp ((k.rac n).toInt + (half u 0 * half v 0 + half u 1 * half v 1))))).wra ax (k.ra ax + 4)).wra ay (k.ra ay + 4))) ∧
    (∀ rd n (sh : BitVec 6), s.dev.Runs32 c p [] [rd] →
      exec (.acmov c p rd n sh) s =
        goes (k.wrd rd (BitVec.ofInt 32 (max (-(2 ^ 31)) (min (2 ^ 31 - 1) ((k.rac n).toInt / (2 ^ sh.toNat : Nat))))))) ∧
    (∀ n, s.dev.Runs32 c p [] [] → exec (.acclr c p n) s = goes (k.wac n 0)) ∧
    (∀ rd n, s.dev.Runs32 c p [] [rd] →
      exec (.acrd c p rd n 0) s = goes (k.wrd rd ((k.rac n).extractLsb' 0 32)) ∧
      exec (.acrd c p rd n 1) s = goes (k.wrd rd ((k.rac n).extractLsb' 32 32)) ∧
      exec (.acrd c p rd n 2) s = goes (k.wrd rd (((k.rac n).extractLsb' 64 8).signExtend 32))) ∧
    (∀ n rs, s.dev.Runs32 c p [] [rs] →
      exec (.acwr c p n rs 0) s = goes (k.wac n (((k.rac n).extractLsb' 32 40).append (k.rd rs))) ∧
      exec (.acwr c p n rs 1) s = goes (k.wac n ((((k.rac n).extractLsb' 64 8).append (k.rd rs)).append ((k.rac n).extractLsb' 0 32))) ∧
      exec (.acwr c p n rs 2) s = goes (k.wac n (((k.rd rs).extractLsb' 0 8).append ((k.rac n).extractLsb' 0 64)))) ∧
    (∀ rr rq rv, rr ≠ rq → s.dev.Runs32 c p [] [rr, rq, rv] →
      let t := 2 * (k.rd rr).toNat + bn ((k.rd rq).getLsbD 31)
      let fits := (k.rd rv).toNat ≤ t
      exec (.coreDstep c p rr rq rv) s =
        goes ((k.wrd rr (if fits then BitVec.ofNat 32 (t - (k.rd rv).toNat) else BitVec.ofNat 32 t)).wrd rq
          (((k.rd rq) <<< 1) ||| (if fits then 1 else 0))))

/-- R251, R252, R253, R256, R265, R266: branches, calls, returns and the return stack, newest entry first. A target's bit 0 is dropped, a
taken branch takes two cycles. A push at depth 16 with CFG.RSTRAP = 0 loses the oldest entry; RSPUSHB works at the bottom. R266: a
return-stack underflow or overflow takes its trap at the instruction, with the return stack as it was. -/
def Obligations.CoreBranchesAndReturnStack : Prop :=
  (∀ (s : State) (c : CoreId) (p : Pred),
     let k := s.dev.co c
     let goes := fun (k : CoreState) (target : Word) => s.after (s.dev.setCo c (k.jump target 2))
     let fits := k.rs.length < 16 ∨ k.cfg.getLsbD 0 = false
     let pushed := fun v : Word => { k with rs := (v :: k.rs).take 16 }
     (∀ off, s.dev.Runs16 c [] [] → exec (.br c (.short off)) s = goes k (k.pc + 2 * off.signExtend 32)) ∧
     (∀ off, s.dev.Runs32 c p [] [] → exec (.br c (.long p off)) s = goes k (k.pc + 2 * off.signExtend 32)) ∧
     (∀ off, s.dev.Runs16 c [p.p] [] → k.holds p = true → exec (.brp c p off) s = goes k (k.pc + 2 * off.signExtend 32)) ∧
     (∀ off, s.dev.Runs16 c [p.p] [] → k.holds p = false → exec (.brp c p off) s = s.after (s.dev.setCo c (k.advance 2 1))) ∧
     (∀ a, s.dev.Runs32 c p [] [] → exec (.jmp c p a) s = goes k (k.ra a)) ∧
     (fits →
       (∀ off, s.dev.Runs16 c [] [] → exec (.call c (.short off)) s = goes (pushed (k.pc + 2)) (k.pc + 2 * off.signExtend 32)) ∧
       (∀ off, s.dev.Runs32 c p [] [] → exec (.call c (.long p off)) s = goes (pushed (k.pc + 4)) (k.pc + 2 * off.signExtend 32)) ∧
       (∀ a, s.dev.Runs32 c p [] [] → exec (.calla c p a) s = goes (pushed (k.pc + 4)) (k.ra a)) ∧
       (∀ r, s.dev.Runs32 c p [] [r] → exec (.rspush c p r) s = s.after (s.dev.setCo c ((pushed (k.rd r)).advance 4 1)))) ∧
     (∀ a r, k.rs = a :: r → s.dev.Runs16 c [] [] → exec (.ret c) s = goes { k with rs := r } a) ∧
     (∀ a r n, k.rs = a :: r → s.dev.Runs32 c p [] [n] →
       exec (.rspop c p n) s = s.after (s.dev.setCo c (({ k with rs := r }.wrd n a).advance 4 1))) ∧
     (∀ n, k.rs.length < 16 → s.dev.Runs32 c p [] [n] →
       exec (.rspushb c p n) s = s.after (s.dev.setCo c ({ k with rs := k.rs ++ [k.rd n] }.advance 4 1))) ∧
     (∀ a r n, k.rs = r ++ [a] → s.dev.Runs32 c p [] [n] →
       exec (.rspopb c p n) s = s.after (s.dev.setCo c (({ k with rs := r }.wrd n a).advance 4 1)))) ∧
  (∀ (s : State) (c : CoreId) (p : Pred) (ra : Nat),
     let k := s.dev.co c
     let taken := fun t : Trap => s.after (s.dev.trapTaken c ra t k.pc 0 false)
     k.loads = [] →
     (k.EntersAt c 8 ra → k.rs = [] →
       (s.dev.Runs16 c [] [] → exec (.ret c) s = taken .rsUnder) ∧
       (∀ n, s.dev.Runs32 c p [] [n] → exec (.rspop c p n) s = taken .rsUnder ∧ exec (.rspopb c p n) s = taken .rsUnder)) ∧
     (k.EntersAt c 7 ra → 16 ≤ k.rs.length →
       (∀ n, s.dev.Runs32 c p [] [n] → exec (.rspushb c p n) s = taken .rsOver) ∧
       (k.cfg.getLsbD 0 = true →
         (∀ off, s.dev.Runs16 c [] [] → exec (.call c (.short off)) s = taken .rsOver) ∧
         (∀ off, s.dev.Runs32 c p [] [] → exec (.call c (.long p off)) s = taken .rsOver) ∧
         (∀ a, s.dev.Runs32 c p [] [] → exec (.calla c p a) s = taken .rsOver) ∧
         (∀ n, s.dev.Runs32 c p [] [n] → exec (.rspush c p n) s = taken .rsOver))))

/-- R257: a 32-bit form whose condition is 0 takes its cycle and changes nothing else. R252, R261, R310: NOP goes on; FENCE goes on once
every access of the core, and ISYNC once every store, has been performed, and until then the core stays at it; WAIT
stops the core when no offer is above LVL, and WAIT_WAKE lets it go on when one is. The offer is judged after moderation has given the
core what it holds from it. -/
def Obligations.WaitsBarriersAndFalsePredicates : Prop :=
  (∀ (s : State) (c : CoreId) (p : Pred) (rd rs rt : DReg) (a : AReg) (n : BitVec 2), (s.dev.co c).holds p = false →
     ∀ i ∈ ([.coreAdd c (.long p rd rs rt), .coreAndn c p rd rs rt, .addi c (.long p rd 1), .movhi c p rd 1, .lea c p a a 1,
         .cmpEq c p 1 rs (.reg rt), .predAnd c p 1 0 0, .br c (.long p 1), .jmp c p a, .call c (.long p 1), .calla c p a,
         .mul c p rd rs rt false, .macs c p n rs rt true, .macH2 c p n 0 0, .acmov c p rd n 0, .acclr c p n, .rspush c p rd,
         .rspop c p rd, .rspushb c p rd, .rspopb c p rd, .fadd c p false rd rs rt, .fcvtW c p false rd rs,
         .load c (.long p 2 rd a 0 false 0), .store c (.long p 2 rd a 0 false 0), .sysc c p 0] : List Instr),
       s.dev.Meets32 c p [1, 0] [rd, rs, rt] → exec i s = s.after (s.dev.setCo c ((s.dev.co c).advance 4 1))) ∧
  (∀ (s : State) (c : CoreId),
     let k := s.dev.co c
     (s.dev.Runs16 c [] [] →
       exec (.nop c) s = s.after (s.dev.setCo c (k.advance 2 1)) ∧
       (s.dev.accessOwed c = false → exec (.fence c) s = s.after (s.dev.setCo c (k.advance 2 1))) ∧
       (s.dev.storeOwed c = false → exec (.isync c) s = s.after (s.dev.setCo c (k.advance 2 1))) ∧
       (s.dev.accessOwed c = true → exec (.fence c) s = s.after s.dev) ∧
       (s.dev.storeOwed c = true → exec (.isync c) s = s.after s.dev) ∧
       let d := (s.dev.setCo c (k.advance 2 1)).releaseHeld c
       exec (.wait c) s = s.after (if (d.offerAbove c k.lvl).isSome then d else d.setCo c { k.advance 2 1 with mode := .wait })) ∧
     (k.mode = .wait → k.halted = false → (s.dev.offerAbove c k.lvl).isSome = true →
       exec (.waitWake c) s = s.after (s.dev.setCo c { k with mode := .run })))

/-- R286, R287, R289, R290, R292: the floating-point arithmetic and moves, where no enabled exception is raised: the result goes to
the destination in the form that PR names, the flags are added to FPSR, and the instruction takes its cycles. -/
def Obligations.CoreFloatComputes : Prop :=
  (∀ e ∈ ([(Instr.fadd, 3, 4, fun k f a b _ => withNans f k.dn [a, b] (fpAdd f k.rm false false a b)),
      (Instr.fsub, 3, 4, fun k f a b _ => withNans f k.dn [a, b] (fpSub f k.rm false false a b)),
      (Instr.fmul, 3, 6, fun k f a b _ => withNans f k.dn [a, b] (fpMul f k.rm false false a b)),
      (Instr.fma, 4, 7, fun k f a b x => coreFma f k.rm k.dn false a b x),
      (Instr.fnms, 4, 7, fun k f a b x => coreFma f k.rm k.dn true a b x),
      (Instr.fmin, 1, 1, fun k f a b _ => coreMinMax f k.dn false a b), (Instr.fmax, 1, 1, fun k f a b _ => coreMinMax f k.dn true a b)] :
      List ((CoreId → Pred → Bool → DReg → DReg → DReg → Instr) × Nat × Nat × (CoreState → Fmt → Nat → Nat → Nat → Nat × FFlags))),
    ∀ (s : State) (c : CoreId) p (pr : Bool) rd rs rt,
      let k := s.dev.co c
      let r := e.2.2.2 k (fpFmt pr) (k.fpr pr rs) (k.fpr pr rt) (k.fpr pr rd)
      fpEven pr [rd, rs, rt] = true → s.dev.Runs32 c p [] (fpRegs pr [rd, rs, rt]) → k.NoFpTrap r.2 →
        exec (e.1 c p pr rd rs rt) s =
          s.after (s.dev.setCo c (((k.flagged r.2).fpw pr rd r.1).advance 4 (if pr then e.2.2.1 else e.2.1)))) ∧
  (∀ e ∈ ([(Instr.fneg, 1, fun _ pr a => (fpFlip (fpFmt pr) a, {})), (Instr.fabs, 1, fun _ pr a => (a % 2 ^ ((fpFmt pr).width - 1), {})),
      (Instr.fmov, 1, fun _ _ a => (a, {})), (Instr.frece, 2, fun k pr a => coreRecip pr k.dn a),
      (Instr.frsqe, 2, fun k pr a => coreRsqrt pr k.dn a)] :
      List ((CoreId → Pred → Bool → DReg → DReg → Instr) × Nat × (CoreState → Bool → Nat → Nat × FFlags))),
    ∀ (s : State) (c : CoreId) p (pr : Bool) rd rs,
      let k := s.dev.co c
      let r := e.2.2 k pr (k.fpr pr rs)
      fpEven pr [rd, rs] = true → s.dev.Runs32 c p [] (fpRegs pr [rd, rs]) → k.NoFpTrap r.2 →
        exec (e.1 c p pr rd rs) s = s.after (s.dev.setCo c (((k.flagged r.2).fpw pr rd r.1).advance 4 e.2.1)))

/-- R286, R288, R289, R292: floating-point compares and conversions, where no enabled exception is raised. -/
def Obligations.CoreFloatConverts : Prop :=
  ∀ (s : State) (c : CoreId) (p : Pred) (pr : Bool),
    let k := s.dev.co c
    let f := fpFmt pr
    (∀ e ∈ ([(Instr.fceq, fpEq), (Instr.fclt, fpLt), (Instr.fcle, fpLe)] :
        List ((CoreId → Pred → Bool → PReg → DReg → DReg → Instr) × (Fmt → Bool → Nat → Nat → Bool × FFlags))),
      ∀ (pd : PReg) rs rt,
        let r := e.2 f false (k.fpr pr rs) (k.fpr pr rt)
        pd ≠ 0 → fpEven pr [rs, rt] = true → s.dev.Runs32 c p [pd] (fpRegs pr [rs, rt]) → k.NoFpTrap r.2 →
          exec (e.1 c p pr pd rs rt) s = s.after (s.dev.setCo c (((k.flagged r.2).wrp pd r.1).advance 4 1))) ∧
    (∀ rd rs,
      let r := coreConvert k.dn pr k.rm (k.fpr pr rs)
      fpEven (!pr) [rd] = true → fpEven pr [rs] = true → s.dev.Runs32 c p [] (fpRegs (!pr) [rd] ++ fpRegs pr [rs]) → k.NoFpTrap r.2 →
        exec (.fcvt c p pr rd rs) s =
          s.after (s.dev.setCo c (((k.flagged r.2).fpw (!pr) rd r.1).advance 4 (if pr then 3 else 2)))) ∧
    (∀ e ∈ ([(Instr.fcvtW, -(2 ^ 31), 2 ^ 31 - 1), (Instr.fcvtWu, 0, 2 ^ 32 - 1)] :
        List ((CoreId → Pred → Bool → DReg → DReg → Instr) × Int × Int)),
      ∀ rd rs,
        let r := fpToInt f k.rm false e.2.1 e.2.2 0 (k.fpr pr rs)
        fpEven pr [rs] = true → s.dev.Runs32 c p [] (rd :: fpRegs pr [rs]) → k.NoFpTrap r.2 →
          exec (e.1 c p pr rd rs) s =
            s.after (s.dev.setCo c (((k.flagged r.2).wrd rd (BitVec.ofInt 32 r.1)).advance 4 (if pr then 3 else 2)))) ∧
    (∀ e ∈ ([(Instr.fcvtFW, BitVec.toInt), (Instr.fcvtFWu, fun w => (w.toNat : Int))] :
        List ((CoreId → Pred → Bool → DReg → DReg → Instr) × (Word → Int))),
      ∀ rd rs,
        let r := fpOfInt f k.rm (e.2 (k.rd rs))
        fpEven pr [rd] = true → s.dev.Runs32 c p [] (rs :: fpRegs pr [rd]) → k.NoFpTrap r.2 →
          exec (e.1 c p pr rd rs) s =
            s.after (s.dev.setCo c (((k.flagged r.2).fpw pr rd r.1).advance 4 (if pr then 3 else 2))))

/-- R292: an operation that raises an enabled exception takes the floating-point trap at the instruction: FPSR gets the flags and
the cause, the destination and the other registers stay. -/
def Obligations.CoreFloatTraps : Prop :=
  ∀ (s : State) (c : CoreId) p (pr : Bool) rd rs rt (ra : Nat),
    let k := s.dev.co c
    let r := withNans (fpFmt pr) k.dn [k.fpr pr rs, k.fpr pr rt] (fpMul (fpFmt pr) k.rm false false (k.fpr pr rs) (k.fpr pr rt))
    let marked := { k with fpsr := setBits (k.fpsr ||| flagWord r.2) 12 8 (flagWord r.2).toNat }
    fpEven pr [rd, rs, rt] = true → s.dev.Runs32 c p [] (fpRegs pr [rd, rs, rt]) → ¬k.NoFpTrap r.2 →
    k.EntersAt c 11 ra → k.loads = [] →
      exec (.fmul c p pr rd rs rt) s = s.after ((s.dev.setCo c marked).trapTaken c ra .fp k.pc 0 false)

/-- R252, R254, R256, R262: loads and stores in a core's own memories. The address, the new address register and the value for every size
and mode; a load's value lands after two further instructions; a store writes its bytes, little-endian, and no other byte. R260: a store
to a core's own memories leaves every byte outside the bytes it names as it was. R262: a load's value is seen by the third instruction
after it: the two instructions that follow find the old value, and their own writes of the register are overtaken by the load's when the
second of them ends. -/
def Obligations.CoreLoadsAndStores : Prop :=
  (∀ (s : State) (c : CoreId) (ra : Nat),
     let k := s.dev.co c
     let reaches := fun (a : Word) (n : Nat) => a.toNat / 0x01000000 = 8 ∧ a.toNat % n = 0 ∧ ownTcm c a.toNat = some ra
     let goes := fun (len : Nat) (a : AReg) (v : Word) => (k.wra a v).advance len 1
     let loaded := fun (k : CoreState) (r : DReg) (w : Word) (h : Option Word) => s.after (s.dev.setCo c { k with loads := k.loads ++ [{ dst := r, lo := w, hi := h, slots := 2 }] })
     let value := fun n => BitVec.ofNat (8 * n) (leNat (s.dev.bytes ra n))
     (∀ (mode : BitVec 2) (x : BitVec 3) r a, (mode = 3 ∨ x = 0) → s.dev.Runs16 c [] [r] →
       let addr := if mode = 2 then k.ra a - 4 else if mode = 3 then k.ra a + BitVec.ofNat 32 (4 * x.toNat) else k.ra a
       let upd := if mode = 1 then k.ra a + 4 else if mode = 2 then k.ra a - 4 else k.ra a
       reaches addr 4 →
         exec (.load c (.short r a mode x)) s = loaded (goes 2 a upd) r (value 4) none ∧
         exec (.store c (.short r a mode x)) s = s.after ((s.dev.setCo c (goes 2 a upd)).setBytes ra (leBytes 4 (k.rd r).toNat))) ∧
     (∀ p (size : BitVec 2) r a (mode : BitVec 3) (opd : BitVec 9),
       let n := 2 ^ size.toNat
       let x : DReg := opd.extractLsb' 5 4
       let off := opd.signExtend 32 * BitVec.ofNat 32 n
       let addr := if mode = 0 then k.ra a + off else if mode = 2 then k.ra a - BitVec.ofNat 32 n
         else if mode = 4 then k.ra a + (k.rd x <<< (opd.extractLsb' 3 2).toNat) else k.ra a
       let upd := if mode = 1 then k.ra a + BitVec.ofNat 32 n else if mode = 2 then k.ra a - BitVec.ofNat 32 n
         else if mode = 3 then k.ra a + off else k.ra a
       mode.toNat ≤ 4 → ((mode = 1 ∨ mode = 2) → opd = 0) → (mode = 4 → opd.extractLsb' 0 3 = 0) → (size = 3 → r.getLsbD 0 = false) →
       s.dev.Runs32 c p [] [r, r ||| 1, x] → reaches addr n →
         (∀ sx : Bool, (sx = true → size.toNat < 2) →
           exec (.load c (.long p size r a mode sx opd)) s = loaded (goes 4 a upd) r
             (if size = 0 then (if sx then (value 1).signExtend 32 else (value 1).setWidth 32)
               else if size = 1 then (if sx then (value 2).signExtend 32 else (value 2).setWidth 32) else (value 8).setWidth 32)
             (if size = 3 then some ((value 8).extractLsb' 32 32) else none)) ∧
         exec (.store c (.long p size r a mode false opd)) s = s.after ((s.dev.setCo c (goes 4 a upd)).setBytes ra
           (leBytes n (if size = 3 then (k.rpair r).toNat else (k.rd r).toNat))))) ∧
  (∀ (s : State) (c : CoreId) (p : Pred) (size : BitVec 2) r a (mode : BitVec 3) opd (ra : Nat) t,
     let x := (s.dev.co c).access size r a mode false opd
     s.dev.Quiet → x.addr.toNat / 0x01000000 = 8 → ownTcm c x.addr.toNat = some ra →
     exec (.store c (.long p size r a mode false opd)) s = .next t → s.dev.Runs32 c p [] [r, r ||| 1, indexReg opd] →
     memLegal true size r mode false opd = true → x.addr.toNat % 2 ^ size.toNat = 0 →
       (∀ b, b < ra ∨ ra + 2 ^ size.toNat ≤ b → t.dev.byte b = s.dev.byte b) ∧
       (∀ i, i < 2 ^ size.toNat → i < 4 → t.dev.byte (ra + i) = BitVec.ofNat 8 (((s.dev.co c).rd r).toNat / 256 ^ i)) ∧
       t.dev.regs = s.dev.regs ∧ t.pending = s.pending) ∧
  (∀ (k : CoreState) (r : DReg) (w v : Word) (n m : Nat), k.loads = [{ dst := r, lo := w, hi := none, slots := 2 }] →
     (k.retire n).rd r = k.rd r ∧ (k.retire n).loads = [{ dst := r, lo := w, hi := none, slots := 1 }] ∧
     (((k.retire n).wrd r v).retire m).rd r = w ∧ (((k.retire n).wrd r v).retire m).loads = [] ∧
     ∀ q, q ≠ r → ((k.retire n).retire m).rd q = k.rd q)

/-- R255, R274, R275, R276: the synchronous traps. The frame of the return address and SR is written below TSP; SR, TCAUSE, TADDR and the pc
become what the entry says. SYSC returns behind itself, the others to the instruction; no other effect takes place. R278: an entry whose
frame does not lie in the core's memories, or is not aligned, stops the core, gives its sources up and raises its double-fault event;
for core 0 the part enters LOCKOUT with cause 2. -/
def Obligations.CoreTrapsEnter : Prop :=
  (∀ (s : State) (c : CoreId) (p : Pred) (ra : Nat),
     let k := s.dev.co c
     let taken := fun (t : Trap) (taddr : Word) => s.after (s.dev.trapTaken c ra t k.pc taddr false)
     k.loads = [] →
     (∀ code, k.EntersAt c 12 ra → s.dev.Runs32 c p [] [] →
       exec (.sysc c p code) s = s.after (s.dev.trapTaken c ra .sysc (k.pc + 4) 0 false)) ∧
     (k.EntersAt c 13 ra → s.dev.Runs16 c [] [] → s.dev.breakHalts c = false → exec (.bkpt c) s = taken .bkpt 0) ∧
     (k.EntersAt c 1 ra → s.dev.Runs16 c [] [] → exec (.illegalInstruction c) s = taken .illegal 0) ∧
     (k.EntersAt c 1 ra → s.dev.Meets32 c p [] [] →
       (∀ rs o, exec (.cmpEq c p 0 rs o) s = taken .illegal 0) ∧ (∀ r v, exec (.coreDstep c p r r v) s = taken .illegal 0) ∧
       (∀ rd rs rt (ct : Bool), rd.getLsbD 0 = true → exec (.mulds c p rd rs rt ct) s = taken .illegal 0) ∧
       (∀ rd (n : BitVec 8), 9 < n.toNat → exec (.mfsr c p rd n) s = taken .illegal 0 ∧ exec (.mtsr c p rd n) s = taken .illegal 0)) ∧
     (k.EntersAt c 2 ra → k.sys = false → s.dev.Meets32 c p [] [] →
       exec (.rete c p) s = taken .privilege 0 ∧
       (∀ rd (n : BitVec 8), 1 ≤ n.toNat → n.toNat ≤ 5 → exec (.mfsr c p rd n) s = taken .privilege 0) ∧
       (∀ rd (n : BitVec 8), n.toNat < 8 → exec (.mtsr c p rd n) s = taken .privilege 0)) ∧
     (k.EntersAt c 3 ra → s.dev.coreReady c = true → k.fetchable k.pc = false →
       ∀ i ∈ ([.nop c, .wait c, .ret c, .coreMov c 0 1, .acclr c p 0, .rete c p, .illegalInstruction c] : List Instr),
         exec i s = taken .fetch k.pc) ∧
     (∀ (size : BitVec 2) r a (mode : BitVec 3) opd, s.dev.Runs32 c p [] [r, r ||| 1, indexReg opd] →
       let x := k.access size r a mode false opd
       (k.EntersAt c 5 ra → x.addr.toNat % 2 ^ size.toNat ≠ 0 →
         (memLegal false size r mode false opd = true → exec (.load c (.long p size r a mode false opd)) s = taken .misaligned x.addr) ∧
         (memLegal true size r mode false opd = true → exec (.store c (.long p size r a mode false opd)) s = taken .misaligned x.addr)) ∧
       (k.EntersAt c 4 ra → x.addr.toNat % 2 ^ size.toNat = 0 → x.addr.toNat / 0x01000000 = 8 → ownTcm c x.addr.toNat = none →
         (memLegal false size r mode false opd = true → exec (.load c (.long p size r a mode false opd)) s = taken .bus x.addr) ∧
         (memLegal true size r mode false opd = true → exec (.store c (.long p size r a mode false opd)) s = taken .bus x.addr))) ∧
     (∀ n x y, k.EntersAt c 6 ra → s.dev.Runs32 c p [] [] → (k.ra (BitVec.setWidth 3 (x : BitVec 2))).toNat % 4 ≠ 0 →
       exec (.macH2 c p n x y) s = taken .mac (k.ra (x.setWidth 3)))) ∧
  (∀ (s : State) (c : CoreId), s.dev.Runs32 c ⟨0, false⟩ [] [] →
     (s.dev.co c).loads = [] → (ownTcm c ((s.dev.co c).tsp - 8).toNat = none ∨ ((s.dev.co c).tsp - 8).toNat % 8 ≠ 0) →
     let d := ((s.dev.setCo c { s.dev.co c with mode := .dead }).dropOwner c.val).raise (0x30 + c.val)
     exec (.sysc c ⟨0, false⟩ 0) s = s.after (if c = 0 then { d with fatal := some 2 } else d))

/-- R245, R255, R272, R287: system registers. MFSR reads, MTSR writes the writable bits; a 1 written to SEC clears it, and nothing
sets it; read-only registers stay. What a read of CYCL adds for stalls and waiting is free (log entry 7). -/
def Obligations.SystemRegisters : Prop :=
  ∀ (s : State) (c : CoreId) (p : Pred) (r : DReg), s.dev.Runs32 c p [] [r] →
    let k := s.dev.co c
    let v := k.rd r
    let read := fun w => s.after (s.dev.setCo c ((k.wrd r w).advance 4 1))
    let written := fun k : CoreState => s.after (s.dev.setCo c (k.advance 4 1))
    (k.sys = true →
      exec (.mfsr c p r 1) s = read k.cfg ∧ exec (.mfsr c p r 2) s = read k.vtb ∧ exec (.mfsr c p r 3) s = read k.tcause ∧
      exec (.mfsr c p r 4) s = read k.taddr ∧ exec (.mfsr c p r 5) s = read k.tsp ∧
      exec (.mtsr c p r 0) s = written { k with sr := (k.sr &&& 0x50FFFFFF ||| v &&& 0xAF000000) &&& ~~~(v &&& 0x40000000) } ∧
      exec (.mtsr c p r 1) s = written { k with cfg := v &&& 3 } ∧ exec (.mtsr c p r 2) s = written { k with vtb := v &&& 0xFFFFF000 } ∧
      (∀ n ∈ ([3, 4, 6, 7] : List (BitVec 8)), exec (.mtsr c p r n) s = written k) ∧
      exec (.mtsr c p r 5) s = written { k with tsp := v }) ∧
    exec (.mfsr c p r 0) s = read (setBits k.sr 20 16 k.rs.length) ∧ exec (.mfsr c p r 7) s = read k.cych ∧
    exec (.mfsr c p r 8) s = read k.fpcr ∧ exec (.mfsr c p r 9) s = read k.fpsr ∧
    (let t := k.cyc + Config.freeWord s.dev.free
     exec (.mfsr c p r 6) s = s.after ({ s.dev with free := s.dev.free + 1 }.setCo c
       (({ k with cyc := t, cych := (t >>> 32).setWidth 32 }.wrd r (t.setWidth 32)).advance 4 1))) ∧
    exec (.mtsr c p r 8) s = written { k with fpcr := v &&& 0x1F07 } ∧ exec (.mtsr c p r 9) s = written { k with fpsr := v &&& 0x1F1F }

/-- R275, R277, R303, R304, R305: event entry, the imprecise trap and RETE. An entry claims the core's offer above LVL, writes the frame and
sets LVL to the source's priority; an offer above that priority which comes before the handler's first instruction takes the entry over:
the earlier source is pending again, the frame stays. RETE restores pc, SYS, IE and LVL from the frame, never sets SEC, and frees the
frame; with an offer above the saved level it enters that source's handler in the same frame instead, but not in the delay slot of a
load (R264). That the earlier source is judged by the order of the commands is the model's reading (log entry 18). -/
def Obligations.EventEntryAndReturn : Prop :=
  ∀ (s : State) (c : CoreId),
    let d := s.dev
    let k := d.co c
    (∀ n ra, d.coreReady c = true → k.ie = true → k.loads = [] → d.offer c.val = some n → k.lvl < d.fld (R.EVC_SRC_PRIO n) →
      k.entering = none → k.EntersAt c (32 + n) ra → d.preEnabled c = false →
      let e := ((((d.setPend n false).setAct n true).setOwner n c.val).setWord32 ra k.pc).setWord32 (ra + 4) k.srWord
      exec (.eventEntry c) s = s.after (e.setCo c { k with
        tsp := k.tsp - 8, sr := setBit (setBits k.sr 27 24 (d.fld (R.EVC_SRC_PRIO n))) 31 true, pc := k.vector (32 + n), cyc := k.cyc + 6,
        entering := some n })) ∧
    (∀ n old, d.coreReady c = true → k.ie = true → k.inSlots = false → d.offer c.val = some n → k.lvl < d.fld (R.EVC_SRC_PRIO n) →
      k.entering = some old → k.fetchable (k.vector (32 + n)) = true → d.preEnabled c = false →
      let e := ((d.setPend n false).setAct n true).setOwner n c.val
      let e := (((e.setAct old false).setOwner old 5).setPend old true).askHost old
      exec (.eventEntry c) s = s.after (e.setCo c
        { ({ k with entering := some n }.setLvl (d.fld (R.EVC_SRC_PRIO n))) with pc := k.vector (32 + n) })) ∧
    (∀ n a r ra, k.impr = (n, a) :: r → (n = 9 ∨ n = 10 ∨ n = 4) → k.due = none → k.halted = false → (k.mode = .run ∨ k.mode = .wait) → k.loads = [] →
      k.EntersAt c n.toNat ra →
      exec (.impreciseTrap c) s =
        s.after ((d.setCo c { k with impr := r, mode := .run }).trapTaken c ra (trapOf n) k.pc a true)) ∧
    (∀ p ra, d.Runs32 c p [] [] → k.sys = true → k.tsp.toNat % 8 = 0 → ownTcm c k.tsp.toNat = some ra →
      let sr := d.word32 (ra + 4)
      ((sr.getLsbD 29 = false ∨ (k.retire 4).inSlots = true ∨ d.offerAbove c (bits sr.toNat 27 24) = none) →
        exec (.rete c p) s = s.after (d.setCo c ({ k with
          sr := setBit (sr &&& 0xAF000000) 30 (k.sec && sr.getLsbD 30), tsp := k.tsp + 8 }.jump (d.word32 ra) 4))) ∧
      (∀ n, sr.getLsbD 29 = true → (k.retire 4).inSlots = false → d.offer c.val = some n → bits sr.toNat 27 24 < d.fld (R.EVC_SRC_PRIO n) →
        k.fetchable (k.vector (32 + n)) = true → d.preEnabled c = false →
        exec (.rete c p) s = s.after ((((d.setPend n false).setAct n true).setOwner n c.val).setCo c
          { ((k.retire 4).setLvl (d.fld (R.EVC_SRC_PRIO n))).setIe true with pc := k.vector (32 + n) })))

/-! Array instructions. -/

/-- R73, R75, R85, R99, R132, R203: an accepted array instruction under its opcode: when others wait before it, it is queued and logged
with the words that it was checked with, and its core goes on. -/
def Obligations.ArrayInstructionsQueue : Prop :=
  (∀ e ∈ ([(Instr.mov, 0x00), (Instr.not, 0x01), (Instr.and, 0x02), (Instr.or, 0x03), (Instr.xor, 0x04), (Instr.andn, 0x05),
      (Instr.set, 0x06), (Instr.clr, 0x07), (Instr.movs, 0x08), (Instr.add, 0x10), (Instr.adc, 0x11), (Instr.sub, 0x12),
      (Instr.sbc, 0x13), (Instr.addsu, 0x14), (Instr.addss, 0x15), (Instr.subsu, 0x16), (Instr.subss, 0x17), (Instr.neg, 0x18),
      (Instr.cmpeq, 0x19), (Instr.cmpltu, 0x1A), (Instr.cmplts, 0x1B), (Instr.minu, 0x1C), (Instr.maxu, 0x1D), (Instr.mins, 0x1E),
      (Instr.maxs, 0x1F), (Instr.mulu, 0x20), (Instr.muls, 0x21), (Instr.dstep, 0x22), (Instr.getn, 0x30), (Instr.gets, 0x31),
      (Instr.gete, 0x32), (Instr.getw, 0x33), (Instr.xgetn, 0x34), (Instr.xgets, 0x35), (Instr.xgete, 0x36), (Instr.xgetw, 0x37),
      (Instr.sel, 0x38), (Instr.seln, 0x39)] ++
     [((Instr.shl · false), 0x28), ((Instr.shl · true), 0x2C), ((Instr.shru · false), 0x29), ((Instr.shru · true), 0x2D), ((Instr.shrs · false), 0x2A),
      ((Instr.shrs · true), 0x2E), ((Instr.rol · false), 0x2B), ((Instr.rol · true), 0x2F), (Instr.actall, 0x40), (Instr.actld, 0x41),
      (Instr.actpush, 0x42), (Instr.actpushn, 0x43), (Instr.actpop, 0x44), (Instr.actelse, 0x45), (Instr.lookup, 0x48),
      (Instr.agor, 0x50), (Instr.agorB, 0x51), (Instr.hor, 0x52), (Instr.horB, 0x53), (Instr.faddH, 0x58), (Instr.fsubH, 0x59),
      (Instr.fmulH, 0x5A), (Instr.fmaH, 0x5B), (Instr.fceqH, 0x5C), (Instr.fcltH, 0x5D), (Instr.fcleH, 0x5E), (Instr.fcvtSH, 0x5F),
      (Instr.faddS, 0x60), (Instr.fsubS, 0x61), (Instr.fmulS, 0x62), (Instr.fmaS, 0x63), (Instr.fceqS, 0x64), (Instr.fcltS, 0x65),
      (Instr.fcleS, 0x66), (Instr.fcvtHS, 0x67), (Instr.fcvtHI, 0x68), (Instr.fcvtSI, 0x69), (Instr.fcvtIH, 0x6A), (Instr.fcvtIS, 0x6B),
      (Instr.strin, 0x6C), (Instr.strout, 0x6D), (Instr.milestone, 0x6E), (Instr.amode, 0x6F)] : List ((AOp → Instr) × Nat)),
    ∀ (s : State) (a : AOp), s.dev.Accepts e.2 a → (s.dev.st a.core).jobs ≠ [] →
      exec (e.1 a) s = s.after (s.dev.accepted e.2 a) ∧
      ((s.dev.accepted e.2 a).st a.core).jobs = (s.dev.st a.core).jobs ++ [s.dev.makeJob a.core e.2 a] ∧
      ((s.dev.accepted e.2 a).st a.core).log = (s.dev.st a.core).log ++ [s.dev.makeJob a.core e.2 a]) ∧
  (∀ (s : State) (n : BitVec 4) (a : AOp), s.dev.Accepts (0x70 + n.toNat) a → (s.dev.st a.core).jobs ≠ [] →
    exec (.customerOpcode n a) s = s.after (s.dev.accepted (0x70 + n.toNat) a))

/-- R75, R85, R86, R89, R107 to R113: an integer or logic instruction that an idle stream begins does its own work in every row of the
stream's halls at once; shift counts of 32 and more have opcodes of their own. -/
def Obligations.ArrayIntegerInstructionsRun : Prop :=
  ∀ e ∈ ([(Instr.mov, 0x00), (Instr.not, 0x01), (Instr.and, 0x02), (Instr.or, 0x03), (Instr.xor, 0x04), (Instr.andn, 0x05),
      (Instr.set, 0x06), (Instr.clr, 0x07), (Instr.movs, 0x08), (Instr.add, 0x10), (Instr.adc, 0x11), (Instr.sub, 0x12),
      (Instr.sbc, 0x13), (Instr.addsu, 0x14), (Instr.addss, 0x15), (Instr.subsu, 0x16), (Instr.subss, 0x17), (Instr.neg, 0x18),
      (Instr.cmpeq, 0x19), (Instr.cmpltu, 0x1A), (Instr.cmplts, 0x1B), (Instr.minu, 0x1C), (Instr.maxu, 0x1D), (Instr.mins, 0x1E),
      (Instr.maxs, 0x1F), (Instr.mulu, 0x20), (Instr.muls, 0x21), (Instr.sel, 0x38), (Instr.seln, 0x39), ((Instr.shl · false), 0x28),
      ((Instr.shl · true), 0x2C), ((Instr.shru · false), 0x29), ((Instr.shru · true), 0x2D), ((Instr.shrs · false), 0x2A), ((Instr.shrs · true), 0x2E),
      ((Instr.rol · false), 0x2B), ((Instr.rol · true), 0x2F)] : List ((AOp → Instr) × Nat)),
    ∀ (s : State) (a : AOp), s.dev.Begins e.2 a →
      let j := s.dev.makeJob a.core e.2 a
      let d := s.dev.started e.2 a
      let count := if 0x2C ≤ e.2 ∧ e.2 ≤ 0x2F then a.sb.toNat + 32 else a.sb.toNat
      exec (e.1 a) s = s.after (((d.everyRow a.core (fun g d _ p row => d.rowInt j count g p row)).vendorMicro a.core j).charge a.core
        (d.jobCost a.core j))

/-- R88, R90, R93, R95, R99, R112, R124: the other instructions of the PEs in every row: the division step, neighbour transfers with
their Ramufin tokens, activity, table lookup. -/
def Obligations.ArrayDataMovementRuns : Prop :=
  ∀ (s : State) (a : AOp),
    let run := fun (opc : Nat) (f : Job → Nat → Dev → Nat → Nat → Nat → Dev) =>
      let j := s.dev.makeJob a.core opc a
      let d := s.dev.started opc a
      ((d.everyRow a.core (f j)).vendorMicro a.core j).charge a.core (d.jobCost a.core j)
    (s.dev.Begins 0x22 a → exec (.dstep a) s = s.after (run 0x22 (fun j g d _ p row => d.rowDstep j g p row))) ∧
    (s.dev.Begins 0x48 a → exec (.lookup a) s = s.after (run 0x48 (fun j g d _ p row => d.rowLookup j g p row))) ∧
    (∀ e ∈ ([(Instr.actall, 0x40), (Instr.actld, 0x41), (Instr.actpush, 0x42), (Instr.actpushn, 0x43), (Instr.actpop, 0x44),
        (Instr.actelse, 0x45)] : List ((AOp → Instr) × Nat)),
      s.dev.Begins e.2 a → exec (e.1 a) s = s.after (run e.2 (fun j _ d _ p row => d.rowAct j p row))) ∧
    (∀ e ∈ ([(Instr.getn, 0x30), (Instr.gets, 0x31), (Instr.gete, 0x32), (Instr.getw, 0x33), (Instr.xgetn, 0x34), (Instr.xgets, 0x35),
        (Instr.xgete, 0x36), (Instr.xgetw, 0x37)] : List ((AOp → Instr) × Nat)),
      ∀ toks,
        let j := s.dev.makeJob a.core e.2 a
        let d := s.dev.started e.2 a
        s.dev.Begins e.2 a → d.jobTokens a.core j = some toks →
        exec (e.1 a) s = s.after ((((d.everyRow a.core (fun _ d' h p row => d'.rowGet (d.twinStream a.core) a.core j toks h p row)).useTokens
          a.core (dirOf (e.2 - 0x30)) (descWidth j.dD.1) (d.ownTokens a.core j)).vendorMicro a.core j).charge a.core (d.jobCost a.core j)))

/-- R69, R97, R99, R117, R124: the floating-point instructions and the OR instructions: their rows, and the sample of the halls' bits
that the instruction leaves on its way to its core. -/
def Obligations.ArraySamplesAndFloatRun : Prop :=
  ∀ (s : State) (a : AOp),
    let sampled := fun (opc : Nat) (use : SmpUse) (barrier : Bool) (bit : Dev → Job → Nat → Bool) (f : Job → Nat → Dev → Nat → Nat → Nat → Dev) =>
      let j := s.dev.makeJob a.core opc a
      let d := s.dev.started opc a
      let bits := (d.streamHalls a.core).foldl (fun v h => setBit v h (bit d j (d.phys h))) (0 : BitVec 16)
      ((d.everyRow a.core (f j)).vendorMicro a.core j).modSt a.core (fun x => { x with
        span := x.span + d.jobCost a.core j, smp := some ⟨use, bits, d.halls16 a.core, 0, barrier, j.idx, false, []⟩ })
    (∀ e ∈ ([(Instr.agor, 0x50, false, false), (Instr.agorB, 0x51, false, true), (Instr.hor, 0x52, true, false),
        (Instr.horB, 0x53, true, true)] : List ((AOp → Instr) × Nat × Bool × Bool)),
      s.dev.Begins e.2.1 a → exec (e.1 a) s = s.after (sampled e.2.1
        (if e.2.2.1 then .toData a.core a.sd else .toPred a.core a.sd) e.2.2.2 (fun d j p => d.hallOr j p)
        (fun j g d _ p row => (d.accountField p row (fieldAddrs j.dA.1) .ra).looseCarry p row g))) ∧
    (∀ e ∈ ([(Instr.faddH, 0x58), (Instr.fsubH, 0x59), (Instr.fmulH, 0x5A), (Instr.fmaH, 0x5B), (Instr.fceqH, 0x5C), (Instr.fcltH, 0x5D),
        (Instr.fcleH, 0x5E), (Instr.fcvtSH, 0x5F), (Instr.faddS, 0x60), (Instr.fsubS, 0x61), (Instr.fmulS, 0x62), (Instr.fmaS, 0x63),
        (Instr.fceqS, 0x64), (Instr.fcltS, 0x65), (Instr.fcleS, 0x66), (Instr.fcvtHS, 0x67), (Instr.fcvtHI, 0x68), (Instr.fcvtSI, 0x69),
        (Instr.fcvtIH, 0x6A), (Instr.fcvtIS, 0x6B)] : List ((AOp → Instr) × Nat)),
      s.dev.Begins e.2 a → exec (e.1 a) s = s.after (sampled e.2
        (.toFlag ((s.dev.reg (R.SEQ_FPCTL a.core)).getLsbD 9) (BitVec.ofNat 7 e.2)) false (fun d j p => d.hallFlags j p)
        (fun j g d _ p row => d.rowFp j g p row)))

/-- R77, R85, R102, R105, R106, R166, R176: the instructions that act outside the PEs: AFD loads a descriptor at its acceptance, AMODE
changes the mode, MILESTONE and the transfers occupy the stream until their reports, a customer opcode enters its microroutine. -/
def Obligations.ArrayControlInstructionsRun : Prop :=
  ∀ (s : State) (a : AOp),
    let k := s.dev.co a.core
    let loaded := fun a : AOp => descLoad (k.rd (a.sa.setWidth 4)) (k.rd (a.sb.setWidth 4))
    (s.dev.Accepts 0x4C a → exec (.afd a) s = s.after
      ((s.dev.modSt a.core (fun x => { x with desc := x.desc.set a.sd.toNat (loaded a) a.sd.isLt })).setCo a.core (k.advance 4 1))) ∧
    (s.dev.Begins 0x6F a → exec (.amode a) s =
      s.after ((s.dev.started 0x6F a).modSt a.core (fun x => { x with ct := a.sd = 1 }))) ∧
    (s.dev.Begins 0x6E a → exec (.milestone a) s =
      let j := s.dev.makeJob a.core 0x6E a
      s.after ((((s.dev.started 0x6E a).twinStream a.core.val).vendorMicro a.core j).modSt a.core (fun x => { x with run := .mstone j 0 }))) ∧
    (∀ e ∈ ([(Instr.strin, 0x6C), (Instr.strout, 0x6D)] : List ((AOp → Instr) × Nat)), s.dev.Begins e.2 a →
      let j := s.dev.makeJob a.core e.2 a
      let d := s.dev.started e.2 a
      exec (e.1 a) s = s.after ((((d.twinStream a.core.val).vendorMicro a.core j).modSt a.core (fun x => { x with
        run := .xfer j 0 0, span := x.span + d.jobCost a.core j })).openChan a.core a.sb.toNat)) ∧
    (∀ n : BitVec 4, s.dev.Accepts (0x70 + n.toNat) a → (s.dev.st a.core).jobs = [] →
      let j := s.dev.makeJob a.core (0x70 + n.toNat) a
      (s.dev.accepted (0x70 + n.toNat) a).canStart a.core j = true →
      exec (.customerOpcode n a) s = s.after ((s.dev.started (0x70 + n.toNat) a).modSt a.core (fun x =>
        { x with run := .micro j, micro := x.micro.enter (BitVec.ofNat 13 (0x1E00 + bits (s.dev.reg (R.SEQ_CDT n.toNat)).toNat 8 0)) })))

/-- R20, R74, R103, R275, R279: what keeps an array instruction from the queue. A false condition costs a cycle; a core without a stream
takes the illegal-instruction trap; a refusal is recorded and takes the array-fault trap at the instruction; a reserved opcode is
refused with code 0x01. -/
def Obligations.ArrayRefusalsTrap : Prop :=
  ∀ (s : State) (a : AOp) (ra : Nat), (s.dev.co a.core).loads = [] →
    let d := s.dev
    let c := a.core
    let k := d.co c
    let some2 : List ((AOp → Instr) × Nat) := [(Instr.add, 0x10), (Instr.mulu, 0x20), (Instr.agor, 0x50), (Instr.faddH, 0x58),
      (Instr.actpush, 0x42), (Instr.lookup, 0x48), (Instr.strin, 0x6C), (Instr.milestone, 0x6E), (Instr.amode, 0x6F), (Instr.afd, 0x4C)]
    (∀ e ∈ some2,
      (d.Offers e.2 a → k.EntersAt c 9 ra → ∀ code n v, d.judge c (d.makeJob c e.2 a) = .refuse code n v →
        exec (e.1 a) s = s.after ((d.arrayFault c e.2 code n v).trapTaken c ra .array k.pc 0 false)) ∧
      (d.Meets32 c a.pred [] [] → d.ownsStream c = false → k.EntersAt c 1 ra →
        exec (e.1 a) s = s.after (d.trapTaken c ra .illegal k.pc 0 false)) ∧
      (d.Meets32 c a.pred [] [] → d.ownsStream c = true → k.holds a.pred = false →
        exec (e.1 a) s = s.after (d.setCo c (k.advance 4 1)))) ∧
    (∀ opc : BitVec 7, opc.toNat < 0x70 → vendorSlots opc.toNat = none →
      d.Offers opc.toNat a → k.EntersAt c 9 ra → d.arr.quiesce = false → (d.st c).rehold = [] → d.underTest c = false →
      d.blockCode c = none →
      exec (.reservedArrayOpcode opc a) s = s.after ((d.arrayFault c opc.toNat 1 0 0).trapTaken c ra .array k.pc 0 false))

/-- R85, R107 to R111: what the integer instructions compute in one PE, on field values of at most the destination's width. R140: the micro-
operations of a PE. Every lane of a LOGIC result is the bit of the truth table that its a, b and C select, and the carry rules are the
majority, the result, a, 0, 1 and C itself. -/
def Obligations.LaneArithmetic : Prop :=
  (∀ (i : LaneIn) (k : Nat), i.a < 2 ^ i.wd → i.b < 2 ^ i.wd → 0 < i.wd → i.wa = i.wd → i.wb = i.wd →
     let w : Int := 2 ^ i.wd
     let s := fun x : Nat => sval i.wd x
     let clamp := fun x : Int => if x < -(2 ^ (i.wd - 1)) then -(2 ^ (i.wd - 1)) else if 2 ^ (i.wd - 1) ≤ x then 2 ^ (i.wd - 1) - 1 else x
     let d := fun o : Nat => ((laneInt o k i).d : Int)
     let c := fun o : Nat => (laneInt o k i).c
     (∀ x : Nat, x < 2 ^ i.wd → s x % w = x ∧ -(2 ^ (i.wd - 1)) ≤ s x ∧ s x < 2 ^ (i.wd - 1)) ∧
     (d 0x10 = (i.a + i.b) % w ∧ c 0x10 = some (decide (w ≤ i.a + i.b))) ∧
     (d 0x11 = (i.a + i.b + bn i.c) % w ∧ c 0x11 = some (decide (w ≤ i.a + i.b + bn i.c))) ∧
     (d 0x12 = (i.a - i.b) % w ∧ c 0x12 = some (decide (i.b ≤ i.a))) ∧
     (d 0x13 = (i.a - i.b - 1 + bn i.c) % w ∧ c 0x13 = some (decide (i.b < i.a + bn i.c))) ∧
     (d 0x18 = -(i.a : Int) % w ∧ c 0x18 = some (decide (i.a = 0))) ∧
     d 0x14 = min (w - 1) (i.a + i.b) ∧ d 0x16 = max 0 ((i.a : Int) - i.b) ∧
     s (laneInt 0x15 k i).d = clamp (s i.a + s i.b) ∧ s (laneInt 0x17 k i).d = clamp (s i.a - s i.b) ∧
     d 0x1C = min i.a i.b ∧ d 0x1D = max i.a i.b ∧
     s (laneInt 0x1E k i).d = min (s i.a) (s i.b) ∧ s (laneInt 0x1F k i).d = max (s i.a) (s i.b) ∧
     d 0x19 = bn (i.a = i.b) ∧ d 0x1A = bn (i.a < i.b) ∧ d 0x1B = bn (s i.a < s i.b) ∧
     d 0x01 = w - 1 - i.a ∧ (laneInt 0x05 k i).d = i.a &&& (2 ^ i.wd - 1 - i.b) ∧
     d 0x20 = i.a * i.b % w ∧ d 0x21 = s i.a * s i.b % w) ∧
  (∀ (tt : Nat) (a b c r : BitVec 64) (l : Nat), l < 64 →
     (ttPlane tt a b c).getLsbD l = tt.testBit (4 * bn (a.getLsbD l) + 2 * bn (b.getLsbD l) + bn (c.getLsbD l)) ∧
     (carryRule 1 a b c r).getLsbD l = decide (2 ≤ bn (a.getLsbD l) + bn (b.getLsbD l) + bn (c.getLsbD l)) ∧
     (carryRule 0 a b c r).getLsbD l = c.getLsbD l ∧ (carryRule 2 a b c r).getLsbD l = r.getLsbD l ∧
     (carryRule 3 a b c r).getLsbD l = a.getLsbD l ∧ (carryRule 4 a b c r).getLsbD l = false ∧ (carryRule 5 a b c r).getLsbD l = true)

/-- R284, R285: dividing with a core's DSTEP. While the remainder starts below the divisor, 32 steps divide the 64-bit value, and every step
keeps the remainder below the divisor; with a divisor of 0 and a remainder of 0 they leave all ones and the dividend. R88, R113:
dividing with DSTEP. While the remainder starts below the divisor, wb steps leave the quotient and the remainder of the remainder and
dividend taken together, and every step keeps the remainder below the divisor; with a divisor of 0 and a remainder of 0 they leave all
ones and the dividend modulo 2^wd. -/
def Obligations.StepsDivide : Prop :=
  (∀ (r q v : Word),
     let step := fun p : Word × Word => divStep p.1 p.2 v
     let n := r.toNat * 2 ^ 32 + q.toNat
     (r.toNat < v.toNat → Nat.repeat step 32 (r, q) = (BitVec.ofNat 32 (n % v.toNat), BitVec.ofNat 32 (n / v.toNat)) ∧
       n / v.toNat < 2 ^ 32 ∧ ∀ k, (Nat.repeat step k (r, q)).1.toNat < v.toNat) ∧
     (r = 0 → v = 0 → Nat.repeat step 32 (r, q) = (q, 0xFFFFFFFF))) ∧
  (∀ (wa wb a b r : Nat), 0 < wa → 0 < wb → a < 2 ^ wa → b < 2 ^ wb →
     let step := fun p : Nat × Nat => laneDstep ⟨wa + 1, wa, wb, a, p.2, p.1, false⟩
     (r < a → Nat.repeat step wb (r, b) = ((r * 2 ^ wb + b) % a, (r * 2 ^ wb + b) / a) ∧
       ∀ n, (Nat.repeat step n (r, b)).1 < a) ∧
     (a = 0 → Nat.repeat step wb (0, b) = (b % 2 ^ (wa + 1), 2 ^ wb - 1)))

/-- R49 to R51: the row word's code. What a write encodes decodes to itself; any one inverted bit, lane or check, is put right; any two are
found uncorrectable. R183: the gallery's words. A word with no wrong bit and one with one wrong bit, data or check, read as they were
written; two wrong bits are found. -/
def Obligations.CodesCorrectOneBit : Prop :=
  (∀ (x : BitVec 64) (i j : Nat), i < 72 → j < 72 → i ≠ j →
     let w := rowEncode x
     let flip := fun n => BitVec.ofNat 72 (2 ^ n)
     w.setWidth 64 = x ∧ rowDecode none w = ⟨w, [], false⟩ ∧ rowDecode none (w ^^^ flip i) = ⟨w, [i], false⟩ ∧
     rowDecode none ((w ^^^ flip i) ^^^ flip j) = ⟨(w ^^^ flip i) ^^^ flip j, [], true⟩) ∧
  (∀ (beyond : BitVec 72 → Nat) (v : BitVec 64) (i j : Nat), i < 72 → j < 72 → i ≠ j →
     secdedRead beyond v 0 = (v, .good) ∧ secdedRead beyond v (BitVec.ofNat 72 (2 ^ i)) = (v, .corrected) ∧
     (secdedRead beyond v (BitVec.ofNat 72 (2 ^ i + 2 ^ j))).2 = .uncorrectable)

/-- R56: steering. A column of the list serves nothing; any other column p serves the logical column p less the number of retired columns
below it, or none past 71; every logical column is served by exactly one column. Reading back what was written through any set of up
to four retired columns gives the logical row word. -/
def Obligations.SteeringRoundTrip : Prop :=
  ∀ (ret : List Nat) (w : BitVec 72), ret.Pairwise (· < ·) → ret.length ≤ 4 → (∀ r ∈ ret, r < 76) →
    let serves := fun p : Nat => p - (ret.filter (· < p)).length
    steerIn ret (steerOut ret w) = w ∧ (∀ r ∈ ret, (steerOut ret w).getLsbD r = false ∧ servedCol ret r = none) ∧
    (∀ p, p < 76 → p ∉ ret → (serves p ≤ 71 → servedCol ret p = some (serves p) ∧ (steerOut ret w).getLsbD p = w.getLsbD (serves p)) ∧
      (71 < serves p → servedCol ret p = none ∧ (steerOut ret w).getLsbD p = false)) ∧
    ∀ j, j < 72 → physCol ret j ∉ ret ∧ physCol ret j < 76 ∧ serves (physCol ret j) = j ∧
      ∀ p, p < 76 → p ∉ ret → serves p = j → p = physCol ret j

/-! Registers and commits. -/

/-- R3, R6, R7, R15, R319: register commands. A word written to a window whose registers start nothing is performed by the field types; a
locked LK field raises LKERR; the lock closes for good; reserved offsets and the mirror are ignored; other sizes are refused. R3, R4,
R15: what a write does to a register whose fields share no bit, bit by bit: RW takes the value, W1C and W1S act on the bits written 1,
LK takes it while the lock is open, the rest stay; an ST field takes it in its staged copy alone. No other register, and nothing else,
changes. -/
def Obligations.RegisterWritesAndLocks : Prop :=
  (∀ (s : State) (r : Requester) (b : Block) (a : Nat) (v : Word), a < 2 ^ 40 →
     let d := s.dev
     (d.Writes r b a v → (b = .line ∨ b = .ddr ∨ b = .link ∨ b = .sec ∨ ∃ h, b = .hall h) → a - blockBase b < 0x7FF0 →
       ∀ x, regIn b (a - blockBase b) = some x →
       let t := d.drawn.writeFields b a x.fields v
       exec (.registerWrite r (BitVec.ofNat 40 a) 4 v) s =
         s.wrote (if d.lockHit b x.fields then t.setFlag ⟨cstatAddr b, 3, 3⟩ true else t)) ∧
     (a = lockAddr b → d.Writes r b a 1 → hasCommit b = true →
       exec (.lock r b) s = s.wrote (d.drawn.setReg a (d.reg a ||| 1))) ∧
     (∀ node n, nodeOfAddr d.chipId a = some node → d.Carries (d.who r) node → inWindows a = true → d.place a = some (.window b (a - blockBase b)) →
       (0x8000 ≤ a - blockBase b ∨ regIn b (a - blockBase b) = none) → (a - blockBase b) % 4 = 0 → a ≠ R.DBG_MDATA → blockBase b ≤ a →
       (n = 4 → exec (.registerWrite r (BitVec.ofNat 40 a) n v) s = s.wrote d.drawn) ∧
       (n ≠ 4 → (d.who r).node < 4 → (d.co (d.who r).coreId).mode = .run →
         exec (.registerWrite r (BitVec.ofNat 40 a) n v) s =
           s.after ((d.drawn.respond 2 []).modCo (d.who r).coreId (fun k => { k with impr := k.impr ++ [(4, BitVec.ofNat 32 a)] }))))) ∧
  (∀ (d : Dev) (b : Block) (a : Nat) (fs : List FieldDesc) (v : Word),
     fs.Pairwise (fun f g => f.hi < g.lo ∨ g.hi < f.lo) → (∀ f ∈ fs, f.lo ≤ f.hi ∧ f.hi < 32) →
     let t := d.writeFields b a fs v
     (∀ f ∈ fs, ∀ i, f.lo ≤ i → i ≤ f.hi →
       let old := (d.reg a).getLsbD i
       let new := v.getLsbD i
       (t.reg a).getLsbD i =
         (if f.ty = .rw then new else if f.ty = .w1c then old && !new else if f.ty = .w1s then old || new
           else if f.ty = .lk then (if d.locked b then old else new) else old) ∧
       (bankGet regReset t.staged a).getLsbD i = (if f.ty = .st then new else (bankGet regReset d.staged a).getLsbD i)) ∧
     (∀ i, (∀ f ∈ fs, i < f.lo ∨ f.hi < i) → (t.reg a).getLsbD i = (d.reg a).getLsbD i) ∧
     (∀ c, c ≠ a → t.reg c = d.reg c ∧ bankGet regReset t.staged c = bankGet regReset d.staged c) ∧
     { t with regs := d.regs, staged := d.staged } = d)

/-- R10, R12, R13, R14, R171: COMMIT. A busy block and a set that fails a check are refused with the cause, counted and reported; otherwise
the staged values are captured, and the application makes them the active values of the ST fields. A change of SPLIT is applied once the
streams have drained. R13: applying a captured set: in the block's window every ST bit takes the captured value and every other bit
stays; no other register changes, staged values among them. -/
def Obligations.CommitCapturesAndApplies : Prop :=
  (∀ (s : State) (r : Requester) (b : Block),
     let a := blockBase b + 0x7FF0
     let d := s.dev
     let e := d.drawn.writeFields b a [⟨0, 0, .wo, 0⟩] 1
     let stat := cstatAddr b
     let refused := fun (d : Dev) cause =>
       (((d.setFlag ⟨stat, 2, 2⟩ true).setFld ⟨stat, 15, 8⟩ cause).addFld ⟨stat, 31, 16⟩ 1).raise (refusalSource b)
     (d.Writes r b a 1 → hasCommit b = true →
       (d.flag ⟨stat, 1, 1⟩ = true → exec (.commit r b) s = s.wrote (refused e 1)) ∧
       (d.flag ⟨stat, 1, 1⟩ = false → ∀ x, e.commitCause b (d.who r).sec (d.windowStaged b) = some x → exec (.commit r b) s = s.wrote (refused e x)) ∧
       (d.flag ⟨stat, 1, 1⟩ = false → e.commitCause b (d.who r).sec (d.windowStaged b) = none → b ≠ .seq →
         exec (.commit r b) s = s.wrote ((e.setCapture b (d.windowStaged b)).setFlag ⟨stat, 1, 1⟩ true))) ∧
     (∀ c, d.capture? b = some c → d.applyPoint b c = true →
       let done := fun d : Dev => s.after ((d.dropCapture b).setFlag ⟨stat, 1, 1⟩ false)
       (b = .ddr → (d.applySet b c).flag R.DDR_CFG_EN = d.flag R.DDR_CFG_EN → exec (.commitApply b) s = done (d.applySet b c)) ∧
       (b = .line → (d.flag R.LINE_GOVCTL_EN = true → capFlag c R.LINE_GOVCTL_EN = true) → exec (.commitApply b) s = done (d.applySet b c)) ∧
       (∀ h, b = .hall h → exec (.commitApply b) s = done (d.applyHall h c)) ∧
       (b = .stair → exec (.commitApply b) s = done (d.applyStair c)) ∧ (b = .host → exec (.commitApply b) s = done (d.applyHost c))) ∧
     (∀ c, d.capture? .seq = some c → d.arr.quiesce = true → d.drained = true →
       let e := { d with arr := { d.arr with quiesce := false } }
       ((e.splitLast c).or (e.seqChecks c) = none →
         let t := (e.applySeq c).applied .seq
         let t := forEach (List.finRange 4) t (fun t x => if x.val < t.numStreams then t.newStream e x else t)
         exec .splitQuiesced s = s.after (forEach (List.finRange 16) t (fun t h => t.modHq h (fun q => { q with credit := 64, returning := 0 })))) ∧
       (∀ x, (e.splitLast c).or (e.seqChecks c) = some x → exec .splitQuiesced s = s.after ((e.applied .seq).refuseCommit .seq x)))) ∧
  (∀ (d : Dev) (b : Block) (c : List (Nat × Word)) (a : Nat), (∀ p ∈ c, blockBase b ≤ p.1 ∧ p.1 < blockBase b + 0x8000) →
     (blockBase b ≤ a → a < blockBase b + 0x8000 →
       ((d.applySet b c).reg a &&& stMask a) = (bankGet regReset c a &&& stMask a) ∧
       ((d.applySet b c).reg a &&& ~~~stMask a) = (d.reg a &&& ~~~stMask a)) ∧
     (a < blockBase b ∨ blockBase b + 0x8000 ≤ a → (d.applySet b c).reg a = d.reg a) ∧
     { d.applySet b c with regs := d.regs } = d)

/-! The sequencer and the halls. -/

/-- R130 to R133, R135, R136, R144, R147, R149, R151, R160, R161, R202: microroutines. A routine starts at its entry, ADD, whose three
words the spec gives, as well; a microword
with no sequencer operation goes to every hall of the stream, costs each a credit, and the next address is formed; a single wrong bit
of a stored word is corrected and counted, two are uncorrectable; a fault in the fetch or the word, or the routine limit, is recorded with its cause and address, reported,
and abandons the stream's work. -/
def Obligations.MicroroutinesRun : Prop :=
  ∀ (s : State) (x : StreamId), x.val < s.dev.numStreams →
    let d := s.dev
    let m := (d.st x).micro
    let fault := fun (d : Dev) (opc cause : Nat) =>
      let r := if d.flag (R.SEQ_USTAT_VAL x) then d else
        ((d.setFlag (R.SEQ_USTAT_VAL x) true).setFld (R.SEQ_USTAT_UCAUSE x) cause).setFld (R.SEQ_USTAT_UPC x) m.upc.toNat
      ((r.arrayFault x opc 0x0E 0 0).imprecise x .array 0).abandonStream x
    (∀ (a : BitVec 13) (i k : Nat), k < 55 →
      (d.uErrOf a.toNat = BitVec.ofNat 55 (2 ^ k) → d.countMicro x a.toNat = d.addFld (R.SEQ_USTAT_CORR x.val) 1 ∧
        d.storeWord a = ({ d with arr := { d.arr with uErr := [] } } : Dev).storeWord a) ∧
      (i < k → d.uErrOf a.toNat = BitVec.ofNat 55 (2 ^ i + 2 ^ k) → microFind (d.uErrOf a.toNat) = .uncorrectable)) ∧
    (∀ j r, (d.st x).jobs = j :: r → d.canStart x j = true → d.isMicro j = true →
      let entry := if 0x70 ≤ j.opc.toNat then BitVec.ofNat 13 (0x1E00 + bits j.cdt.toNat 8 0) else vendorEntry j.opc
      exec (.routineStart x) s = s.after (d.modSt x (fun y => { y with jobs := r, run := .micro j, micro := y.micro.enter entry }))) ∧
    (∀ j r, (d.st x).jobs = j :: r → j.opc = 0x10 → d.isMicro j = false → d.issueFree x = true →
      exec (.routineStart x) s = s.after (d.modSt x (fun y => { y with jobs := r, run := .micro j, micro := y.micro.enter 0x0120 }))) ∧
    (∀ j, (d.st x).run = .micro j → d.canIssue x = true → m.hold = none →
      let w := d.storeWord (d.served m.upc)
      (d.timedOut x = true → exec (.routineTimeout x) s = s.after (fault d j.opc.toNat 8)) ∧
      (d.timedOut x = false →
        (∀ c, d.fetchFault m = some c → exec (.microwordIssue x) s = s.after (fault d j.opc.toNat c)) ∧
        (d.fetchFault m = none →
          let counted := d.countMicro x (d.served m.upc).toNat
          (∀ c, microFault j m w = some c → exec (.microwordIssue x) s = s.after (fault counted j.opc.toNat c)) ∧
          (microFault j m w = none → mwOp2 w = 0 → mwOp1 w ≠ 1 → mwOp1 w ≠ 2 → j.opc ≠ 0x6E → condOr (mwCond w) = false →
            m.chan = none → d.wordOverEdge x w (mwCyc w) = false →
            (d.st x).span + mwCyc w ≤ d.fld (R.SEQ_SPAN_LIM x) →
            let e := withParity (flightEntry m j w (mwCyc w) false false)
            let sent := counted.forHalls x.val (fun d h => d.modHq h (fun q => { q with transit := q.transit ++ [e], credit := q.credit - 1 }))
            let after := { stepPointers m w (mwCyc w) with
              cycles := (stepPointers m w (mwCyc w)).cycles + mwCyc w, safe := mwSafe w, begun := true, prev := some (d.served m.upc) }
            exec (.microwordIssue x) s = s.after (sent.modSt x (fun y =>
              { y with span := y.span + mwCyc w, micro := nextAddress y.ct j after w }))))))

/-- R159, R160, R162, R163, R165: a hall's flight. An arriving microword enters the flight; an entry that starts gives its credit back,
its parity is checked, and it runs until it stalls; a stall that ends lets it go on; a token time-out is recorded once and gives the
hall that does not answer to the recovery logic. -/
def Obligations.HallsRunTheirFlights : Prop :=
  ∀ (s : State) (h : LHall),
    let d := s.dev
    let q := d.hq h
    let ph := d.phys h.val
    (∀ e r, q.transit = e :: r → q.flight.length < 64 →
      let t := d.modHq h (fun q => { q with transit := r, flight := q.flight ++ [e] })
      exec (.microwordArrive h) s = s.after (if d.fld (R.HALL_FLSTAT_MAXOCC ph) < q.flight.length + 1
        then t.setFld (R.HALL_FLSTAT_MAXOCC ph) (q.flight.length + 1) else t)) ∧
    (0 < q.returning → exec (.creditReturn h) s =
      s.after (d.modHq h (fun q => { q with returning := q.returning - 1, credit := min 64 (q.credit + 1) }))) ∧
    (∀ x, d.stream? (d.streamOf h.val) = some x →
      (∀ e r, q.flight = e :: r → q.run = none → q.repDue = false →
        let w : BitVec 80 := e.setWidth 80
        let n := bits w.toNat 75 72 + 1
        let t := d.countStall h 0 0
        let t := if parityOk e then t else t.tick.upset ph ⟨4, false, 0, 0, 0⟩
        exec (.hallEntryStart h) s = s.after (Dev.runCycles x h n (t.modHq h (fun q => { q with
          flight := r, returning := q.returning + 1,
          run := some ⟨w, n, feAadr w, feBadr w, feWadr w, bits w.toNat 71 59, 5, false⟩ })))) ∧
      (∀ r, q.run = some r →
        (r.stall ≠ 5 → d.cycleStall x h (feOp r.e) r.pushed = none →
          exec (.stallEnd h) s = s.after (Dev.runCycles x h r.left
            ((d.countStall h r.stall 1).modHq h (fun q => { q with run := some { r with stall := 5 } })))) ∧
        (d.cycleStall x h (feOp r.e) r.pushed ≠ none → exec (.stallEnd h) s = s.after (d.pushFor x h r))) ∧
      (∀ (edge : BitVec 2) (f : LHall), d.fld R.SEQ_CTRL_WDOG ≠ 0 → d.edgeEnd x h.val (edge.getLsbD 0) = .hall f.val →
        d.waitsOn x h edge = true → d.signalsStall f = false → ∀ p : HallId, d.phys f.val = p.val →
        let t := if d.flag (R.HALL_FLSTAT_TKTO ph) then d else
          (d.setFlag (R.HALL_FLSTAT_TKTO ph) true).setFld (R.HALL_FLSTAT_TKEDGE ph) edge.toNat
        exec (.tokenTimeout h edge f) s = s.after { t with arr := { t.arr with reports := t.arr.reports ++ [.dead p] } }))

/-- R69 to R71, R97, R98, R125, R166, R167, R203, R204: results and reports. The OR result is formed once every hall has contributed and
released it and no upset waits, goes to the register it is for, and is delivered once; the floating-point trap is taken by the held
core; halls' reports end a transfer and complete a MILESTONE's set. -/
def Obligations.ResultsAndReportsArrive : Prop :=
  ∀ (s : State) (x : StreamId) (h : LHall),
    let d := s.dev
    (d.stream? (d.streamOf h.val) = some x → exec (.orRelease h) s = s.after
      (d.modSt x (fun y => { y with smp := y.smp.map (fun m => { m with release := setBit m.release h.val true }) }))) ∧
    (∀ m, x.val < d.numStreams → (d.st x).smp = some m → (m.contrib &&& d.halls16 x) = d.halls16 x →
      (m.release &&& d.halls16 x) = d.halls16 x → d.upsetPending x = false → (d.st x).smpq = [] →
      let t := d.modSt x (fun y => { y with
        smp := none, smpq := [], micro := { y.micro with hor := m.bits, cval := true, waitOr := false } })
      let mark := fun d : Dev => d.modSt x (fun y => { y with log := y.log.map (fun j => if j.idx = m.idx then { j with delivered := true } else j) })
      (m.use = .latch ∨ m.quiet = true → exec (.orResultFormed x) s = s.after t) ∧
      (m.use ≠ .latch → m.quiet = false →
        exec (.orResultFormed x) s = s.after (mark (forEach m.also (t.deliver x m) (fun t u => t.deliver x { m with use := u })))) ∧
      (∀ c n, m.use = .toPred c n → m.also = [] → m.quiet = false → exec (.orResultFormed x) s = s.after (mark (t.modCo c (fun k =>
        { k with pendP := setBit k.pendP (n.toNat % 8) false }.wrp (n.setWidth 3) (m.bits ≠ 0))))) ∧
      (∀ c n, m.use = .toData c n → m.also = [] → m.quiet = false → exec (.orResultFormed x) s = s.after (mark (t.modCo c (fun k =>
        { k with pendD := setBit k.pendD (n.toNat % 16) false }.wrd (n.setWidth 4) (m.bits.setWidth 32))))) ∧
      (∀ trap opc, m.use = .toFlag trap opc → m.also = [] → m.quiet = false →
        let t := if m.bits ≠ 0 then t.setFlag (R.SEQ_FPST_AF x) true else t
        exec (.orResultFormed x) s = s.after (mark (if trap then t.modSt x (fun y =>
          if m.bits ≠ 0 then { y with fpTrap := some opc } else { y with fpHold := false }) else t)))) ∧
    (∀ opc, (d.st x).fpTrap = some opc → (d.co x).mode = .run → (d.co x).halted = false → (d.co x).impr = [] →
      let t := if d.flag (R.SEQ_FPST_TVAL x) then d else (d.setFld (R.SEQ_FPST_TOPC x) opc.toNat).setFlag (R.SEQ_FPST_TVAL x) true
      exec (.arrayFpTrap x) s = s.after ((t.modSt x (fun y => { y with fpTrap := none, fpHold := false })).trapHere x .arrayFp)) ∧
    (d.stream? (d.streamOf h.val) = some x → d.upsetPending x = false →
      (∀ j rep, (d.st x).run = .mstone j rep → rep.getLsbD h.val = false → ¬(j.sd.getLsbD 0 = true ∧ d.flag (R.SEQ_CARRY_CEN x) = true) →
        exec (.repReport h) s =
          s.after ((d.countStall h 4 0).modSt x (fun y => { y with run := .mstone j (setBit rep h.val true) }))) ∧
      (∀ j moved rep, (d.st x).run = .xfer j moved rep → moved.getLsbD h.val = true → rep.getLsbD h.val = false →
        let rep' := setBit rep h.val true
        let t := d.modSt x (fun y => { y with run := .xfer j moved rep' })
        exec (.repReport h) s = s.after (if (rep' &&& d.halls16 x) = d.halls16 x
          then (((t.advanceChan j).closeChan x j.sb.toNat).modSt x (fun y => { y with run := .idle })).looseEnd x.val else t)))

/-- R152 to R158, R202: a stop and its resume, and a span overrun. A stop between routines keeps the waiting instructions and the
mode, saves the planes to their shadows and makes every PE active; the resume brings them back; an overrun is recorded with code 0x10,
blocks the stream, and abandons its work. -/
def Obligations.PreemptionAndOverrun : Prop :=
  ∀ (s : State) (x : StreamId), x.val < s.dev.numStreams →
    let d := s.dev
    let y := d.st x
    (d.stopPoint x = true → y.rehold = [] → y.run = .idle →
      let held : HeldRec := { kind := 1, run := .idle, micro := y.micro, jobs := y.jobs, depth := y.runDepth, ct := y.ct, issDepth := y.depth,
                              issCt := y.ctIss, mdepth := y.mdepth, at_ := ((y.jobs.head?).map (·.idx)).getD y.nextIdx, no := y.stops }
      let saved := (d.shadow x d.shadowPlanes true).forRows x.val (fun d _ p row => d.setTwin p row .act (BitVec.allOnes 64))
      exec (.preemptStop x) s = s.after ((saved.forHalls x.val (fun d h => d.countStall h 4 1)).modSt x (fun z => { z with
        held := some held, jobs := [], run := .idle, preReq := false, depth := y.runDepth, ctIss := y.ct, stops := z.stops + 1 }))) ∧
    (∀ h, y.held = some h → y.jobs = [] → y.smp = none → d.streamIdle x = true → h.past = none → d.preAlive x = false →
      d.upsetPending x = false →
      exec (.preemptResume x) s = s.after (((d.dropStack x (y.depth - h.depth)).shadow x d.shadowPlanes false).modSt x (fun z => { z with
        held := none, jobs := h.jobs, run := h.run, micro := h.micro, ct := h.ct, ctIss := h.issCt, depth := h.issDepth,
        mdepth := h.mdepth }))) ∧
    (∀ j, y.run = .micro j → d.wordOverSpan x = true →
      let t := ((d.countWord x).arrayFault x j.opc.toNat 0x10 0 0).imprecise x .array 0
      exec (.spanOverrun x) s = s.after (({ t with arr := { t.arr with
        block := bankSet (fun _ => 0) t.arr.block x.val (bankGet (fun _ => 0) t.arr.block x.val ||| 1) } } : Dev).abandonStream x))

/-! Stairs, gallery, lead mover. -/

/-- R176, R180, R185, R186, R192, R195: stair transfers and bank grants. A transfer whose flow condition holds moves the hall's share, a
routine's transfer unit by unit in its microwords; a wait that exceeds SWAIT sets WTO and raises its event once; a bank's single-port part
and its landing port A each serve one request, and the round starts after the winner. The secure region answers the road's secure
requests alone; a region under a destructive test answers others with a slave error, and a stair port waits. -/
def Obligations.StairsAndBanksServe : Prop :=
  ∀ (s : State) (h : LHall) (x : StreamId),
    let d := s.dev
    let q := d.hq h
    (∀ j moved rep ch, d.stream? (d.streamOf h.val) = some x → (d.st x).run = .xfer j moved rep → q.chan = some (ch, 0) →
      d.flowOk j = true → d.chanMarched ch.toNat = false →
      let t := (d.countStall h 3 (bn q.waited)).modHq h (fun q => { q with chan := some (ch, 1) })
      let mark := fun d : Dev => d.modSt x (fun y => { y with run := .xfer j (setBit moved h.val true) rep })
      (j.opc = 0x6C → exec (.stairTransferStart h) s = s.after (mark (t.strinHall j h.val))) ∧
      (j.opc = 0x6D → exec (.stairTransferStart h) s = s.after (mark (t.stroutHall j h.val)))) ∧
    (∀ j j' ch, d.stream? (d.streamOf h.val) = some x → (d.st x).run = .micro j → d.chanJob x = some j' → q.chan = some (ch, 0) →
      d.flowOk j' = true → d.chanMarched ch.toNat = false →
      let t := (d.countStall h 3 (bn q.waited)).modHq h (fun q => { q with chan := some (ch, 1) })
      exec (.stairTransferStart h) s = s.after (if j'.opc = 0x6C
        then t.chanCount ch.toNat h.val (t.fld (R.STAIR_CHWPOS_POS ch.toNat)) (t.chanUnits ch.toNat (descWidth j'.dD.1)) else t)) ∧
    (∀ ch, q.chan = some (ch, 0) → q.waited = false → d.fld R.STAIR_CTRL_SWAIT ≠ 0 → d.transferWaits h = true →
      exec (.stairWaitTimeout h) s =
        s.after (((d.modHq h (fun q => { q with waited := true })).setFlag (R.STAIR_CHSTAT_WTO ch.toNat) true).raise 0x37)) ∧
    (∀ (bank : Fin 32) (r : GalReq), d.domOn 0 = true → r.who.val < 7 →
      let i := r.word * 32 + bank.val
      let arb := if r.landing then 32 + bank.val else bank.val
      let aged := d.setGalAge arb r.who.val 0
      let t := { aged with gal := { aged.gal with last := bankSet (fun _ => 6) d.gal.last arb r.who.val } }
      let mayReach := galRegion (8 * i) ≠ 3 ∧ (galRegion (8 * i) = 2 → r.who = 4 ∧ r.sec = true ∧ d.secureShut = false)
      (mayReach → d.underMarch (8 * i) 8 = false →
        (∀ v, r.wr = some (0xFF, v) → exec (.galleryBankGrant bank [r]) s = s.after ((t.galPut i v).respond 0 [])) ∧
        (r.wr = none → (d.galWord i).2 = .good → exec (.galleryBankGrant bank [r]) s =
          s.after (t.respond 0 (leBytes 8 (d.galWord i).1.toNat)))) ∧
      (¬mayReach → d.underMarch (8 * i) 8 = false → exec (.galleryBankGrant bank [r]) s = s.after (t.respond 1 [])) ∧
      (mayReach → d.underMarch (8 * i) 8 = true →
        (r.who.val < 4 → exec (.galleryBankGrant bank [r]) s = s.after d) ∧
        (r.who = 4 ∨ r.who = 5 → exec (.galleryBankGrant bank [r]) s = s.after (t.respond 2 []))))

/-- R189, R192, R193, R194 to R197: the lead mover's copy, the wipe of the secure region, the march engine, row repair. A wipe clears
every byte of the region and shuts it until its read-back passes; a destructive march leaves what it tested 0. -/
def Obligations.GalleryEnginesRun : Prop :=
  ∀ (s : State) (r : Requester) (v : Word),
    let d := s.dev
    (d.flag R.GAL_LCFG_LEN = true → d.lead.copying = false → d.lead.copied < d.lead.released →
      d.lead.copied < d.lead.done + (d.fld R.GAL_LCFG_NSM1 + 1) →
      exec .leadCopyStart s = s.after { d with lead := { d.lead with copying := true } }) ∧
    (d.lead.copying = true →
      let k := d.lead.copied
      let t := forEach (List.range 16) d (fun d h => d.leadHall k h)
      let t := forEach t.leadChannels t (fun d ch => d.setFld (R.STAIR_CHLIMIT_POS ch) ((k + 1) * t.fld R.GAL_LCFG_LPU % 2 ^ 24))
      exec .leadCopyDone s = s.after ({ t with lead := { t.lead with copied := k + 1, copying := false } } : Dev).reportLines) ∧
    (d.Writes r .gal R.GAL_SEC 0x80000000 → d.gal.wipe = .idle →
      let t := d.fielded r .gal R.GAL_SEC 0x80000000
      exec (.secureWipe r) s = s.wrote ({ t with gal := { d.gal with wipe := .clearing, wcause := 4 } } : Dev).syncSec) ∧
    (d.gal.wipe = .clearing → ∃ t, exec .wipeClearDone s = s.after t ∧ t.secureShut = true ∧
      (∀ a, 0x41700000 ≤ a → a < 0x41800000 → t.byte a = byteReset a) ∧
      (∀ a, (a < 0x41700000 ∨ 0x41800000 ≤ a) → t.byte a = d.byte a) ∧
      t.gal.wipe = (if d.domOn 0 then .readback else .deferred)) ∧
    (d.gal.wipe = .readback →
      let t := fun bad => ({ d with gal := { d.gal with wipe := .idle, verr := bad } } : Dev).syncSec
      exec (.wipeReadbackDone false) s = s.after (((t false).setFlag R.GAL_SEC_DONE true).lifeWiped false) ∧
      exec (.wipeReadbackDone true) s = s.after (((t true).raise 0x39).lifeWiped true)) ∧
    (let w := v ||| 0x80000000
     let t := d.fielded r .gal R.GAL_MCTL w
     d.Writes r .gal R.GAL_MCTL w → d.gal.march = none → t.fld R.GAL_MCTL_ALG ≠ 3 → t.fld R.GAL_MCTL_RGN ≠ 0 →
       (if t.flag R.GAL_MCTL_PRES then d.mode ≠ 8 else d.mode = 2 ∨ d.mode = 9) →
       let u := ((t.setFlag R.GAL_MCTL_BUSY true).setFld R.GAL_MCTL_NFAIL 0).setReg R.GAL_MLOG 0
       exec (.marchStart r v) s = s.wrote { u with gal := { d.gal with
         march := some (BitVec.ofNat 2 (t.fld R.GAL_MCTL_ALG), t.flag R.GAL_MCTL_PRES, BitVec.ofNat 2 (t.fld R.GAL_MCTL_RGN)) } }) ∧
    (∀ alg pres rgn, d.gal.march = some (alg, pres, rgn) → ∃ t, exec (.marchDone []) s = s.after t ∧ t.gal.march = none ∧
      t.fld R.GAL_MCTL_NFAIL = 0 ∧ t.flag R.GAL_MCTL_BUSY = false ∧ t.flag R.GAL_MCTL_DONE = true ∧
      t.flag R.GAL_MCTL_FAIL = d.flag R.GAL_MCTL_FAIL ∧
      ∀ a, t.byte a = (if pres = false ∧ (marchRanges rgn).any (fun p => decide (galBase + p.1 ≤ a) && decide (a < galBase + p.2)) = true
        then byteReset a else d.byte a)) ∧
    (∀ n : Fin 320, d.Writes r .gal (R.GAL_RPR n.val) v → d.locked .gal = false →
      (d.flag (R.GAL_RPR_FUSE n.val) = true → exec (.rprWrite r n v) s = s.wrote d.drawn) ∧
      (d.flag (R.GAL_RPR_FUSE n.val) = false → exec (.rprWrite r n v) s = s.wrote (d.drawn.writeRpr n.val v)))

/-! Milestones and recovery. -/

/-- R101, R181, R199, R218, R241: the commit of a MILESTONE that every hall has reported. The restart point, the phase, the channels'
committed positions, the count and the log move on; a LEND ends its line too; every PE is active again with its latches clear. -/
def Obligations.MilestoneCommits : Prop :=
  ∀ (s : State) (x : StreamId) (t : Int) (j : Job), x.val < s.dev.numStreams → s.dev.milestoneReady x = some j →
    let d := s.dev
    let spanned := d.commitSpan x j
    let lined := if j.sd.getLsbD 0 then spanned.commitLine x else spanned
    let e := lined.commitEdges x (j.sd.getLsbD 0)
    let ended := match (e.st x).run with
      | .micro _ => e.modSt x (fun y => { y with micro := { y.micro with msWait := false, rep := 0 } })
      | _ => (e.milestoneLatches x).modSt x (fun y => { y with run := .idle })
    exec (.milestoneCommit x t) s = s.after ((ended.noteReleases t).deferredDue x (j.sd.getLsbD 0)) ∧
    (spanned.reg (R.SEQ_RADR x) = j.pc + 4 ∧ spanned.reg (R.SEQ_MSCNT x) = d.reg (R.SEQ_MSCNT x) + 1 ∧
      spanned.flag (R.SEQ_SPSTAT_PH x) = !d.flag (R.SEQ_SPSTAT_PH x) ∧ (spanned.st x).span = 0 ∧
      (spanned.st x).log = (d.st x).log.filter (fun k => j.idx < k.idx) ∧
      (∀ ch, ch < 8 → d.chanBound x ch = true → spanned.fld (R.STAIR_CHCPOS_POS ch) = d.fld (R.STAIR_CHWPOS_POS ch)) ∧
      (∀ ch, ch < 8 → d.chanBound x ch = false → spanned.fld (R.STAIR_CHCPOS_POS ch) = d.fld (R.STAIR_CHCPOS_POS ch)))

/-- R205 to R215, R219, R222, R225: recovery. Reports restart and judge their streams and are used up; retirement goes from the wait for
the stair to the refill and to the new map, and a map that is full by then, or a word that cannot be corrected, makes it a hall's fault;
a failover's image, and the resume at the line's start; the record's oldest entry is
written. -/
def Obligations.RecoveryProceeds : Prop :=
  ∀ (s : State),
    let d := s.dev
    (∀ reps,
      let t := forEach reps d (fun d p => d.tick.upset p.1.val p.2)
      let u := forEach (List.finRange 4) t (fun d x => if x.val < d.numStreams then d.recoverStream x else d)
      exec (.upsetRecovery reps) s = s.after { u with arr := { u.arr with reports := [] } }) ∧
    (∀ (h : HallId) (r : RetRec),
      let move := fun (n : Nat) (d : Dev) => ({ d with arr := { d.arr with
        retire := d.arr.retire.map (fun q => if q = r then { q with stage := n } else q) } } : Dev)
      (d.arr.retire.find? (fun q => q.hall = h && q.stage = 0) = some r → d.capture? (.hall h) = none →
        d.arr.retire.any (fun q => q.hall = h && (q.stage = 1 || q.stage = 2)) = false →
        (∀ x, (d.streamOfPhys h.val).bind d.stream? = some x → (d.st x).run = .idle) →
        (d.barRetire r = none → exec (.columnRetirement h) s = s.after ((move 1 d).setFld (R.HALL_RSTAT_PCOL h.val) r.col)) ∧
        ∀ t, d.barRetire r = some t → exec (.columnRetirement h) s = s.after t) ∧
      (d.arr.retire.find? (fun q => q.hall = h && q.stage = 1) = some r → (∀ l, d.logicalOf h.val = some l → d.stairBusy l = false) →
        d.barRetire r = none →
        let t := ((d.setFlag (R.HALL_ECCCTL_ERAEN h.val) true).setFld (R.HALL_ECCCTL_ECOL h.val) r.col).checkEcol h.val
        let t := (t.setFlag (R.HALL_RSTAT_RBUSY h.val) true).setFlag (R.HALL_RSTAT_RPEND h.val) (d.arr.retire.any (fun q => q.hall = h && q.stage = 3))
        exec (.retireRefillStart h) s = s.after (move 2 t)) ∧
      (d.arr.retire.find? (fun q => q.hall = h && q.stage = 1) = some r → (∀ l, d.logicalOf h.val = some l → d.stairBusy l = false) →
        ∀ t, d.barRetire r = some t → exec (.retireRefillStart h) s = s.after t) ∧
      (∀ x, d.arr.retire.find? (fun q => q.hall = h && q.stage = 2) = some r → (d.streamOfPhys h.val).bind d.stream? = some x →
        let new := addColumn (d.retired h.val) r.col
        (d.refill h.val new).1 = false →
        let t := ((d.refill h.val new).2.dropRetire (· = r)).setReg (R.HALL_STEER h.val) (steerWord new)
        let t := (t.preset (R.HALL_STEERSET h.val) (steerWord new)).setFlag (R.HALL_ECCCTL_ERAEN h.val) false
        let t := (t.setFlag (R.HALL_RSTAT_RPEND h.val) (t.arr.retire.any (fun q => q.hall = h && q.stage = 3))).setFld
          (R.HALL_RSTAT_NRET h.val) new.length
        let t := t.record 3 x h.val r.col r.word [h]
        exec (.retireRefillDone h) s = s.after (if t.retiring x then t
          else if t.arr.replayDue.contains x then ((t.setReplayDue (t.arr.replayDue.filter (· ≠ x))).restart x).replayLog x
          else t.noteRecovery x.val)) ∧
      (∀ x, d.arr.retire.find? (fun q => q.hall = h && q.stage = 2) = some r → (d.streamOfPhys h.val).bind d.stream? = some x →
        (d.refill h.val (addColumn (d.retired h.val) r.col)).1 = true →
        let t := ((d.refill h.val (addColumn (d.retired h.val) r.col)).2.dropRetire (fun q => q.hall = h)).addFld R.SEQ_RSTAT_NPERM 1
        let t := (t.record 4 x h.val 127 r.word []).record 7 x h.val r.col r.word []
        exec (.retireRefillDone h) s = s.after ((t.stopStream x).hallOutcome x h.val r.word))) ∧
    (∀ f, d.arr.failover = some f →
      (f.imageDone = false → exec (.failoverImageLoaded false) s = s.after (d.unrecovered f.strm 16 127 f.rep) ∧
        let x := d.looseStaging.loadImage f.hall.val
        let y := if x.2.flag (R.SEQ_CARRY_CEN f.strm) then
            (x.2.streamHalls f.strm.val).foldl (fun (r : Bool × Dev) h => (r.1 || (r.2.restoreCarry f.strm h).1, (r.2.restoreCarry f.strm h).2))
              (false, x.2)
          else (false, x.2)
        (x.1 = true → exec (.failoverImageLoaded true) s = s.after (x.2.unrecovered f.strm 16 127 f.rep)) ∧
        (x.1 = false → y.1 = true → exec (.failoverImageLoaded true) s = s.after (y.2.unrecovered f.strm 16 127 f.rep)) ∧
        (x.1 = false → y.1 = false →
          exec (.failoverImageLoaded true) s = s.after { y.2 with arr := { y.2.arr with failover := some { f with imageDone := true } } })) ∧
      (f.imageDone = true → d.retiring f.strm = false → exec (.failoverResume false) s = s.after (d.unrecovered f.strm 16 127 f.rep) ∧
        let x := f.strm
        let t := forEach (List.range 8) d (fun d ch =>
          if d.chanBound x ch then d.setFld (R.STAIR_CHCPOS_POS ch) (d.fld (R.STAIR_CHLPOS_POS ch)) else d)
        let t := ((t.modSt x (fun y => { y with ctRp := y.ctLp })).rewindEdges x).restart x
        let t := (t.setFlag (R.SEQ_SPSTAT_PH x) (t.flag (R.SEQ_LPT_LPH x))).setReg (R.SEQ_RADR x) (t.reg (R.SEQ_LADR x))
        let t := ({ t with arr := { t.arr with failover := none } } : Dev).setFlag R.SEQ_RSTAT_FOBUSY false
        exec (.failoverResume true) s = s.after (t.recordAs 5 x f.hall.val f.hall.val 127 f.rep [⟨f.hall.val, by omega⟩, 16]))) ∧
    (∀ r rest, d.arr.frecs = r :: rest → r.maps = [] → d.domOn 5 = true →
      let made := bits (d.word64 0x207F0000).toNat 15 0 = 1
      let count := if made then bits (d.word64 0x207F0000).toNat 63 32 else 0
      let idx := if count = 0 then 0 else (bits (d.word64 0x207F0000).toNat 31 16 + 1) % 992
      ∃ t, exec .faultRecordWrite s = s.after t ∧ t.arr.frecs = rest ∧
        t.word64 0x207F0000 = BitVec.ofNat 64 (1 + idx * 2 ^ 16 + (count + 1) % 2 ^ 32 * 2 ^ 32) ∧
        (t.word32 (0x207F0800 + 64 * idx)).toNat = (count + 1) % 2 ^ 32 ∧
        t.bytes (0x207F0800 + 64 * idx + 4) 4 = [r.kind, r.phys, r.log, r.col] ∧
        ∀ a, (a < 0x207F0000 ∨ 0x207F0008 ≤ a) → (a < 0x207F0800 + 64 * idx ∨ 0x207F0840 + 64 * idx ≤ a) → t.byte a = d.byte a)

/-- R145, R223, R224, R418, R419, R471: patch loads and hall image commands. GO is refused while BUSY, or for an image outside its range;
a staged image whose signature block and signature hold is written into the patch RAM with its tags; an image command ends with its
cause, DONE or the mismatch. The half and the source are those of the GO (log entry 95), the cause of a verify that meets both errors is
the model's choice (log entry 97). -/
def Obligations.ImagesLoadAndVerify : Prop :=
  ∀ (s : State) (r : Requester) (h : LHall),
    let d := s.dev
    (let v := d.reg R.SEQ_PLDCMD ||| 1
     let t := d.fielded r .seq R.SEQ_PLDCMD v
     let a := d.fld R.SEQ_PLDSRC_ADDR * 8
     d.Writes r .seq R.SEQ_PLDCMD v →
       (d.flag R.SEQ_PLDSTAT_BUSY = true → exec (.patchLoad r) s = s.wrote ((t.setFlag R.SEQ_PLDSTAT_ERR true).setFld R.SEQ_PLDSTAT_ECAUSE 1)) ∧
       (d.flag R.SEQ_PLDSTAT_BUSY = false → (0x40000000 ≤ a ∧ a + 64 ≤ 0x41700000) → exec (.patchLoad r) s =
         s.wrote { t.setFlag R.SEQ_PLDSTAT_BUSY true with arr := { t.arr with pld := (t.fld R.SEQ_PLDCMD_HALF, t.fld R.SEQ_PLDSRC_ADDR) } }) ∧
       (d.flag R.SEQ_PLDSTAT_BUSY = false → ¬(0x40000000 ≤ a ∧ a + 64 ≤ 0x41700000) → exec (.patchLoad r) s = s.wrote (t.patchError 2))) ∧
    (d.flag R.SEQ_PLDSTAT_BUSY = true → d.arr.stage = none → ∀ a, patchFrom d.arr.pld.2 64 = some a →
      let x := d.galRead a 64
      let hd := parseHeader x.1
      let half := d.arr.pld.1
      let n := 64 + hd.bodyLen + 3136
      (x.2.1 = true → exec (.patchStagingDone true) s = s.after (x.2.2.patchError 6)) ∧
      exec (.patchStagingDone false) s = s.after (x.2.2.patchError 6) ∧
      (x.2.1 = false → patchFrom d.arr.pld.2 n = none → exec (.patchStagingDone true) s = s.after (x.2.2.patchError 2)) ∧
      (x.2.1 = false → (patchFrom d.arr.pld.2 n).isSome = true →
        let y := x.2.2.galRead a n
        let ws := (List.range hd.count).map (fun i => (le y.1 (64 + 8 * i) 6, le y.1 (64 + 8 * i + 6) 2))
        (y.2.1 = true → exec (.patchStagingDone true) s = s.after (y.2.2.patchError 6)) ∧
        (y.2.1 = false → hd.plainOk (2 + half) = false → exec (.patchStagingDone true) s = s.after (y.2.2.patchError 3)) ∧
        (y.2.1 = false → hd.plainOk (2 + half) = true → 0 < hd.count → hd.count ≤ 512 → hd.bodyLen = 8 * hd.count → (∀ p ∈ ws, p.2 < 512) →
          exec (.patchStagingDone true) s = s.after (({ y.2.2 with arr := { y.2.2.arr with
            stage := some (ws.map (fun p => (0x1C00 + 0x200 * half + p.2, BitVec.ofNat 48 p.1))), stageSlot := hd.slot,
            stageSig := parseSig (y.1.drop (64 + hd.bodyLen)) } } : Dev).verifyRequest .patch)))) ∧
    (∀ ws, d.arr.stage = some ws → d.verifyFirst .patch = false → ∀ v, exec (.patchVerifyDone v) s = s.after d) ∧
    (∀ ws, d.arr.stage = some ws → d.verifyFirst .patch = true →
      let e := d.verifyEnd
      let kind := 2 + d.arr.pld.1
      (e.keyOk kind e.arr.stageSlot = false → ∀ v, exec (.patchVerifyDone v) s = s.after (e.patchError 5)) ∧
      (e.keyOk kind e.arr.stageSlot = true → (∀ v, v ≠ .pass → exec (.patchVerifyDone v) s = s.after (e.patchError 4)) ∧
        (e.arr.stageSig.ok = false → exec (.patchVerifyDone .pass) s = s.after (e.patchError 4)) ∧
        (e.arr.stageSig.ok = true → ∃ t, exec (.patchVerifyDone .pass) s = s.after t ∧ t.arr.stage = none ∧ t.flag R.SEQ_PLDSTAT_BUSY = false ∧
          t.flag R.SEQ_PLDSTAT_DONE = true ∧ t.fld R.SEQ_PLDSTAT_NWORDS = ws.length % 2 ^ 10 ∧
          (∀ a, (∀ p ∈ ws, p.1 ≠ a) → bankGet (fun _ => 0) t.arr.patch a = bankGet (fun _ => 0) d.arr.patch a) ∧
          ((ws.map Prod.fst).Nodup → ∀ p ∈ ws, bankGet (fun _ => 0) t.arr.patch p.1 = p.2 ∧ (p.1 < 0x2000 → t.arr.tags.getLsbD (p.1 - 0x1C00) = true))))) ∧
    (∀ e ∈ ([(Instr.himgUnload, 0), (Instr.himgLoad, 1), (Instr.himgVerify, 2)] : List ((Requester → LHall → Instr) × Nat)),
      let v := BitVec.ofNat 32 (2 ^ 31 + e.2 * 2 ^ 8 + h.val)
      let t := d.fielded r .seq R.SEQ_HIMGCMD v
      d.Writes r .seq R.SEQ_HIMGCMD v →
        (d.flag R.SEQ_HIMGCMD_BUSY = true → exec (e.1 r h) s = s.wrote ((t.setFlag R.SEQ_HIMGCMD_ERR true).setFld R.SEQ_HIMGCMD_ECAUSE 1)) ∧
        (d.flag R.SEQ_HIMGCMD_BUSY = false → d.mode = 8 → exec (e.1 r h) s = s.wrote ((t.setFlag R.SEQ_HIMGCMD_ERR true).setFld R.SEQ_HIMGCMD_ECAUSE 2)) ∧
        (d.flag R.SEQ_HIMGCMD_BUSY = false → d.mode ≠ 8 → (∃ x, d.stream? (d.streamOf h.val) = some x ∧ (d.st x).dirty = true) →
          exec (e.1 r h) s = s.wrote ((t.setFlag R.SEQ_HIMGCMD_ERR true).setFld R.SEQ_HIMGCMD_ECAUSE 3)) ∧
        (d.flag R.SEQ_HIMGCMD_BUSY = false → d.mode ≠ 8 → (∀ x, d.stream? (d.streamOf h.val) = some x → (d.st x).dirty = false) →
          d.dramSize < d.imageEnd (d.fld R.SEQ_IMGMASK_MASK) h.val →
          exec (e.1 r h) s = s.wrote ((t.setFlag R.SEQ_HIMGCMD_ERR true).setFld R.SEQ_HIMGCMD_ECAUSE 5)) ∧
        (d.flag R.SEQ_HIMGCMD_BUSY = false → d.mode ≠ 8 → (∀ x, d.stream? (d.streamOf h.val) = some x → (d.st x).dirty = false) →
          d.imageEnd (d.fld R.SEQ_IMGMASK_MASK) h.val ≤ d.dramSize →
          exec (e.1 r h) s = s.wrote (({ t with arr := { t.arr with himg := some (BitVec.ofNat 2 e.2, h) } } : Dev).setFlag R.SEQ_HIMGCMD_BUSY true))) ∧
    (∀ g : LHall, d.himgFree g = true →
      let fin := fun (d : Dev) (cause : Nat) =>
        let t := ({ d with arr := { d.arr with himg := none } } : Dev).setFlag R.SEQ_HIMGCMD_BUSY false
        if cause = 0 then t.setFlag R.SEQ_HIMGCMD_DONE true else (t.setFlag R.SEQ_HIMGCMD_ERR true).setFld R.SEQ_HIMGCMD_ECAUSE cause
      let seen := fun (d : Dev) b => ({ d with arr := { d.arr with verified := setBit d.arr.verified g.val b } } : Dev)
      (d.arr.himg = some (0, g) → exec .himgDone s = s.after (fin (seen (d.unloadImage g.val).2 false) (if (d.unloadImage g.val).1 then 7 else 0))) ∧
      (d.arr.himg = some (1, g) → exec .himgDone s = s.after (fin (d.loadImage g.val).2 (if (d.loadImage g.val).1 then 4 else 0))) ∧
      (d.arr.himg = some (2, g) →
        let x := d.verifyImage g.val
        let cause := if x.1 then 4 else if x.2.1 then 7 else 0
        let t := seen x.2.2.2 (cause = 0 && !x.2.2.1)
        let t := ({ t with arr := { t.arr with himg := none } } : Dev).setFlag R.SEQ_HIMGCMD_BUSY false
        let t := if x.2.2.1 then t.setFlag R.SEQ_HIMGCMD_MISM true else t
        exec .himgDone s = s.after (if cause = 0 then t.setFlag R.SEQ_HIMGCMD_DONE true
          else (t.setFlag R.SEQ_HIMGCMD_ERR true).setFld R.SEQ_HIMGCMD_ECAUSE cause)))

/-- R145, R180, R185, R205, R215, R219, R224, R225, R318: under conditions on the state and the operands alone the commands of loads, stair
transfers, bank grants, recovery and packets complete: each answers a next state that holds its own effect. -/
def Obligations.ServicesComplete : Prop :=
  ∀ (s : State) (r : Requester) (h : LHall) (x : StreamId) (p : Packet),
    let d := s.dev
    let q := d.hq h
    let completes := fun (c : Instr) (effect : Dev → Prop) => ∃ t, exec c s = s.after t ∧ effect t
    (d.Writes r .seq R.SEQ_PLDCMD (d.reg R.SEQ_PLDCMD ||| 1) → d.flag R.SEQ_PLDSTAT_BUSY = false →
      (patchFrom (d.fld R.SEQ_PLDSRC_ADDR) 64).isSome = true →
      completes (.patchLoad r) (fun t => t.flag R.SEQ_PLDSTAT_BUSY = true ∧ t.resp.status = 0)) ∧
    (∀ a, d.flag R.SEQ_PLDSTAT_BUSY = true → d.arr.stage = none → patchFrom d.arr.pld.2 64 = some a → (d.galRead a 64).2.1 = false →
      let hd := parseHeader (d.galRead a 64).1
      let y := (d.galRead a 64).2.2.galRead a (64 + hd.bodyLen + 3136)
      (patchFrom d.arr.pld.2 (64 + hd.bodyLen + 3136)).isSome = true → y.2.1 = false → hd.plainOk (2 + d.arr.pld.1) = true →
      0 < hd.count → hd.count ≤ 512 → hd.bodyLen = 8 * hd.count → (∀ i, i < hd.count → le y.1 (64 + 8 * i + 6) 2 < 512) →
      completes (.patchStagingDone true) (fun t => (t.arr.stage.map List.length) = some hd.count ∧ t.sec.verifs = d.sec.verifs ++ [.patch])) ∧
    (∀ ws, d.arr.stage = some ws → d.verifyFirst .patch = true → d.arr.stageSig.ok = true →
      d.verifyEnd.keyOk (2 + d.arr.pld.1) d.arr.stageSlot = true →
      completes (.patchVerifyDone .pass) (fun t => t.arr.stage = none ∧ t.flag R.SEQ_PLDSTAT_DONE = true ∧
        t.flag R.SEQ_PLDSTAT_BUSY = false)) ∧
    (d.flag R.SEQ_HIMGCMD_BUSY = false → d.mode ≠ 8 → (∀ y, d.stream? (d.streamOf h.val) = some y → (d.st y).dirty = false) →
      d.imageEnd (d.fld R.SEQ_IMGMASK_MASK) h.val ≤ d.dramSize →
      ∀ e ∈ ([(Instr.himgUnload, 0), (Instr.himgLoad, 1), (Instr.himgVerify, 2)] : List ((Requester → LHall → Instr) × Nat)),
        d.Writes r .seq R.SEQ_HIMGCMD (BitVec.ofNat 32 (2 ^ 31 + e.2 * 2 ^ 8 + h.val)) →
        completes (e.1 r h) (fun t => t.arr.himg = some (BitVec.ofNat 2 e.2, h) ∧ t.flag R.SEQ_HIMGCMD_BUSY = true ∧ t.resp.status = 0)) ∧
    (∀ o : BitVec 2, d.himgFree h = true → d.arr.himg = some (o, h) →
      completes .himgDone (fun t => t.arr.himg = none ∧ t.flag R.SEQ_HIMGCMD_BUSY = false)) ∧
    (∀ j moved rep ch, d.stream? (d.streamOf h.val) = some x → (d.st x).run = .xfer j moved rep → q.chan = some (ch, 0) → d.flowOk j = true →
      d.chanMarched ch.toNat = false →
      completes (.stairTransferStart h) (fun t => (t.st x).run = .xfer j (setBit moved h.val true) rep)) ∧
    (∀ ch, q.chan = some (ch, 0) → q.waited = false → d.fld R.STAIR_CTRL_SWAIT ≠ 0 → d.transferWaits h = true →
      completes (.stairWaitTimeout h) (fun t => (t.hq h).waited = true ∧ t.flag (R.STAIR_CHSTAT_WTO ch.toNat) = true)) ∧
    (∀ (bank : Fin 32) (g : GalReq), d.domOn 0 = true → g.wr = none → d.underMarch (8 * (g.word * 32 + bank.val)) 8 = false →
      galRegion (8 * (g.word * 32 + bank.val)) ≠ 3 → galRegion (8 * (g.word * 32 + bank.val)) ≠ 2 →
      (d.galWord (g.word * 32 + bank.val)).2 = .good →
      completes (.galleryBankGrant bank [g]) (fun t => t.resp = ⟨0, leBytes 8 (d.galWord (g.word * 32 + bank.val)).1.toNat⟩)) ∧
    (∀ reps, completes (.upsetRecovery reps) (fun t => t.arr.reports = [])) ∧
    (∀ (k : HallId) (w : RetRec) (y : StreamId),
      (d.arr.retire.find? (fun q => q.hall = k && q.stage = 0) = some w → d.capture? (.hall k) = none → d.barRetire w = none →
        d.arr.retire.any (fun q => q.hall = k && (q.stage = 1 || q.stage = 2)) = false →
        (∀ z, (d.streamOfPhys k.val).bind d.stream? = some z → (d.st z).run = .idle) →
        completes (.columnRetirement k) (fun t =>
          t.arr.retire = d.arr.retire.map (fun q => if q = w then { q with stage := 1 } else q))) ∧
      (d.arr.retire.find? (fun q => q.hall = k && q.stage = 1) = some w → (∀ l, d.logicalOf k.val = some l → d.stairBusy l = false) →
        d.barRetire w = none → completes (.retireRefillStart k) (fun t => t.flag (R.HALL_RSTAT_RBUSY k.val) = true ∧
          t.arr.retire = d.arr.retire.map (fun q => if q = w then { q with stage := 2 } else q))) ∧
      (d.arr.retire.find? (fun q => q.hall = k && q.stage = 2) = some w → (d.streamOfPhys k.val).bind d.stream? = some y →
        (d.refill k.val (addColumn (d.retired k.val) w.col)).1 = false → y ∉ d.arr.replayDue →
        completes (.retireRefillDone k) (fun t => t.reg (R.HALL_STEER k.val) = steerWord (addColumn (d.retired k.val) w.col) ∧ w ∉ t.arr.retire))) ∧
    (∀ f, d.arr.failover = some f →
      (f.imageDone = false → (d.looseStaging.loadImage f.hall.val).1 = false →
        (d.looseStaging.loadImage f.hall.val).2.flag (R.SEQ_CARRY_CEN f.strm) = false →
        completes (.failoverImageLoaded true) (fun t => t.arr.failover = some { f with imageDone := true })) ∧
      (f.imageDone = true → d.retiring f.strm = false →
        completes (.failoverResume true) (fun t => t.arr.failover = none ∧ t.flag R.SEQ_RSTAT_FOBUSY = false))) ∧
    (∀ w rest, d.arr.frecs = w :: rest → w.maps = [] → d.domOn 5 = true → completes .faultRecordWrite (fun t => t.arr.frecs = rest)) ∧
    (∀ node, nodeOfAddr d.chipId p.addr.toNat = some node → d.nodeDead node = false → (hasBridge node = true → d.brState node = 0) →
      d.canRequest p.src.toNat = true → p.src.toNat ≤ 0x20 → d.ProbesOff →
      (∀ i, i < max (p.len.toNat + 1) p.data.length → d.place (p.addr.toNat + i) = some (.tcm (p.addr.toNat + i))) →
      (∀ e ∈ ([(Instr.rd, .rd), (Instr.mrd, .mrd), (Instr.wr, .wr), (Instr.mwr, .mwr)] : List ((Packet → Instr) × PacketKind)),
        packetOk e.2 p = true → d.tidOk e.2 p = true → completes (e.1 p) (fun t =>
          t.road.resp.map (fun y => (y.tid, y.src, y.status)) = d.road.resp.map (fun y => (y.tid, y.src, y.status)) ++ [(p.tid, p.src, 0)])) ∧
      (∀ e ∈ ([(Instr.pwr, .pwr), (Instr.swr, .swr)] : List ((Packet → Instr) × PacketKind)),
        packetOk e.2 p = true → d.tidOk e.2 p = true → completes (e.1 p) (fun t =>
          t.road.resp = d.road.resp ∧ ∀ i, i < p.data.length → some (t.byte (p.addr.toNat + i)) = p.data[i]?)) ∧
      (packetOk .msg p = true → d.tidOk .msg p = true → completes (.msg p) (fun t => t = d))) ∧
    (∀ (m : Bool) (y : OpenReq), d.ProbesOff → d.road.resp.find? (fun z => z.tid = y.tid && z.mgmt = m && d.firstResp z) = some y →
      d.road.sunk.contains y.tid = false → d.nodeDead y.src.toNat = false → 4 ≤ y.src.toNat →
      completes (if m then .mrsp y.tid else .rsp y.tid) (fun t => t.resp = ⟨y.status, y.data⟩ ∧ t.road.resp = d.road.resp.erase y))

/-! The line timer and the event controller. -/

/-- R191, R232 to R237: the line timer. An edge of one encoder input moves POS by one, A leading B counting up; both at once are an
error; a pulse of the leader arms a strobe, a short one is an error; a strobe counts, records its time, raises its event and is late
when its line has not been copied, drives LSYNC in a master, and starts its line in the fabric's regions; an open gate lets its stream
go on. -/
def Obligations.LineTimerRuns : Prop :=
  ∀ (s : State),
    let d := s.dev
    let l := d.line
    (∀ a b, d.mode = 8 → d.flag R.LINE_CTRL_EN = true → d.fld R.LINE_CTRL_SRC = 0 →
      let seen := { d with line := { l with a := a, b := b } }
      ((a != l.a) = true → (b != l.b) = true →
        exec (.encoderEdge a b) s = s.after ((seen.setFlag R.LINE_STAT_QERR true).raise 0x35)) ∧
      ((a != l.a) ≠ (b != l.b) →
        let step : Int := if ((a != l.a) == (l.a == l.b)) != d.flag R.LINE_CTRL_DIRINV then 1 else -1
        let pos := (d.reg R.LINE_POS).toInt + step
        let top := max l.top pos
        exec (.encoderEdge a b) s = s.after ((({ seen with line := { seen.line with top := top } } : Dev).setReg R.LINE_POS
          (BitVec.ofInt 32 pos)).setFlag R.LINE_STAT_REV (pos < top)))) ∧
    (∀ low high, d.mode = 8 → d.flag R.LINE_CTRL_EN = true → d.fld R.LINE_CTRL_SRC = 2 → d.flag R.LINE_CTRL_MASTER = false →
      (16 ≤ low ∧ 16 ≤ high → exec (.lsyncPulse low high) s = s.after { d with line := { l with follow := true } }) ∧
      (low < 16 ∨ high < 16 → exec (.lsyncPulse low high) s = s.after ((d.setFlag R.LINE_STAT_SYNCERR true).raise 0x35))) ∧
    (∀ t, d.mode = 8 → d.flag R.LINE_CTRL_EN = true →
      (d.fld R.LINE_CTRL_SRC = 0 ∧ d.strobeAt l.strobes ≤ l.top ∨
        d.fld R.LINE_CTRL_SRC = 1 ∧ t = d.internalAt l.strobes ∨ d.fld R.LINE_CTRL_SRC = 2 ∧ l.follow = true) →
      let i := l.strobes
      let u := { d with line := { l with
        strobes := i + 1, follow := false, last := t, lsyncOut := l.lsyncOut + bn (d.flag R.LINE_CTRL_MASTER) } }
      let u := ((u.setFld R.LINE_STAT_SCNT ((i + 1) % 2 ^ 24)).setReg R.LINE_TLAST (BitVec.ofInt 32 (d.roadNs t))).raise 0x34
      let v := if i ≠ 0 ∧ d.roadNs ((t : Int) - l.last) < d.fld R.LINE_MINP_MINP then (u.setFlag R.LINE_STAT_OVSP true).raise 0x35 else u
      let v := v.strobeRegions i
      (i < d.lead.copied → exec (.lineStrobe t) s = s.after ((v.marginStrobe i t).wayStrobe)) ∧
      (d.lead.copied ≤ i →
        let late := ({ v with lead := { v.lead with late := v.lead.late ++ [i] } }.addFld R.GAL_LSTAT_LATE 1).raise 0x36
        exec (.lineStrobe t) s = s.after (((late.queuesLate i).marginStrobe i t).wayStrobe))) ∧
    (∀ x : StreamId,
      let lends := ((d.st x).openMilestones.filter (fun j => j.sd.getLsbD 0)).length
      let ahead := BitVec.ofNat 16 ((if d.mode = 8 then d.fld R.LINE_STAT_SCNT else 0) + d.fld (R.LINE_GATE_AHEAD x)) -
        BitVec.ofNat 16 (d.fld (R.LINE_GSTAT_GLINE x) + lends)
      d.flag (R.LINE_GSTAT_WAIT x) = true → lends < 2 ^ 16 → 0 < ahead.toInt →
        exec (.lineGateAdmit x) s = s.after (d.setFlag (R.LINE_GSTAT_WAIT x) false))

/-- R32, R273, R297 to R302, R306, R307, R311: the event controller. A line's edge or level makes its enabled source pending; a core's claim takes
the pending source of the highest priority, the lowest number among equals; DONE ends it for its owner and a level line makes it
pending again; the timer and the disabling of a group release what it holds; a vector's message leaves once. The release of the cores:
each starts at its SYS_CPC, outside its I-TCM with the fetch-error trap; a mode that runs C0 alone keeps the others in reset. -/
def Obligations.EventsPendAndClaim : Prop :=
  ∀ (s : State) (r : Requester) (v : Word),
    let d := s.dev
    (∀ (src : BitVec 8) (x : Bool), d.domOn 0 = true → sourceHasLine src.toNat = true → d.sourcePowered src.toNat = true →
      let n := src.toNat
      let lined := { d with evc := { d.evc with line := setBit d.evc.line n x } }
      let pends := x && d.srcEn n && (if d.flag (R.EVC_SRC_LEVEL n) then !d.evc.act.getLsbD n else !d.evc.line.getLsbD n)
      exec (.eventLineChange src x) s = s.after (if pends then lined.pendSource n else lined)) ∧
    (∀ n, n < 256 → (d.evc.pend.getLsbD n = true → d.pendSource n = d) ∧
      (d.evc.pend.getLsbD n = false → (d.fld (R.EVC_SRC_GROUP n) = 0 ∨ d.flag (R.EVC_MOD_EN (d.fld (R.EVC_SRC_GROUP n))) = false) →
        (d.srcTargets n).getLsbD 4 = false → d.fallback n ≠ some 4 → d.pendSource n = d.setPend n true)) ∧
    (∀ w : Fin 8, d.Writes r .evc (R.EVC_SET w.val) v →
      exec (.eventSet r w v) s = s.wrote (forEach ((List.range 32).filter v.getLsbD) d.drawn
        (fun d i => if d.srcEn (32 * w.val + i) then d.pendSource (32 * w.val + i) else d))) ∧
    (∀ c : CoreId, d.Carries (d.who (.core c)) 0x04 → d.road.asked = [] →
      (∀ n, d.offer c.val = some n →
        (d.offerable c.val n = true ∧ d.canTake c.val = true ∧ ∀ m, m < 256 → d.offerable c.val m = true →
          d.fld (R.EVC_SRC_PRIO m) < d.fld (R.EVC_SRC_PRIO n) ∨ d.fld (R.EVC_SRC_PRIO m) = d.fld (R.EVC_SRC_PRIO n) ∧ n ≤ m) ∧
        exec (.claim c) s = s.after ((((d.drawn.setPend n false).setAct n true).setOwner n c.val).respond 0
          (leBytes 4 (2 ^ 31 + d.fld (R.EVC_SRC_PRIO n) * 2 ^ 24 + n)))) ∧
      (d.offer c.val = none → exec (.claim c) s = s.after ((d.drawn.addFld R.EVC_STAT_SPUR 1).respond 0 [0, 0, 0, 0]))) ∧
    (∀ (o : Fin 5) (src : BitVec 8), d.Writes (ownerRequester o) .evc (R.EVC_DONE o.val) (src.setWidth 32) →
      let n := src.toNat
      let ended := (d.drawn.setAct n false).setOwner n 5
      (¬(d.evc.act.getLsbD n = true ∧ d.evcOwner n = o.val) → exec (.done o src) s = s.wrote (d.drawn.addFld R.EVC_STAT_BADDONE 1)) ∧
      (d.evc.act.getLsbD n = true → d.evcOwner n = o.val → d.evc.pend.getLsbD n = false →
        exec (.done o src) s = s.wrote (if d.srcEn n && d.flag (R.EVC_SRC_LEVEL n) && d.evc.line.getLsbD n then ended.pendSource n
          else ended)) ∧
      (d.evc.act.getLsbD n = true → d.evcOwner n = o.val → d.evc.pend.getLsbD n = true → d.evcHeld n = 0 →
        (d.srcTargets n).getLsbD 4 = false → d.fallback n ≠ some 4 → exec (.done o src) s = s.wrote ended)) ∧
    (∀ g : BitVec 4, g ≠ 0 → let k := g.toNat
      (d.domOn 0 = true → d.flag (R.EVC_MOD_EN k) = true → d.fld (R.EVC_MOD_TIMER k) ≠ 0 → d.evcCount k ≠ 0 →
        ∃ t, exec (.modTimerExpire g) s = s.after t ∧ t.evcCount k = 0 ∧
          ∀ n, t.evcHeld n = if d.evcHeldBy n = k then 0 else d.evcHeld n) ∧
      (let w := v &&& 0x7FFFFFFF
       d.Writes r .evc (R.EVC_MOD k) w →
        exec (.modDisable r g v) s = s.wrote ((d.fielded r .evc (R.EVC_MOD k) w).releaseGroup k))) ∧
    (∀ vec : BitVec 6, d.evc.msix.getLsbD vec.toNat = true → d.hostOut = true → d.host.msixEn = true → d.host.msixMask = false →
      d.msixMasked vec.toNat = false →
        exec (.msixSend vec) s = s.after { d with evc := { d.evc with msix := setBit d.evc.msix vec.toNat false } }) ∧
    (d.Writes r .sys R.SYS_CRUN v →
      let t := d.drawn.setReg R.SYS_CRUN ((v &&& 0xE) ||| 1)
      let held := forEach [(1 : CoreId), 2, 3] t (fun d c =>
        if v.getLsbD c.val = false ∧ (d.co c).mode ≠ .reset then ((d.setCo c {}).dropOwner c.val).bridgeReset c.val else d)
      exec (.coreRun r v) s = s.wrote (if d.mode = 2 ∨ d.mode = 3 ∨ d.mode = 0xB then held else
        forEach [(1 : CoreId), 2, 3] held (fun d c =>
          if (d.reg R.SYS_CRUN).getLsbD c.val = true ∧ (d.co c).mode = .reset then
            let pc := d.reg (R.SYS_CPC c.val) &&& 0xFFFFFFFE
            let e := d.setCo c (coreStart c pc)
            if 0x08000000 ≤ pc.toNat ∧ pc.toNat < 0x08008000 then e else e.trap c .fetch pc pc false
          else d)))

/-! The road. -/

/-- R316 to R321, R330, R332, R334, R335: packets. A request reads or writes a core's TCM at once and is answered with its TID; a posted
one writes and is not answered; a message changes nothing that its sender's command has not. At an address that nothing maps it is
answered DECODE, at a dead node DEAD, at a bridge in RESETX LINK_DOWN, at one that is isolated ASLEEP, or it waits while the
node's domain wakes. The responses of one channel from one node to one requester arrive in the order of their injection; each ends its
request, answers the engine or the core's load that waits for it, and is sunk where its requester is dead. -/
def Obligations.PacketsReachTheirTargets : Prop :=
  ∀ (s : State) (p : Packet),
    let d := s.dev
    let a := p.addr.toNat
    let n := p.len.toNat + 1
    let enters := fun k : PacketKind => d.canRequest p.src.toNat = true ∧ packetOk k p = true ∧ d.tidOk k p = true ∧ p.src.toNat ≤ 0x20 ∧ d.ProbesOff
    (d.ProbesOff → ∀ node, nodeOfAddr d.chipId a = some node → d.nodeDead node = false → (hasBridge node = true → d.brState node = 0) →
      ((∀ i, i < n → d.place (a + i) = some (.tcm (a + i))) →
        (enters .rd → exec (.rd p) s = s.after (d.sendResp (openReq node .rd p 0 (d.bytes a n)))) ∧
        (enters .mrd → exec (.mrd p) s = s.after (d.sendResp (openReq node .mrd p 0 (d.bytes a n)))) ∧
        (enters .wr → exec (.wr p) s = s.after ((d.setBytes a p.data).sendResp (openReq node .wr p 0 []))) ∧
        (enters .mwr → exec (.mwr p) s = s.after ((d.setBytes a p.data).sendResp (openReq node .mwr p 0 [])))) ∧
      ((∀ i, i < p.data.length → d.place (a + i) = some (.tcm (a + i))) →
        let stored := forEach (packetPieces a p.data) d (fun d x => d.setBytes x.1 x.2)
        (enters .pwr → exec (.pwr p) s = s.after stored) ∧ (enters .swr → exec (.swr p) s = s.after stored)) ∧
      (enters .msg → exec (.msg p) s = s.after d)) ∧
    (enters .rd →
      (nodeOfAddr d.chipId a = none → exec (.rd p) s = s.after (d.answer 0x3F .rd p 1)) ∧
      (∀ node, nodeOfAddr d.chipId a = some node →
        (d.nodeDead node = true → exec (.rd p) s = s.after ((d.addFld R.ROAD_DEADCNT_COUNT 1).answer node .rd p 5)) ∧
        (d.nodeDead node = false → hasBridge node = true →
          (d.brState node = 5 → exec (.rd p) s = s.after (d.answer node .rd p 4)) ∧
          (d.brState node = 3 → (d.flag (R.ROAD_BR_AW node) = false ∨ d.canWake node = false) →
            exec (.rd p) s = s.after ((d.addFld (R.ROAD_BR_ASLP node) 1).answer node .rd p 3)) ∧
          (d.brState node = 3 → d.flag (R.ROAD_BR_AW node) = true → d.canWake node = true → d.heldAt node = [] →
            ((d.setBr node 4).wakeNode node).ProbesOff →
            let e := (d.setBr node 4).wakeNode node
            exec (.rd p) s = s.after
              ({ e with road := { e.road with hold := e.road.hold ++ [(BitVec.ofNat 6 node, PacketKind.rd, p)] } }.countHeld node))))) ∧
    (∀ (m : Bool) (tid : BitVec 12) (x : OpenReq), d.ProbesOff →
      d.road.resp.find? (fun x => x.tid = tid && x.mgmt = m && d.firstResp x) = some x →
      let c := if m then Instr.mrsp tid else Instr.rsp tid
      let t := { d with road := { d.road with resp := d.road.resp.erase x } }
      let u := (t.answerAsked x).respond x.status x.data
      (d.road.sunk.contains tid = true → exec c s = s.after { t with road := { t.road with sunk := d.road.sunk.erase tid } }) ∧
      (d.road.sunk.contains tid = false → d.nodeDead x.src.toNat = true → exec c s = s.after t) ∧
      (d.road.sunk.contains tid = false → d.nodeDead x.src.toNat = false →
        (x.src = 0x0B → exec c s = s.after (u.modByw (fun b => { b with req := b.req.erase tid }))) ∧
        (x.src ≠ 0x0B → 4 ≤ x.src.toNat → exec c s = s.after u) ∧
        (∀ k : CoreId, x.src.toNat = k.val →
          let v := if x.status = 0 ∨ (d.co k).mode = .reset ∨ (d.co k).mode = .dead then u
            else u.imprecise k .bus (d.flivinOf k.val x.addr.toNat)
          exec c s = s.after (v.loadAnswer k tid x.status x.data))))

/-- R324, R326, R329: the epoch switch and the main links. Markers are held at a router's inputs, one from another router once that router
holds the markers of the inputs that feed the link (log entry 38), and reach an ejection port when its
router holds them from every input; the last one puts the staged entries in force. A flit with a wrong CRC is sent again, and the link
fails when three retries have failed, or when its heartbeat is missing. -/
def Obligations.EpochsAndLinksRun : Prop :=
  ∀ (s : State),
    let d := s.dev
    (∀ (r : Fin 10) (p : Fin 16) (vc : Fin 4), d.flag R.ROAD_EPOCH_SW = true → (routerInputs r.val).contains p.val = true →
      (r.val, p.val, vc.val) ∉ d.road.markers →
      (d.markerSent r.val p.val vc.val = true → d.ProbesOff → exec (.epoch (.router r p vc)) s =
        s.after { d with road := { d.road with markers := d.road.markers ++ [(r.val, p.val, vc.val)] }, free := d.free + 1 }) ∧
      (d.markerSent r.val p.val vc.val = false → exec (.epoch (.router r p vc)) s = s.after d)) ∧
    (∀ (n : BitVec 6) (vc : Fin 4), d.flag R.ROAD_EPOCH_SW = true → n.toNat ≤ 0x20 →
      let ports := fun n : Nat => if n = 0x06 ∨ n = 0x09 then 2 else 1
      d.road.ejects.count (n.toNat, vc.val) < ports n.toNat →
      (∀ p ∈ routerInputs (nodeRouter n.toNat), (nodeRouter n.toNat, p, vc.val) ∈ d.road.markers) →
      let t := { d with road := { d.road with ejects := d.road.ejects ++ [(n.toNat, vc.val)] } }
      ((∃ m v, m < 0x21 ∧ v < 4 ∧ t.road.ejects.count (m, v) ≠ ports m) →
        exec (.epoch (.eject n vc)) s = s.after t) ∧
      ((∀ m v, m < 0x21 → v < 4 → t.road.ejects.count (m, v) = ports m) → ∀ c, d.capture? .road = some c →
        let u := t.applySet .road c
        let u := (u.setFlag R.ROAD_EPOCH_SW false).setFld R.ROAD_EPOCH_NSW (u.fld R.ROAD_EPOCH_NSW + 1)
        exec (.epoch (.eject n vc)) s =
          s.after (({ u with road := { u.road with markers := [], ejects := [] } } : Dev).applied .road).noteLinkPath)) ∧
    (∀ (k : Fin 15) (up : Bool), d.domOn 0 = true → (d.fld R.ROAD_LSTAT_FAIL).testBit k.val = false →
      let i := 2 * k.val + bn up
      let failed := fun (d : Dev) => ((d.setReg R.ROAD_LSTAT (setBit (d.reg R.ROAD_LSTAT) k.val true)).raise 0xD0).noteLinkPath
      exec (.roadFlitReceive k up true) s = s.after (d.setRetries i 0) ∧
      (d.retries i < 3 →
        exec (.roadFlitReceive k up false) s = s.after ((d.setRetries i (d.retries i + 1)).addFld R.ROAD_RETRY_COUNT 1)) ∧
      (d.retries i = 3 → exec (.roadFlitReceive k up false) s = s.after (failed (d.setRetries i 0))) ∧
      exec (.linkHeartbeatTimeout k) s = s.after (failed d))

/-- R331, R333 to R335, R406: bridges and dead nodes. DRAIN ends ISOLATED or, past its limit, UP with the refusal told; a link that
drops answers what is owed with LINK_DOWN and waits in RESETX for the exchange; a node that does not answer in time, or that is killed, is
dead until its bit is written 1; one that kills itself does not have its own response. -/
def Obligations.BridgesAndDeadNodes : Prop :=
  ∀ (s : State) (r : Requester) (n : BitVec 6),
    let d := s.dev
    let k := n.toNat
    (hasBridge k = true → d.brState k = 2 →
      ((∀ x ∈ d.road.resp ++ d.road.waiting, x.node ≠ n) → d.owedTo k = [] →
        exec (.bridgeDrainEnd n) s = s.after (d.setFld (R.ROAD_BR_STATE k) 3)) ∧
      exec (.bridgeDrainTimeout n) s = s.after ((match nodeDom k with
        | some j => (d.setFld (R.ROAD_BR_STATE k) 0).refuseDown j
        | none => d.refuseCore).raise 0xD2)) ∧
    (hasBridge k = true → d.domOn 0 = true → d.brState k ≠ 3 → d.nodeDead k = false →
      exec (.bridgeLinkDown n) s = s.after ((((d.answerWaiting k 4).sinkFor k).answerHeld k 4 (R.ROAD_BR_ASLP k)).setFld
        (R.ROAD_BR_STATE k) 5)) ∧
    (hasBridge k = true → d.brState k = 5 → d.nodeAlive k = true → d.owedTo k = [] →
      exec (.resetExchange n) s = s.after (d.setFld (R.ROAD_BR_STATE k) 0)) ∧
    (d.domOn 0 = true → d.fld R.ROAD_CTRL_TTMO ≠ 0 → (∃ x ∈ d.road.waiting, x.node = n) →
      exec (.targetTimeout n) s = s.after (d.declareDead k)) ∧
    (d.Writes r .road R.ROAD_KILL (n.setWidth 32) →
      (k ≠ (d.who r).node → exec (.roadKill r n) s = s.wrote (d.drawn.declareDead k)) ∧
      (k = (d.who r).node → ∃ x : OpenReq, x.src = n ∧ x.status = 0 ∧
        exec (.roadKill r n) s = s.after ((d.drawn.declareDead k).sendResp x))) ∧
    (k ≤ 0x20 → d.nodeDead k = false →
      (d.declareDead k).nodeDead k = true ∧ (hasBridge k = true → (d.declareDead k).brState k = 6) ∧ (d.declareDead k).heldAt k = [] ∧
      (∀ x ∈ (d.declareDead k).road.waiting, x.node ≠ n) ∧
      ((d.declareDead k).fatal = if d.fatal = none ∧ (k = 0x06 ∨ k = 0x0C) then some 3 else d.fatal)) ∧
    (∀ (w : Fin 2) (j : Fin 32), let v := BitVec.ofNat 32 (2 ^ j.val)
      d.Writes r .road (R.ROAD_DEAD w.val) v → d.nodeDead (32 * w.val + j.val) = true →
        exec (.deadRevive r w v) s = s.wrote ((d.drawn.setReg (R.ROAD_DEAD w.val)
          (setBit (d.reg (R.ROAD_DEAD w.val)) j.val false)).setBr (32 * w.val + j.val) 5))

/-! The Byway fabric. -/

/-- R343 to R346, R418: configuration loads. GO is refused while BUSY, in PRINT for a full load, while a queue of what it loads is enabled, or
for a part of a fabric that is not DONE; else the regions stop, their frames, flip-flops and memories are cleared and their pins are safe or held. A load
that fails leaves its frames cleared; one whose frames and signature are good ends with its pins driven and its regions running. -/
def Obligations.FabricLoads : Prop :=
  ∀ (s : State) (r : Requester),
    let d := s.dev
    let begins := fun (t : Dev) (f : FabricLoad) =>
      let t := (((t.setFlag R.BYW_CFGSTAT_BUSY true).setFlag R.BYW_CFGSTAT_CONFLICT false).setFld R.BYW_CFGSTAT_NCONF 0).setFld
        R.BYW_CFGSTAT_FRAME 0
      let t := (((if f.part then t else t.setFlag R.BYW_CFGSTAT_DONE false).stopRegions f.regions).clearFrames f).clearCells f.regions
      let hold := t.fld R.BYW_RGNCTL_PINHOLD
      t.modByw (fun b => { b with
        load := some f, clear := setMask b.clear f.regions true, fullDigest := if f.part then b.fullDigest else [],
        pins := setPins b.pins f.regions (fun k =>
          if f.part && hold.testBit k && b.pins.toList.getD k .safe = .logic then .held else .safe) })
    let fails := fun (t : Dev) (f : FabricLoad) (c : Nat) =>
      let t := (t.clearFrames f).modByw (fun b => { b with load := none, pins := setPins b.pins f.regions (fun _ => .safe) })
      (((t.setFlag R.BYW_CFGSTAT_BUSY false).setFlag R.BYW_CFGSTAT_ERR true).setFld R.BYW_CFGSTAT_ECAUSE c).raise 0xD4
    (let t := d.fielded r .byw R.BYW_CFGCMD 1
     d.Writes r .byw R.BYW_CFGCMD 1 →
      ((d.flag R.BYW_CFGSTAT_BUSY = true ∨ d.mode = 8) → exec (.fabricFullLoad r) s = s.wrote (t.cfgRefuse 1)) ∧
      (d.flag R.BYW_CFGSTAT_BUSY = false → d.mode ≠ 8 →
        (d.anyQueue = true → exec (.fabricFullLoad r) s = s.wrote (t.cfgRefuse 7)) ∧
        (d.anyQueue = false → exec (.fabricFullLoad r) s = s.wrote (begins t { part := false, rgn := 0, phase := .reading })))) ∧
    (∀ g : BitVec 3, let v := BitVec.ofNat 32 (3 + g.toNat * 8)
     let t := d.fielded r .byw R.BYW_CFGCMD v
     d.Writes r .byw R.BYW_CFGCMD v →
      (d.flag R.BYW_CFGSTAT_BUSY = true → exec (.fabricPartialLoad r g) s = s.wrote (t.cfgRefuse 1)) ∧
      (d.flag R.BYW_CFGSTAT_BUSY = false →
        ((d.regionQueue g.toNat || d.flag R.BYW_CAPSTAT_ARMED) = true → exec (.fabricPartialLoad r g) s = s.wrote (t.cfgRefuse 7)) ∧
        ((d.regionQueue g.toNat || d.flag R.BYW_CAPSTAT_ARMED) = false →
          (d.flag R.BYW_CFGSTAT_DONE = false → exec (.fabricPartialLoad r g) s = s.wrote (t.cfgRefuse 8)) ∧
          (d.flag R.BYW_CFGSTAT_DONE = true → exec (.fabricPartialLoad r g) s = s.wrote (begins t { part := true, rgn := g, phase := .reading }))))) ∧
    (∀ f, d.byw.load = some f → f.phase = .reading →
      (d.streamOff 0 64 = none → ∀ ok, exec (.fabricFramesRead ok) s = s.after (fails d f 2)) ∧
      (∀ a, d.streamOff 0 64 = some a →
        let x := d.galRead a 64
        let h := parseHeader x.1
        exec (.fabricFramesRead false) s = s.after (fails x.2.2 f 2) ∧
        (x.2.1 = true → exec (.fabricFramesRead true) s = s.after (fails x.2.2 f 2)) ∧
        (x.2.1 = false →
          (x.2.2.headerMatches f h = false → exec (.fabricFramesRead true) s = s.after (fails x.2.2 f 3)) ∧
          (x.2.2.headerMatches f h = true →
            (∀ c e, x.2.2.readFrames (f.addrs.mapIdx (fun i a => (i, a))) = (.error c, e) →
              exec (.fabricFramesRead true) s = s.after (fails e f c)) ∧
            (∀ seen e b, x.2.2.readFrames (f.addrs.mapIdx (fun i a => (i, a))) = (.ok seen, e) →
              e.streamOff (64 + 264 * f.addrs.length) 3136 = some b → (e.galRead b 3136).2.1 = false →
                exec (.fabricFramesRead true) s = s.after (((e.galRead b 3136).2.2.modByw (fun y => { y with
                  load := some { f with phase := .verifying, slot := h.slot, sig := parseSig (e.galRead b 3136).1 },
                  fullDigest := if f.part then y.fullDigest
                    else (List.range 32).map (Config.shake256 (x.1 ++ seen.reverse.flatten)) })).verifyRequest .fabric)))))) ∧
    (∀ f, d.byw.load = some f → f.phase = .verifying → d.verifyFirst .fabric = true →
      let e := d.verifyEnd
      (e.keyOk (if f.part then 5 else 4) f.slot = false → ∀ v, exec (.fabricVerifyDone v) s = s.after (fails e f 9)) ∧
      (e.keyOk (if f.part then 5 else 4) f.slot = true →
        (∀ v, v ≠ .pass → exec (.fabricVerifyDone v) s = s.after (fails e f 6)) ∧
        (f.sig.ok = false → exec (.fabricVerifyDone .pass) s = s.after (fails e f 6)) ∧
        (f.sig.ok = true → exec (.fabricVerifyDone .pass) s = s.after ((e.startCells f.regions).modByw (fun b => { b with
          load := some { f with phase := .starting }, clear := setMask b.clear (f.regions.filter (fun k => d.flag (R.BYW_CLK_EN k))) false }))))) ∧
    (∀ f, d.byw.load = some f → f.phase = .starting → ∃ t, exec .fabricOutputsEnable s = s.after t ∧ t.byw.load = none ∧
      t.byw.pins = setPins d.byw.pins f.regions (fun _ => .logic) ∧ t.flag R.BYW_CFGSTAT_BUSY = false ∧
      t.flag R.BYW_CFGSTAT_DONE = (!f.part || d.flag R.BYW_CFGSTAT_DONE) ∧
      (∀ k, k < 8 → (t.fld R.BYW_RGNCTL_RUN).testBit k = (decide (k ∈ f.regions) || (d.fld R.BYW_RGNCTL_RUN).testBit k)))

/-- R347 to R352, R355, R356: the queue controllers, capture, and the fabric's own requests. A queue takes the next line that has been
copied; a gather read delivers 64 bytes and the words that they complete; a pop on a running tree takes one word; a capture is armed, taken once its trigger
has come while its tree runs, and read out word by word; a request of the logic is a packet of node 0x0B without attributes. -/
def Obligations.FabricServesItsLogic : Prop :=
  ∀ (s : State) (q : Fin 48) (r : Requester),
    let d := s.dev
    let x := d.bq q
    (d.queueOn q.val = true → x.line = none → x.next < d.lead.copied → x.next ∉ d.lead.late → d.queueEntries q.val ≠ [] →
      exec (.queueLineBegin q) s = s.after (d.setBq q { x with
        line := some x.next, blank := false, pos := 0, part := 0, parts := 0, words := 0, blocks := [] })) ∧
    (d.queueOn q.val = true → x.line = none → x.next ∈ d.lead.late →
      exec (.queueLineBegin q) s = s.after ((d.setBq q { x with
        line := some x.next, blank := true, pos := 0, part := 0, parts := 0, words := 0, blocks := [] }).blankFill q)) ∧
    (∀ k p l rest, d.queueOn q.val = true → x.line = some k → x.blank = false →
      (d.queuePositions q.val).drop x.pos = (p, l) :: rest →
      let g := d.galRead (d.slotOff k + (d.codeBlock p).2) 64
      let y := d.takeCodes q.val
        { x with blocks := ((d.codeBlock p).1, (d.codeBlock p).2, g.1) :: x.blocks.filter (fun e => e.1 ≠ (d.codeBlock p).1) } ((p, l) :: rest)
      y.fifo.length ≤ 1024 → x.pos < y.pos ∧
        (y.pos < (d.queuePositions q.val).length → exec (.gatherRead q) s = s.after (g.2.2.setBq q y)) ∧
        ((d.queuePositions q.val).length ≤ y.pos → exec (.gatherRead q) s = s.after ((g.2.2.setBq q y).finishLine q k))) ∧
    (d.queueOn q.val = true → d.treeRuns (d.fld (R.BYW_QCFG_QCLK q.val)) = true → x.blank = false →
      exec (.queuePop q) s = s.after (d.setBq q { x with fifo := x.fifo.drop 1 })) ∧
    (d.queueOn q.val = true → d.treeRuns (d.fld (R.BYW_QCFG_QCLK q.val)) = true → x.blank = true →
      exec (.queuePop q) s = s.after ((d.setBq q { x with fifo := x.fifo.drop 1 }).blankFill q)) ∧
    ((d.reg R.BYW_CAPCTL).getLsbD 30 = false →
      let v := setBit (d.reg R.BYW_CAPCTL) 31 true
      let t := d.fielded r .byw R.BYW_CAPCTL v
      d.Writes r .byw R.BYW_CAPCTL v → exec (.captureArm r) s = s.wrote
        (if d.flag R.BYW_CFGSTAT_BUSY || d.flag R.BYW_CAPSTAT_ARMED then t.setFlag R.BYW_CAPSTAT_ERR true
         else (t.modByw (fun b => { b with struck := false })).setFlag R.BYW_CAPSTAT_ARMED true)) ∧
    ((d.reg R.BYW_CAPCTL).getLsbD 31 = false →
      let v := setBit (d.reg R.BYW_CAPCTL) 30 true
      d.Writes r .byw R.BYW_CAPCTL v →
        exec (.captureResume r) s = s.wrote ((d.fielded r .byw R.BYW_CAPCTL v).setFlag R.BYW_CAPSTAT_STOPPED false)) ∧
    (∀ ffs, d.flag R.BYW_CAPSTAT_ARMED = true → d.treeRuns (d.fld R.BYW_CAPCTL_CLK) = true →
      (d.fld R.BYW_CAPCTL_TRIG = 0 ∨ d.fld R.BYW_CAPCTL_TRIG = 1 ∧ d.byw.struck = true ∨ d.fld R.BYW_CAPCTL_TRIG = 2) →
      let u := d.setFlops ffs
      let t := ((u.modByw (fun b => { b with capture := u.flopWords ++ (List.finRange 48).map u.captureQueue })).setFlag
        R.BYW_CAPSTAT_ARMED false).setFlag R.BYW_CAPSTAT_TAKEN true
      exec (.captureTake ffs) s =
        s.after ((if d.flag R.BYW_CAPCTL_STOP then t.setFlag R.BYW_CAPSTAT_STOPPED true else t).raise 0xD5)) ∧
    (d.Carries (d.who r) 0x0B → d.road.asked = [] → ¬d.debugLevel < levelNeeded (d.who r) .byw R.BYW_RBDATA →
      ∀ w, d.byw.capture[d.fld R.BYW_RBADDR_WORD]? = some w → exec (.rbdataRead r) s =
        s.after (((d.drawn.setFld R.BYW_RBADDR_WORD ((d.fld R.BYW_RBADDR_WORD + 1) % 2 ^ 16)).setReg R.BYW_RBDATA w).respond 0
          (leBytes 4 w.toNat))) ∧
    (∀ p node, d.domOn 1 = true → d.fld R.BYW_RGNCTL_RUN ≠ 0 → d.canRequest 0x0B = true → d.ProbesOff →
      d.tidOk .rd { p with src := 0x0B, sys := false, sec := false } = true →
      nodeOfAddr d.chipId p.addr.toNat = some node → d.nodeDead node = false → (hasBridge node = true → d.brState node = 0) →
      let pk := { p with src := 0x0B, sys := false, sec := false }
      let asked := fun d : Dev => d.modByw (fun b => { b with req := b.req ++ [p.tid] })
      (p.data = [] → (∀ i, i < p.len.toNat + 1 → d.place (p.addr.toNat + i) = some (.tcm (p.addr.toNat + i))) →
        exec (.fabricRoadRequest false p) s =
          s.after (asked (d.sendResp (openReq node .rd pk 0 (d.bytes p.addr.toNat (p.len.toNat + 1)))))) ∧
      (p.data.length = p.len.toNat + 1 → (∀ i, i < p.data.length → d.place (p.addr.toNat + i) = some (.tcm (p.addr.toNat + i))) →
        exec (.fabricRoadRequest true p) s =
          s.after (asked ((d.setBytes p.addr.toNat p.data).sendResp (openReq node .wr pk 0 [])))))

/-! The host interface. -/

/-- R311, R359 to R362, R367: TLPs and the resets of the host interface. A read or write of BAR2 reaches the ordinary gallery as a
request of node 0x08, one of BAR4 the MSI-X table; an offset that no BAR maps is refused. A reset of the interface gives its registers
their reset values and its link's fall is told; FLR empties the queues; in D3hot nothing is served. -/
def Obligations.HostAccessesAndResets : Prop :=
  ∀ (s : State) (off : BitVec 32) (len : Nat) (l : List Byte),
    let d := s.dev
    let o := off.toNat
    (d.hostIn = true →
      (d.Carries hostWho 0x06 → d.road.asked = [] → 0 < len → o % 64 + len ≤ 64 → o + len ≤ 0x2000000 → d.galleryOpen hostWho o len = true → d.underMarch o len = false →
        (d.galRead o len).2.1 = false →
        exec (.hostReadTlp 2 off len) s = s.after ((d.drawn.galRead o len).2.2.respond 0 (d.galRead o len).1)) ∧
      (d.canRequest 0x08 = true → d.nodeDead 0x06 = false → d.ProbesOff → 0 < l.length → o % 64 + l.length ≤ 64 → o + l.length ≤ 0x2000000 →
        d.galleryOpen hostWho o l.length = true → d.underMarch o l.length = false → (d.galWrite true o l).1 = false →
        exec (.hostWriteTlp 2 off l) s = s.after (d.galWrite true o l).2) ∧
      (o + len ≤ 0x4000 → exec (.hostReadTlp 4 off len) s = s.after (d.respond 0 ((List.range len).map (fun i => d.bar4Byte (o + i))))) ∧
      (o % 4 = 0 → o < 0x400 → ∀ v : Word, exec (.hostWriteTlp 4 off (leBytes 4 v.toNat)) s = s.after { d with host := { d.host with
        msixTab := bankSet (fun k => if k % 4 = 3 then (1 : Word) else 0) d.host.msixTab (o / 4) v } }) ∧
      (∀ b : Fin 6, barAddr b.val o = none → b.val ≠ 4 →
        exec (.hostReadTlp b off len) s = s.after (d.respond 1 []) ∧ exec (.hostWriteTlp b off l) s = s.after (d.raise 0x61))) ∧
    (d.hostIn = false → ∀ b, exec (.hostReadTlp b off len) s = s.after d ∧ exec (.hostWriteTlp b off l) s = s.after d) ∧
    (∀ (tid : BitVec 12) (x : OpenReq), d.road.waiting.find? (fun x => x.node = 0x08 && x.tid = tid) = some x →
      let t := { d with road := { d.road with waiting := d.road.waiting.erase x } }
      exec (.hostCompletionTlp tid true l) s = s.after (t.sendResp { x with status := 0, data := l }) ∧
      exec (.hostCompletionTlp tid false l) s = s.after (t.sendResp { x with status := 2, data := [] }) ∧
      exec (.completionTimeout tid) s = s.after (t.sendResp { x with status := 2, data := [] })) ∧
    (d.domOn 2 = true →
      (let t := { (d.dropHost.bridgeReset 0x08).resetWindow .host with host := {} }
       ∀ c ∈ [Instr.perst, .hotReset], exec c s = s.after (if d.flag R.HOST_LSTAT_UP then t.raise 0x60 else t)) ∧
      (∃ t, exec .flr s = s.after t ∧ t.flag R.HOST_LSTAT_FLR = true ∧ t.host = {} ∧
        ∀ q, q < 16 → t.reg (R.HOST_QSQT q) = 0 ∧ t.reg (R.HOST_QCQH q) = 0 ∧ t.reg (R.HOST_QSTAT q) = 0 ∧ t.flag (R.HOST_QCFG_EN q) = false) ∧
      (∃ t, exec .d3hotEntry s = s.after t ∧ t.hostIn = false ∧ t.host.d3hot = true ∧
        ∀ q : Fin 16, (t.hostQ q).cmd = none ∧ t.fld (R.HOST_QSTAT_HEAD q.val) = t.fld (R.HOST_QSQT_TAIL q.val)) ∧
      (∀ (up l1 : Bool) (speed width : BitVec 4),
        let t := (((d.setFlag R.HOST_LSTAT_UP up).setFld R.HOST_LSTAT_SPEED speed.toNat).setFld R.HOST_LSTAT_WIDTH width.toNat).setFlag
          R.HOST_LSTAT_L1 l1
        exec (.hostLinkChange up speed width l1) s = s.after (if t.reg R.HOST_LSTAT = d.reg R.HOST_LSTAT then t else t.raise 0x60)) ∧
      (d.flag R.HOST_LSTAT_UP = true → ∀ b : Bool,
        exec (.configWriteTlp (.busMaster b)) s = s.after { d with host := { d.host with busMaster := b } } ∧
        exec (.configWriteTlp (.msixEnable b)) s = s.after { d with host := { d.host with msixEn := b } } ∧
        exec (.configWriteTlp (.msixMask b)) s = s.after { d with host := { d.host with msixMask := b } } ∧
        exec (.configWriteTlp .toD0) s = s.after { d with host := { d.host with d3hot := false } }))

/-- R363 to R367: the queues. A doorbell takes its number, one at or above the queue's size is an error; the next queue's entry is
fetched, and a firmware command is put into its mailbox with its event, or waits while the mailbox cannot be written; a copy moves bytes up to its length; an opcode that none
names ends with status 1. -/
def Obligations.HostQueuesRun : Prop :=
  ∀ (s : State) (r : Requester) (q : Fin 16) (v : BitVec 12) (e : Sqe),
    let d := s.dev
    let t := { d with host := { d.host with served := q.val } }
    let ends := fun (d : Dev) (st detail : Nat) => ({ d with free := d.free + 1 } : Dev).complete q st detail (Config.freeWord d.free)
    let size := d.fld (R.HOST_QCFG_SZM1 q.val) + 1
    (d.Writes r .host (R.HOST_QSQT q.val) (v.setWidth 32) →
      let u := d.drawn.setFld (R.HOST_QSQT_TAIL q.val) v.toNat
      exec (.sqDoorbell r q v) s = s.wrote (if size ≤ v.toNat then u.setFlag (R.HOST_QSTAT_QERR q.val) true else u)) ∧
    (d.Writes r .host (R.HOST_QCQH q.val) (v.setWidth 32) →
      let u := d.drawn.setFld (R.HOST_QCQH_HEAD q.val) v.toNat
      exec (.cqDoorbell r q v) s = s.wrote (if size ≤ v.toNat then u.setFlag (R.HOST_QSTAT_QERR q.val) true else u)) ∧
    (d.nextQueue = some q → d.queueFetches q = true → (e.fence = false ∨ ∀ k, k ≠ q → (d.hostQ k).cmd = none) →
      let taken := fun (d : Dev) fw =>
        let u := d.setFld (R.HOST_QSTAT_HEAD q.val) ((d.fld (R.HOST_QSTAT_HEAD q.val) + 1) % (d.fld (R.HOST_QCFG_SZM1 q.val) + 1))
        u.setHostQ q { u.hostQ q with cmd := some ⟨e, 0, fw⟩ }
      (d.mode = 3 → e.opc ≠ 0x21 → exec (.commandStep e) s = s.after (ends (taken t false) 6 0)) ∧
      ((d.mode ≠ 3 ∨ e.opc = 0x21) →
        (firmwareOpc e.opc.toNat = false → exec (.commandStep e) s = s.after (taken t false)) ∧
        (firmwareOpc e.opc.toNat = true →
          let x := t.sweepWrite hostWho (0x40000000 + d.fld R.HOST_MBOX_BASE * 4096 + 64 * q.val) (Sqe.bytes e)
          (x.1.stuck = true → exec (.commandStep e) s = s.after x.2) ∧
          (x.1.stuck = false → x.1.st ≠ 0 → exec (.commandStep e) s = s.after (ends (taken x.2 false) 3 x.1.st.toNat)) ∧
          (x.1.stuck = false → x.1.st = 0 → exec (.commandStep e) s = s.after ((taken x.2 true).raise (0x40 + q.val)))))) ∧
    (∀ (c : HostCmd), d.nextQueue = some q → (d.hostQ q).cmd = some c → c.fw = false →
      let goes := fun (d : Dev) (n : Nat) => if c.e.len.toNat ≤ c.moved + n then ends d 0 0
        else d.setHostQ q { d.hostQ q with cmd := some { c with moved := c.moved + n } }
      (c.e.opc = 1 → ∀ l : List Byte,
        exec (.copyin q l false) s = s.after (ends t 4 0) ∧
        (let x := t.sweepWrite hostWho (c.e.raddr.toNat + c.moved) (l.take (c.e.len.toNat - c.moved))
         exec (.copyin q l true) s = s.after (if x.1.st = 0 then goes x.2 x.1.data.length else ends x.2 3 x.1.st.toNat))) ∧
      (c.e.opc = 2 → ∀ n : Nat,
        let x := t.sweepRead hostWho (c.e.raddr.toNat + c.moved) (min n (c.e.len.toNat - c.moved))
        exec (.copyout q n) s = s.after (if x.1.st = 0 then goes x.2 x.1.data.length else ends x.2 3 x.1.st.toNat)) ∧
      (c.e.opc ≠ 1 → c.e.opc ≠ 2 → exec (.invalidHostOpcode q) s = s.after (ends t 1 0))) ∧
    (∀ (c : HostCmd) (st detail : Nat) (res : BitVec 64), (d.hostQ q).cmd = some c →
      let x := d.hostQ q
      let tail := (x.cqTail + 1) % size
      let u := d.complete q st detail res
      u.hostQ q = { cmd := none, cqTail := tail, phase := x.phase != decide (tail = 0) } ∧
      u.host.cqes = d.host.cqes ++ (if d.hostOut then
        [(BitVec.ofNat 4 q.val, completion c.e.cid.toNat (d.fld (R.HOST_QSTAT_HEAD q.val)) st detail x.phase res)] else []) ∧
      (c.fw = true → ∀ w, w = setBit (d.reg (R.HOST_FWDC q.val)) 31 true → d.Writes r .host (R.HOST_FWDC q.val) w →
        let y := d.fielded r .host (R.HOST_FWDC q.val) w
        exec (.fwComplete r q) s = s.wrote (y.complete q (y.fld (R.HOST_FWDC_STATUS q.val)) (y.fld (R.HOST_FWDC_DETAIL q.val))
          ((d.reg (R.HOST_FWDH q.val)).append (d.reg (R.HOST_FWD q.val))))))

/-- R223, R231, R366, R401, R419, R423: the firmware commands. PLAN ends with the first of its checks that fails; MODE with the cause of a
refused request; NVSWR copies into NVS; ATTEST waits for its signature and returns the report; HIMG, FABLOAD and PATCH start the
operation of their registers, and end at once when it is refused. -/
def Obligations.FirmwareCommandsRun : Prop :=
  ∀ (s : State) (q : Fin 16) (c : HostCmd),
    let d := s.dev
    let e := c.e
    let ends := fun (d : Dev) (st detail : Nat) => ({ d with free := d.free + 1 } : Dev).fwFinish q st detail (Config.freeWord d.free)
    (d.hostQ q).cmd = some c → c.fw = true →
      (e.opc = 0x10 → ∀ p : PlanData,
        let lines := (96000000 + p.period - 1) / p.period
        let bad := headsBad p || (List.range 16).any (fun h => 1 ≤ blockPositions p h && blockPositions p h ≤ 4096 * ((p.perHall + 4095) / 4096 - 1))
        let gov := p.govEn && (decide (p.guard16 * 16000 < 2 * p.spanTime) || decide (((p.target16 : Int) - p.guard16) * 16000 * 32 < p.period))
        (p.foen = true → p.lead < lines + 2 → exec (.plan q p) s = s.after (ends d 5 1)) ∧
        (p.foen = true → lines + 2 ≤ p.lead → (p.period : Int) - p.work < 2 * p.spanTime → exec (.plan q p) s = s.after (ends d 5 2)) ∧
        (p.foen = true → lines + 2 ≤ p.lead → 2 * (p.spanTime : Int) ≤ p.period - p.work →
          (lines + 1 : Int) * p.work ≤ 1000 * ((p.period : Int) - p.work) →
          (p.halls &&& ~~~d.arr.verified ≠ 0 → exec (.plan q p) s = s.after (ends d 5 4)) ∧
          (p.halls &&& ~~~d.arr.verified = 0 → bad = false → gov = false →
            exec (.plan q p) s = s.after (if d.flag R.SEQ_RSTAT_LNKF then ends d 5 8 else ends d 0 0))) ∧
        (p.foen = false →
          (headsBad p = true → exec (.plan q p) s = s.after (ends d 5 5)) ∧
          (bad = false → gov = true → exec (.plan q p) s = s.after (ends d 5 7)) ∧
          (bad = false → gov = false → exec (.plan q p) s = s.after (ends d 0 0)))) ∧
      (e.opc = 0x11 →
        let t := (d.setFlag R.PWR_MSTAT_REF false).modeRequest 0 ((e.params.getD 0 0).toNat % 16)
        (t.flag R.PWR_MSTAT_REF = true → exec (.mode q) s = s.after (ends t 5 (t.fld R.PWR_MSTAT_RCAUSE))) ∧
        (t.flag R.PWR_MSTAT_REF = false →
          exec (.mode q) s = s.after (ends (if d.flag R.PWR_MSTAT_REF then t.setFlag R.PWR_MSTAT_REF true else t) 0 0))) ∧
      (e.opc = 0x20 → ∀ off : BitVec 23,
        let x := d.sweepRead fwWho e.raddr.toNat e.len.toNat
        let y := x.2.sweepWrite fwWho (0x20000000 + off.toNat) x.1.data
        x.1.stuck = false → (x.1.st ≠ 0 → exec (.nvswr q off) s = s.after (ends x.2 3 x.1.st.toNat)) ∧
          (x.1.st = 0 → y.1.stuck = false →
            exec (.nvswr q off) s = s.after (if y.1.st = 0 then ends y.2 0 0 else ends y.2 3 y.1.st.toNat))) ∧
      (e.opc = 0x21 → ∀ sig : List Byte,
        (e.len.toNat < 3392 → exec (.attest q sig) s = s.after (d.fwFinish q 2 0 3392)) ∧
        (3392 ≤ e.len.toNat → q ∉ d.sec.sign → exec (.attest q sig) s =
          s.after (({ d with sec := { d.sec with
            sign := d.sec.sign ++ [q], serve := if d.sec.sign = [] then !d.sec.verifs.isEmpty else d.sec.serve } } : Dev).setFlag R.SEC_STAT_BUSY true)) ∧
        (3392 ≤ e.len.toNat → d.sec.sign.head? = some q → d.fld R.SEC_STAT_SSTEP = 120 → exec (.attest q sig) s =
          let time := d.pow.aonTime + Config.freeWord d.free
          s.after (ends ((({ d with free := d.free + 1, pow := { d.pow with aonTime := time } } : Dev).respond 0
            (d.reportBody e time ++ (reportBlock sig).bytes)).endSign) 0 0))) ∧
      (∀ (w : Dev) (l l' : List Byte),
        (e.opc = 0x22 →
          (d.setFlag R.SEQ_HIMGCMD_ERR false).write fwWho R.SEQ_HIMGCMD (leBytes 4 (2 ^ 31 + (e.params.getD 0 0).toNat % 4 * 2 ^ 8 +
            (e.params.getD 1 0).toNat % 16)) = .answered 0 l w →
          exec (.himg q) s = s.after (if w.flag R.SEQ_HIMGCMD_ERR then ends w 5 (w.fld R.SEQ_HIMGCMD_ECAUSE) else w)) ∧
        (e.opc = 0x23 → e.raddr.toNat < 2 ^ 32 → e.raddr.toNat % 8 = 0 → ∀ u : Dev,
          d.write fwWho R.BYW_CFGSRC (leBytes 4 e.raddr.toNat) = .answered 0 l' u →
          (u.setFlag R.BYW_CFGSTAT_ERR false).write fwWho R.BYW_CFGCMD
            (leBytes 4 (if e.params.getD 0 0 = 1 then 3 + (e.params.getD 1 0).toNat % 8 * 8 else 1)) = .answered 0 l w →
          exec (.fabload q) s = s.after (if w.flag R.BYW_CFGSTAT_ERR then ends w 5 (w.fld R.BYW_CFGSTAT_ECAUSE) else w)) ∧
        (e.opc = 0x24 → e.raddr.toNat < 2 ^ 32 → e.raddr.toNat % 8 = 0 → ∀ u : Dev,
          d.write fwWho R.SEQ_PLDSRC (leBytes 4 e.raddr.toNat) = .answered 0 l' u →
          (u.setFlag R.SEQ_PLDSTAT_ERR false).write fwWho R.SEQ_PLDCMD (leBytes 4 (1 + (e.params.getD 0 0).toNat % 2 * 2)) = .answered 0 l w →
          exec (.patch q) s = s.after (if w.flag R.SEQ_PLDSTAT_ERR then ends w 5 (w.fld R.SEQ_PLDSTAT_ECAUSE) else w)))

/-! DRAM, Ramufin, gallery DMA. -/

/-- R241, R371 to R375, R390, R465: the DRAM controller and the Ramufin ports. Training that passes makes the DRAM ready with the usable size;
a port comes up with its partner, unless XTB is the reference; tokens join its buffer in sequence; frames of requests and responses enter the road; the eighth
failed retry takes the port down; a wait past its limit is an unrecovered fault. -/
def Obligations.LinksAndDramRun : Prop :=
  ∀ (s : State) (p : Fin 4),
    let d := s.dev
    let frames (k : BitVec 12) : Dev :=
      { d with link := { d.link with fails := d.link.fails.set p 0, fseq := d.link.fseq.set p (d.link.fseq[p] + k) } }
    let good := frames 1
    let failed := ((({ d with ddr := .failed } : Dev).setFlag R.DDR_STAT_TFAIL true).setFlag R.DDR_STAT_READY false).setFld
      R.DDR_CFG_USIZE 0
    (d.ddr = .training → d.domOn 3 = true →
      exec (.ddrTrainingDone true) s = s.after ((({ d with ddr := .ready } : Dev).setFlag R.DDR_STAT_READY true).setFld R.DDR_CFG_USIZE
        (2 * [2, 4, 8].getD (d.fld R.DDR_CFG_DENS) 2 * 4 * 7 / 8)) ∧
      exec (.ddrTrainingDone false) s = s.after (failed.raise 0xDC)) ∧
    (∀ b, exec (.dqsRetrain b) s = s.after d) ∧
    (d.ddr = .waitPg → exec .ddrVdd2lPgTimeout s = s.after (failed.raise 0xDC) ∧
      exec (.ddrVdd2lPgChange true) s = s.after { d with
        pow := { d.pow with ddrPg := true }, ddr := if d.flag R.DDR_CFG_EN then .training else .powered }) ∧
    (d.ddr = .waitFall → exec .ddrVdd2lPgTimeout s = s.after { d with ddr := .off } ∧
      exec (.ddrVdd2lPgChange false) s = s.after { d with pow := { d.pow with ddrPg := false }, ddr := .off }) ∧
    (d.portTrains p = true →
      (d.xtbRef = true → ∀ chip edge, exec (.linkTrainingDone p chip edge) s = s.after d) ∧
      (d.xtbRef = false → ∀ chip edge,
        let t := ((d.setFlag (R.LINK_PSTAT_UP p.val) true).setFld (R.LINK_PSTAT_PCHIP p.val) chip.toNat).setFlag
          (R.LINK_PSTAT_PEDGE p.val) edge
        exec (.linkTrainingDone p chip edge) s = s.after
          { t with link := { d.link with training := setBit d.link.training p.val false, fails := d.link.fails.set p 0 } }) ∧
      exec (.linkTrainRetry p) s = s.after (d.setFlag (R.LINK_PSTAT_TFAIL p.val) true)) ∧
    (d.edgeOpen p = true →
      (∀ (n : BitVec 16) (x : BitVec 64), let e := d.news[p]
        exec (.newsTokenFrame p n x) s = s.after (if (n - e.base).toNat = e.buf.length ∧ e.buf.length < 4096 then
          { good with news := d.news.set p { e with buf := e.buf ++ [x.setWidth 512] } } else good)) ∧
      (∀ (n : BitVec 16) (x : BitVec 512), let e := d.express[p]
        exec (.expressTokenFrame p n x) s = s.after (if (n - e.base).toNat = e.buf.length ∧ e.buf.length < 512 then
          { frames 2 with express := d.express.set p { e with buf := e.buf ++ [x] } } else frames 2))) ∧
    (d.portUp p = true →
      (∀ (w : Bool) (pk : Packet), let a := pk.addr.toNat
        (¬(0x2000000000 ≤ a ∧ a < 0x2800000000) → exec (.roadRequestFrame p w pk) s = s.after (good.respond 1 [])) ∧
        (0x2000000000 ≤ a → a < 0x2800000000 → (a - 0x2000000000) / 0x100000000 = d.chipId → exec (.roadRequestFrame p w pk) s =
          s.after (good.request (if w then .wr else .rd) { pk with src := 0x0A, sys := false, sec := false })) ∧
        (0x2000000000 ≤ a → a < 0x2800000000 → (a - 0x2000000000) / 0x100000000 ≠ d.chipId → exec (.roadRequestFrame p w pk) s =
          s.after (if (d.devicePort ((a - 0x2000000000) / 0x100000000)).isSome then good else good.respond 1 []))) ∧
      (∀ tid st l x, d.road.waiting.find? (fun x => x.node = 0x0A && x.tid = tid) = some x →
        exec (.roadResponseFrame p tid st l) s = s.after (({ good with road := { d.road with waiting := d.road.waiting.erase x } } : Dev).sendResp
          { x with status := st, data := l })) ∧
      (∀ n cred, exec (.ackCreditFrame p n cred) s =
        s.after { good with link := { good.link with cred := d.link.cred.set p (d.link.cred[p] + cred) } }) ∧
      (∀ chip edge, exec (.controlFrame p chip edge) s =
        s.after ((good.setFld (R.LINK_PSTAT_PCHIP p.val) chip.toNat).setFlag (R.LINK_PSTAT_PEDGE p.val) edge)) ∧
      (d.link.fails[p] ≠ 8 → exec (.ramufinFrameCrcFail p) s = s.after
        (({ d with link := { d.link with fails := d.link.fails.set p (d.link.fails[p] + 1) } } : Dev).addFld (R.LINK_PSTAT_RETRY p.val) 1)) ∧
      (d.link.fails[p] = 8 →
        let t := (d.setFlag (R.LINK_PSTAT_UP p.val) false).setFlag (R.LINK_PSTAT_PEDGE p.val) false
        exec (.ramufinFrameCrcFail p) s = s.after
          { t with link := { d.link with fails := d.link.fails.set p 0, training := setBit d.link.training p.val true } })) ∧
    (∀ x : StreamId, d.domOn 4 = true → d.fld R.LINK_EWAIT_LIM ≠ 0 → d.waitsAt p x = true →
      exec (.edgeWaitTimeout p x) s = s.after (((d.setFlag (R.LINK_PSTAT_ETO p.val) true).raise (0xD8 + p.val)).unrecovered x
        (d.phys (d.portHall p x).val) 127 0))

/-- R376: the gallery DMA engines. GO starts a copy, or while one runs is an error; a copy of blocks of 64 bytes between ranges of the
cores' TCMs that do not overlap ends DONE with every byte in place and no other byte of memory changed. -/
def Obligations.DmaCopies : Prop :=
  ∀ (s : State) (r : Requester) (e : Fin 8) (v : Word),
    let d := s.dev
    (let w := v ||| 0x80000000
     let t := d.fielded r .gal (R.GAL_DMACTL e.val) w
     d.Writes r .gal (R.GAL_DMACTL e.val) w →
      (d.flag (R.GAL_DMACTL_BUSY e.val) = false → exec (.dmaStart r e v) s = s.wrote (t.setFlag (R.GAL_DMACTL_BUSY e.val) true)) ∧
      (d.flag (R.GAL_DMACTL_BUSY e.val) = true →
        exec (.dmaStart r e v) s = s.wrote ((t.setFlag (R.GAL_DMACTL_ERR e.val) true).setFld (R.GAL_DMACTL_RSTAT e.val) 0xF))) ∧
    (∀ src dst n from_ to_, d.flag (R.GAL_DMACTL_BUSY e.val) = true → d.dmaSrc e.val = src → d.dmaDst e.val = dst →
      d.fld (R.GAL_DMACTL_LEN64 e.val) = n → (src + 64 * n ≤ dst ∨ dst + 64 * n ≤ src) →
      (∀ i, i < 64 * n → nodeOfAddr d.chipId (src + i) = some from_ ∧ d.place (src + i) = some (.tcm (src + i)) ∧
        nodeOfAddr d.chipId (dst + i) = some to_ ∧ d.place (dst + i) = some (.tcm (dst + i))) →
      d.Carries (d.who (.dma e)) from_ → d.Carries (d.who (.dma e)) to_ → d.road.asked = [] →
        ∃ t, exec (.dmaDone e) s = s.after t ∧ t.flag (R.GAL_DMACTL_BUSY e.val) = false ∧ t.flag (R.GAL_DMACTL_DONE e.val) = true ∧
          (∀ i, i < 64 * n → t.byte (dst + i) = d.byte (src + i)) ∧
          (∀ a, (a < dst ∨ dst + 64 * n ≤ a) → t.byte a = d.byte a))

/-! Supplies, domains, clocks, modes. -/

/-- R377 to R383, R387, R394, R400, R410, R469: supplies, domains and heat. A sample of VIN within its window is recorded, one outside
it takes the part to OFF with NVS kept, as does a low VMID; a domain that was asked for comes up or goes off; a trip is recorded and
acts on what it names; start-up goes to BOOT when AON, VMID and the reference are good. -/
def Obligations.PowerRuns : Prop :=
  ∀ (s : State) (r : Requester) (v : Word),
    let d := s.dev
    let pow := fun (f : PowerState → PowerState) => ({ d with pow := f d.pow } : Dev)
    let trip := fun (d : Dev) (k : Nat) => (d.setFld R.PWR_MONF_TRIP (d.fld R.PWR_MONF_TRIP ||| 2 ^ k)).raise 0xE0
    let off := fun (c : Instr) (cause : OffCause) => ∃ t, exec c s = s.after t ∧ t.mode = 0 ∧ t.domOn 0 = false ∧ t.pow.off = some cause ∧
      (∀ a, 0x20000000 ≤ a → a < 0x20800000 → t.byte a = d.byte a)
    (∀ (mv : BitVec 16) (lo hi : Nat), let n := mv.toNat
      let t := pow (fun p => { p with vinOut := decide (n < 4200 ∨ 20000 < n) })
      (d.mode = 0 → exec (.vinSample mv lo hi) s = s.after t) ∧
      (d.mode ≠ 0 → d.aonOn = true → 3800 ≤ n → n ≤ 22000 →
        let t := t.setFld R.PWR_VIN_MV n
        let t := if n < 4000 ∧ 10 ≤ lo then (t.setFlag R.PWR_VSTAT_UVW true).raise 0xE1 else t
        exec (.vinSample mv lo hi) s = s.after (if 21000 < n ∧ 10 ≤ hi then (t.setFlag R.PWR_VSTAT_OVW true).raise 0xE1 else t)) ∧
      (d.mode ≠ 0 → (n < 3800 ∨ 22000 < n) → off (.vinSample mv lo hi) .vin)) ∧
    (d.aonOn = true → (d.mode ≠ 4 ∨ d.pow.fromStandby = true) → off .vmidUndervoltage .vmid) ∧
    (d.mode = 0 → d.pow.vinOut = false → d.pow.off ≠ some .thermal → exec .rampRestart s = s.after
      (((pow (fun p => { p with off := none, aonGood := false, vmidGood := false, xtaDone := false })).setFld R.PWR_MSTAT_FROM 0).setFld
        R.PWR_MSTAT_MODE 1)) ∧
    (d.Writes r .pwr R.PWR_DREQ v → ∃ t, exec (.domainRequest r v) s = s.wrote t ∧ t.reg R.PWR_DREQ = v &&& 0x01FFFF3F ∧
      ∀ k ∈ seqDomains, t.pow.goal.getLsbD k = (if domUse d.mode k = .cfg then v.getLsbD k else d.pow.goal.getLsbD k) ∧
        (d.pow.rising.getLsbD k = false → d.pow.falling.getLsbD k = false →
          t.pow.rising.getLsbD k = (t.pow.goal.getLsbD k && !d.heldOff k && !d.domOn k) ∧
          t.pow.falling.getLsbD k = (!(t.pow.goal.getLsbD k && !d.heldOff k) && d.domOn k))) ∧
    (∀ k : Fin 25,
      (d.pow.rising.getLsbD k.val = true → (isHallDom k.val = true → d.pow.started.getLsbD k.val = true) → (k.val = 5 → d.beforeStep6 = false) →
        d.owedTo (domNode k.val) = [] → ∃ t, exec (.domainUp k) s = s.after t ∧ t.domOn k.val = true ∧ t.pow.rising.getLsbD k.val = false) ∧
      (d.pow.falling.getLsbD k.val = true → d.isolated k.val = true →
        ∃ t, exec (.domainOff k) s = s.after t ∧ t.domOn k.val = false ∧ t.pow.falling.getLsbD k.val = false) ∧
      (∀ us, d.monitored k.val = true →
        (k.val = 0 → exec (.supplyTrip k us) s = s.after { trip d 0 with fatal := some 4 }) ∧
        (1 ≤ k.val → k.val ≤ 5 → exec (.supplyTrip k us) s = s.after ((trip d k.val).declareDead (domNode k.val))))) ∧
    (∀ (h : HallId) us, d.monitored (8 + h.val) = true →
      let t := { trip d (8 + h.val) with arr := { d.arr with reports := d.arr.reports ++ [.dead h] } }
      exec (.supplyTrip ⟨8 + h.val, by omega⟩ us) s = s.after t ∧ exec (.hallClockFail h) s = s.after t) ∧
    (∀ us, d.aonOn = true → (d.mode ≠ 4 ∨ d.pow.fromStandby = true) → us < 50 → exec (.supplyTrip 6 us) s = s.after (trip d 6)) ∧
    ((d.fld R.CLK_STAT_LOCK).testBit 2 = true →
      let ks := (((List.range 17).map (8 + ·)).filter (fun k => d.pow.rising.getLsbD k && !d.pow.started.getLsbD k)).take 4
      exec .hallDomainGroupStart s = s.after (pow (fun p => { p with started := ks.foldl (fun m k => setBit m k true) p.started }))) ∧
    (d.mode = 1 →
      (∀ st, d.pow.aonGood = false → d.pow.resetLow = false → d.pow.vmidGood = false → exec (.aonPowerGood st) s =
        s.after (pow (fun p => { p with aonGood := true, straps := some st, xtaDone := st.xsel }))) ∧
      exec .aonPowerGoodTimeout s = s.after d ∧
      (d.pow.aonGood = true → d.pow.vmidGood = false →
        (d.pow.xtaDone = false → exec .vmidGood s = s.after (pow (fun p => { p with vmidGood := true }))) ∧
        (d.pow.xtaDone = true → ∃ t, exec .vmidGood s = s.after t ∧ t.domOn 0 = true ∧
          t.mode = (if d.flag R.CLK_STAT_XFAIL then 3 else 2)))) ∧
    (∀ (l : List (BitVec 16)) (warm hot : Nat), d.mode ≠ 0 → d.aonOn = true → l.length ≤ 18 →
      let t := d.setFld R.PWR_THERM_TMAX (wrapInt 16 (l.foldl (fun m x => max m x.toInt) (sval 16 (d.fld R.PWR_THERM_TMAX))))
      ((∀ x ∈ l, x.toInt < 880) → exec (.thermalSample l warm hot) s = s.after t) ∧
      (∀ i x, l[i]? = some x → 880 ≤ x.toInt → (∀ j y, j < i → l[j]? = some y → y.toInt < 880) → 1 ≤ warm → (∀ y ∈ l, y.toInt < 960) →
        exec (.thermalSample l warm hot) s = s.after (((t.setFlag R.PWR_THERM_WARN true).setFld R.PWR_THERM_SENS i).raise 0xE5)) ∧
      ((∃ x ∈ l, 960 ≤ x.toInt) → 1 ≤ hot → off (.thermalSample l warm hot) .thermal))

/-- R389 to R391, R393, R396: the references, the PLLs, the hall clocks' trim and the frequency meter. -/
def Obligations.ClocksRun : Prop :=
  ∀ (s : State) (r : Requester) (v : Word),
    let d := s.dev
    (∀ khz st old, d.mode = 1 → d.pow.aonGood = true → d.pow.xtaDone = false → d.pow.vmidGood = false → d.pow.straps = some old →
      d.pow.fromStandby = false →
      let t := if 19400 ≤ khz ∧ khz ≤ 51500 then d.setFlag R.CLK_STAT_XAOK true else d.setFlag R.CLK_STAT_XFAIL true
      exec (.xtaCheck khz st) s = s.after { t with pow := { t.pow with
        xtaDone := true, xtaKhz := khz, straps := some { st with oscdly := old.oscdly, xsel := old.xsel } } }) ∧
    (∀ hz, d.pow.aonGood = true → d.flag R.CLK_STAT_XBOK = false → exec (.xtbCheck hz) s = s.after
      (if 31129600 ≤ 1000 * hz ∧ 1000 * hz ≤ 34406400 then d.setFlag R.CLK_STAT_XBOK true else d)) ∧
    (∀ b : Bool, let ok := if b then R.CLK_STAT_XBOK else R.CLK_STAT_XAOK
      let t := (d.setFlag ok false).raise 0xE2
      d.flag ok = true → (d.beforeStep6 = false ∨ d.flag R.CLK_SEL_SYSSRC = true) →
        exec (.crystalStop b) s = s.after (if d.xtbRef = b then t.setFlag R.CLK_STAT_XFAIL true else t)) ∧
    (∀ n : Fin 4, d.domOn 0 = true →
      (d.flag (R.CLK_PLL_EN n.val) = true → (d.fld R.CLK_STAT_LOCK).testBit n.val = false → d.refOk = true → n ≠ 2 →
        d.beforeStep6 = false → d.mode ≠ 5 →
          exec (.pllLock n) s = s.after (d.setFld R.CLK_STAT_LOCK (d.fld R.CLK_STAT_LOCK + 2 ^ n.val))) ∧
      ((d.fld R.CLK_STAT_LOCK).testBit n.val = true →
        let t := d.setFld R.CLK_STAT_LOCK (d.fld R.CLK_STAT_LOCK - 2 ^ n.val)
        exec (.pllLockLost n) s = s.after ((t.setFld R.CLK_STAT_LOST (d.fld R.CLK_STAT_LOST ||| 2 ^ n.val)).raise 0xE2))) ∧
    (d.domOn 0 = true → d.flag (R.CLK_PLL_EN 2) = true → (d.fld R.CLK_STAT_LOCK).testBit 2 = false → d.refOk = true →
      d.beforeStep6 = false → d.mode ≠ 5 →
        exec (.pllLock 2) s = s.after (d.setFld R.CLK_STAT_LOCK (d.fld R.CLK_STAT_LOCK + 4)).startFirstGroup) ∧
    (∀ (h : HallId) (b : Bool), d.domOn (8 + h.val) = true → exec (.hallTrim h b) s = s.after { d with
      pow := { d.pow with trim := d.pow.trim.set h (d.pow.trim[h] + if b then 1 else -1) } }) ∧
    (let w := v ||| 0x80000000
     let t := d.fielded r .clk R.CLK_FMCTL w
     d.Writes r .clk R.CLK_FMCTL w → exec (.fmeterStart r v) s =
       s.wrote (if d.flag R.CLK_FMCTL_BUSY then t else t.setFlag R.CLK_FMCTL_BUSY true)) ∧
    (∀ n, d.flag R.CLK_FMCTL_BUSY = true →
      let t := d.fld R.CLK_FMCTL_TSEL
      let c := if t ≤ 0x18 ∧ (0x11 ≤ t ∨ d.domOn (8 + t) = true) then min n 0xFFFFFFFF else 0
      exec (.fmeterDone n) s =
        s.after (((d.setReg R.CLK_FMRES (BitVec.ofNat 32 c)).setFlag R.CLK_FMCTL_BUSY false).setFlag R.CLK_FMCTL_DONE true))

/-- R401 to R404, R407, R408: modes, wakes, resets, the watchdog. A request that R401 does not list or that arrives in a transition is
refused with its cause; a listed one whose preconditions hold starts, and ends in its mode when the domains have settled; a full
reset leaves RAMP, with NVS, the fuses and the cause kept; the watchdog resets at its second expiry. -/
def Obligations.ModesRun : Prop :=
  ∀ (s : State) (r : Requester),
    let d := s.dev
    let reset := fun (t : Dev) (cause : Fld) => t.mode = 1 ∧ t.domOn 0 = false ∧ t.flag cause = true ∧ t.lcs = d.lcs ∧
      (∀ a, 0x20000000 ≤ a → a < 0x20800000 → t.byte a = d.byte a) ∧ (∀ a, 0x40000000 ≤ a → a < 0x41700000 → t.byte a = byteReset a)
    (∀ e ∈ ([(Instr.modeReqIdle r, 6), (.modeReqReady r, 7), (.modeReqPrint r, 8), (.modeReqService r, 9), (.modeReqSleep r, 5),
        (.modeReqStandby r, 4)] ++ (List.range 16).map (fun n => (.modeReqUnlisted r (BitVec.ofNat 4 n), n)) : List (Instr × Nat)),
      let v := BitVec.ofNat 32 (2 ^ 31 + e.2)
      let t := (d.fielded r .pwr R.PWR_MREQ v).setFld R.PWR_MREQ_TGT e.2
      let refused := fun c => ((t.setFlag R.PWR_MSTAT_REF true).setFld R.PWR_MSTAT_RCAUSE c).raise 0xE4
      d.Writes r .pwr R.PWR_MREQ v →
        ((d.mode = 0xA ∨ d.mode = 0xB) → exec e.1 s = s.wrote (refused 4)) ∧
        (d.mode ≠ 0xA → d.mode ≠ 0xB →
          (d.flag R.PWR_MSTAT_BUSY = true → exec e.1 s = s.wrote (refused 1)) ∧
          (d.flag R.PWR_MSTAT_BUSY = false →
            ((d.mode, e.2) ∉ [(2, 6), (6, 7), (7, 8), (8, 7), (7, 6), (9, 6), (6, 9), (7, 9), (6, 5), (6, 4)] → exec e.1 s = s.wrote (refused 2)) ∧
            ((d.mode, e.2) ∈ [(2, 6), (6, 7), (7, 8), (8, 7), (7, 6), (9, 6), (6, 9), (7, 9), (6, 5), (6, 4)] →
              (d.modeReady (d.who r).coreId d.mode e.2 = false → exec e.1 s = s.wrote (refused 3)) ∧
              (d.modeReady (d.who r).coreId d.mode e.2 = true → d.test = none →
                let u := ((t.setFlag R.PWR_MSTAT_BUSY true).setFld R.PWR_MSTAT_TO e.2).applyMode e.2
                exec e.1 s = s.wrote (if e.2 = 4 ∨ e.2 = 5 then u.fenceCore else u)))))) ∧
    (d.transitionReady = true → let m := d.fld R.PWR_MSTAT_TO
      m ≠ 4 → m ≠ 5 → d.pow.haltReq = 0 → ∃ t, exec .modeTransitionDone s = s.after t ∧ t.mode = m ∧ t.flag R.PWR_MSTAT_BUSY = false ∧
        t.fld R.PWR_MSTAT_FROM = d.mode ∧
        (m = 8 → t.reg R.LINE_POS = 0 ∧ t.fld R.LINE_STAT_SCNT = 0 ∧ t.line.strobes = 0) ∧ (d.mode = 8 → t.pow.galReady = false)) ∧
    (d.flag R.PWR_MSTAT_BUSY = false →
      (d.mode = 5 → ∀ e ∈ [(Instr.wakePin, R.PWR_WAKE_PIN), (.wakeAlarm, R.PWR_WAKE_ALRM), (.wakeHost, R.PWR_WAKE_HOST)], d.flag e.2 = true →
        d.domOn 0 = false → ∃ t, exec e.1 s = s.after t ∧ t.domOn 0 = true ∧ (t.co 0).pc = d.reg R.PWR_RESUME &&& 0xFFFFFFFE ∧
          (t.co 0).sec = false ∧ t.fld R.PWR_MSTAT_TO = 6 ∧ t.flag R.PWR_MSTAT_BUSY = true) ∧
      (d.mode = 4 → ∀ e ∈ [(Instr.wakePin, R.PWR_WAKE_PIN), (.wakeAlarm, R.PWR_WAKE_ALRM)], d.flag e.2 = true →
        exec e.1 s = s.after ((({ d with pow := { d.pow with
          wakeDue := false, fromStandby := true, vmidGood := false, xtaDone := d.xtbRef } } : Dev).setFlag R.PWR_MSTAT_BUSY true).setFld
            R.PWR_MSTAT_TO 2))) ∧
    (∀ v : Word, let w := v ||| 0x80000000
      let t := d.fielded r .pwr R.PWR_BOOTADR w
      d.Writes r .pwr R.PWR_BOOTADR w → (d.mode = 2 ∨ d.mode = 3) → d.pow.boot = some .wait → exec (.bootOffer r v) s =
        s.wrote { t.verifyRequest .boot with pow := { d.pow with boot := some .host } }) ∧
    (d.mode ≠ 0 → ∃ t, exec .resetPin s = s.after t ∧ reset t R.PWR_RSTC_PIN ∧ t.pow.resetLow = true) ∧
    (d.mode = 0 → exec .resetPin s = s.after { d with pow := { d.pow with resetLow := true } }) ∧
    (exec .resetNRelease s = s.after { d with pow := { d.pow with resetLow := false } }) ∧
    (d.Writes r .pwr R.PWR_RST 0x80000000 → ∃ t, exec (.softwareReset r) s = s.wrote t ∧ reset t R.PWR_RSTC_SW) ∧
    (d.flag R.PWR_WDOG_EN = true → d.mode ∈ [2, 6, 7, 8, 9] →
      (d.pow.wdogOnce = false →
        exec .watchdogExpire s = s.after (({ d with pow := { d.pow with wdogOnce := true } } : Dev).raise 0xE3)) ∧
      (d.pow.wdogOnce = true → ∃ t, exec .watchdogExpire s = s.after t ∧ reset t R.PWR_RSTC_WDOG)) ∧
    (∀ key : BitVec 16, d.Writes r .pwr R.PWR_WKICK (key.setWidth 32) → exec (.watchdogKick r key) s =
      s.wrote (if key = 0x6517 then { d.drawn with pow := { d.pow with wdogOnce := false } } else d.drawn))

/-! Security, debug, test. -/

/-- R406, R411 to R413, R416, R419, R420, R428, R429: the security engine and tamper. Steps derive the key and count a signature; a burn
revokes its slots; a detected source latches, wipes, drops the key and the debug level and takes the part to LOCKOUT; a good image
runs at its entry without the secure attribute, a bad first image gives way to the second. -/
def Obligations.SecurityRuns : Prop :=
  ∀ (s : State),
    let d := s.dev
    (d.sec.sign ≠ [] → d.sec.serve = true → exec .secStepEnd s = s.after d) ∧
    (d.sec.sign ≠ [] → d.sec.serve = false →
      let stepped := fun derive => ({ d with sec := { d.sec with derive := derive, serve := !d.sec.verifs.isEmpty } } : Dev)
      (d.flag R.SEC_STAT_KEYRDY = false →
        (d.sec.derive < 499 → exec .secStepEnd s = s.after (stepped (d.sec.derive + 1))) ∧
        (499 ≤ d.sec.derive → exec .secStepEnd s = s.after ((stepped 0).setFlag R.SEC_STAT_KEYRDY true))) ∧
      (d.flag R.SEC_STAT_KEYRDY = true → let n := d.fld R.SEC_STAT_SSTEP
        (n < 119 → exec .secStepEnd s = s.after ((stepped d.sec.derive).setFld R.SEC_STAT_SSTEP (n + 1))) ∧
        (n = 119 → exec .secStepEnd s = s.after (((stepped d.sec.derive).setFld R.SEC_STAT_SSTEP 120).raise 0xE8)))) ∧
    (∀ k : VerifyKind,
      (d.verifyRequest k).sec.verifs = d.sec.verifs ++ [k] ∧ (d.verifyRequest k).fld R.SEC_STAT_NVQ = (d.sec.verifs.length + 1) % 256 ∧
      (d.verifyRequest k).flag R.SEC_STAT_BUSY = true ∧ d.verifyEnd.sec.verifs = d.sec.verifs.tail) ∧
    (∀ m, d.sec.burn = some m → d.pow.boot ≠ some .revocation → exec .fuseBurnDone s =
      s.after ((({ d with sec := { d.sec with burn := none } } : Dev).setFld R.SEC_KEYS_REVOKED
        (d.fld R.SEC_KEYS_REVOKED ||| m.toNat)).setFlag ⟨cstatAddr .sec, 1, 1⟩ false)) ∧
    (∀ n : Fin 5, 2 ≤ d.mode → d.mode ≠ 0xB → ((d.lcs = 2 ∧ n.val < 3) ∨ (d.fld R.PWR_TAMPEN_EN).testBit n.val = true) →
      ∃ t, exec (.tamperDetect n) s = s.after t ∧ t.mode = 0xB ∧ t.flag R.PWR_TAMP_LATCH = true ∧
        (t.fld R.PWR_TAMP_SRC).testBit n.val = true ∧ t.secureShut = true ∧ t.flag R.SEC_STAT_KEYRDY = false ∧
        t.fld R.DBG_STAT_LVL = 0 ∧ t.domOn 1 = false ∧ (∀ h, h < 17 → t.domOn (8 + h) = false) ∧
        (n = 0 → d.lcs = 2 → t.flag R.SEC_LCS_TFUSE = true)) ∧
    (∀ b a, d.pow.boot = some b → d.bootAddr b = some a → d.verifyFirst .boot = true →
      let e := d.verifyEnd
      (e.imageOk a = true → d.mode = 2 →
        let h := parseHeader (e.imageBytes a 64)
        ∃ t, exec (.firmwareVerifyDone .pass) s = s.after t ∧ t.pow.boot = none ∧ (t.co 0).sec = false ∧
          (t.co 0).pc = 0x08000000 + BitVec.ofNat 32 h.entry ∧ t.sec.fwVersion = BitVec.ofNat 32 h.version ∧
          t.bytes (0x0C000000 + h.target) h.bodyLen = e.imageBytes (a + 64) h.bodyLen) ∧
      (b = .image 0 → ∀ v, (v ≠ .pass ∨ e.imageOk a = false) → exec (.firmwareVerifyDone v) s =
        s.after { e.verifyRequest .boot with pow := { d.pow with boot := some (.image 1) } }))

/-- R402, R405, R431 to R434: debug. NEWCH draws a nonce; a token is verified once against it and gives its level when its slot may; a
failed one blocks NEWCH; a halt stops the cores and RESUME lets them go on in the mode that was left; the memory port moves on by 4. -/
def Obligations.DebugRuns : Prop :=
  ∀ (s : State) (r : Requester),
    let d := s.dev
    (∀ nonce, (d.reg R.DBG_TOKCMD).getLsbD 31 = false →
      let v := setBit (d.reg R.DBG_TOKCMD) 30 true
      d.canRequest (d.who r).node = true → d.writeRefused (d.who r) .dbg R.DBG_TOKCMD v = false → d.sec.blocked = false →
        d.mode ≠ 3 → d.mode ≠ 0xB → ∃ t, exec (.debugNewch r nonce) s = s.wrote t ∧ t.sec = { d.sec with nonce := true } ∧
          ∀ k, k < 8 → t.reg (R.DBG_CHAL k) = nonce.getD k 0) ∧
    ((d.reg R.DBG_TOKCMD).getLsbD 30 = false →
      let v := setBit (d.reg R.DBG_TOKCMD) 31 true
      let t := d.fielded r .dbg R.DBG_TOKCMD v
      d.Writes r .dbg R.DBG_TOKCMD v → d.flag R.DBG_STAT_TOKBUSY = false → d.mode ≠ 3 → d.mode ≠ 0xB →
        let lvl := if d.sec.nonce then t.fld R.DBG_TOKCMD_REQLVL else 0
        exec (.debugTokenGo r) s = s.wrote ((({ t with sec := { d.sec with
          nonce := false, tokReq := some (BitVec.ofNat 2 lvl, BitVec.ofNat 3 (t.fld R.DBG_TOKCMD_SLOT)) } } : Dev).setFlag
            R.DBG_STAT_TOKBUSY true).verifyRequest .token)) ∧
    (∀ lvl slot, d.sec.tokReq = some (lvl, slot) → d.verifyFirst .token = true →
      let e := (({ d with sec := { d.sec with tokReq := none } } : Dev).setFlag R.DBG_STAT_TOKBUSY false).verifyEnd
      let good := d.tokenBlock.ok && d.slotValid slot.toNat && tokenAllowed d.lcs slot.toNat lvl.toNat && decide (d.mode ≠ 3 ∧ d.mode ≠ 0xB)
      (good = true → exec (.debugTokenDone .pass) s = s.after ((e.setLevel lvl.toNat (if slot = 4 then 1 else 2)).raise 0xE9)) ∧
      (∀ v, (v ≠ .pass ∨ good = false) → exec (.debugTokenDone v) s =
        s.after { e.setFlag R.DBG_STAT_TOKERR true with sec := { e.sec with blocked := true } })) ∧
    exec .newchBlockExpire s = s.after { d with sec := { d.sec with blocked := false } } ∧
    (∀ m : BitVec 4, d.Writes r .dbg R.DBG_HALT (m.setWidth 32) →
      (m ≠ 0 → 6 ≤ d.mode → d.mode ≤ 9 → d.flag R.PWR_MSTAT_BUSY = false → ∃ t, exec (.debugHalt r m) s = s.wrote t ∧ t.mode = 0xA ∧
        t.pow.haltFrom = d.mode ∧ (∀ c : CoreId, (d.co c).mode ≠ .reset → (t.co c).halted = true) ∧
        (∀ x : StreamId, d.ownsStream x = true → (d.st x).held = none → (t.st x).preReq = true)) ∧
      ((d.mode = 2 ∨ (d.flag R.PWR_MSTAT_BUSY = true ∧ d.mode ≠ 3 ∧ d.mode ≠ 0xA ∧ d.mode ≠ 0xB)) → exec (.debugHalt r m) s =
        s.wrote { d.drawn.setFld R.DBG_HALT_HREQ m.toNat with pow := { d.pow with haltReq := m } })) ∧
    (d.Writes r .dbg R.DBG_HALT 0x80000000 → d.mode = 0xA → d.pow.haltFrom < 16 → ∃ t, exec (.debugResume r) s = s.wrote t ∧
      t.mode = d.pow.haltFrom ∧ t.fld R.DBG_STAT_HALTED = 0 ∧ ∀ c : CoreId, (t.co c).halted = false) ∧
    (∀ v node, let a := d.memPortAddr
      d.canRequest (d.who r).node = true → 2 ≤ d.debugLevel → d.Carries ⟨0x0F, true, false⟩ node → d.road.asked = [] →
        (∀ i, i < 4 → nodeOfAddr d.chipId (a + i) = some node ∧ d.place (a + i) = some (.tcm (a + i))) →
        let next := fun d : Dev => (d.setReg R.DBG_MADDR (BitVec.ofNat 32 (a + 4))).setFld R.DBG_MADDRH_HI ((a + 4) / 2 ^ 32)
        exec (.memPortAccess r true v) s = s.after ((next ((((d.drawn.setBytes a (leBytes 4 v.toNat)).setReg R.DBG_MDATA v)).setFld
          R.DBG_STAT_MSTAT 0)).respond 0 []) ∧
        (d.Carries (d.who r) 0x04 → ∃ t, exec (.memPortAccess r false v) s = s.after t ∧ t.resp = ⟨0, d.bytes a 4⟩ ∧
          t.reg R.DBG_MADDR = BitVec.ofNat 32 (a + 4) ∧ ∀ b, t.byte b = d.byte b))

/-- R436 to R446: waymark units and self-tests. A sample reaches the units that watch its source and is counted in its bin; a window's
end stops its unit; SNAP shows and CLR clears the statistics; a self-test starts when R442 admits it and its result stands in its
registers; a burn keeps its entries as fuses. -/
def Obligations.WaymarksAndTestsRun : Prop :=
  ∀ (s : State) (r : Requester),
    let d := s.dev
    (∀ (src : BitVec 4) (sel : BitVec 5) (v : Word), d.domOn 0 = true → ∃ t, exec (.waymarkSample src sel v) s = s.after t ∧
      ∀ w : Fin 16, let u := d.way[w]
        let x := v.toInt
        let b := wayBin (d.reg (R.WAY_BASE w.val)).toInt (d.fld (R.WAY_STEP_STEP w.val)) x
        if d.fld (R.WAY_CFG_SRC w.val) = src.toNat ∧ d.fld (R.WAY_CFG_SEL w.val) = sel.toNat ∧ d.wayTakes w.val = true then
          (t.way[w]).nsamp = satCount u.nsamp ∧
          (t.way[w]).min = (if u.nsamp = 0 ∨ x < u.min.toInt then v else u.min) ∧
          (t.way[w]).max = (if u.nsamp = 0 ∨ u.max.toInt < x then v else u.max) ∧
          b < 32 ∧ ∀ k (hk : k < 32), (t.way[w]).bins[k] = if k = b then satCount u.bins[k] else u.bins[k]
        else t.way[w] = u) ∧
    (∀ w : Fin 16, let win := d.fld (R.WAY_STEP_WIN w.val)
      (d.flag (R.WAY_CFG_EN w.val) = true → win ≠ 0 → d.flag (R.WAY_CTL_STOP w.val) = false → win ≤ (d.way[w]).strobes →
        exec (.waymarkWindowEnd w) s = s.after ((d.setFlag (R.WAY_CTL_STOP w.val) true).raise (0xC0 + w.val))) ∧
      (d.Writes r .way (R.WAY_CTL w.val) 0x40000000 → exec (.waymarkClear r w) s =
        s.wrote (({ d.drawn with way := d.way.set w {} } : Dev).setFlag (R.WAY_CTL_STOP w.val) false)) ∧
      (d.Writes r .way (R.WAY_CTL w.val) 0x80000000 → (d.way[w]).nsamp ≠ 0 → ∃ t, exec (.waymarkSnap r w) s = s.wrote t ∧ t.way = d.way ∧
        t.reg (R.WAY_SNAP w.val 0) = (d.way[w]).min ∧ t.reg (R.WAY_SNAP w.val 1) = (d.way[w]).max ∧
        t.reg (R.WAY_SNAP w.val 2) = ((d.way[w]).nsamp).setWidth 32 ∧
        ∀ b (hb : b < 32), t.reg (R.WAY_SNAP w.val (4 + 2 * b)) = ((d.way[w]).bins[b]).setWidth 32 ∧
          t.reg (R.WAY_SNAP w.val (5 + 2 * b)) = ((d.way[w]).bins[b] >>> 32).setWidth 32)) ∧
    (∀ m : BitVec 17, ∀ e ∈ [(Instr.bistInterconnect r m, 1), (.bistHallLogic r m, 2), (.bistPeMarch r m, 3), (.bistSpareRows r m, 4)],
      let v := BitVec.ofNat 32 (2 ^ 31 + e.2 * 2 ^ 28 + m.toNat)
      let t := d.fielded r .test R.TEST_BCMD v
      d.Writes r .test R.TEST_BCMD v →
        (∀ c, d.testRefusal e.2 m.toNat = some c →
          exec e.1 s = s.wrote ((t.setFlag R.TEST_BSTAT_ERR true).setFld R.TEST_BSTAT_ECAUSE c)) ∧
        (d.testRefusal e.2 m.toNat = none →
          let u := { t.setFlag R.TEST_BSTAT_BUSY true with test := some (BitVec.ofNat 3 e.2, m) }
          exec e.1 s = s.wrote (if e.2 = 1 then u.hostReset else u))) ∧
    (∀ res m, d.pow.testReq = none →
      let fin := fun (d : Dev) (bad : Bool) =>
        let t := (d.setFlag R.TEST_BSTAT_BUSY false).setFlag R.TEST_BSTAT_DONE true
        if bad then t.setFlag R.TEST_BSTAT_FAIL true else t
      let t := { d with test := none }
      (d.test = some (1, m) → exec (.bistDone res) s = s.after (fin (((t.setFlag R.TEST_BIRES_VAL true).setFld R.TEST_BIRES_NFAIL
        res.nfail.toNat).setFld R.TEST_BIRES_FIRST res.first.toNat) (decide (res.nfail ≠ 0)))) ∧
      (d.test = some (4, m) → exec (.bistDone res) s = s.after (fin (t.setReg R.TEST_BSRES res.banks) (decide (res.banks ≠ 0)))) ∧
      (d.test = some (2, m) ∨ d.test = some (3, m) → ∃ t, exec (.bistDone res) s = s.after t ∧ t.test = none ∧
        t.flag R.TEST_BSTAT_BUSY = false ∧ t.flag R.TEST_BSTAT_DONE = true)) ∧
    (d.Writes r .test R.TEST_FUSE 0x80000000 →
      let t := d.fielded r .test R.TEST_FUSE 0x80000000
      exec (.fuseRepairBurn r) s = s.wrote (if d.lcs ≠ 1 ∨ d.test ≠ none ∨ d.flag R.TEST_FUSE_BUSY = true
        then t.setFlag R.TEST_FUSE_FERR true else t.setFlag R.TEST_FUSE_BUSY true)) ∧
    (d.flag R.TEST_FUSE_BUSY = true →
      let fuses := d.burnable.foldl (fun m n => bankSet (fun _ => 0) m n (d.reg (R.GAL_RPR n) ||| 0x40000000)) d.pow.rprFuse
      exec (.fuseRepairDone []) s = s.after ((({ d with pow := { d.pow with rprFuse := fuses } } : Dev).setFlag R.TEST_FUSE_BUSY
        false).setFld R.TEST_FUSE_NBURN d.burnable.length) ∧
      (∀ bad : List (Fin 320), (∃ n ∈ bad, n.val ∈ d.burnable) → ∃ t, exec (.fuseRepairDone bad) s = s.after t ∧
        t.flag R.TEST_FUSE_FFAIL = true ∧ t.flag R.TEST_FUSE_BUSY = false))

/-- R447 to R451: the TAP. Each instruction is in force when it has been loaded; IDCODE answers the identification register; PRELOAD
fills the boundary register; an access through DBGACC or TESTACC answers the outcome of the one before it and, with GO, performs one write
or read in its window. -/
def Obligations.TapRuns : Prop :=
  ∀ (s : State),
    let d := s.dev
    let loaded := fun i => ({ d with tap := { d.tap with instr := i } } : Dev)
    (∀ e ∈ [(Instr.tapReset, TapInstr.idcode), (.extest, .extest), (.extestPulse, .extestPulse), (.extestTrain, .extestTrain), (.clamp, .clamp),
        (.highz, .highz), (.bypass, .bypass)], exec e.1 s = s.after (loaded e.2)) ∧
    exec .idcode s = s.after ((loaded .idcode).respond 0 [0x4B, 0x73, 0x51, 0x16]) ∧
    (∀ cells, exec (.samplePreload cells) s = s.after { d with tap := { d.tap with instr := .sample, boundary := cells } }) ∧
    (∀ e ∈ [(Instr.dbgacc, TapInstr.dbgacc, Block.dbg), (.testacc, .testacc, .test)], ∀ (off : BitVec 16) (v : Word),
      let x := d.tap.acc
      let shown := ({ d with tap := { instr := e.2.1, boundary := d.tap.boundary, acc := { x with done := false } } } : Dev).respond
        (x.resp.setWidth 4) (leBytes 4 x.data.toNat)
      let a := blockBase e.2.2 + off.toNat
      let keep := fun (t : Dev) (y : TapAccess) => ({ t with tap := { t.tap with acc := y } } : Dev)
      (∀ wr, exec (e.1 false wr off v) s = s.after shown) ∧
      (∀ st l t, shown.write ⟨0x0F, false, false⟩ a (leBytes 4 v.toNat) = .answered st l t →
        exec (e.1 true true off v) s = s.after (keep t ⟨true, off, v, if st = 0 then 0 else 1, true⟩)) ∧
      (∀ st l t, shown.read ⟨0x0F, false, false⟩ a 4 = .answered st l t →
        exec (e.1 true false off v) s = s.after (keep t ⟨false, off, BitVec.ofNat 32 (leNat l), if st = 0 then 0 else 1, true⟩)))

/-! The whole machine. -/

/-- A step at the front command is its execution with the queue's rest; on an empty queue the fabric's clocks run for one cycle (the
model's choice: notes/assumptions/1). -/
def Obligations.StepRunsTheFrontCommand : Prop :=
  ∀ (c : Instr) (rest : List Instr) (s : State),
    step { s with pending := c :: rest } = exec c { s with pending := rest } ∧
    step { s with pending := [] } = .next { s with dev := s.dev.fabricTick, pending := [] }

/-- What the spec says of the part at its first power-on (R271, R377, R400, R401, R409): mode RAMP, every domain but AON off, the cores held
in reset, nothing on the road, memory that nothing has written, life-cycle state BLANK, no command waiting. The invariants hold in the
state after reset. -/
def Obligations.ResetState : Prop :=
  (let d := State.reset.dev
   d.mode = 1 ∧ (∀ k, k < 25 → k ≠ 6 → d.domOn k = false) ∧ (∀ c : CoreId, (d.co c).mode = .reset) ∧ d.road = {} ∧ d.arr.reports = [] ∧
     (∀ a, d.byte a = byteReset a) ∧ d.lcs = 0 ∧ d.secureShut = false ∧ d.tap.instr = .idcode ∧ (∀ a, d.reg a = regReset a) ∧
     State.reset.pending = []) ∧
  (State.reset.dev.fatal = none ∧ Memory.wf State.reset.dev.mem)

/-- Every command of the table is performed from every state: a step answers a next state, never a fault or a refusal; it takes
the front command and no other; and no fatal fault waits after it, because R406 takes the part to LOCKOUT at once. -/
def Obligations.EveryStepGoesOn : Prop :=
  ∀ s : State, s.dev.fatal = none → ∃ t, step s = .next t ∧ t.pending = s.pending.tail ∧ t.dev.fatal = none

/-- Memory keeps its one canonical form (the model's own, notes/assumptions/3) in every step: addresses strictly rising, no entry equal to what an unlisted byte reads as. -/
def Obligations.MemoryStaysCanonical : Prop :=
  ∀ s t : State, Memory.wf s.dev.mem → step s = .next t → Memory.wf t.dev.mem
end

