-- ==== Sys2Proof/Laws/Array.lean ====
section
/-! SUPPORT. What the shared operation of the array instructions does with one that its core has reached. -/

namespace Sys2Proof.Machine

/-- Every outcome of an array instruction that its core offers: it waits, is refused with the array-fault trap, loads a descriptor, or
joins its stream. -/
theorem arrayIssue_offers {d : Dev} {opc : Nat} {a : AOp} (h : d.Offers opc a) : d.arrayIssue opc a =
   match d.judge a.core (d.makeJob a.core opc a) with
      | .stall =>
        if d.gateStops a.core then
          d.setFlag (R.LINE_GSTAT_WAIT a.core) true else d
      | .refuse code n v => (d.arrayFault a.core opc code n v).trapHere a.core .array
      | .accept =>
        if opc = 0x4C then
          (d.loadDescriptor a.core a.sd ((d.co a.core).rd (a.sa.setWidth 4)) ((d.co a.core).rd (a.sb.setWidth 4))).modCo a.core (fun k => k.advance 4 1)
        else if (d.st a.core).jobs.isEmpty then (d.accepted opc a).startNext a.core else d.accepted opc a := by
  obtain ⟨⟨⟨h1, h2, h3, h4⟩, h5⟩, h6, h7, h8, h9⟩ := h
  unfold Dev.arrayIssue Dev.instr
  have h0 : (d.co a.core).pends [] [] = false := rfl
  have h3' : (d.co a.core).fetchable ((d.co a.core).pc + BitVec.ofNat 32 (4 - 2)) = true := h3
  simp only [h1, h2, h3', h0, h6, Bool.not_true, Bool.or_self, Bool.false_eq_true, if_false]
  have h4' : (d.co a.core).pendP.getLsbD a.pred.p.toNat = false := by
    simpa [CoreState.pends] using h4
  simp only [h4', Dev.pred, h5, if_true, if_false, Bool.false_eq_true]
  rw [if_neg, if_neg, if_neg]
  · rfl
  · simp only [Bool.and_eq_true, Bool.or_eq_true, decide_eq_true_eq, not_and, Bool.not_eq_true]
    exact h9
  · simp only [Bool.and_eq_true, Bool.or_eq_true, decide_eq_true_eq, not_and, Bool.not_eq_true]
    exact h8
  · simp only [Bool.and_eq_true, Bool.or_eq_true, decide_eq_true_eq, not_and, not_or, Bool.not_eq_true]
    exact h7

end Sys2Proof.Machine
end

