-- ==== Sys2Proof/Laws/Bank.lean ====
section
/-! SUPPORT. Laws of the sparse banks: read after write, canonical form kept by every bank operation. -/

namespace Sys2Proof.Machine

variable {α : Type} {dflt : Nat → α} {m : List (Nat × α)} {k j lo hi : Nat} {v : α}

theorem bankGet_filter_ne (h : j ≠ k) : bankGet dflt (m.filter (fun p => p.1 ≠ k)) j = bankGet dflt m j := by
  induction m with
  | nil => rfl
  | cons p r ih =>
    obtain ⟨a, w⟩ := p
    by_cases ha : a = k
    · subst ha
      simp only [ne_eq, not_true_eq_false, decide_false, Bool.false_eq_true, not_false_eq_true, List.filter_cons_of_neg]
      rw [ih, bankGet, if_neg (Ne.symm h)]
    · rw [List.filter_cons_of_pos (by simpa using ha), bankGet, bankGet, ih]

theorem bankGet_filter_self : bankGet dflt (m.filter (fun p => p.1 ≠ k)) k = dflt k := by
  induction m with
  | nil => rfl
  | cons p r ih =>
    obtain ⟨a, w⟩ := p
    by_cases ha : a = k
    · rw [List.filter_cons_of_neg (by simpa using ha), ih]
    · rw [List.filter_cons_of_pos (by simpa using ha), bankGet, if_neg ha, ih]

theorem bankGet_insert_same (h : ∀ p ∈ m, p.1 ≠ k) : bankGet dflt (bankInsert m k v) k = v := by
  induction m with
  | nil => simp [bankInsert, bankGet]
  | cons p r ih =>
    obtain ⟨a, w⟩ := p
    have ha : a ≠ k := h (a, w) (by simp)
    unfold bankInsert
    split
    · simp [bankGet]
    · rw [bankGet, if_neg ha, ih (fun p hp => h p (by simp [hp]))]

theorem bankGet_insert_ne (h : j ≠ k) : bankGet dflt (bankInsert m k v) j = bankGet dflt m j := by
  induction m with
  | nil => simp [bankInsert, bankGet, Ne.symm h]
  | cons p r ih =>
    obtain ⟨a, w⟩ := p
    unfold bankInsert
    split
    · rw [bankGet, if_neg (Ne.symm h)]
    · rw [bankGet, bankGet, ih]

/-- Read after write: the value written. -/
@[simp] theorem bankGet_bankSet_same [DecidableEq α] : bankGet dflt (bankSet dflt m k v) k = v := by
  unfold bankSet
  split
  · next h => rw [bankGet_filter_self, h]
  · exact bankGet_insert_same (fun p hp => by simpa using (List.mem_filter.mp hp).2)

/-- A write leaves every other key alone. -/
theorem bankGet_bankSet_ne [DecidableEq α] (h : j ≠ k) : bankGet dflt (bankSet dflt m k v) j = bankGet dflt m j := by
  unfold bankSet
  split
  · exact bankGet_filter_ne h
  · rw [bankGet_insert_ne h, bankGet_filter_ne h]

theorem mem_bankInsert {p : Nat × α} : p ∈ bankInsert m k v ↔ p = (k, v) ∨ p ∈ m := by
  induction m with
  | nil => simp [bankInsert]
  | cons q r ih =>
    obtain ⟨a, w⟩ := q
    unfold bankInsert
    split
    · simp
    · simp only [List.mem_cons, ih]; tauto

theorem bankInsert_sorted (hs : (m.map Prod.fst).Pairwise (· < ·)) (h : ∀ p ∈ m, p.1 ≠ k) :
    ((bankInsert m k v).map Prod.fst).Pairwise (· < ·) := by
  induction m with
  | nil => simp [bankInsert]
  | cons q r ih =>
    obtain ⟨a, w⟩ := q
    have ha : a ≠ k := h (a, w) (by simp)
    simp only [List.map_cons, List.pairwise_cons] at hs
    unfold bankInsert
    split
    · next hk =>
      simp only [List.map_cons, List.pairwise_cons]
      refine ⟨?_, hs.1, hs.2⟩
      intro x hx
      rcases List.mem_cons.mp hx with rfl | hx
      · exact hk
      · exact lt_trans hk (hs.1 x hx)
    · next hk =>
      simp only [List.map_cons, List.pairwise_cons]
      refine ⟨?_, ih hs.2 (fun p hp => h p (by simp [hp]))⟩
      intro x hx
      obtain ⟨p, hp, rfl⟩ := List.mem_map.mp hx
      rcases mem_bankInsert.mp hp with rfl | hp
      · show a < k; omega
      · exact hs.1 _ (List.mem_map_of_mem hp)

theorem filter_sorted (q : Nat × α → Bool) (hs : (m.map Prod.fst).Pairwise (· < ·)) :
    ((m.filter q).map Prod.fst).Pairwise (· < ·) :=
  hs.sublist (List.filter_sublist.map Prod.fst)

section Canonical

variable [DecidableEq α]

theorem BankWf.filter (h : BankWf dflt m) (q : Nat × α → Bool) : BankWf dflt (m.filter q) :=
  ⟨filter_sorted q h.1, fun p hp => h.2 p (List.mem_filter.mp hp).1⟩

theorem bankWf_nil : BankWf dflt ([] : List (Nat × α)) := ⟨List.Pairwise.nil, by simp⟩

/-- A write keeps the canonical form. -/
theorem bankWf_bankSet (h : BankWf dflt m) : BankWf dflt (bankSet dflt m k v) := by
  unfold bankSet
  split
  · exact h.filter _
  · next hv =>
    refine ⟨bankInsert_sorted (h.filter _).1 (fun p hp => by simpa using (List.mem_filter.mp hp).2), ?_⟩
    intro p hp
    rcases mem_bankInsert.mp hp with rfl | hp
    · exact hv
    · exact (h.filter _).2 p hp

theorem bankWf_bankClear (h : BankWf dflt m) : BankWf dflt (bankClear m lo hi) := h.filter _

theorem bankWf_bankPart (h : BankWf dflt m) : BankWf dflt (bankPart m lo hi) := h.filter _

/-- Two parts of a canonical bank, the lower one first, form a canonical bank. -/
theorem bankWf_parts {lo' hi' : Nat} (h : BankWf dflt m) (hle : hi ≤ lo') :
    BankWf dflt (bankPart m lo hi ++ bankPart m lo' hi') := by
  refine ⟨?_, ?_⟩
  · rw [List.map_append, List.pairwise_append]
    refine ⟨(bankWf_bankPart h).1, (bankWf_bankPart h).1, ?_⟩
    intro a ha b hb
    obtain ⟨p, hp, rfl⟩ := List.mem_map.mp ha
    obtain ⟨q, hq, rfl⟩ := List.mem_map.mp hb
    have h1 := (List.mem_filter.mp hp).2
    have h2 := (List.mem_filter.mp hq).2
    simp only [decide_eq_true_eq] at h1 h2
    omega
  · intro p hp
    rcases List.mem_append.mp hp with hp | hp
    · exact (bankWf_bankPart h).2 p hp
    · exact (bankWf_bankPart h).2 p hp

end Canonical

/-! forEach. -/

@[simp] theorem forEach_nil {σ β : Type} (s : σ) (f : σ → β → σ) : forEach [] s f = s := rfl

@[simp] theorem forEach_cons {σ β : Type} (a : β) (l : List β) (s : σ) (f : σ → β → σ) :
    forEach (a :: l) s f = forEach l (f s a) f := rfl

/-- What every application keeps, the whole keeps. -/
theorem forEach_keeps {σ β : Type} {P : σ → Prop} (l : List β) {s : σ} {f : σ → β → σ} (h : ∀ s b, P s → P (f s b)) (hs : P s) :
    P (forEach l s f) := by
  induction l generalizing s with
  | nil => exact hs
  | cons b l ih => exact ih (h s b hs)

/-- A value that no application changes, the whole does not change. -/
theorem forEach_frame {σ β γ : Type} (g : σ → γ) (l : List β) (s : σ) {f : σ → β → σ} (h : ∀ s b, g (f s b) = g s) :
    g (forEach l s f) = g s := by
  induction l generalizing s with
  | nil => rfl
  | cons b l ih => rw [forEach_cons, ih, h]

end Sys2Proof.Machine
end

