-- ==== Sys2Proof/Laws/Memory.lean ====
section
/-! SUPPORT. Laws of memory: read after write, what a write leaves alone, the canonical form kept by every memory operation. -/

namespace Sys2Proof.Machine

variable {d : Dev} {a b : Nat} {v : Byte} {l : List Byte}

@[simp] theorem byte_setByte_same : (d.setByte a v).byte a = v := bankGet_bankSet_same

theorem byte_setByte_ne (h : b ≠ a) : (d.setByte a v).byte b = d.byte b := bankGet_bankSet_ne h

theorem wf_setByte (h : Memory.wf d.mem) : Memory.wf (d.setByte a v).mem := bankWf_bankSet h

theorem wf_setBytes (h : Memory.wf d.mem) : Memory.wf (d.setBytes a l).mem :=
  forEach_keeps (P := fun d : Dev => Memory.wf d.mem) _ (fun _ _ h => wf_setByte h) h

theorem wf_setWord32 {w : Word} (h : Memory.wf d.mem) : Memory.wf (d.setWord32 a w).mem := wf_setBytes h

theorem wf_setWord64 {w : BitVec 64} (h : Memory.wf d.mem) : Memory.wf (d.setWord64 a w).mem := wf_setBytes h

theorem wf_reset : Memory.wf State.reset.dev.mem := bankWf_nil

theorem byte_forEach_outside (l : List Byte) (k : Nat) (d : Dev) (h : ∀ i, i < l.length → b ≠ a + (k + i)) :
    (forEach (l.zipIdx k) d (fun d p => d.setByte (a + p.2) p.1)).byte b = d.byte b := by
  induction l generalizing k d with
  | nil => rfl
  | cons x r ih =>
    rw [List.zipIdx_cons, forEach_cons, ih]
    · exact byte_setByte_ne (by have := h 0 (by simp); simpa using this)
    · intro i hi
      have := h (i + 1) (by simpa using hi)
      omega

/-- A write of bytes leaves every byte outside them alone. -/
theorem byte_setBytes_outside (h : b < a ∨ a + l.length ≤ b) : (d.setBytes a l).byte b = d.byte b := by
  unfold Dev.setBytes
  exact byte_forEach_outside l 0 d (by intro i hi; omega)

theorem byte_forEach_inside (l : List Byte) (k : Nat) (d : Dev) {i : Nat} (h : i < l.length) :
    (forEach (l.zipIdx k) d (fun d p => d.setByte (a + p.2) p.1)).byte (a + (k + i)) = l[i] := by
  induction l generalizing k d i with
  | nil => simp at h
  | cons x r ih =>
    rw [List.zipIdx_cons, forEach_cons]
    cases i with
    | zero =>
      rw [byte_forEach_outside]
      · simp
      · intro j _; omega
    | succ i =>
      have := ih (k + 1) (d.setByte (a + k) x) (i := i) (by simpa using h)
      rw [show a + (k + (i + 1)) = a + (k + 1 + i) by omega]
      simpa using this

/-- Bytes written read back. -/
theorem byte_setBytes_inside {i : Nat} (h : i < l.length) : (d.setBytes a l).byte (a + i) = l[i] := by
  have := byte_forEach_inside (a := a) l 0 d h
  simpa [Dev.setBytes] using this

theorem bytes_setBytes_same : (d.setBytes a l).bytes a l.length = l := by
  unfold Dev.bytes
  apply List.ext_getElem
  · simp
  · intro i h1 h2
    simp only [List.getElem_map, List.getElem_range]
    exact byte_setBytes_inside h2

/-- Bytes that a write does not touch read as before. -/
theorem bytes_setBytes_outside {n : Nat} (h : b + n ≤ a ∨ a + l.length ≤ b) : (d.setBytes a l).bytes b n = d.bytes b n := by
  unfold Dev.bytes
  apply List.map_congr_left
  intro i hi
  have := List.mem_range.mp hi
  exact byte_setBytes_outside (by omega)

theorem length_leBytes (n v : Nat) : (leBytes n v).length = n := by simp [leBytes]

/-- The little-endian bytes of a number spell it again (R2). -/
theorem leNat_leBytes (n v : Nat) : leNat (leBytes n v) = v % 256 ^ n := by
  induction n generalizing v with
  | zero => simp [leBytes, leNat, Nat.mod_one]
  | succ n ih =>
    have h : leBytes (n + 1) v = BitVec.ofNat 8 v :: leBytes n (v / 256) := by
      unfold leBytes
      rw [List.range_succ_eq_map, List.map_cons, List.map_map]
      simp only [pow_zero, Nat.div_one, List.cons.injEq, true_and]
      apply List.map_congr_left
      intro i _
      simp only [Function.comp_apply, Nat.succ_eq_add_one, pow_succ]
      rw [Nat.div_div_eq_div_mul, Nat.mul_comm]
    rw [h, leNat, ih, BitVec.toNat_ofNat, pow_succ' 256 n, Nat.mod_mul]

/-- A word stored reads back. -/
theorem word32_setWord32_same {w : Word} : (d.setWord32 a w).word32 a = w := by
  unfold Dev.word32 Dev.setWord32
  have h := bytes_setBytes_same (d := d) (a := a) (l := leBytes 4 w.toNat)
  rw [length_leBytes] at h
  rw [h, leNat_leBytes]
  apply BitVec.eq_of_toNat_eq
  rw [BitVec.toNat_ofNat]
  have := w.isLt
  norm_num at this ⊢
  omega

theorem word32_setWord32_ne {w : Word} (h : b + 4 ≤ a ∨ a + 4 ≤ b) : (d.setWord32 a w).word32 b = d.word32 b := by
  unfold Dev.word32 Dev.setWord32
  rw [bytes_setBytes_outside (by rw [length_leBytes]; exact h)]

end Sys2Proof.Machine
end

