-- ==== Sys2Proof/Laws/State.lean ====
section
/-! SUPPORT. The state's plain updates: each field that an update does not touch keeps its value. -/

namespace Sys2Proof.Machine

variable (d : Dev)


/-! setReg -/

@[simp] theorem staged_setReg (a : Nat) (v : Word) : (d.setReg a v).staged = d.staged := rfl
@[simp] theorem captured_setReg (a : Nat) (v : Word) : (d.setReg a v).captured = d.captured := rfl
@[simp] theorem mem_setReg (a : Nat) (v : Word) : (d.setReg a v).mem = d.mem := rfl
@[simp] theorem galErr_setReg (a : Nat) (v : Word) : (d.setReg a v).galErr = d.galErr := rfl
@[simp] theorem dramErr_setReg (a : Nat) (v : Word) : (d.setReg a v).dramErr = d.dramErr := rfl
@[simp] theorem free_setReg (a : Nat) (v : Word) : (d.setReg a v).free = d.free := rfl
@[simp] theorem resp_setReg (a : Nat) (v : Word) : (d.setReg a v).resp = d.resp := rfl
@[simp] theorem fatal_setReg (a : Nat) (v : Word) : (d.setReg a v).fatal = d.fatal := rfl
@[simp] theorem arr_setReg (a : Nat) (v : Word) : (d.setReg a v).arr = d.arr := rfl
@[simp] theorem evc_setReg (a : Nat) (v : Word) : (d.setReg a v).evc = d.evc := rfl
@[simp] theorem core_setReg (a : Nat) (v : Word) : (d.setReg a v).core = d.core := rfl
@[simp] theorem news_setReg (a : Nat) (v : Word) : (d.setReg a v).news = d.news := rfl
@[simp] theorem express_setReg (a : Nat) (v : Word) : (d.setReg a v).express = d.express := rfl
@[simp] theorem pow_setReg (a : Nat) (v : Word) : (d.setReg a v).pow = d.pow := rfl
@[simp] theorem road_setReg (a : Nat) (v : Word) : (d.setReg a v).road = d.road := rfl
@[simp] theorem byw_setReg (a : Nat) (v : Word) : (d.setReg a v).byw = d.byw := rfl
@[simp] theorem host_setReg (a : Nat) (v : Word) : (d.setReg a v).host = d.host := rfl
@[simp] theorem link_setReg (a : Nat) (v : Word) : (d.setReg a v).link = d.link := rfl
@[simp] theorem ddr_setReg (a : Nat) (v : Word) : (d.setReg a v).ddr = d.ddr := rfl
@[simp] theorem lead_setReg (a : Nat) (v : Word) : (d.setReg a v).lead = d.lead := rfl
@[simp] theorem gov_setReg (a : Nat) (v : Word) : (d.setReg a v).gov = d.gov := rfl
@[simp] theorem line_setReg (a : Nat) (v : Word) : (d.setReg a v).line = d.line := rfl
@[simp] theorem gal_setReg (a : Nat) (v : Word) : (d.setReg a v).gal = d.gal := rfl
@[simp] theorem way_setReg (a : Nat) (v : Word) : (d.setReg a v).way = d.way := rfl
@[simp] theorem tap_setReg (a : Nat) (v : Word) : (d.setReg a v).tap = d.tap := rfl
@[simp] theorem test_setReg (a : Nat) (v : Word) : (d.setReg a v).test = d.test := rfl
@[simp] theorem sec_setReg (a : Nat) (v : Word) : (d.setReg a v).sec = d.sec := rfl

/-! setStaged -/

@[simp] theorem regs_setStaged (a : Nat) (v : Word) : (d.setStaged a v).regs = d.regs := rfl
@[simp] theorem captured_setStaged (a : Nat) (v : Word) : (d.setStaged a v).captured = d.captured := rfl
@[simp] theorem mem_setStaged (a : Nat) (v : Word) : (d.setStaged a v).mem = d.mem := rfl
@[simp] theorem galErr_setStaged (a : Nat) (v : Word) : (d.setStaged a v).galErr = d.galErr := rfl
@[simp] theorem dramErr_setStaged (a : Nat) (v : Word) : (d.setStaged a v).dramErr = d.dramErr := rfl
@[simp] theorem free_setStaged (a : Nat) (v : Word) : (d.setStaged a v).free = d.free := rfl
@[simp] theorem resp_setStaged (a : Nat) (v : Word) : (d.setStaged a v).resp = d.resp := rfl
@[simp] theorem fatal_setStaged (a : Nat) (v : Word) : (d.setStaged a v).fatal = d.fatal := rfl
@[simp] theorem arr_setStaged (a : Nat) (v : Word) : (d.setStaged a v).arr = d.arr := rfl
@[simp] theorem evc_setStaged (a : Nat) (v : Word) : (d.setStaged a v).evc = d.evc := rfl
@[simp] theorem core_setStaged (a : Nat) (v : Word) : (d.setStaged a v).core = d.core := rfl
@[simp] theorem news_setStaged (a : Nat) (v : Word) : (d.setStaged a v).news = d.news := rfl
@[simp] theorem express_setStaged (a : Nat) (v : Word) : (d.setStaged a v).express = d.express := rfl
@[simp] theorem pow_setStaged (a : Nat) (v : Word) : (d.setStaged a v).pow = d.pow := rfl
@[simp] theorem road_setStaged (a : Nat) (v : Word) : (d.setStaged a v).road = d.road := rfl
@[simp] theorem byw_setStaged (a : Nat) (v : Word) : (d.setStaged a v).byw = d.byw := rfl
@[simp] theorem host_setStaged (a : Nat) (v : Word) : (d.setStaged a v).host = d.host := rfl
@[simp] theorem link_setStaged (a : Nat) (v : Word) : (d.setStaged a v).link = d.link := rfl
@[simp] theorem ddr_setStaged (a : Nat) (v : Word) : (d.setStaged a v).ddr = d.ddr := rfl
@[simp] theorem lead_setStaged (a : Nat) (v : Word) : (d.setStaged a v).lead = d.lead := rfl
@[simp] theorem gov_setStaged (a : Nat) (v : Word) : (d.setStaged a v).gov = d.gov := rfl
@[simp] theorem line_setStaged (a : Nat) (v : Word) : (d.setStaged a v).line = d.line := rfl
@[simp] theorem gal_setStaged (a : Nat) (v : Word) : (d.setStaged a v).gal = d.gal := rfl
@[simp] theorem way_setStaged (a : Nat) (v : Word) : (d.setStaged a v).way = d.way := rfl
@[simp] theorem tap_setStaged (a : Nat) (v : Word) : (d.setStaged a v).tap = d.tap := rfl
@[simp] theorem test_setStaged (a : Nat) (v : Word) : (d.setStaged a v).test = d.test := rfl
@[simp] theorem sec_setStaged (a : Nat) (v : Word) : (d.setStaged a v).sec = d.sec := rfl

/-! setFld -/

@[simp] theorem staged_setFld (f : Fld) (x : Nat) : (d.setFld f x).staged = d.staged := rfl
@[simp] theorem captured_setFld (f : Fld) (x : Nat) : (d.setFld f x).captured = d.captured := rfl
@[simp] theorem mem_setFld (f : Fld) (x : Nat) : (d.setFld f x).mem = d.mem := rfl
@[simp] theorem galErr_setFld (f : Fld) (x : Nat) : (d.setFld f x).galErr = d.galErr := rfl
@[simp] theorem dramErr_setFld (f : Fld) (x : Nat) : (d.setFld f x).dramErr = d.dramErr := rfl
@[simp] theorem free_setFld (f : Fld) (x : Nat) : (d.setFld f x).free = d.free := rfl
@[simp] theorem resp_setFld (f : Fld) (x : Nat) : (d.setFld f x).resp = d.resp := rfl
@[simp] theorem fatal_setFld (f : Fld) (x : Nat) : (d.setFld f x).fatal = d.fatal := rfl
@[simp] theorem arr_setFld (f : Fld) (x : Nat) : (d.setFld f x).arr = d.arr := rfl
@[simp] theorem evc_setFld (f : Fld) (x : Nat) : (d.setFld f x).evc = d.evc := rfl
@[simp] theorem core_setFld (f : Fld) (x : Nat) : (d.setFld f x).core = d.core := rfl
@[simp] theorem news_setFld (f : Fld) (x : Nat) : (d.setFld f x).news = d.news := rfl
@[simp] theorem express_setFld (f : Fld) (x : Nat) : (d.setFld f x).express = d.express := rfl
@[simp] theorem pow_setFld (f : Fld) (x : Nat) : (d.setFld f x).pow = d.pow := rfl
@[simp] theorem road_setFld (f : Fld) (x : Nat) : (d.setFld f x).road = d.road := rfl
@[simp] theorem byw_setFld (f : Fld) (x : Nat) : (d.setFld f x).byw = d.byw := rfl
@[simp] theorem host_setFld (f : Fld) (x : Nat) : (d.setFld f x).host = d.host := rfl
@[simp] theorem link_setFld (f : Fld) (x : Nat) : (d.setFld f x).link = d.link := rfl
@[simp] theorem ddr_setFld (f : Fld) (x : Nat) : (d.setFld f x).ddr = d.ddr := rfl
@[simp] theorem lead_setFld (f : Fld) (x : Nat) : (d.setFld f x).lead = d.lead := rfl
@[simp] theorem gov_setFld (f : Fld) (x : Nat) : (d.setFld f x).gov = d.gov := rfl
@[simp] theorem line_setFld (f : Fld) (x : Nat) : (d.setFld f x).line = d.line := rfl
@[simp] theorem gal_setFld (f : Fld) (x : Nat) : (d.setFld f x).gal = d.gal := rfl
@[simp] theorem way_setFld (f : Fld) (x : Nat) : (d.setFld f x).way = d.way := rfl
@[simp] theorem tap_setFld (f : Fld) (x : Nat) : (d.setFld f x).tap = d.tap := rfl
@[simp] theorem test_setFld (f : Fld) (x : Nat) : (d.setFld f x).test = d.test := rfl
@[simp] theorem sec_setFld (f : Fld) (x : Nat) : (d.setFld f x).sec = d.sec := rfl

/-! setFlag -/

@[simp] theorem staged_setFlag (f : Fld) (b : Bool) : (d.setFlag f b).staged = d.staged := rfl
@[simp] theorem captured_setFlag (f : Fld) (b : Bool) : (d.setFlag f b).captured = d.captured := rfl
@[simp] theorem mem_setFlag (f : Fld) (b : Bool) : (d.setFlag f b).mem = d.mem := rfl
@[simp] theorem galErr_setFlag (f : Fld) (b : Bool) : (d.setFlag f b).galErr = d.galErr := rfl
@[simp] theorem dramErr_setFlag (f : Fld) (b : Bool) : (d.setFlag f b).dramErr = d.dramErr := rfl
@[simp] theorem free_setFlag (f : Fld) (b : Bool) : (d.setFlag f b).free = d.free := rfl
@[simp] theorem resp_setFlag (f : Fld) (b : Bool) : (d.setFlag f b).resp = d.resp := rfl
@[simp] theorem fatal_setFlag (f : Fld) (b : Bool) : (d.setFlag f b).fatal = d.fatal := rfl
@[simp] theorem arr_setFlag (f : Fld) (b : Bool) : (d.setFlag f b).arr = d.arr := rfl
@[simp] theorem evc_setFlag (f : Fld) (b : Bool) : (d.setFlag f b).evc = d.evc := rfl
@[simp] theorem core_setFlag (f : Fld) (b : Bool) : (d.setFlag f b).core = d.core := rfl
@[simp] theorem news_setFlag (f : Fld) (b : Bool) : (d.setFlag f b).news = d.news := rfl
@[simp] theorem express_setFlag (f : Fld) (b : Bool) : (d.setFlag f b).express = d.express := rfl
@[simp] theorem pow_setFlag (f : Fld) (b : Bool) : (d.setFlag f b).pow = d.pow := rfl
@[simp] theorem road_setFlag (f : Fld) (b : Bool) : (d.setFlag f b).road = d.road := rfl
@[simp] theorem byw_setFlag (f : Fld) (b : Bool) : (d.setFlag f b).byw = d.byw := rfl
@[simp] theorem host_setFlag (f : Fld) (b : Bool) : (d.setFlag f b).host = d.host := rfl
@[simp] theorem link_setFlag (f : Fld) (b : Bool) : (d.setFlag f b).link = d.link := rfl
@[simp] theorem ddr_setFlag (f : Fld) (b : Bool) : (d.setFlag f b).ddr = d.ddr := rfl
@[simp] theorem lead_setFlag (f : Fld) (b : Bool) : (d.setFlag f b).lead = d.lead := rfl
@[simp] theorem gov_setFlag (f : Fld) (b : Bool) : (d.setFlag f b).gov = d.gov := rfl
@[simp] theorem line_setFlag (f : Fld) (b : Bool) : (d.setFlag f b).line = d.line := rfl
@[simp] theorem gal_setFlag (f : Fld) (b : Bool) : (d.setFlag f b).gal = d.gal := rfl
@[simp] theorem way_setFlag (f : Fld) (b : Bool) : (d.setFlag f b).way = d.way := rfl
@[simp] theorem tap_setFlag (f : Fld) (b : Bool) : (d.setFlag f b).tap = d.tap := rfl
@[simp] theorem test_setFlag (f : Fld) (b : Bool) : (d.setFlag f b).test = d.test := rfl
@[simp] theorem sec_setFlag (f : Fld) (b : Bool) : (d.setFlag f b).sec = d.sec := rfl

/-! addFld -/

@[simp] theorem staged_addFld (f : Fld) (n : Nat) : (d.addFld f n).staged = d.staged := rfl
@[simp] theorem captured_addFld (f : Fld) (n : Nat) : (d.addFld f n).captured = d.captured := rfl
@[simp] theorem mem_addFld (f : Fld) (n : Nat) : (d.addFld f n).mem = d.mem := rfl
@[simp] theorem galErr_addFld (f : Fld) (n : Nat) : (d.addFld f n).galErr = d.galErr := rfl
@[simp] theorem dramErr_addFld (f : Fld) (n : Nat) : (d.addFld f n).dramErr = d.dramErr := rfl
@[simp] theorem free_addFld (f : Fld) (n : Nat) : (d.addFld f n).free = d.free := rfl
@[simp] theorem resp_addFld (f : Fld) (n : Nat) : (d.addFld f n).resp = d.resp := rfl
@[simp] theorem fatal_addFld (f : Fld) (n : Nat) : (d.addFld f n).fatal = d.fatal := rfl
@[simp] theorem arr_addFld (f : Fld) (n : Nat) : (d.addFld f n).arr = d.arr := rfl
@[simp] theorem evc_addFld (f : Fld) (n : Nat) : (d.addFld f n).evc = d.evc := rfl
@[simp] theorem core_addFld (f : Fld) (n : Nat) : (d.addFld f n).core = d.core := rfl
@[simp] theorem news_addFld (f : Fld) (n : Nat) : (d.addFld f n).news = d.news := rfl
@[simp] theorem express_addFld (f : Fld) (n : Nat) : (d.addFld f n).express = d.express := rfl
@[simp] theorem pow_addFld (f : Fld) (n : Nat) : (d.addFld f n).pow = d.pow := rfl
@[simp] theorem road_addFld (f : Fld) (n : Nat) : (d.addFld f n).road = d.road := rfl
@[simp] theorem byw_addFld (f : Fld) (n : Nat) : (d.addFld f n).byw = d.byw := rfl
@[simp] theorem host_addFld (f : Fld) (n : Nat) : (d.addFld f n).host = d.host := rfl
@[simp] theorem link_addFld (f : Fld) (n : Nat) : (d.addFld f n).link = d.link := rfl
@[simp] theorem ddr_addFld (f : Fld) (n : Nat) : (d.addFld f n).ddr = d.ddr := rfl
@[simp] theorem lead_addFld (f : Fld) (n : Nat) : (d.addFld f n).lead = d.lead := rfl
@[simp] theorem gov_addFld (f : Fld) (n : Nat) : (d.addFld f n).gov = d.gov := rfl
@[simp] theorem line_addFld (f : Fld) (n : Nat) : (d.addFld f n).line = d.line := rfl
@[simp] theorem gal_addFld (f : Fld) (n : Nat) : (d.addFld f n).gal = d.gal := rfl
@[simp] theorem way_addFld (f : Fld) (n : Nat) : (d.addFld f n).way = d.way := rfl
@[simp] theorem tap_addFld (f : Fld) (n : Nat) : (d.addFld f n).tap = d.tap := rfl
@[simp] theorem test_addFld (f : Fld) (n : Nat) : (d.addFld f n).test = d.test := rfl
@[simp] theorem sec_addFld (f : Fld) (n : Nat) : (d.addFld f n).sec = d.sec := rfl

/-! dropCapture -/

@[simp] theorem regs_dropCapture (b : Block) : (d.dropCapture b).regs = d.regs := rfl
@[simp] theorem staged_dropCapture (b : Block) : (d.dropCapture b).staged = d.staged := rfl
@[simp] theorem mem_dropCapture (b : Block) : (d.dropCapture b).mem = d.mem := rfl
@[simp] theorem galErr_dropCapture (b : Block) : (d.dropCapture b).galErr = d.galErr := rfl
@[simp] theorem dramErr_dropCapture (b : Block) : (d.dropCapture b).dramErr = d.dramErr := rfl
@[simp] theorem free_dropCapture (b : Block) : (d.dropCapture b).free = d.free := rfl
@[simp] theorem resp_dropCapture (b : Block) : (d.dropCapture b).resp = d.resp := rfl
@[simp] theorem fatal_dropCapture (b : Block) : (d.dropCapture b).fatal = d.fatal := rfl
@[simp] theorem arr_dropCapture (b : Block) : (d.dropCapture b).arr = d.arr := rfl
@[simp] theorem evc_dropCapture (b : Block) : (d.dropCapture b).evc = d.evc := rfl
@[simp] theorem core_dropCapture (b : Block) : (d.dropCapture b).core = d.core := rfl
@[simp] theorem news_dropCapture (b : Block) : (d.dropCapture b).news = d.news := rfl
@[simp] theorem express_dropCapture (b : Block) : (d.dropCapture b).express = d.express := rfl
@[simp] theorem pow_dropCapture (b : Block) : (d.dropCapture b).pow = d.pow := rfl
@[simp] theorem road_dropCapture (b : Block) : (d.dropCapture b).road = d.road := rfl
@[simp] theorem byw_dropCapture (b : Block) : (d.dropCapture b).byw = d.byw := rfl
@[simp] theorem host_dropCapture (b : Block) : (d.dropCapture b).host = d.host := rfl
@[simp] theorem link_dropCapture (b : Block) : (d.dropCapture b).link = d.link := rfl
@[simp] theorem ddr_dropCapture (b : Block) : (d.dropCapture b).ddr = d.ddr := rfl
@[simp] theorem lead_dropCapture (b : Block) : (d.dropCapture b).lead = d.lead := rfl
@[simp] theorem gov_dropCapture (b : Block) : (d.dropCapture b).gov = d.gov := rfl
@[simp] theorem line_dropCapture (b : Block) : (d.dropCapture b).line = d.line := rfl
@[simp] theorem gal_dropCapture (b : Block) : (d.dropCapture b).gal = d.gal := rfl
@[simp] theorem way_dropCapture (b : Block) : (d.dropCapture b).way = d.way := rfl
@[simp] theorem tap_dropCapture (b : Block) : (d.dropCapture b).tap = d.tap := rfl
@[simp] theorem test_dropCapture (b : Block) : (d.dropCapture b).test = d.test := rfl
@[simp] theorem sec_dropCapture (b : Block) : (d.dropCapture b).sec = d.sec := rfl

/-! setByte -/

@[simp] theorem regs_setByte (a : Nat) (v : Byte) : (d.setByte a v).regs = d.regs := rfl
@[simp] theorem staged_setByte (a : Nat) (v : Byte) : (d.setByte a v).staged = d.staged := rfl
@[simp] theorem captured_setByte (a : Nat) (v : Byte) : (d.setByte a v).captured = d.captured := rfl
@[simp] theorem galErr_setByte (a : Nat) (v : Byte) : (d.setByte a v).galErr = d.galErr := rfl
@[simp] theorem dramErr_setByte (a : Nat) (v : Byte) : (d.setByte a v).dramErr = d.dramErr := rfl
@[simp] theorem free_setByte (a : Nat) (v : Byte) : (d.setByte a v).free = d.free := rfl
@[simp] theorem resp_setByte (a : Nat) (v : Byte) : (d.setByte a v).resp = d.resp := rfl
@[simp] theorem fatal_setByte (a : Nat) (v : Byte) : (d.setByte a v).fatal = d.fatal := rfl
@[simp] theorem arr_setByte (a : Nat) (v : Byte) : (d.setByte a v).arr = d.arr := rfl
@[simp] theorem evc_setByte (a : Nat) (v : Byte) : (d.setByte a v).evc = d.evc := rfl
@[simp] theorem core_setByte (a : Nat) (v : Byte) : (d.setByte a v).core = d.core := rfl
@[simp] theorem news_setByte (a : Nat) (v : Byte) : (d.setByte a v).news = d.news := rfl
@[simp] theorem express_setByte (a : Nat) (v : Byte) : (d.setByte a v).express = d.express := rfl
@[simp] theorem pow_setByte (a : Nat) (v : Byte) : (d.setByte a v).pow = d.pow := rfl
@[simp] theorem road_setByte (a : Nat) (v : Byte) : (d.setByte a v).road = d.road := rfl
@[simp] theorem byw_setByte (a : Nat) (v : Byte) : (d.setByte a v).byw = d.byw := rfl
@[simp] theorem host_setByte (a : Nat) (v : Byte) : (d.setByte a v).host = d.host := rfl
@[simp] theorem link_setByte (a : Nat) (v : Byte) : (d.setByte a v).link = d.link := rfl
@[simp] theorem ddr_setByte (a : Nat) (v : Byte) : (d.setByte a v).ddr = d.ddr := rfl
@[simp] theorem lead_setByte (a : Nat) (v : Byte) : (d.setByte a v).lead = d.lead := rfl
@[simp] theorem gov_setByte (a : Nat) (v : Byte) : (d.setByte a v).gov = d.gov := rfl
@[simp] theorem line_setByte (a : Nat) (v : Byte) : (d.setByte a v).line = d.line := rfl
@[simp] theorem gal_setByte (a : Nat) (v : Byte) : (d.setByte a v).gal = d.gal := rfl
@[simp] theorem way_setByte (a : Nat) (v : Byte) : (d.setByte a v).way = d.way := rfl
@[simp] theorem tap_setByte (a : Nat) (v : Byte) : (d.setByte a v).tap = d.tap := rfl
@[simp] theorem test_setByte (a : Nat) (v : Byte) : (d.setByte a v).test = d.test := rfl
@[simp] theorem sec_setByte (a : Nat) (v : Byte) : (d.setByte a v).sec = d.sec := rfl

/-! setCo -/

@[simp] theorem regs_setCo (c : CoreId) (k : CoreState) : (d.setCo c k).regs = d.regs := rfl
@[simp] theorem staged_setCo (c : CoreId) (k : CoreState) : (d.setCo c k).staged = d.staged := rfl
@[simp] theorem captured_setCo (c : CoreId) (k : CoreState) : (d.setCo c k).captured = d.captured := rfl
@[simp] theorem mem_setCo (c : CoreId) (k : CoreState) : (d.setCo c k).mem = d.mem := rfl
@[simp] theorem galErr_setCo (c : CoreId) (k : CoreState) : (d.setCo c k).galErr = d.galErr := rfl
@[simp] theorem dramErr_setCo (c : CoreId) (k : CoreState) : (d.setCo c k).dramErr = d.dramErr := rfl
@[simp] theorem free_setCo (c : CoreId) (k : CoreState) : (d.setCo c k).free = d.free := rfl
@[simp] theorem resp_setCo (c : CoreId) (k : CoreState) : (d.setCo c k).resp = d.resp := rfl
@[simp] theorem fatal_setCo (c : CoreId) (k : CoreState) : (d.setCo c k).fatal = d.fatal := rfl
@[simp] theorem arr_setCo (c : CoreId) (k : CoreState) : (d.setCo c k).arr = d.arr := rfl
@[simp] theorem evc_setCo (c : CoreId) (k : CoreState) : (d.setCo c k).evc = d.evc := rfl
@[simp] theorem news_setCo (c : CoreId) (k : CoreState) : (d.setCo c k).news = d.news := rfl
@[simp] theorem express_setCo (c : CoreId) (k : CoreState) : (d.setCo c k).express = d.express := rfl
@[simp] theorem pow_setCo (c : CoreId) (k : CoreState) : (d.setCo c k).pow = d.pow := rfl
@[simp] theorem road_setCo (c : CoreId) (k : CoreState) : (d.setCo c k).road = d.road := rfl
@[simp] theorem byw_setCo (c : CoreId) (k : CoreState) : (d.setCo c k).byw = d.byw := rfl
@[simp] theorem host_setCo (c : CoreId) (k : CoreState) : (d.setCo c k).host = d.host := rfl
@[simp] theorem link_setCo (c : CoreId) (k : CoreState) : (d.setCo c k).link = d.link := rfl
@[simp] theorem ddr_setCo (c : CoreId) (k : CoreState) : (d.setCo c k).ddr = d.ddr := rfl
@[simp] theorem lead_setCo (c : CoreId) (k : CoreState) : (d.setCo c k).lead = d.lead := rfl
@[simp] theorem gov_setCo (c : CoreId) (k : CoreState) : (d.setCo c k).gov = d.gov := rfl
@[simp] theorem line_setCo (c : CoreId) (k : CoreState) : (d.setCo c k).line = d.line := rfl
@[simp] theorem gal_setCo (c : CoreId) (k : CoreState) : (d.setCo c k).gal = d.gal := rfl
@[simp] theorem way_setCo (c : CoreId) (k : CoreState) : (d.setCo c k).way = d.way := rfl
@[simp] theorem tap_setCo (c : CoreId) (k : CoreState) : (d.setCo c k).tap = d.tap := rfl
@[simp] theorem test_setCo (c : CoreId) (k : CoreState) : (d.setCo c k).test = d.test := rfl
@[simp] theorem sec_setCo (c : CoreId) (k : CoreState) : (d.setCo c k).sec = d.sec := rfl

/-! modCo -/

@[simp] theorem regs_modCo (c : CoreId) (f : CoreState → CoreState) : (d.modCo c f).regs = d.regs := rfl
@[simp] theorem staged_modCo (c : CoreId) (f : CoreState → CoreState) : (d.modCo c f).staged = d.staged := rfl
@[simp] theorem captured_modCo (c : CoreId) (f : CoreState → CoreState) : (d.modCo c f).captured = d.captured := rfl
@[simp] theorem mem_modCo (c : CoreId) (f : CoreState → CoreState) : (d.modCo c f).mem = d.mem := rfl
@[simp] theorem galErr_modCo (c : CoreId) (f : CoreState → CoreState) : (d.modCo c f).galErr = d.galErr := rfl
@[simp] theorem dramErr_modCo (c : CoreId) (f : CoreState → CoreState) : (d.modCo c f).dramErr = d.dramErr := rfl
@[simp] theorem free_modCo (c : CoreId) (f : CoreState → CoreState) : (d.modCo c f).free = d.free := rfl
@[simp] theorem resp_modCo (c : CoreId) (f : CoreState → CoreState) : (d.modCo c f).resp = d.resp := rfl
@[simp] theorem fatal_modCo (c : CoreId) (f : CoreState → CoreState) : (d.modCo c f).fatal = d.fatal := rfl
@[simp] theorem arr_modCo (c : CoreId) (f : CoreState → CoreState) : (d.modCo c f).arr = d.arr := rfl
@[simp] theorem evc_modCo (c : CoreId) (f : CoreState → CoreState) : (d.modCo c f).evc = d.evc := rfl
@[simp] theorem news_modCo (c : CoreId) (f : CoreState → CoreState) : (d.modCo c f).news = d.news := rfl
@[simp] theorem express_modCo (c : CoreId) (f : CoreState → CoreState) : (d.modCo c f).express = d.express := rfl
@[simp] theorem pow_modCo (c : CoreId) (f : CoreState → CoreState) : (d.modCo c f).pow = d.pow := rfl
@[simp] theorem road_modCo (c : CoreId) (f : CoreState → CoreState) : (d.modCo c f).road = d.road := rfl
@[simp] theorem byw_modCo (c : CoreId) (f : CoreState → CoreState) : (d.modCo c f).byw = d.byw := rfl
@[simp] theorem host_modCo (c : CoreId) (f : CoreState → CoreState) : (d.modCo c f).host = d.host := rfl
@[simp] theorem link_modCo (c : CoreId) (f : CoreState → CoreState) : (d.modCo c f).link = d.link := rfl
@[simp] theorem ddr_modCo (c : CoreId) (f : CoreState → CoreState) : (d.modCo c f).ddr = d.ddr := rfl
@[simp] theorem lead_modCo (c : CoreId) (f : CoreState → CoreState) : (d.modCo c f).lead = d.lead := rfl
@[simp] theorem gov_modCo (c : CoreId) (f : CoreState → CoreState) : (d.modCo c f).gov = d.gov := rfl
@[simp] theorem line_modCo (c : CoreId) (f : CoreState → CoreState) : (d.modCo c f).line = d.line := rfl
@[simp] theorem gal_modCo (c : CoreId) (f : CoreState → CoreState) : (d.modCo c f).gal = d.gal := rfl
@[simp] theorem way_modCo (c : CoreId) (f : CoreState → CoreState) : (d.modCo c f).way = d.way := rfl
@[simp] theorem tap_modCo (c : CoreId) (f : CoreState → CoreState) : (d.modCo c f).tap = d.tap := rfl
@[simp] theorem test_modCo (c : CoreId) (f : CoreState → CoreState) : (d.modCo c f).test = d.test := rfl
@[simp] theorem sec_modCo (c : CoreId) (f : CoreState → CoreState) : (d.modCo c f).sec = d.sec := rfl

/-! respond -/

@[simp] theorem regs_respond (st : BitVec 4) (l : List Byte) : (d.respond st l).regs = d.regs := rfl
@[simp] theorem staged_respond (st : BitVec 4) (l : List Byte) : (d.respond st l).staged = d.staged := rfl
@[simp] theorem captured_respond (st : BitVec 4) (l : List Byte) : (d.respond st l).captured = d.captured := rfl
@[simp] theorem mem_respond (st : BitVec 4) (l : List Byte) : (d.respond st l).mem = d.mem := rfl
@[simp] theorem galErr_respond (st : BitVec 4) (l : List Byte) : (d.respond st l).galErr = d.galErr := rfl
@[simp] theorem dramErr_respond (st : BitVec 4) (l : List Byte) : (d.respond st l).dramErr = d.dramErr := rfl
@[simp] theorem free_respond (st : BitVec 4) (l : List Byte) : (d.respond st l).free = d.free := rfl
@[simp] theorem fatal_respond (st : BitVec 4) (l : List Byte) : (d.respond st l).fatal = d.fatal := rfl
@[simp] theorem arr_respond (st : BitVec 4) (l : List Byte) : (d.respond st l).arr = d.arr := rfl
@[simp] theorem evc_respond (st : BitVec 4) (l : List Byte) : (d.respond st l).evc = d.evc := rfl
@[simp] theorem core_respond (st : BitVec 4) (l : List Byte) : (d.respond st l).core = d.core := rfl
@[simp] theorem news_respond (st : BitVec 4) (l : List Byte) : (d.respond st l).news = d.news := rfl
@[simp] theorem express_respond (st : BitVec 4) (l : List Byte) : (d.respond st l).express = d.express := rfl
@[simp] theorem pow_respond (st : BitVec 4) (l : List Byte) : (d.respond st l).pow = d.pow := rfl
@[simp] theorem road_respond (st : BitVec 4) (l : List Byte) : (d.respond st l).road = d.road := rfl
@[simp] theorem byw_respond (st : BitVec 4) (l : List Byte) : (d.respond st l).byw = d.byw := rfl
@[simp] theorem host_respond (st : BitVec 4) (l : List Byte) : (d.respond st l).host = d.host := rfl
@[simp] theorem link_respond (st : BitVec 4) (l : List Byte) : (d.respond st l).link = d.link := rfl
@[simp] theorem ddr_respond (st : BitVec 4) (l : List Byte) : (d.respond st l).ddr = d.ddr := rfl
@[simp] theorem lead_respond (st : BitVec 4) (l : List Byte) : (d.respond st l).lead = d.lead := rfl
@[simp] theorem gov_respond (st : BitVec 4) (l : List Byte) : (d.respond st l).gov = d.gov := rfl
@[simp] theorem line_respond (st : BitVec 4) (l : List Byte) : (d.respond st l).line = d.line := rfl
@[simp] theorem gal_respond (st : BitVec 4) (l : List Byte) : (d.respond st l).gal = d.gal := rfl
@[simp] theorem way_respond (st : BitVec 4) (l : List Byte) : (d.respond st l).way = d.way := rfl
@[simp] theorem tap_respond (st : BitVec 4) (l : List Byte) : (d.respond st l).tap = d.tap := rfl
@[simp] theorem test_respond (st : BitVec 4) (l : List Byte) : (d.respond st l).test = d.test := rfl
@[simp] theorem sec_respond (st : BitVec 4) (l : List Byte) : (d.respond st l).sec = d.sec := rfl

/-! setSt -/

@[simp] theorem regs_setSt (s : StreamId) (x : Strm) : (d.setSt s x).regs = d.regs := rfl
@[simp] theorem staged_setSt (s : StreamId) (x : Strm) : (d.setSt s x).staged = d.staged := rfl
@[simp] theorem captured_setSt (s : StreamId) (x : Strm) : (d.setSt s x).captured = d.captured := rfl
@[simp] theorem mem_setSt (s : StreamId) (x : Strm) : (d.setSt s x).mem = d.mem := rfl
@[simp] theorem galErr_setSt (s : StreamId) (x : Strm) : (d.setSt s x).galErr = d.galErr := rfl
@[simp] theorem dramErr_setSt (s : StreamId) (x : Strm) : (d.setSt s x).dramErr = d.dramErr := rfl
@[simp] theorem free_setSt (s : StreamId) (x : Strm) : (d.setSt s x).free = d.free := rfl
@[simp] theorem resp_setSt (s : StreamId) (x : Strm) : (d.setSt s x).resp = d.resp := rfl
@[simp] theorem fatal_setSt (s : StreamId) (x : Strm) : (d.setSt s x).fatal = d.fatal := rfl
@[simp] theorem evc_setSt (s : StreamId) (x : Strm) : (d.setSt s x).evc = d.evc := rfl
@[simp] theorem core_setSt (s : StreamId) (x : Strm) : (d.setSt s x).core = d.core := rfl
@[simp] theorem news_setSt (s : StreamId) (x : Strm) : (d.setSt s x).news = d.news := rfl
@[simp] theorem express_setSt (s : StreamId) (x : Strm) : (d.setSt s x).express = d.express := rfl
@[simp] theorem pow_setSt (s : StreamId) (x : Strm) : (d.setSt s x).pow = d.pow := rfl
@[simp] theorem road_setSt (s : StreamId) (x : Strm) : (d.setSt s x).road = d.road := rfl
@[simp] theorem byw_setSt (s : StreamId) (x : Strm) : (d.setSt s x).byw = d.byw := rfl
@[simp] theorem host_setSt (s : StreamId) (x : Strm) : (d.setSt s x).host = d.host := rfl
@[simp] theorem link_setSt (s : StreamId) (x : Strm) : (d.setSt s x).link = d.link := rfl
@[simp] theorem ddr_setSt (s : StreamId) (x : Strm) : (d.setSt s x).ddr = d.ddr := rfl
@[simp] theorem lead_setSt (s : StreamId) (x : Strm) : (d.setSt s x).lead = d.lead := rfl
@[simp] theorem gov_setSt (s : StreamId) (x : Strm) : (d.setSt s x).gov = d.gov := rfl
@[simp] theorem line_setSt (s : StreamId) (x : Strm) : (d.setSt s x).line = d.line := rfl
@[simp] theorem gal_setSt (s : StreamId) (x : Strm) : (d.setSt s x).gal = d.gal := rfl
@[simp] theorem way_setSt (s : StreamId) (x : Strm) : (d.setSt s x).way = d.way := rfl
@[simp] theorem tap_setSt (s : StreamId) (x : Strm) : (d.setSt s x).tap = d.tap := rfl
@[simp] theorem test_setSt (s : StreamId) (x : Strm) : (d.setSt s x).test = d.test := rfl
@[simp] theorem sec_setSt (s : StreamId) (x : Strm) : (d.setSt s x).sec = d.sec := rfl

/-! modSt -/

@[simp] theorem regs_modSt (s : StreamId) (f : Strm → Strm) : (d.modSt s f).regs = d.regs := rfl
@[simp] theorem staged_modSt (s : StreamId) (f : Strm → Strm) : (d.modSt s f).staged = d.staged := rfl
@[simp] theorem captured_modSt (s : StreamId) (f : Strm → Strm) : (d.modSt s f).captured = d.captured := rfl
@[simp] theorem mem_modSt (s : StreamId) (f : Strm → Strm) : (d.modSt s f).mem = d.mem := rfl
@[simp] theorem galErr_modSt (s : StreamId) (f : Strm → Strm) : (d.modSt s f).galErr = d.galErr := rfl
@[simp] theorem dramErr_modSt (s : StreamId) (f : Strm → Strm) : (d.modSt s f).dramErr = d.dramErr := rfl
@[simp] theorem free_modSt (s : StreamId) (f : Strm → Strm) : (d.modSt s f).free = d.free := rfl
@[simp] theorem resp_modSt (s : StreamId) (f : Strm → Strm) : (d.modSt s f).resp = d.resp := rfl
@[simp] theorem fatal_modSt (s : StreamId) (f : Strm → Strm) : (d.modSt s f).fatal = d.fatal := rfl
@[simp] theorem evc_modSt (s : StreamId) (f : Strm → Strm) : (d.modSt s f).evc = d.evc := rfl
@[simp] theorem core_modSt (s : StreamId) (f : Strm → Strm) : (d.modSt s f).core = d.core := rfl
@[simp] theorem news_modSt (s : StreamId) (f : Strm → Strm) : (d.modSt s f).news = d.news := rfl
@[simp] theorem express_modSt (s : StreamId) (f : Strm → Strm) : (d.modSt s f).express = d.express := rfl
@[simp] theorem pow_modSt (s : StreamId) (f : Strm → Strm) : (d.modSt s f).pow = d.pow := rfl
@[simp] theorem road_modSt (s : StreamId) (f : Strm → Strm) : (d.modSt s f).road = d.road := rfl
@[simp] theorem byw_modSt (s : StreamId) (f : Strm → Strm) : (d.modSt s f).byw = d.byw := rfl
@[simp] theorem host_modSt (s : StreamId) (f : Strm → Strm) : (d.modSt s f).host = d.host := rfl
@[simp] theorem link_modSt (s : StreamId) (f : Strm → Strm) : (d.modSt s f).link = d.link := rfl
@[simp] theorem ddr_modSt (s : StreamId) (f : Strm → Strm) : (d.modSt s f).ddr = d.ddr := rfl
@[simp] theorem lead_modSt (s : StreamId) (f : Strm → Strm) : (d.modSt s f).lead = d.lead := rfl
@[simp] theorem gov_modSt (s : StreamId) (f : Strm → Strm) : (d.modSt s f).gov = d.gov := rfl
@[simp] theorem line_modSt (s : StreamId) (f : Strm → Strm) : (d.modSt s f).line = d.line := rfl
@[simp] theorem gal_modSt (s : StreamId) (f : Strm → Strm) : (d.modSt s f).gal = d.gal := rfl
@[simp] theorem way_modSt (s : StreamId) (f : Strm → Strm) : (d.modSt s f).way = d.way := rfl
@[simp] theorem tap_modSt (s : StreamId) (f : Strm → Strm) : (d.modSt s f).tap = d.tap := rfl
@[simp] theorem test_modSt (s : StreamId) (f : Strm → Strm) : (d.modSt s f).test = d.test := rfl
@[simp] theorem sec_modSt (s : StreamId) (f : Strm → Strm) : (d.modSt s f).sec = d.sec := rfl

/-! modHq -/

@[simp] theorem regs_modHq (h : LHall) (f : HallQ → HallQ) : (d.modHq h f).regs = d.regs := rfl
@[simp] theorem staged_modHq (h : LHall) (f : HallQ → HallQ) : (d.modHq h f).staged = d.staged := rfl
@[simp] theorem captured_modHq (h : LHall) (f : HallQ → HallQ) : (d.modHq h f).captured = d.captured := rfl
@[simp] theorem mem_modHq (h : LHall) (f : HallQ → HallQ) : (d.modHq h f).mem = d.mem := rfl
@[simp] theorem galErr_modHq (h : LHall) (f : HallQ → HallQ) : (d.modHq h f).galErr = d.galErr := rfl
@[simp] theorem dramErr_modHq (h : LHall) (f : HallQ → HallQ) : (d.modHq h f).dramErr = d.dramErr := rfl
@[simp] theorem free_modHq (h : LHall) (f : HallQ → HallQ) : (d.modHq h f).free = d.free := rfl
@[simp] theorem resp_modHq (h : LHall) (f : HallQ → HallQ) : (d.modHq h f).resp = d.resp := rfl
@[simp] theorem fatal_modHq (h : LHall) (f : HallQ → HallQ) : (d.modHq h f).fatal = d.fatal := rfl
@[simp] theorem evc_modHq (h : LHall) (f : HallQ → HallQ) : (d.modHq h f).evc = d.evc := rfl
@[simp] theorem core_modHq (h : LHall) (f : HallQ → HallQ) : (d.modHq h f).core = d.core := rfl
@[simp] theorem news_modHq (h : LHall) (f : HallQ → HallQ) : (d.modHq h f).news = d.news := rfl
@[simp] theorem express_modHq (h : LHall) (f : HallQ → HallQ) : (d.modHq h f).express = d.express := rfl
@[simp] theorem pow_modHq (h : LHall) (f : HallQ → HallQ) : (d.modHq h f).pow = d.pow := rfl
@[simp] theorem road_modHq (h : LHall) (f : HallQ → HallQ) : (d.modHq h f).road = d.road := rfl
@[simp] theorem byw_modHq (h : LHall) (f : HallQ → HallQ) : (d.modHq h f).byw = d.byw := rfl
@[simp] theorem host_modHq (h : LHall) (f : HallQ → HallQ) : (d.modHq h f).host = d.host := rfl
@[simp] theorem link_modHq (h : LHall) (f : HallQ → HallQ) : (d.modHq h f).link = d.link := rfl
@[simp] theorem ddr_modHq (h : LHall) (f : HallQ → HallQ) : (d.modHq h f).ddr = d.ddr := rfl
@[simp] theorem lead_modHq (h : LHall) (f : HallQ → HallQ) : (d.modHq h f).lead = d.lead := rfl
@[simp] theorem gov_modHq (h : LHall) (f : HallQ → HallQ) : (d.modHq h f).gov = d.gov := rfl
@[simp] theorem line_modHq (h : LHall) (f : HallQ → HallQ) : (d.modHq h f).line = d.line := rfl
@[simp] theorem gal_modHq (h : LHall) (f : HallQ → HallQ) : (d.modHq h f).gal = d.gal := rfl
@[simp] theorem way_modHq (h : LHall) (f : HallQ → HallQ) : (d.modHq h f).way = d.way := rfl
@[simp] theorem tap_modHq (h : LHall) (f : HallQ → HallQ) : (d.modHq h f).tap = d.tap := rfl
@[simp] theorem test_modHq (h : LHall) (f : HallQ → HallQ) : (d.modHq h f).test = d.test := rfl
@[simp] theorem sec_modHq (h : LHall) (f : HallQ → HallQ) : (d.modHq h f).sec = d.sec := rfl

/-! modPow -/

@[simp] theorem regs_modPow (f : PowerState → PowerState) : (d.modPow f).regs = d.regs := rfl
@[simp] theorem staged_modPow (f : PowerState → PowerState) : (d.modPow f).staged = d.staged := rfl
@[simp] theorem captured_modPow (f : PowerState → PowerState) : (d.modPow f).captured = d.captured := rfl
@[simp] theorem mem_modPow (f : PowerState → PowerState) : (d.modPow f).mem = d.mem := rfl
@[simp] theorem galErr_modPow (f : PowerState → PowerState) : (d.modPow f).galErr = d.galErr := rfl
@[simp] theorem dramErr_modPow (f : PowerState → PowerState) : (d.modPow f).dramErr = d.dramErr := rfl
@[simp] theorem free_modPow (f : PowerState → PowerState) : (d.modPow f).free = d.free := rfl
@[simp] theorem resp_modPow (f : PowerState → PowerState) : (d.modPow f).resp = d.resp := rfl
@[simp] theorem fatal_modPow (f : PowerState → PowerState) : (d.modPow f).fatal = d.fatal := rfl
@[simp] theorem arr_modPow (f : PowerState → PowerState) : (d.modPow f).arr = d.arr := rfl
@[simp] theorem evc_modPow (f : PowerState → PowerState) : (d.modPow f).evc = d.evc := rfl
@[simp] theorem core_modPow (f : PowerState → PowerState) : (d.modPow f).core = d.core := rfl
@[simp] theorem news_modPow (f : PowerState → PowerState) : (d.modPow f).news = d.news := rfl
@[simp] theorem express_modPow (f : PowerState → PowerState) : (d.modPow f).express = d.express := rfl
@[simp] theorem road_modPow (f : PowerState → PowerState) : (d.modPow f).road = d.road := rfl
@[simp] theorem byw_modPow (f : PowerState → PowerState) : (d.modPow f).byw = d.byw := rfl
@[simp] theorem host_modPow (f : PowerState → PowerState) : (d.modPow f).host = d.host := rfl
@[simp] theorem link_modPow (f : PowerState → PowerState) : (d.modPow f).link = d.link := rfl
@[simp] theorem ddr_modPow (f : PowerState → PowerState) : (d.modPow f).ddr = d.ddr := rfl
@[simp] theorem lead_modPow (f : PowerState → PowerState) : (d.modPow f).lead = d.lead := rfl
@[simp] theorem gov_modPow (f : PowerState → PowerState) : (d.modPow f).gov = d.gov := rfl
@[simp] theorem line_modPow (f : PowerState → PowerState) : (d.modPow f).line = d.line := rfl
@[simp] theorem gal_modPow (f : PowerState → PowerState) : (d.modPow f).gal = d.gal := rfl
@[simp] theorem way_modPow (f : PowerState → PowerState) : (d.modPow f).way = d.way := rfl
@[simp] theorem tap_modPow (f : PowerState → PowerState) : (d.modPow f).tap = d.tap := rfl
@[simp] theorem test_modPow (f : PowerState → PowerState) : (d.modPow f).test = d.test := rfl
@[simp] theorem sec_modPow (f : PowerState → PowerState) : (d.modPow f).sec = d.sec := rfl

/-! modByw -/

@[simp] theorem regs_modByw (f : BywState → BywState) : (d.modByw f).regs = d.regs := rfl
@[simp] theorem staged_modByw (f : BywState → BywState) : (d.modByw f).staged = d.staged := rfl
@[simp] theorem captured_modByw (f : BywState → BywState) : (d.modByw f).captured = d.captured := rfl
@[simp] theorem mem_modByw (f : BywState → BywState) : (d.modByw f).mem = d.mem := rfl
@[simp] theorem galErr_modByw (f : BywState → BywState) : (d.modByw f).galErr = d.galErr := rfl
@[simp] theorem dramErr_modByw (f : BywState → BywState) : (d.modByw f).dramErr = d.dramErr := rfl
@[simp] theorem free_modByw (f : BywState → BywState) : (d.modByw f).free = d.free := rfl
@[simp] theorem resp_modByw (f : BywState → BywState) : (d.modByw f).resp = d.resp := rfl
@[simp] theorem fatal_modByw (f : BywState → BywState) : (d.modByw f).fatal = d.fatal := rfl
@[simp] theorem arr_modByw (f : BywState → BywState) : (d.modByw f).arr = d.arr := rfl
@[simp] theorem evc_modByw (f : BywState → BywState) : (d.modByw f).evc = d.evc := rfl
@[simp] theorem core_modByw (f : BywState → BywState) : (d.modByw f).core = d.core := rfl
@[simp] theorem news_modByw (f : BywState → BywState) : (d.modByw f).news = d.news := rfl
@[simp] theorem express_modByw (f : BywState → BywState) : (d.modByw f).express = d.express := rfl
@[simp] theorem pow_modByw (f : BywState → BywState) : (d.modByw f).pow = d.pow := rfl
@[simp] theorem road_modByw (f : BywState → BywState) : (d.modByw f).road = d.road := rfl
@[simp] theorem host_modByw (f : BywState → BywState) : (d.modByw f).host = d.host := rfl
@[simp] theorem link_modByw (f : BywState → BywState) : (d.modByw f).link = d.link := rfl
@[simp] theorem ddr_modByw (f : BywState → BywState) : (d.modByw f).ddr = d.ddr := rfl
@[simp] theorem lead_modByw (f : BywState → BywState) : (d.modByw f).lead = d.lead := rfl
@[simp] theorem gov_modByw (f : BywState → BywState) : (d.modByw f).gov = d.gov := rfl
@[simp] theorem line_modByw (f : BywState → BywState) : (d.modByw f).line = d.line := rfl
@[simp] theorem gal_modByw (f : BywState → BywState) : (d.modByw f).gal = d.gal := rfl
@[simp] theorem way_modByw (f : BywState → BywState) : (d.modByw f).way = d.way := rfl
@[simp] theorem tap_modByw (f : BywState → BywState) : (d.modByw f).tap = d.tap := rfl
@[simp] theorem test_modByw (f : BywState → BywState) : (d.modByw f).test = d.test := rfl
@[simp] theorem sec_modByw (f : BywState → BywState) : (d.modByw f).sec = d.sec := rfl

/-! modLink -/

@[simp] theorem regs_modLink (f : LinkState → LinkState) : (d.modLink f).regs = d.regs := rfl
@[simp] theorem staged_modLink (f : LinkState → LinkState) : (d.modLink f).staged = d.staged := rfl
@[simp] theorem captured_modLink (f : LinkState → LinkState) : (d.modLink f).captured = d.captured := rfl
@[simp] theorem mem_modLink (f : LinkState → LinkState) : (d.modLink f).mem = d.mem := rfl
@[simp] theorem galErr_modLink (f : LinkState → LinkState) : (d.modLink f).galErr = d.galErr := rfl
@[simp] theorem dramErr_modLink (f : LinkState → LinkState) : (d.modLink f).dramErr = d.dramErr := rfl
@[simp] theorem free_modLink (f : LinkState → LinkState) : (d.modLink f).free = d.free := rfl
@[simp] theorem resp_modLink (f : LinkState → LinkState) : (d.modLink f).resp = d.resp := rfl
@[simp] theorem fatal_modLink (f : LinkState → LinkState) : (d.modLink f).fatal = d.fatal := rfl
@[simp] theorem arr_modLink (f : LinkState → LinkState) : (d.modLink f).arr = d.arr := rfl
@[simp] theorem evc_modLink (f : LinkState → LinkState) : (d.modLink f).evc = d.evc := rfl
@[simp] theorem core_modLink (f : LinkState → LinkState) : (d.modLink f).core = d.core := rfl
@[simp] theorem news_modLink (f : LinkState → LinkState) : (d.modLink f).news = d.news := rfl
@[simp] theorem express_modLink (f : LinkState → LinkState) : (d.modLink f).express = d.express := rfl
@[simp] theorem pow_modLink (f : LinkState → LinkState) : (d.modLink f).pow = d.pow := rfl
@[simp] theorem road_modLink (f : LinkState → LinkState) : (d.modLink f).road = d.road := rfl
@[simp] theorem byw_modLink (f : LinkState → LinkState) : (d.modLink f).byw = d.byw := rfl
@[simp] theorem host_modLink (f : LinkState → LinkState) : (d.modLink f).host = d.host := rfl
@[simp] theorem ddr_modLink (f : LinkState → LinkState) : (d.modLink f).ddr = d.ddr := rfl
@[simp] theorem lead_modLink (f : LinkState → LinkState) : (d.modLink f).lead = d.lead := rfl
@[simp] theorem gov_modLink (f : LinkState → LinkState) : (d.modLink f).gov = d.gov := rfl
@[simp] theorem line_modLink (f : LinkState → LinkState) : (d.modLink f).line = d.line := rfl
@[simp] theorem gal_modLink (f : LinkState → LinkState) : (d.modLink f).gal = d.gal := rfl
@[simp] theorem way_modLink (f : LinkState → LinkState) : (d.modLink f).way = d.way := rfl
@[simp] theorem tap_modLink (f : LinkState → LinkState) : (d.modLink f).tap = d.tap := rfl
@[simp] theorem test_modLink (f : LinkState → LinkState) : (d.modLink f).test = d.test := rfl
@[simp] theorem sec_modLink (f : LinkState → LinkState) : (d.modLink f).sec = d.sec := rfl

/-! setHostQ -/

@[simp] theorem regs_setHostQ (q : Fin 16) (x : HostQueue) : (d.setHostQ q x).regs = d.regs := rfl
@[simp] theorem staged_setHostQ (q : Fin 16) (x : HostQueue) : (d.setHostQ q x).staged = d.staged := rfl
@[simp] theorem captured_setHostQ (q : Fin 16) (x : HostQueue) : (d.setHostQ q x).captured = d.captured := rfl
@[simp] theorem mem_setHostQ (q : Fin 16) (x : HostQueue) : (d.setHostQ q x).mem = d.mem := rfl
@[simp] theorem galErr_setHostQ (q : Fin 16) (x : HostQueue) : (d.setHostQ q x).galErr = d.galErr := rfl
@[simp] theorem dramErr_setHostQ (q : Fin 16) (x : HostQueue) : (d.setHostQ q x).dramErr = d.dramErr := rfl
@[simp] theorem free_setHostQ (q : Fin 16) (x : HostQueue) : (d.setHostQ q x).free = d.free := rfl
@[simp] theorem resp_setHostQ (q : Fin 16) (x : HostQueue) : (d.setHostQ q x).resp = d.resp := rfl
@[simp] theorem fatal_setHostQ (q : Fin 16) (x : HostQueue) : (d.setHostQ q x).fatal = d.fatal := rfl
@[simp] theorem arr_setHostQ (q : Fin 16) (x : HostQueue) : (d.setHostQ q x).arr = d.arr := rfl
@[simp] theorem evc_setHostQ (q : Fin 16) (x : HostQueue) : (d.setHostQ q x).evc = d.evc := rfl
@[simp] theorem core_setHostQ (q : Fin 16) (x : HostQueue) : (d.setHostQ q x).core = d.core := rfl
@[simp] theorem news_setHostQ (q : Fin 16) (x : HostQueue) : (d.setHostQ q x).news = d.news := rfl
@[simp] theorem express_setHostQ (q : Fin 16) (x : HostQueue) : (d.setHostQ q x).express = d.express := rfl
@[simp] theorem pow_setHostQ (q : Fin 16) (x : HostQueue) : (d.setHostQ q x).pow = d.pow := rfl
@[simp] theorem road_setHostQ (q : Fin 16) (x : HostQueue) : (d.setHostQ q x).road = d.road := rfl
@[simp] theorem byw_setHostQ (q : Fin 16) (x : HostQueue) : (d.setHostQ q x).byw = d.byw := rfl
@[simp] theorem link_setHostQ (q : Fin 16) (x : HostQueue) : (d.setHostQ q x).link = d.link := rfl
@[simp] theorem ddr_setHostQ (q : Fin 16) (x : HostQueue) : (d.setHostQ q x).ddr = d.ddr := rfl
@[simp] theorem lead_setHostQ (q : Fin 16) (x : HostQueue) : (d.setHostQ q x).lead = d.lead := rfl
@[simp] theorem gov_setHostQ (q : Fin 16) (x : HostQueue) : (d.setHostQ q x).gov = d.gov := rfl
@[simp] theorem line_setHostQ (q : Fin 16) (x : HostQueue) : (d.setHostQ q x).line = d.line := rfl
@[simp] theorem gal_setHostQ (q : Fin 16) (x : HostQueue) : (d.setHostQ q x).gal = d.gal := rfl
@[simp] theorem way_setHostQ (q : Fin 16) (x : HostQueue) : (d.setHostQ q x).way = d.way := rfl
@[simp] theorem tap_setHostQ (q : Fin 16) (x : HostQueue) : (d.setHostQ q x).tap = d.tap := rfl
@[simp] theorem test_setHostQ (q : Fin 16) (x : HostQueue) : (d.setHostQ q x).test = d.test := rfl
@[simp] theorem sec_setHostQ (q : Fin 16) (x : HostQueue) : (d.setHostQ q x).sec = d.sec := rfl

/-! setTap -/

@[simp] theorem regs_setTap (i : TapInstr) : (d.setTap i).regs = d.regs := rfl
@[simp] theorem staged_setTap (i : TapInstr) : (d.setTap i).staged = d.staged := rfl
@[simp] theorem captured_setTap (i : TapInstr) : (d.setTap i).captured = d.captured := rfl
@[simp] theorem mem_setTap (i : TapInstr) : (d.setTap i).mem = d.mem := rfl
@[simp] theorem galErr_setTap (i : TapInstr) : (d.setTap i).galErr = d.galErr := rfl
@[simp] theorem dramErr_setTap (i : TapInstr) : (d.setTap i).dramErr = d.dramErr := rfl
@[simp] theorem free_setTap (i : TapInstr) : (d.setTap i).free = d.free := rfl
@[simp] theorem resp_setTap (i : TapInstr) : (d.setTap i).resp = d.resp := rfl
@[simp] theorem fatal_setTap (i : TapInstr) : (d.setTap i).fatal = d.fatal := rfl
@[simp] theorem arr_setTap (i : TapInstr) : (d.setTap i).arr = d.arr := rfl
@[simp] theorem evc_setTap (i : TapInstr) : (d.setTap i).evc = d.evc := rfl
@[simp] theorem core_setTap (i : TapInstr) : (d.setTap i).core = d.core := rfl
@[simp] theorem news_setTap (i : TapInstr) : (d.setTap i).news = d.news := rfl
@[simp] theorem express_setTap (i : TapInstr) : (d.setTap i).express = d.express := rfl
@[simp] theorem pow_setTap (i : TapInstr) : (d.setTap i).pow = d.pow := rfl
@[simp] theorem road_setTap (i : TapInstr) : (d.setTap i).road = d.road := rfl
@[simp] theorem byw_setTap (i : TapInstr) : (d.setTap i).byw = d.byw := rfl
@[simp] theorem host_setTap (i : TapInstr) : (d.setTap i).host = d.host := rfl
@[simp] theorem link_setTap (i : TapInstr) : (d.setTap i).link = d.link := rfl
@[simp] theorem ddr_setTap (i : TapInstr) : (d.setTap i).ddr = d.ddr := rfl
@[simp] theorem lead_setTap (i : TapInstr) : (d.setTap i).lead = d.lead := rfl
@[simp] theorem gov_setTap (i : TapInstr) : (d.setTap i).gov = d.gov := rfl
@[simp] theorem line_setTap (i : TapInstr) : (d.setTap i).line = d.line := rfl
@[simp] theorem gal_setTap (i : TapInstr) : (d.setTap i).gal = d.gal := rfl
@[simp] theorem way_setTap (i : TapInstr) : (d.setTap i).way = d.way := rfl
@[simp] theorem test_setTap (i : TapInstr) : (d.setTap i).test = d.test := rfl
@[simp] theorem sec_setTap (i : TapInstr) : (d.setTap i).sec = d.sec := rfl

/-! Writes of several bytes. -/

@[simp] theorem regs_setBytes (a : Nat) (l : List Byte) : (d.setBytes a l).regs = d.regs :=
  forEach_frame (fun d : Dev => d.regs) _ _ (fun _ _ => rfl)
@[simp] theorem staged_setBytes (a : Nat) (l : List Byte) : (d.setBytes a l).staged = d.staged :=
  forEach_frame (fun d : Dev => d.staged) _ _ (fun _ _ => rfl)
@[simp] theorem captured_setBytes (a : Nat) (l : List Byte) : (d.setBytes a l).captured = d.captured :=
  forEach_frame (fun d : Dev => d.captured) _ _ (fun _ _ => rfl)
@[simp] theorem galErr_setBytes (a : Nat) (l : List Byte) : (d.setBytes a l).galErr = d.galErr :=
  forEach_frame (fun d : Dev => d.galErr) _ _ (fun _ _ => rfl)
@[simp] theorem dramErr_setBytes (a : Nat) (l : List Byte) : (d.setBytes a l).dramErr = d.dramErr :=
  forEach_frame (fun d : Dev => d.dramErr) _ _ (fun _ _ => rfl)
@[simp] theorem free_setBytes (a : Nat) (l : List Byte) : (d.setBytes a l).free = d.free :=
  forEach_frame (fun d : Dev => d.free) _ _ (fun _ _ => rfl)
@[simp] theorem resp_setBytes (a : Nat) (l : List Byte) : (d.setBytes a l).resp = d.resp :=
  forEach_frame (fun d : Dev => d.resp) _ _ (fun _ _ => rfl)
@[simp] theorem fatal_setBytes (a : Nat) (l : List Byte) : (d.setBytes a l).fatal = d.fatal :=
  forEach_frame (fun d : Dev => d.fatal) _ _ (fun _ _ => rfl)
@[simp] theorem arr_setBytes (a : Nat) (l : List Byte) : (d.setBytes a l).arr = d.arr :=
  forEach_frame (fun d : Dev => d.arr) _ _ (fun _ _ => rfl)
@[simp] theorem evc_setBytes (a : Nat) (l : List Byte) : (d.setBytes a l).evc = d.evc :=
  forEach_frame (fun d : Dev => d.evc) _ _ (fun _ _ => rfl)
@[simp] theorem core_setBytes (a : Nat) (l : List Byte) : (d.setBytes a l).core = d.core :=
  forEach_frame (fun d : Dev => d.core) _ _ (fun _ _ => rfl)
@[simp] theorem news_setBytes (a : Nat) (l : List Byte) : (d.setBytes a l).news = d.news :=
  forEach_frame (fun d : Dev => d.news) _ _ (fun _ _ => rfl)
@[simp] theorem express_setBytes (a : Nat) (l : List Byte) : (d.setBytes a l).express = d.express :=
  forEach_frame (fun d : Dev => d.express) _ _ (fun _ _ => rfl)
@[simp] theorem pow_setBytes (a : Nat) (l : List Byte) : (d.setBytes a l).pow = d.pow :=
  forEach_frame (fun d : Dev => d.pow) _ _ (fun _ _ => rfl)
@[simp] theorem road_setBytes (a : Nat) (l : List Byte) : (d.setBytes a l).road = d.road :=
  forEach_frame (fun d : Dev => d.road) _ _ (fun _ _ => rfl)
@[simp] theorem byw_setBytes (a : Nat) (l : List Byte) : (d.setBytes a l).byw = d.byw :=
  forEach_frame (fun d : Dev => d.byw) _ _ (fun _ _ => rfl)
@[simp] theorem host_setBytes (a : Nat) (l : List Byte) : (d.setBytes a l).host = d.host :=
  forEach_frame (fun d : Dev => d.host) _ _ (fun _ _ => rfl)
@[simp] theorem link_setBytes (a : Nat) (l : List Byte) : (d.setBytes a l).link = d.link :=
  forEach_frame (fun d : Dev => d.link) _ _ (fun _ _ => rfl)
@[simp] theorem ddr_setBytes (a : Nat) (l : List Byte) : (d.setBytes a l).ddr = d.ddr :=
  forEach_frame (fun d : Dev => d.ddr) _ _ (fun _ _ => rfl)
@[simp] theorem lead_setBytes (a : Nat) (l : List Byte) : (d.setBytes a l).lead = d.lead :=
  forEach_frame (fun d : Dev => d.lead) _ _ (fun _ _ => rfl)
@[simp] theorem gov_setBytes (a : Nat) (l : List Byte) : (d.setBytes a l).gov = d.gov :=
  forEach_frame (fun d : Dev => d.gov) _ _ (fun _ _ => rfl)
@[simp] theorem line_setBytes (a : Nat) (l : List Byte) : (d.setBytes a l).line = d.line :=
  forEach_frame (fun d : Dev => d.line) _ _ (fun _ _ => rfl)
@[simp] theorem gal_setBytes (a : Nat) (l : List Byte) : (d.setBytes a l).gal = d.gal :=
  forEach_frame (fun d : Dev => d.gal) _ _ (fun _ _ => rfl)
@[simp] theorem way_setBytes (a : Nat) (l : List Byte) : (d.setBytes a l).way = d.way :=
  forEach_frame (fun d : Dev => d.way) _ _ (fun _ _ => rfl)
@[simp] theorem tap_setBytes (a : Nat) (l : List Byte) : (d.setBytes a l).tap = d.tap :=
  forEach_frame (fun d : Dev => d.tap) _ _ (fun _ _ => rfl)
@[simp] theorem test_setBytes (a : Nat) (l : List Byte) : (d.setBytes a l).test = d.test :=
  forEach_frame (fun d : Dev => d.test) _ _ (fun _ _ => rfl)
@[simp] theorem sec_setBytes (a : Nat) (l : List Byte) : (d.setBytes a l).sec = d.sec :=
  forEach_frame (fun d : Dev => d.sec) _ _ (fun _ _ => rfl)

/-! The updates of one part of the state: the road's queues, the security engine, a fabric pin, the hall cycle. -/

@[simp] theorem regs_sendResp (x : OpenReq) : (d.sendResp x).regs = d.regs := rfl
@[simp] theorem staged_sendResp (x : OpenReq) : (d.sendResp x).staged = d.staged := rfl
@[simp] theorem captured_sendResp (x : OpenReq) : (d.sendResp x).captured = d.captured := rfl
@[simp] theorem mem_sendResp (x : OpenReq) : (d.sendResp x).mem = d.mem := rfl
@[simp] theorem galErr_sendResp (x : OpenReq) : (d.sendResp x).galErr = d.galErr := rfl
@[simp] theorem dramErr_sendResp (x : OpenReq) : (d.sendResp x).dramErr = d.dramErr := rfl
@[simp] theorem free_sendResp (x : OpenReq) : (d.sendResp x).free = d.free := rfl
@[simp] theorem resp_sendResp (x : OpenReq) : (d.sendResp x).resp = d.resp := rfl
@[simp] theorem fatal_sendResp (x : OpenReq) : (d.sendResp x).fatal = d.fatal := rfl
@[simp] theorem arr_sendResp (x : OpenReq) : (d.sendResp x).arr = d.arr := rfl
@[simp] theorem evc_sendResp (x : OpenReq) : (d.sendResp x).evc = d.evc := rfl
@[simp] theorem core_sendResp (x : OpenReq) : (d.sendResp x).core = d.core := rfl
@[simp] theorem news_sendResp (x : OpenReq) : (d.sendResp x).news = d.news := rfl
@[simp] theorem express_sendResp (x : OpenReq) : (d.sendResp x).express = d.express := rfl
@[simp] theorem pow_sendResp (x : OpenReq) : (d.sendResp x).pow = d.pow := rfl
@[simp] theorem byw_sendResp (x : OpenReq) : (d.sendResp x).byw = d.byw := rfl
@[simp] theorem host_sendResp (x : OpenReq) : (d.sendResp x).host = d.host := rfl
@[simp] theorem link_sendResp (x : OpenReq) : (d.sendResp x).link = d.link := rfl
@[simp] theorem ddr_sendResp (x : OpenReq) : (d.sendResp x).ddr = d.ddr := rfl
@[simp] theorem lead_sendResp (x : OpenReq) : (d.sendResp x).lead = d.lead := rfl
@[simp] theorem gov_sendResp (x : OpenReq) : (d.sendResp x).gov = d.gov := rfl
@[simp] theorem line_sendResp (x : OpenReq) : (d.sendResp x).line = d.line := rfl
@[simp] theorem gal_sendResp (x : OpenReq) : (d.sendResp x).gal = d.gal := rfl
@[simp] theorem way_sendResp (x : OpenReq) : (d.sendResp x).way = d.way := rfl
@[simp] theorem tap_sendResp (x : OpenReq) : (d.sendResp x).tap = d.tap := rfl
@[simp] theorem test_sendResp (x : OpenReq) : (d.sendResp x).test = d.test := rfl
@[simp] theorem sec_sendResp (x : OpenReq) : (d.sendResp x).sec = d.sec := rfl

@[simp] theorem regs_await (x : OpenReq) : (d.await x).regs = d.regs := rfl
@[simp] theorem staged_await (x : OpenReq) : (d.await x).staged = d.staged := rfl
@[simp] theorem captured_await (x : OpenReq) : (d.await x).captured = d.captured := rfl
@[simp] theorem mem_await (x : OpenReq) : (d.await x).mem = d.mem := rfl
@[simp] theorem galErr_await (x : OpenReq) : (d.await x).galErr = d.galErr := rfl
@[simp] theorem dramErr_await (x : OpenReq) : (d.await x).dramErr = d.dramErr := rfl
@[simp] theorem free_await (x : OpenReq) : (d.await x).free = d.free := rfl
@[simp] theorem resp_await (x : OpenReq) : (d.await x).resp = d.resp := rfl
@[simp] theorem fatal_await (x : OpenReq) : (d.await x).fatal = d.fatal := rfl
@[simp] theorem arr_await (x : OpenReq) : (d.await x).arr = d.arr := rfl
@[simp] theorem evc_await (x : OpenReq) : (d.await x).evc = d.evc := rfl
@[simp] theorem core_await (x : OpenReq) : (d.await x).core = d.core := rfl
@[simp] theorem news_await (x : OpenReq) : (d.await x).news = d.news := rfl
@[simp] theorem express_await (x : OpenReq) : (d.await x).express = d.express := rfl
@[simp] theorem pow_await (x : OpenReq) : (d.await x).pow = d.pow := rfl
@[simp] theorem byw_await (x : OpenReq) : (d.await x).byw = d.byw := rfl
@[simp] theorem host_await (x : OpenReq) : (d.await x).host = d.host := rfl
@[simp] theorem link_await (x : OpenReq) : (d.await x).link = d.link := rfl
@[simp] theorem ddr_await (x : OpenReq) : (d.await x).ddr = d.ddr := rfl
@[simp] theorem lead_await (x : OpenReq) : (d.await x).lead = d.lead := rfl
@[simp] theorem gov_await (x : OpenReq) : (d.await x).gov = d.gov := rfl
@[simp] theorem line_await (x : OpenReq) : (d.await x).line = d.line := rfl
@[simp] theorem gal_await (x : OpenReq) : (d.await x).gal = d.gal := rfl
@[simp] theorem way_await (x : OpenReq) : (d.await x).way = d.way := rfl
@[simp] theorem tap_await (x : OpenReq) : (d.await x).tap = d.tap := rfl
@[simp] theorem test_await (x : OpenReq) : (d.await x).test = d.test := rfl
@[simp] theorem sec_await (x : OpenReq) : (d.await x).sec = d.sec := rfl

@[simp] theorem regs_ask (tid : BitVec 12) (w : Who) (wr : Bool) (a n : Nat) : (d.ask tid w wr a n).regs = d.regs := rfl
@[simp] theorem staged_ask (tid : BitVec 12) (w : Who) (wr : Bool) (a n : Nat) : (d.ask tid w wr a n).staged = d.staged := rfl
@[simp] theorem captured_ask (tid : BitVec 12) (w : Who) (wr : Bool) (a n : Nat) : (d.ask tid w wr a n).captured = d.captured := rfl
@[simp] theorem mem_ask (tid : BitVec 12) (w : Who) (wr : Bool) (a n : Nat) : (d.ask tid w wr a n).mem = d.mem := rfl
@[simp] theorem galErr_ask (tid : BitVec 12) (w : Who) (wr : Bool) (a n : Nat) : (d.ask tid w wr a n).galErr = d.galErr := rfl
@[simp] theorem dramErr_ask (tid : BitVec 12) (w : Who) (wr : Bool) (a n : Nat) : (d.ask tid w wr a n).dramErr = d.dramErr := rfl
@[simp] theorem free_ask (tid : BitVec 12) (w : Who) (wr : Bool) (a n : Nat) : (d.ask tid w wr a n).free = d.free := rfl
@[simp] theorem resp_ask (tid : BitVec 12) (w : Who) (wr : Bool) (a n : Nat) : (d.ask tid w wr a n).resp = d.resp := rfl
@[simp] theorem fatal_ask (tid : BitVec 12) (w : Who) (wr : Bool) (a n : Nat) : (d.ask tid w wr a n).fatal = d.fatal := rfl
@[simp] theorem arr_ask (tid : BitVec 12) (w : Who) (wr : Bool) (a n : Nat) : (d.ask tid w wr a n).arr = d.arr := rfl
@[simp] theorem evc_ask (tid : BitVec 12) (w : Who) (wr : Bool) (a n : Nat) : (d.ask tid w wr a n).evc = d.evc := rfl
@[simp] theorem core_ask (tid : BitVec 12) (w : Who) (wr : Bool) (a n : Nat) : (d.ask tid w wr a n).core = d.core := rfl
@[simp] theorem news_ask (tid : BitVec 12) (w : Who) (wr : Bool) (a n : Nat) : (d.ask tid w wr a n).news = d.news := rfl
@[simp] theorem express_ask (tid : BitVec 12) (w : Who) (wr : Bool) (a n : Nat) : (d.ask tid w wr a n).express = d.express := rfl
@[simp] theorem pow_ask (tid : BitVec 12) (w : Who) (wr : Bool) (a n : Nat) : (d.ask tid w wr a n).pow = d.pow := rfl
@[simp] theorem byw_ask (tid : BitVec 12) (w : Who) (wr : Bool) (a n : Nat) : (d.ask tid w wr a n).byw = d.byw := rfl
@[simp] theorem host_ask (tid : BitVec 12) (w : Who) (wr : Bool) (a n : Nat) : (d.ask tid w wr a n).host = d.host := rfl
@[simp] theorem link_ask (tid : BitVec 12) (w : Who) (wr : Bool) (a n : Nat) : (d.ask tid w wr a n).link = d.link := rfl
@[simp] theorem ddr_ask (tid : BitVec 12) (w : Who) (wr : Bool) (a n : Nat) : (d.ask tid w wr a n).ddr = d.ddr := rfl
@[simp] theorem lead_ask (tid : BitVec 12) (w : Who) (wr : Bool) (a n : Nat) : (d.ask tid w wr a n).lead = d.lead := rfl
@[simp] theorem gov_ask (tid : BitVec 12) (w : Who) (wr : Bool) (a n : Nat) : (d.ask tid w wr a n).gov = d.gov := rfl
@[simp] theorem line_ask (tid : BitVec 12) (w : Who) (wr : Bool) (a n : Nat) : (d.ask tid w wr a n).line = d.line := rfl
@[simp] theorem gal_ask (tid : BitVec 12) (w : Who) (wr : Bool) (a n : Nat) : (d.ask tid w wr a n).gal = d.gal := rfl
@[simp] theorem way_ask (tid : BitVec 12) (w : Who) (wr : Bool) (a n : Nat) : (d.ask tid w wr a n).way = d.way := rfl
@[simp] theorem tap_ask (tid : BitVec 12) (w : Who) (wr : Bool) (a n : Nat) : (d.ask tid w wr a n).tap = d.tap := rfl
@[simp] theorem test_ask (tid : BitVec 12) (w : Who) (wr : Bool) (a n : Nat) : (d.ask tid w wr a n).test = d.test := rfl
@[simp] theorem sec_ask (tid : BitVec 12) (w : Who) (wr : Bool) (a n : Nat) : (d.ask tid w wr a n).sec = d.sec := rfl

@[simp] theorem regs_modSec (f : SecState → SecState) : (d.modSec f).regs = d.regs := rfl
@[simp] theorem staged_modSec (f : SecState → SecState) : (d.modSec f).staged = d.staged := rfl
@[simp] theorem captured_modSec (f : SecState → SecState) : (d.modSec f).captured = d.captured := rfl
@[simp] theorem mem_modSec (f : SecState → SecState) : (d.modSec f).mem = d.mem := rfl
@[simp] theorem galErr_modSec (f : SecState → SecState) : (d.modSec f).galErr = d.galErr := rfl
@[simp] theorem dramErr_modSec (f : SecState → SecState) : (d.modSec f).dramErr = d.dramErr := rfl
@[simp] theorem free_modSec (f : SecState → SecState) : (d.modSec f).free = d.free := rfl
@[simp] theorem resp_modSec (f : SecState → SecState) : (d.modSec f).resp = d.resp := rfl
@[simp] theorem fatal_modSec (f : SecState → SecState) : (d.modSec f).fatal = d.fatal := rfl
@[simp] theorem arr_modSec (f : SecState → SecState) : (d.modSec f).arr = d.arr := rfl
@[simp] theorem evc_modSec (f : SecState → SecState) : (d.modSec f).evc = d.evc := rfl
@[simp] theorem core_modSec (f : SecState → SecState) : (d.modSec f).core = d.core := rfl
@[simp] theorem news_modSec (f : SecState → SecState) : (d.modSec f).news = d.news := rfl
@[simp] theorem express_modSec (f : SecState → SecState) : (d.modSec f).express = d.express := rfl
@[simp] theorem pow_modSec (f : SecState → SecState) : (d.modSec f).pow = d.pow := rfl
@[simp] theorem road_modSec (f : SecState → SecState) : (d.modSec f).road = d.road := rfl
@[simp] theorem byw_modSec (f : SecState → SecState) : (d.modSec f).byw = d.byw := rfl
@[simp] theorem host_modSec (f : SecState → SecState) : (d.modSec f).host = d.host := rfl
@[simp] theorem link_modSec (f : SecState → SecState) : (d.modSec f).link = d.link := rfl
@[simp] theorem ddr_modSec (f : SecState → SecState) : (d.modSec f).ddr = d.ddr := rfl
@[simp] theorem lead_modSec (f : SecState → SecState) : (d.modSec f).lead = d.lead := rfl
@[simp] theorem gov_modSec (f : SecState → SecState) : (d.modSec f).gov = d.gov := rfl
@[simp] theorem line_modSec (f : SecState → SecState) : (d.modSec f).line = d.line := rfl
@[simp] theorem gal_modSec (f : SecState → SecState) : (d.modSec f).gal = d.gal := rfl
@[simp] theorem way_modSec (f : SecState → SecState) : (d.modSec f).way = d.way := rfl
@[simp] theorem tap_modSec (f : SecState → SecState) : (d.modSec f).tap = d.tap := rfl
@[simp] theorem test_modSec (f : SecState → SecState) : (d.modSec f).test = d.test := rfl

@[simp] theorem regs_setIo (i : Nat) (x : IoCell) : (d.setIo i x).regs = d.regs := rfl
@[simp] theorem staged_setIo (i : Nat) (x : IoCell) : (d.setIo i x).staged = d.staged := rfl
@[simp] theorem captured_setIo (i : Nat) (x : IoCell) : (d.setIo i x).captured = d.captured := rfl
@[simp] theorem mem_setIo (i : Nat) (x : IoCell) : (d.setIo i x).mem = d.mem := rfl
@[simp] theorem galErr_setIo (i : Nat) (x : IoCell) : (d.setIo i x).galErr = d.galErr := rfl
@[simp] theorem dramErr_setIo (i : Nat) (x : IoCell) : (d.setIo i x).dramErr = d.dramErr := rfl
@[simp] theorem free_setIo (i : Nat) (x : IoCell) : (d.setIo i x).free = d.free := rfl
@[simp] theorem resp_setIo (i : Nat) (x : IoCell) : (d.setIo i x).resp = d.resp := rfl
@[simp] theorem fatal_setIo (i : Nat) (x : IoCell) : (d.setIo i x).fatal = d.fatal := rfl
@[simp] theorem arr_setIo (i : Nat) (x : IoCell) : (d.setIo i x).arr = d.arr := rfl
@[simp] theorem evc_setIo (i : Nat) (x : IoCell) : (d.setIo i x).evc = d.evc := rfl
@[simp] theorem core_setIo (i : Nat) (x : IoCell) : (d.setIo i x).core = d.core := rfl
@[simp] theorem news_setIo (i : Nat) (x : IoCell) : (d.setIo i x).news = d.news := rfl
@[simp] theorem express_setIo (i : Nat) (x : IoCell) : (d.setIo i x).express = d.express := rfl
@[simp] theorem pow_setIo (i : Nat) (x : IoCell) : (d.setIo i x).pow = d.pow := rfl
@[simp] theorem road_setIo (i : Nat) (x : IoCell) : (d.setIo i x).road = d.road := rfl
@[simp] theorem host_setIo (i : Nat) (x : IoCell) : (d.setIo i x).host = d.host := rfl
@[simp] theorem link_setIo (i : Nat) (x : IoCell) : (d.setIo i x).link = d.link := rfl
@[simp] theorem ddr_setIo (i : Nat) (x : IoCell) : (d.setIo i x).ddr = d.ddr := rfl
@[simp] theorem lead_setIo (i : Nat) (x : IoCell) : (d.setIo i x).lead = d.lead := rfl
@[simp] theorem gov_setIo (i : Nat) (x : IoCell) : (d.setIo i x).gov = d.gov := rfl
@[simp] theorem line_setIo (i : Nat) (x : IoCell) : (d.setIo i x).line = d.line := rfl
@[simp] theorem gal_setIo (i : Nat) (x : IoCell) : (d.setIo i x).gal = d.gal := rfl
@[simp] theorem way_setIo (i : Nat) (x : IoCell) : (d.setIo i x).way = d.way := rfl
@[simp] theorem tap_setIo (i : Nat) (x : IoCell) : (d.setIo i x).tap = d.tap := rfl
@[simp] theorem test_setIo (i : Nat) (x : IoCell) : (d.setIo i x).test = d.test := rfl
@[simp] theorem sec_setIo (i : Nat) (x : IoCell) : (d.setIo i x).sec = d.sec := rfl

@[simp] theorem regs_atCyc (n : Nat) : (d.atCyc n).regs = d.regs := rfl
@[simp] theorem staged_atCyc (n : Nat) : (d.atCyc n).staged = d.staged := rfl
@[simp] theorem captured_atCyc (n : Nat) : (d.atCyc n).captured = d.captured := rfl
@[simp] theorem mem_atCyc (n : Nat) : (d.atCyc n).mem = d.mem := rfl
@[simp] theorem galErr_atCyc (n : Nat) : (d.atCyc n).galErr = d.galErr := rfl
@[simp] theorem dramErr_atCyc (n : Nat) : (d.atCyc n).dramErr = d.dramErr := rfl
@[simp] theorem free_atCyc (n : Nat) : (d.atCyc n).free = d.free := rfl
@[simp] theorem resp_atCyc (n : Nat) : (d.atCyc n).resp = d.resp := rfl
@[simp] theorem fatal_atCyc (n : Nat) : (d.atCyc n).fatal = d.fatal := rfl
@[simp] theorem evc_atCyc (n : Nat) : (d.atCyc n).evc = d.evc := rfl
@[simp] theorem core_atCyc (n : Nat) : (d.atCyc n).core = d.core := rfl
@[simp] theorem news_atCyc (n : Nat) : (d.atCyc n).news = d.news := rfl
@[simp] theorem express_atCyc (n : Nat) : (d.atCyc n).express = d.express := rfl
@[simp] theorem pow_atCyc (n : Nat) : (d.atCyc n).pow = d.pow := rfl
@[simp] theorem road_atCyc (n : Nat) : (d.atCyc n).road = d.road := rfl
@[simp] theorem byw_atCyc (n : Nat) : (d.atCyc n).byw = d.byw := rfl
@[simp] theorem host_atCyc (n : Nat) : (d.atCyc n).host = d.host := rfl
@[simp] theorem link_atCyc (n : Nat) : (d.atCyc n).link = d.link := rfl
@[simp] theorem ddr_atCyc (n : Nat) : (d.atCyc n).ddr = d.ddr := rfl
@[simp] theorem lead_atCyc (n : Nat) : (d.atCyc n).lead = d.lead := rfl
@[simp] theorem gov_atCyc (n : Nat) : (d.atCyc n).gov = d.gov := rfl
@[simp] theorem line_atCyc (n : Nat) : (d.atCyc n).line = d.line := rfl
@[simp] theorem gal_atCyc (n : Nat) : (d.atCyc n).gal = d.gal := rfl
@[simp] theorem way_atCyc (n : Nat) : (d.atCyc n).way = d.way := rfl
@[simp] theorem tap_atCyc (n : Nat) : (d.atCyc n).tap = d.tap := rfl
@[simp] theorem test_atCyc (n : Nat) : (d.atCyc n).test = d.test := rfl
@[simp] theorem sec_atCyc (n : Nat) : (d.atCyc n).sec = d.sec := rfl

@[simp] theorem regs_tick : d.tick.regs = d.regs := rfl
@[simp] theorem staged_tick : d.tick.staged = d.staged := rfl
@[simp] theorem captured_tick : d.tick.captured = d.captured := rfl
@[simp] theorem mem_tick : d.tick.mem = d.mem := rfl
@[simp] theorem galErr_tick : d.tick.galErr = d.galErr := rfl
@[simp] theorem dramErr_tick : d.tick.dramErr = d.dramErr := rfl
@[simp] theorem free_tick : d.tick.free = d.free := rfl
@[simp] theorem resp_tick : d.tick.resp = d.resp := rfl
@[simp] theorem fatal_tick : d.tick.fatal = d.fatal := rfl
@[simp] theorem evc_tick : d.tick.evc = d.evc := rfl
@[simp] theorem core_tick : d.tick.core = d.core := rfl
@[simp] theorem news_tick : d.tick.news = d.news := rfl
@[simp] theorem express_tick : d.tick.express = d.express := rfl
@[simp] theorem pow_tick : d.tick.pow = d.pow := rfl
@[simp] theorem road_tick : d.tick.road = d.road := rfl
@[simp] theorem byw_tick : d.tick.byw = d.byw := rfl
@[simp] theorem host_tick : d.tick.host = d.host := rfl
@[simp] theorem link_tick : d.tick.link = d.link := rfl
@[simp] theorem ddr_tick : d.tick.ddr = d.ddr := rfl
@[simp] theorem lead_tick : d.tick.lead = d.lead := rfl
@[simp] theorem gov_tick : d.tick.gov = d.gov := rfl
@[simp] theorem line_tick : d.tick.line = d.line := rfl
@[simp] theorem gal_tick : d.tick.gal = d.gal := rfl
@[simp] theorem way_tick : d.tick.way = d.way := rfl
@[simp] theorem tap_tick : d.tick.tap = d.tap := rfl
@[simp] theorem test_tick : d.tick.test = d.test := rfl
@[simp] theorem sec_tick : d.tick.sec = d.sec := rfl

@[simp] theorem sec_modSec (f : SecState → SecState) : (d.modSec f).sec = f d.sec := rfl
@[simp] theorem road_sendResp (x : OpenReq) : (d.sendResp x).road.resp = d.road.resp ++ [x] := rfl
@[simp] theorem road_await (x : OpenReq) : (d.await x).road.waiting = d.road.waiting ++ [x] := rfl
@[simp] theorem cyc_atCyc (n : Nat) : (d.atCyc n).arr.cyc = n := rfl

/-! Read back. -/

@[simp] theorem co_setCo_same (c : CoreId) (k : CoreState) : (d.setCo c k).co c = k := by simp [Dev.co, Dev.setCo]

theorem co_setCo_ne (c e : CoreId) (k : CoreState) (h : e ≠ c) : (d.setCo c k).co e = d.co e := by
  simp only [Dev.co, Dev.setCo]
  exact Vector.getElem_set_ne _ _ (fun x => h (Fin.ext x.symm))

@[simp] theorem co_modCo_same (c : CoreId) (f : CoreState → CoreState) : (d.modCo c f).co c = f (d.co c) := co_setCo_same d c _

@[simp] theorem setCo_setCo (c : CoreId) (k j : CoreState) : (d.setCo c k).setCo c j = d.setCo c j := by
  simp [Dev.setCo]

@[simp] theorem st_setSt_same (s : StreamId) (x : Strm) : (d.setSt s x).st s = x := by simp [Dev.st, Dev.setSt]

@[simp] theorem co_setReg (a : Nat) (v : Word) (c : CoreId) : (d.setReg a v).co c = d.co c := rfl

@[simp] theorem reg_setCo (c : CoreId) (k : CoreState) (a : Nat) : (d.setCo c k).reg a = d.reg a := rfl

@[simp] theorem reg_modCo (c : CoreId) (f : CoreState → CoreState) (a : Nat) : (d.modCo c f).reg a = d.reg a := rfl

@[simp] theorem byte_setReg (a : Nat) (v : Word) (b : Nat) : (d.setReg a v).byte b = d.byte b := rfl

@[simp] theorem byte_setCo (c : CoreId) (k : CoreState) (b : Nat) : (d.setCo c k).byte b = d.byte b := rfl

end Sys2Proof.Machine
end

