-- ==== Sys2Proof/Laws/Core.lean ====
section
/-! SUPPORT. Laws of a Flivin core: what an instruction that executes passes, what one whose condition is 0 does, a trap's entry. -/

namespace Sys2Proof.Machine

variable {d : Dev} {c : CoreId} {p : Pred} {ps : List PReg} {ds : List DReg} {f : Dev → Dev}

/-- A legal 16-bit form that runs does its own work. -/
theorem op16_runs (h : d.Runs16 c ps ds) : d.op16 c { ps := ps, ds := ds } f = f d := by
  obtain ⟨h1, h2, h3⟩ := h
  unfold Dev.op16 Dev.instr Dev.lawful
  have h0 : (d.co c).pends [] [] = false := rfl
  simp [h1, h2, h3, h0]

/-- The same for a form that must be legal. -/
theorem op16_runs_legal {l : Bool} (h : d.Runs16 c ps ds) (hl : l = true) :
    d.op16 c { ps := ps, ds := ds, legal := l } f = f d := by
  subst hl; exact op16_runs h

theorem op32_meets {n : Names} (h : d.Meets32 c p n.ps n.ds) (hl : n.legal = true) (hs : n.sysOnly = true → (d.co c).sys = true) :
    d.op32 c p n f = d.pred c p f := by
  obtain ⟨h1, h2, h3, h4⟩ := h
  unfold Dev.op32 Dev.instr Dev.lawful
  have h0 : (d.co c).pends [] [] = false := rfl
  have h5 : (n.sysOnly && !(d.co c).sys) = false := by
    cases hx : n.sysOnly
    · rfl
    · simp [hs hx]
  have h3' : (d.co c).fetchable ((d.co c).pc + BitVec.ofNat 32 (4 - 2)) = true := h3
  simp only [h1, h2, h3', h4, h0, hl, h5, Bool.not_true, Bool.or_self, Bool.false_eq_true, if_false]

/-- A legal 32-bit form whose condition holds does its own work. -/
theorem op32_runs {n : Names} (h : d.Runs32 c p n.ps n.ds) (hl : n.legal = true) (hs : n.sysOnly = true → (d.co c).sys = true) :
    d.op32 c p n f = f d := by
  rw [op32_meets h.1 hl hs]
  unfold Dev.pred
  rw [if_pos h.2]

/-- A legal 32-bit form whose condition is 0 only takes its cycle (R257). -/
theorem op32_skips {n : Names} (h : d.Meets32 c p n.ps n.ds) (hl : n.legal = true) (hs : n.sysOnly = true → (d.co c).sys = true)
    (hc : (d.co c).holds p = false) : d.op32 c p n f = d.setCo c ((d.co c).advance 4 1) := by
  rw [op32_meets h hl hs]
  unfold Dev.pred
  simp [hc, Dev.modCo]

theorem short_runs {g : CoreState → CoreState} (h : d.Runs16 c ps ds) :
    d.short c { ps := ps, ds := ds } g = d.setCo c ((g (d.co c)).advance 2 1) := op16_runs h

theorem long_runs {n : Names} {k : Nat} {g : CoreState → CoreState} (h : d.Runs32 c p n.ps n.ds) (hl : n.legal = true)
    (hs : n.sysOnly = true → (d.co c).sys = true) : d.long c p n k g = d.setCo c ((g (d.co c)).advance 4 k) := op32_runs h hl hs

theorem fetchable_sys {k : CoreState} {a : Word} (hk : k.sys = true)
    (h : (0x08000000 ≤ a.toNat ∧ a.toNat < 0x08008000) ∨ a.toNat < 0x10000) : k.fetchable a = true := by
  unfold CoreState.fetchable
  rcases h with ⟨h1, h2⟩ | h
  · simp [h1, h2]
  · simp [hk, h]

theorem sys_setBit (v : Word) : (setBit v 31 true).getLsbD 31 = true := by
  simp [setBit]

/-- The entry sequence of R276 when it succeeds: the frame, step 3 as g makes it, system mode, the vector. -/
theorem enter_succeeds {ret : Word} {entry ra : Nat} {g : CoreState → CoreState} (h : (d.co c).EntersAt c entry ra) :
    d.enter c ret entry g =
      ((d.setWord32 ra ret).setWord32 (ra + 4) (d.co c).srWord).setCo c
        { (g { d.co c with tsp := (d.co c).tsp - 8 }).setSys true with
          pc := (d.co c).vector entry, cyc := ((g { d.co c with tsp := (d.co c).tsp - 8 }).setSys true).cyc + 6 } := by
  obtain ⟨h1, h2, h3⟩ := h
  unfold Dev.enter
  simp only [h1, h2, ne_eq, not_true_eq_false, if_false]
  rw [if_pos]
  · rfl
  · exact fetchable_sys (by simp [CoreState.sys, CoreState.setSys, sys_setBit]) h3

theorem drain_nil {k : CoreState} (h : k.loads = []) : k.drain = k := by
  cases k
  simp only at h
  subst h
  rfl

/-- A synchronous trap whose entry succeeds, with no load in flight (R275, R276). -/
theorem trap_succeeds {t : Trap} {ret taddr : Word} {impr : Bool} {ra : Nat} (h : (d.co c).EntersAt c (trapNo t).toNat ra)
    (hl : (d.co c).loads = []) :
    d.trap c t ret taddr impr =
      ((d.setWord32 ra ret).setWord32 (ra + 4) (d.co c).srWord).setCo c ((d.co c).trapped t taddr impr) := by
  have hw : (d.co c).awaits = false := by simp [CoreState.awaits, hl]
  unfold Dev.trap Dev.takeTrap
  rw [hw]
  have hm : d.modCo c CoreState.drain = d := by
    unfold Dev.modCo
    rw [drain_nil hl]
    cases d
    simp [Dev.setCo, Dev.co]
  simp only [hm, Bool.false_eq_true, if_false]
  rw [enter_succeeds h]
  rfl

end Sys2Proof.Machine
end

