-- ==== Sys2Proof/Laws/Exec.lean ====
section
/-! SUPPORT. The dispatch, constructor by constructor: a command runs its own meaning. -/

namespace Sys2Proof.Machine

variable (s : State)

theorem exec_registerWrite (r : Requester) (addr : BitVec 40) (size : Nat) (v : Word) : exec (.registerWrite r addr size v) s = execRegisterWrite r addr size v s := rfl
theorem exec_commit (r : Requester) (b : Block) : exec (.commit r b) s = execCommit r b s := rfl
theorem exec_commitApply (b : Block) : exec (.commitApply b) s = execCommitApply b s := rfl
theorem exec_lock (r : Requester) (b : Block) : exec (.lock r b) s = execLock r b s := rfl
theorem exec_splitQuiesced : exec (.splitQuiesced) s = execSplitQuiesced s := rfl
theorem exec_mov (a : AOp) : exec (.mov a) s = execMov a s := rfl
theorem exec_not (a : AOp) : exec (.not a) s = execNot a s := rfl
theorem exec_and (a : AOp) : exec (.and a) s = execAnd a s := rfl
theorem exec_or (a : AOp) : exec (.or a) s = execOr a s := rfl
theorem exec_xor (a : AOp) : exec (.xor a) s = execXor a s := rfl
theorem exec_andn (a : AOp) : exec (.andn a) s = execAndn a s := rfl
theorem exec_set (a : AOp) : exec (.set a) s = execSet a s := rfl
theorem exec_clr (a : AOp) : exec (.clr a) s = execClr a s := rfl
theorem exec_movs (a : AOp) : exec (.movs a) s = execMovs a s := rfl
theorem exec_add (a : AOp) : exec (.add a) s = execAdd a s := rfl
theorem exec_adc (a : AOp) : exec (.adc a) s = execAdc a s := rfl
theorem exec_sub (a : AOp) : exec (.sub a) s = execSub a s := rfl
theorem exec_sbc (a : AOp) : exec (.sbc a) s = execSbc a s := rfl
theorem exec_addsu (a : AOp) : exec (.addsu a) s = execAddsu a s := rfl
theorem exec_addss (a : AOp) : exec (.addss a) s = execAddss a s := rfl
theorem exec_subsu (a : AOp) : exec (.subsu a) s = execSubsu a s := rfl
theorem exec_subss (a : AOp) : exec (.subss a) s = execSubss a s := rfl
theorem exec_neg (a : AOp) : exec (.neg a) s = execNeg a s := rfl
theorem exec_cmpeq (a : AOp) : exec (.cmpeq a) s = execCmpeq a s := rfl
theorem exec_cmpltu (a : AOp) : exec (.cmpltu a) s = execCmpltu a s := rfl
theorem exec_cmplts (a : AOp) : exec (.cmplts a) s = execCmplts a s := rfl
theorem exec_minu (a : AOp) : exec (.minu a) s = execMinu a s := rfl
theorem exec_maxu (a : AOp) : exec (.maxu a) s = execMaxu a s := rfl
theorem exec_mins (a : AOp) : exec (.mins a) s = execMins a s := rfl
theorem exec_maxs (a : AOp) : exec (.maxs a) s = execMaxs a s := rfl
theorem exec_mulu (a : AOp) : exec (.mulu a) s = execMulu a s := rfl
theorem exec_muls (a : AOp) : exec (.muls a) s = execMuls a s := rfl
theorem exec_dstep (a : AOp) : exec (.dstep a) s = execDstep a s := rfl
theorem exec_shl (a : AOp) (hi : Bool) : exec (.shl a hi) s = execShl a hi s := rfl
theorem exec_shru (a : AOp) (hi : Bool) : exec (.shru a hi) s = execShru a hi s := rfl
theorem exec_shrs (a : AOp) (hi : Bool) : exec (.shrs a hi) s = execShrs a hi s := rfl
theorem exec_rol (a : AOp) (hi : Bool) : exec (.rol a hi) s = execRol a hi s := rfl
theorem exec_getn (a : AOp) : exec (.getn a) s = execGetn a s := rfl
theorem exec_gets (a : AOp) : exec (.gets a) s = execGets a s := rfl
theorem exec_gete (a : AOp) : exec (.gete a) s = execGete a s := rfl
theorem exec_getw (a : AOp) : exec (.getw a) s = execGetw a s := rfl
theorem exec_xgetn (a : AOp) : exec (.xgetn a) s = execXgetn a s := rfl
theorem exec_xgets (a : AOp) : exec (.xgets a) s = execXgets a s := rfl
theorem exec_xgete (a : AOp) : exec (.xgete a) s = execXgete a s := rfl
theorem exec_xgetw (a : AOp) : exec (.xgetw a) s = execXgetw a s := rfl
theorem exec_sel (a : AOp) : exec (.sel a) s = execSel a s := rfl
theorem exec_seln (a : AOp) : exec (.seln a) s = execSeln a s := rfl
theorem exec_actall (a : AOp) : exec (.actall a) s = execActall a s := rfl
theorem exec_actld (a : AOp) : exec (.actld a) s = execActld a s := rfl
theorem exec_actpush (a : AOp) : exec (.actpush a) s = execActpush a s := rfl
theorem exec_actpushn (a : AOp) : exec (.actpushn a) s = execActpushn a s := rfl
theorem exec_actpop (a : AOp) : exec (.actpop a) s = execActpop a s := rfl
theorem exec_actelse (a : AOp) : exec (.actelse a) s = execActelse a s := rfl
theorem exec_lookup (a : AOp) : exec (.lookup a) s = execLookup a s := rfl
theorem exec_afd (a : AOp) : exec (.afd a) s = execAfd a s := rfl
theorem exec_agor (a : AOp) : exec (.agor a) s = execAgor a s := rfl
theorem exec_agorB (a : AOp) : exec (.agorB a) s = execAgorB a s := rfl
theorem exec_hor (a : AOp) : exec (.hor a) s = execHor a s := rfl
theorem exec_horB (a : AOp) : exec (.horB a) s = execHorB a s := rfl
theorem exec_faddH (a : AOp) : exec (.faddH a) s = execFaddH a s := rfl
theorem exec_faddS (a : AOp) : exec (.faddS a) s = execFaddS a s := rfl
theorem exec_fsubH (a : AOp) : exec (.fsubH a) s = execFsubH a s := rfl
theorem exec_fsubS (a : AOp) : exec (.fsubS a) s = execFsubS a s := rfl
theorem exec_fmulH (a : AOp) : exec (.fmulH a) s = execFmulH a s := rfl
theorem exec_fmulS (a : AOp) : exec (.fmulS a) s = execFmulS a s := rfl
theorem exec_fmaH (a : AOp) : exec (.fmaH a) s = execFmaH a s := rfl
theorem exec_fmaS (a : AOp) : exec (.fmaS a) s = execFmaS a s := rfl
theorem exec_fceqH (a : AOp) : exec (.fceqH a) s = execFceqH a s := rfl
theorem exec_fceqS (a : AOp) : exec (.fceqS a) s = execFceqS a s := rfl
theorem exec_fcltH (a : AOp) : exec (.fcltH a) s = execFcltH a s := rfl
theorem exec_fcltS (a : AOp) : exec (.fcltS a) s = execFcltS a s := rfl
theorem exec_fcleH (a : AOp) : exec (.fcleH a) s = execFcleH a s := rfl
theorem exec_fcleS (a : AOp) : exec (.fcleS a) s = execFcleS a s := rfl
theorem exec_fcvtSH (a : AOp) : exec (.fcvtSH a) s = execFcvtSH a s := rfl
theorem exec_fcvtHS (a : AOp) : exec (.fcvtHS a) s = execFcvtHS a s := rfl
theorem exec_fcvtHI (a : AOp) : exec (.fcvtHI a) s = execFcvtHI a s := rfl
theorem exec_fcvtSI (a : AOp) : exec (.fcvtSI a) s = execFcvtSI a s := rfl
theorem exec_fcvtIH (a : AOp) : exec (.fcvtIH a) s = execFcvtIH a s := rfl
theorem exec_fcvtIS (a : AOp) : exec (.fcvtIS a) s = execFcvtIS a s := rfl
theorem exec_strin (a : AOp) : exec (.strin a) s = execStrin a s := rfl
theorem exec_strout (a : AOp) : exec (.strout a) s = execStrout a s := rfl
theorem exec_milestone (a : AOp) : exec (.milestone a) s = execMilestone a s := rfl
theorem exec_amode (a : AOp) : exec (.amode a) s = execAmode a s := rfl
theorem exec_customerOpcode (n : BitVec 4) (a : AOp) : exec (.customerOpcode n a) s = execCustomerOpcode n a s := rfl
theorem exec_reservedArrayOpcode (opc : BitVec 7) (a : AOp) : exec (.reservedArrayOpcode opc a) s = execReservedArrayOpcode opc a s := rfl
theorem exec_arrayFpTrap (sx : StreamId) : exec (.arrayFpTrap sx) s = execArrayFpTrap sx s := rfl
theorem exec_routineStart (sx : StreamId) : exec (.routineStart sx) s = execRoutineStart sx s := rfl
theorem exec_microwordIssue (sx : StreamId) : exec (.microwordIssue sx) s = execMicrowordIssue sx s := rfl
theorem exec_routineTimeout (sx : StreamId) : exec (.routineTimeout sx) s = execRoutineTimeout sx s := rfl
theorem exec_microwordArrive (h : LHall) : exec (.microwordArrive h) s = execMicrowordArrive h s := rfl
theorem exec_creditReturn (h : LHall) : exec (.creditReturn h) s = execCreditReturn h s := rfl
theorem exec_hallEntryStart (h : LHall) : exec (.hallEntryStart h) s = execHallEntryStart h s := rfl
theorem exec_stallEnd (h : LHall) : exec (.stallEnd h) s = execStallEnd h s := rfl
theorem exec_tokenTimeout (h : LHall) (edge : BitVec 2) (faulty : LHall) : exec (.tokenTimeout h edge faulty) s = execTokenTimeout h edge faulty s := rfl
theorem exec_repReport (h : LHall) : exec (.repReport h) s = execRepReport h s := rfl
theorem exec_orRelease (h : LHall) : exec (.orRelease h) s = execOrRelease h s := rfl
theorem exec_orResultFormed (sx : StreamId) : exec (.orResultFormed sx) s = execOrResultFormed sx s := rfl
theorem exec_patchLoad (r : Requester) : exec (.patchLoad r) s = execPatchLoad r s := rfl
theorem exec_patchStagingDone (ok : Bool) : exec (.patchStagingDone ok) s = execPatchStagingDone ok s := rfl
theorem exec_patchVerifyDone (v : Verdict) : exec (.patchVerifyDone v) s = execPatchVerifyDone v s := rfl
theorem exec_preemptStop (sx : StreamId) : exec (.preemptStop sx) s = execPreemptStop sx s := rfl
theorem exec_preemptResume (sx : StreamId) : exec (.preemptResume sx) s = execPreemptResume sx s := rfl
theorem exec_stairTransferStart (h : LHall) : exec (.stairTransferStart h) s = execStairTransferStart h s := rfl
theorem exec_stairWaitTimeout (h : LHall) : exec (.stairWaitTimeout h) s = execStairWaitTimeout h s := rfl
theorem exec_galleryBankGrant (bank : Fin 32) (waiting : List GalReq) : exec (.galleryBankGrant bank waiting) s = execGalleryBankGrant bank waiting s := rfl
theorem exec_milestoneCommit (sx : StreamId) (t : Nat) : exec (.milestoneCommit sx t) s = execMilestoneCommit sx t s := rfl
theorem exec_leadCopyStart : exec (.leadCopyStart) s = execLeadCopyStart s := rfl
theorem exec_leadCopyDone : exec (.leadCopyDone) s = execLeadCopyDone s := rfl
theorem exec_secureWipe (r : Requester) : exec (.secureWipe r) s = execSecureWipe r s := rfl
theorem exec_wipeClearDone : exec (.wipeClearDone) s = execWipeClearDone s := rfl
theorem exec_wipeReadbackDone (nonzero : Bool) : exec (.wipeReadbackDone nonzero) s = execWipeReadbackDone nonzero s := rfl
theorem exec_marchStart (r : Requester) (v : Word) : exec (.marchStart r v) s = execMarchStart r v s := rfl
theorem exec_marchDone (fails : List MarchFail) : exec (.marchDone fails) s = execMarchDone fails s := rfl
theorem exec_rprWrite (r : Requester) (n : Fin 320) (v : Word) : exec (.rprWrite r n v) s = execRprWrite r n v s := rfl
theorem exec_upsetRecovery (reps : List (HallId × UpsetRep)) : exec (.upsetRecovery reps) s = execUpsetRecovery reps s := rfl
theorem exec_spanOverrun (sx : StreamId) : exec (.spanOverrun sx) s = execSpanOverrun sx s := rfl
theorem exec_columnRetirement (h : HallId) : exec (.columnRetirement h) s = execColumnRetirement h s := rfl
theorem exec_retireRefillStart (h : HallId) : exec (.retireRefillStart h) s = execRetireRefillStart h s := rfl
theorem exec_retireRefillDone (h : HallId) : exec (.retireRefillDone h) s = execRetireRefillDone h s := rfl
theorem exec_failoverImageLoaded (ok : Bool) : exec (.failoverImageLoaded ok) s = execFailoverImageLoaded ok s := rfl
theorem exec_failoverResume (ok : Bool) : exec (.failoverResume ok) s = execFailoverResume ok s := rfl
theorem exec_faultRecordWrite : exec (.faultRecordWrite) s = execFaultRecordWrite s := rfl
theorem exec_himgUnload (r : Requester) (h : LHall) : exec (.himgUnload r h) s = execHimgUnload r h s := rfl
theorem exec_himgLoad (r : Requester) (h : LHall) : exec (.himgLoad r h) s = execHimgLoad r h s := rfl
theorem exec_himgVerify (r : Requester) (h : LHall) : exec (.himgVerify r h) s = execHimgVerify r h s := rfl
theorem exec_himgDone : exec (.himgDone) s = execHimgDone s := rfl
theorem exec_encoderEdge (a b : Bool) : exec (.encoderEdge a b) s = execEncoderEdge a b s := rfl
theorem exec_lsyncPulse (lowNs highNs : Nat) : exec (.lsyncPulse lowNs highNs) s = execLsyncPulse lowNs highNs s := rfl
theorem exec_lineStrobe (t : Nat) : exec (.lineStrobe t) s = execLineStrobe t s := rfl
theorem exec_lineGateAdmit (sx : StreamId) : exec (.lineGateAdmit sx) s = execLineGateAdmit sx s := rfl
theorem exec_eventEntry (c : CoreId) : exec (.eventEntry c) s = execEventEntry c s := rfl
theorem exec_impreciseTrap (c : CoreId) : exec (.impreciseTrap c) s = execImpreciseTrap c s := rfl
theorem exec_coreRun (r : Requester) (v : Word) : exec (.coreRun r v) s = execCoreRun r v s := rfl
theorem exec_coreMov (c : CoreId) (d sx : DReg) : exec (.coreMov c d sx) s = execCoreMov c d sx s := rfl
theorem exec_coreAdd (c : CoreId) (f : AluForm) : exec (.coreAdd c f) s = execCoreAdd c f s := rfl
theorem exec_coreSub (c : CoreId) (f : AluForm) : exec (.coreSub c f) s = execCoreSub c f s := rfl
theorem exec_coreAnd (c : CoreId) (f : AluForm) : exec (.coreAnd c f) s = execCoreAnd c f s := rfl
theorem exec_coreOr (c : CoreId) (f : AluForm) : exec (.coreOr c f) s = execCoreOr c f s := rfl
theorem exec_coreXor (c : CoreId) (f : AluForm) : exec (.coreXor c f) s = execCoreXor c f s := rfl
theorem exec_coreAndn (c : CoreId) (p : Pred) (d sx t : DReg) : exec (.coreAndn c p d sx t) s = execCoreAndn c p d sx t s := rfl
theorem exec_coreNot (c : CoreId) (d sx : DReg) : exec (.coreNot c d sx) s = execCoreNot c d sx s := rfl
theorem exec_coreNeg (c : CoreId) (d sx : DReg) : exec (.coreNeg c d sx) s = execCoreNeg c d sx s := rfl
theorem exec_coreShl (c : CoreId) (f : AluForm) : exec (.coreShl c f) s = execCoreShl c f s := rfl
theorem exec_coreShru (c : CoreId) (f : AluForm) : exec (.coreShru c f) s = execCoreShru c f s := rfl
theorem exec_coreShrs (c : CoreId) (f : AluForm) : exec (.coreShrs c f) s = execCoreShrs c f s := rfl
theorem exec_coreRol (c : CoreId) (p : Pred) (d sx t : DReg) : exec (.coreRol c p d sx t) s = execCoreRol c p d sx t s := rfl
theorem exec_coreMins (c : CoreId) (p : Pred) (d sx t : DReg) : exec (.coreMins c p d sx t) s = execCoreMins c p d sx t s := rfl
theorem exec_coreMaxs (c : CoreId) (p : Pred) (d sx t : DReg) : exec (.coreMaxs c p d sx t) s = execCoreMaxs c p d sx t s := rfl
theorem exec_coreMinu (c : CoreId) (p : Pred) (d sx t : DReg) : exec (.coreMinu c p d sx t) s = execCoreMinu c p d sx t s := rfl
theorem exec_coreMaxu (c : CoreId) (p : Pred) (d sx t : DReg) : exec (.coreMaxu c p d sx t) s = execCoreMaxu c p d sx t s := rfl
theorem exec_aset (c : CoreId) (d : AReg) (sx : DReg) : exec (.aset c d sx) s = execAset c d sx s := rfl
theorem exec_aget (c : CoreId) (d : DReg) (sx : AReg) : exec (.aget c d sx) s = execAget c d sx s := rfl
theorem exec_aadd (c : CoreId) (d : AReg) (sx : DReg) : exec (.aadd c d sx) s = execAadd c d sx s := rfl
theorem exec_lea (c : CoreId) (p : Pred) (d sx : AReg) (imm : BitVec 16) : exec (.lea c p d sx imm) s = execLea c p d sx imm s := rfl
theorem exec_movi (c : CoreId) (f : ImmForm) : exec (.movi c f) s = execMovi c f s := rfl
theorem exec_movhi (c : CoreId) (p : Pred) (d : DReg) (imm : BitVec 16) : exec (.movhi c p d imm) s = execMovhi c p d imm s := rfl
theorem exec_addi (c : CoreId) (f : ImmForm) : exec (.addi c f) s = execAddi c f s := rfl
theorem exec_load (c : CoreId) (f : MemForm) : exec (.load c f) s = execLoad c f s := rfl
theorem exec_store (c : CoreId) (f : MemForm) : exec (.store c f) s = execStore c f s := rfl
theorem exec_cmpEq (c : CoreId) (p : Pred) (d : PReg) (sx : DReg) (o : CmpOp) : exec (.cmpEq c p d sx o) s = execCmpEq c p d sx o s := rfl
theorem exec_cmpNe (c : CoreId) (p : Pred) (d : PReg) (sx : DReg) (o : CmpOp) : exec (.cmpNe c p d sx o) s = execCmpNe c p d sx o s := rfl
theorem exec_cmpLts (c : CoreId) (p : Pred) (d : PReg) (sx : DReg) (o : CmpOp) : exec (.cmpLts c p d sx o) s = execCmpLts c p d sx o s := rfl
theorem exec_cmpGes (c : CoreId) (p : Pred) (d : PReg) (sx : DReg) (o : CmpOp) : exec (.cmpGes c p d sx o) s = execCmpGes c p d sx o s := rfl
theorem exec_cmpLtu (c : CoreId) (p : Pred) (d : PReg) (sx : DReg) (o : CmpOp) : exec (.cmpLtu c p d sx o) s = execCmpLtu c p d sx o s := rfl
theorem exec_cmpGeu (c : CoreId) (p : Pred) (d : PReg) (sx : DReg) (o : CmpOp) : exec (.cmpGeu c p d sx o) s = execCmpGeu c p d sx o s := rfl
theorem exec_predAnd (c : CoreId) (p : Pred) (d a b : PReg) : exec (.predAnd c p d a b) s = execPredAnd c p d a b s := rfl
theorem exec_predOr (c : CoreId) (p : Pred) (d a b : PReg) : exec (.predOr c p d a b) s = execPredOr c p d a b s := rfl
theorem exec_predXor (c : CoreId) (p : Pred) (d a b : PReg) : exec (.predXor c p d a b) s = execPredXor c p d a b s := rfl
theorem exec_predAndn (c : CoreId) (p : Pred) (d a b : PReg) : exec (.predAndn c p d a b) s = execPredAndn c p d a b s := rfl
theorem exec_br (c : CoreId) (f : BrForm) : exec (.br c f) s = execBr c f s := rfl
theorem exec_brp (c : CoreId) (p : Pred) (off : BitVec 8) : exec (.brp c p off) s = execBrp c p off s := rfl
theorem exec_call (c : CoreId) (f : BrForm) : exec (.call c f) s = execCall c f s := rfl
theorem exec_jmp (c : CoreId) (p : Pred) (a : AReg) : exec (.jmp c p a) s = execJmp c p a s := rfl
theorem exec_calla (c : CoreId) (p : Pred) (a : AReg) : exec (.calla c p a) s = execCalla c p a s := rfl
theorem exec_ret (c : CoreId) : exec (.ret c) s = execRet c s := rfl
theorem exec_nop (c : CoreId) : exec (.nop c) s = execNop c s := rfl
theorem exec_wait (c : CoreId) : exec (.wait c) s = execWait c s := rfl
theorem exec_fence (c : CoreId) : exec (.fence c) s = execFence c s := rfl
theorem exec_bkpt (c : CoreId) : exec (.bkpt c) s = execBkpt c s := rfl
theorem exec_isync (c : CoreId) : exec (.isync c) s = execIsync c s := rfl
theorem exec_macH2 (c : CoreId) (p : Pred) (n x y : BitVec 2) : exec (.macH2 c p n x y) s = execMacH2 c p n x y s := rfl
theorem exec_acmov (c : CoreId) (p : Pred) (d : DReg) (n : BitVec 2) (sh : BitVec 6) : exec (.acmov c p d n sh) s = execAcmov c p d n sh s := rfl
theorem exec_acclr (c : CoreId) (p : Pred) (n : BitVec 2) : exec (.acclr c p n) s = execAcclr c p n s := rfl
theorem exec_acrd (c : CoreId) (p : Pred) (d : DReg) (n part : BitVec 2) : exec (.acrd c p d n part) s = execAcrd c p d n part s := rfl
theorem exec_acwr (c : CoreId) (p : Pred) (n : BitVec 2) (sx : DReg) (part : BitVec 2) : exec (.acwr c p n sx part) s = execAcwr c p n sx part s := rfl
theorem exec_mul (c : CoreId) (p : Pred) (d sx t : DReg) (ct : Bool) : exec (.mul c p d sx t ct) s = execMul c p d sx t ct s := rfl
theorem exec_mulhs (c : CoreId) (p : Pred) (d sx t : DReg) (ct : Bool) : exec (.mulhs c p d sx t ct) s = execMulhs c p d sx t ct s := rfl
theorem exec_mulhu (c : CoreId) (p : Pred) (d sx t : DReg) (ct : Bool) : exec (.mulhu c p d sx t ct) s = execMulhu c p d sx t ct s := rfl
theorem exec_mulds (c : CoreId) (p : Pred) (d sx t : DReg) (ct : Bool) : exec (.mulds c p d sx t ct) s = execMulds c p d sx t ct s := rfl
theorem exec_muldu (c : CoreId) (p : Pred) (d sx t : DReg) (ct : Bool) : exec (.muldu c p d sx t ct) s = execMuldu c p d sx t ct s := rfl
theorem exec_coreDstep (c : CoreId) (p : Pred) (r q v : DReg) : exec (.coreDstep c p r q v) s = execCoreDstep c p r q v s := rfl
theorem exec_macs (c : CoreId) (p : Pred) (n : BitVec 2) (sx t : DReg) (ct : Bool) : exec (.macs c p n sx t ct) s = execMacs c p n sx t ct s := rfl
theorem exec_macu (c : CoreId) (p : Pred) (n : BitVec 2) (sx t : DReg) (ct : Bool) : exec (.macu c p n sx t ct) s = execMacu c p n sx t ct s := rfl
theorem exec_msus (c : CoreId) (p : Pred) (n : BitVec 2) (sx t : DReg) (ct : Bool) : exec (.msus c p n sx t ct) s = execMsus c p n sx t ct s := rfl
theorem exec_fadd (c : CoreId) (p : Pred) (pr : Bool) (d sx t : DReg) : exec (.fadd c p pr d sx t) s = execFadd c p pr d sx t s := rfl
theorem exec_fsub (c : CoreId) (p : Pred) (pr : Bool) (d sx t : DReg) : exec (.fsub c p pr d sx t) s = execFsub c p pr d sx t s := rfl
theorem exec_fmul (c : CoreId) (p : Pred) (pr : Bool) (d sx t : DReg) : exec (.fmul c p pr d sx t) s = execFmul c p pr d sx t s := rfl
theorem exec_fma (c : CoreId) (p : Pred) (pr : Bool) (d sx t : DReg) : exec (.fma c p pr d sx t) s = execFma c p pr d sx t s := rfl
theorem exec_fnms (c : CoreId) (p : Pred) (pr : Bool) (d sx t : DReg) : exec (.fnms c p pr d sx t) s = execFnms c p pr d sx t s := rfl
theorem exec_fmin (c : CoreId) (p : Pred) (pr : Bool) (d sx t : DReg) : exec (.fmin c p pr d sx t) s = execFmin c p pr d sx t s := rfl
theorem exec_fmax (c : CoreId) (p : Pred) (pr : Bool) (d sx t : DReg) : exec (.fmax c p pr d sx t) s = execFmax c p pr d sx t s := rfl
theorem exec_fneg (c : CoreId) (p : Pred) (pr : Bool) (d sx : DReg) : exec (.fneg c p pr d sx) s = execFneg c p pr d sx s := rfl
theorem exec_fabs (c : CoreId) (p : Pred) (pr : Bool) (d sx : DReg) : exec (.fabs c p pr d sx) s = execFabs c p pr d sx s := rfl
theorem exec_fmov (c : CoreId) (p : Pred) (pr : Bool) (d sx : DReg) : exec (.fmov c p pr d sx) s = execFmov c p pr d sx s := rfl
theorem exec_fceq (c : CoreId) (p : Pred) (pr : Bool) (d : PReg) (sx t : DReg) : exec (.fceq c p pr d sx t) s = execFceq c p pr d sx t s := rfl
theorem exec_fclt (c : CoreId) (p : Pred) (pr : Bool) (d : PReg) (sx t : DReg) : exec (.fclt c p pr d sx t) s = execFclt c p pr d sx t s := rfl
theorem exec_fcle (c : CoreId) (p : Pred) (pr : Bool) (d : PReg) (sx t : DReg) : exec (.fcle c p pr d sx t) s = execFcle c p pr d sx t s := rfl
theorem exec_fcvt (c : CoreId) (p : Pred) (pr : Bool) (d sx : DReg) : exec (.fcvt c p pr d sx) s = execFcvt c p pr d sx s := rfl
theorem exec_fcvtW (c : CoreId) (p : Pred) (pr : Bool) (d sx : DReg) : exec (.fcvtW c p pr d sx) s = execFcvtW c p pr d sx s := rfl
theorem exec_fcvtFW (c : CoreId) (p : Pred) (pr : Bool) (d sx : DReg) : exec (.fcvtFW c p pr d sx) s = execFcvtFW c p pr d sx s := rfl
theorem exec_fcvtWu (c : CoreId) (p : Pred) (pr : Bool) (d sx : DReg) : exec (.fcvtWu c p pr d sx) s = execFcvtWu c p pr d sx s := rfl
theorem exec_fcvtFWu (c : CoreId) (p : Pred) (pr : Bool) (d sx : DReg) : exec (.fcvtFWu c p pr d sx) s = execFcvtFWu c p pr d sx s := rfl
theorem exec_frece (c : CoreId) (p : Pred) (pr : Bool) (d sx : DReg) : exec (.frece c p pr d sx) s = execFrece c p pr d sx s := rfl
theorem exec_frsqe (c : CoreId) (p : Pred) (pr : Bool) (d sx : DReg) : exec (.frsqe c p pr d sx) s = execFrsqe c p pr d sx s := rfl
theorem exec_mfsr (c : CoreId) (p : Pred) (d : DReg) (n : BitVec 8) : exec (.mfsr c p d n) s = execMfsr c p d n s := rfl
theorem exec_mtsr (c : CoreId) (p : Pred) (d : DReg) (n : BitVec 8) : exec (.mtsr c p d n) s = execMtsr c p d n s := rfl
theorem exec_rete (c : CoreId) (p : Pred) : exec (.rete c p) s = execRete c p s := rfl
theorem exec_sysc (c : CoreId) (p : Pred) (code : BitVec 8) : exec (.sysc c p code) s = execSysc c p code s := rfl
theorem exec_rspush (c : CoreId) (p : Pred) (d : DReg) : exec (.rspush c p d) s = execRspush c p d s := rfl
theorem exec_rspop (c : CoreId) (p : Pred) (d : DReg) : exec (.rspop c p d) s = execRspop c p d s := rfl
theorem exec_rspushb (c : CoreId) (p : Pred) (d : DReg) : exec (.rspushb c p d) s = execRspushb c p d s := rfl
theorem exec_rspopb (c : CoreId) (p : Pred) (d : DReg) : exec (.rspopb c p d) s = execRspopb c p d s := rfl
theorem exec_illegalInstruction (c : CoreId) : exec (.illegalInstruction c) s = execIllegalInstruction c s := rfl
theorem exec_eventLineChange (src : BitVec 8) (v : Bool) : exec (.eventLineChange src v) s = execEventLineChange src v s := rfl
theorem exec_eventSet (r : Requester) (w : Fin 8) (v : Word) : exec (.eventSet r w v) s = execEventSet r w v s := rfl
theorem exec_claim (c : CoreId) : exec (.claim c) s = execClaim c s := rfl
theorem exec_done (owner : Fin 5) (src : BitVec 8) : exec (.done owner src) s = execDone owner src s := rfl
theorem exec_modTimerExpire (g : BitVec 4) : exec (.modTimerExpire g) s = execModTimerExpire g s := rfl
theorem exec_modDisable (r : Requester) (g : BitVec 4) (v : Word) : exec (.modDisable r g v) s = execModDisable r g v s := rfl
theorem exec_waitWake (c : CoreId) : exec (.waitWake c) s = execWaitWake c s := rfl
theorem exec_msixSend (vec : BitVec 6) : exec (.msixSend vec) s = execMsixSend vec s := rfl
theorem exec_rd (p : Packet) : exec (.rd p) s = execRd p s := rfl
theorem exec_wr (p : Packet) : exec (.wr p) s = execWr p s := rfl
theorem exec_pwr (p : Packet) : exec (.pwr p) s = execPwr p s := rfl
theorem exec_swr (p : Packet) : exec (.swr p) s = execSwr p s := rfl
theorem exec_rsp (tid : BitVec 12) : exec (.rsp tid) s = execRsp tid s := rfl
theorem exec_mrd (p : Packet) : exec (.mrd p) s = execMrd p s := rfl
theorem exec_mwr (p : Packet) : exec (.mwr p) s = execMwr p s := rfl
theorem exec_mrsp (tid : BitVec 12) : exec (.mrsp tid) s = execMrsp tid s := rfl
theorem exec_msg (p : Packet) : exec (.msg p) s = execMsg p s := rfl
theorem exec_epoch (at_ : EpochAt) : exec (.epoch at_) s = execEpoch at_ s := rfl
theorem exec_roadFlitReceive (link : Fin 15) (up : Bool) (crcOk : Bool) : exec (.roadFlitReceive link up crcOk) s = execRoadFlitReceive link up crcOk s := rfl
theorem exec_linkHeartbeatTimeout (link : Fin 15) : exec (.linkHeartbeatTimeout link) s = execLinkHeartbeatTimeout link s := rfl
theorem exec_bridgeDrainEnd (n : BitVec 6) : exec (.bridgeDrainEnd n) s = execBridgeDrainEnd n s := rfl
theorem exec_bridgeDrainTimeout (n : BitVec 6) : exec (.bridgeDrainTimeout n) s = execBridgeDrainTimeout n s := rfl
theorem exec_bridgeLinkDown (n : BitVec 6) : exec (.bridgeLinkDown n) s = execBridgeLinkDown n s := rfl
theorem exec_resetExchange (n : BitVec 6) : exec (.resetExchange n) s = execResetExchange n s := rfl
theorem exec_targetTimeout (n : BitVec 6) : exec (.targetTimeout n) s = execTargetTimeout n s := rfl
theorem exec_roadKill (r : Requester) (n : BitVec 6) : exec (.roadKill r n) s = execRoadKill r n s := rfl
theorem exec_deadRevive (r : Requester) (w : Fin 2) (v : Word) : exec (.deadRevive r w v) s = execDeadRevive r w v s := rfl
theorem exec_fabricFullLoad (r : Requester) : exec (.fabricFullLoad r) s = execFabricFullLoad r s := rfl
theorem exec_fabricPartialLoad (r : Requester) (rgn : BitVec 3) : exec (.fabricPartialLoad r rgn) s = execFabricPartialLoad r rgn s := rfl
theorem exec_fabricFramesRead (ok : Bool) : exec (.fabricFramesRead ok) s = execFabricFramesRead ok s := rfl
theorem exec_fabricVerifyDone (v : Verdict) : exec (.fabricVerifyDone v) s = execFabricVerifyDone v s := rfl
theorem exec_fabricOutputsEnable : exec (.fabricOutputsEnable) s = execFabricOutputsEnable s := rfl
theorem exec_queueLineBegin (q : Fin 48) : exec (.queueLineBegin q) s = execQueueLineBegin q s := rfl
theorem exec_gatherRead (q : Fin 48) : exec (.gatherRead q) s = execGatherRead q s := rfl
theorem exec_queuePop (q : Fin 48) : exec (.queuePop q) s = execQueuePop q s := rfl
theorem exec_captureArm (r : Requester) : exec (.captureArm r) s = execCaptureArm r s := rfl
theorem exec_captureTake (ffs : List Word) : exec (.captureTake ffs) s = execCaptureTake ffs s := rfl
theorem exec_captureResume (r : Requester) : exec (.captureResume r) s = execCaptureResume r s := rfl
theorem exec_rbdataRead (r : Requester) : exec (.rbdataRead r) s = execRbdataRead r s := rfl
theorem exec_fabricRoadRequest (write : Bool) (p : Packet) : exec (.fabricRoadRequest write p) s = execFabricRoadRequest write p s := rfl
theorem exec_hostReadTlp (bar : Fin 6) (off : BitVec 32) (len : Nat) : exec (.hostReadTlp bar off len) s = execHostReadTlp bar off len s := rfl
theorem exec_hostWriteTlp (bar : Fin 6) (off : BitVec 32) (data : List Byte) : exec (.hostWriteTlp bar off data) s = execHostWriteTlp bar off data s := rfl
theorem exec_hostCompletionTlp (tid : BitVec 12) (ok : Bool) (data : List Byte) : exec (.hostCompletionTlp tid ok data) s = execHostCompletionTlp tid ok data s := rfl
theorem exec_perst : exec (.perst) s = execPerst s := rfl
theorem exec_hotReset : exec (.hotReset) s = execHotReset s := rfl
theorem exec_flr : exec (.flr) s = execFlr s := rfl
theorem exec_d3hotEntry : exec (.d3hotEntry) s = execD3hotEntry s := rfl
theorem exec_hostLinkChange (up : Bool) (speed width : BitVec 4) (l1 : Bool) : exec (.hostLinkChange up speed width l1) s = execHostLinkChange up speed width l1 s := rfl
theorem exec_sqDoorbell (r : Requester) (q : Fin 16) (tail : BitVec 12) : exec (.sqDoorbell r q tail) s = execSqDoorbell r q tail s := rfl
theorem exec_cqDoorbell (r : Requester) (q : Fin 16) (head : BitVec 12) : exec (.cqDoorbell r q head) s = execCqDoorbell r q head s := rfl
theorem exec_commandStep (e : Sqe) : exec (.commandStep e) s = execCommandStep e s := rfl
theorem exec_copyin (q : Fin 16) (data : List Byte) (ok : Bool) : exec (.copyin q data ok) s = execCopyin q data ok s := rfl
theorem exec_copyout (q : Fin 16) (n : Nat) : exec (.copyout q n) s = execCopyout q n s := rfl
theorem exec_plan (q : Fin 16) (p : PlanData) : exec (.plan q p) s = execPlan q p s := rfl
theorem exec_mode (q : Fin 16) : exec (.mode q) s = execMode q s := rfl
theorem exec_nvswr (q : Fin 16) (off : BitVec 23) : exec (.nvswr q off) s = execNvswr q off s := rfl
theorem exec_attest (q : Fin 16) (sig : List Byte) : exec (.attest q sig) s = execAttest q sig s := rfl
theorem exec_himg (q : Fin 16) : exec (.himg q) s = execHimg q s := rfl
theorem exec_fabload (q : Fin 16) : exec (.fabload q) s = execFabload q s := rfl
theorem exec_patch (q : Fin 16) : exec (.patch q) s = execPatch q s := rfl
theorem exec_invalidHostOpcode (q : Fin 16) : exec (.invalidHostOpcode q) s = execInvalidHostOpcode q s := rfl
theorem exec_fwComplete (r : Requester) (q : Fin 16) : exec (.fwComplete r q) s = execFwComplete r q s := rfl
theorem exec_ddrTrainingDone (pass : Bool) : exec (.ddrTrainingDone pass) s = execDdrTrainingDone pass s := rfl
theorem exec_dqsRetrain (ch : Bool) : exec (.dqsRetrain ch) s = execDqsRetrain ch s := rfl
theorem exec_linkTrainingDone (p : Fin 4) (chip : BitVec 3) (pedge : Bool) : exec (.linkTrainingDone p chip pedge) s = execLinkTrainingDone p chip pedge s := rfl
theorem exec_linkTrainRetry (p : Fin 4) : exec (.linkTrainRetry p) s = execLinkTrainRetry p s := rfl
theorem exec_newsTokenFrame (p : Fin 4) (tseq : BitVec 16) (x : BitVec 64) : exec (.newsTokenFrame p tseq x) s = execNewsTokenFrame p tseq x s := rfl
theorem exec_expressTokenFrame (p : Fin 4) (tseq : BitVec 16) (x : BitVec 512) : exec (.expressTokenFrame p tseq x) s = execExpressTokenFrame p tseq x s := rfl
theorem exec_roadRequestFrame (p : Fin 4) (write : Bool) (pk : Packet) : exec (.roadRequestFrame p write pk) s = execRoadRequestFrame p write pk s := rfl
theorem exec_roadResponseFrame (p : Fin 4) (tid : BitVec 12) (status : BitVec 4) (data : List Byte) : exec (.roadResponseFrame p tid status data) s = execRoadResponseFrame p tid status data s := rfl
theorem exec_ackCreditFrame (p : Fin 4) (fseq : BitVec 12) (cred : BitVec 16) : exec (.ackCreditFrame p fseq cred) s = execAckCreditFrame p fseq cred s := rfl
theorem exec_controlFrame (p : Fin 4) (chip : BitVec 3) (pedge : Bool) : exec (.controlFrame p chip pedge) s = execControlFrame p chip pedge s := rfl
theorem exec_edgeWaitTimeout (p : Fin 4) (sx : StreamId) : exec (.edgeWaitTimeout p sx) s = execEdgeWaitTimeout p sx s := rfl
theorem exec_dmaStart (r : Requester) (e : Fin 8) (v : Word) : exec (.dmaStart r e v) s = execDmaStart r e v s := rfl
theorem exec_dmaDone (e : Fin 8) : exec (.dmaDone e) s = execDmaDone e s := rfl
theorem exec_vinSample (mv : BitVec 16) (lowFor highFor : Nat) : exec (.vinSample mv lowFor highFor) s = execVinSample mv lowFor highFor s := rfl
theorem exec_vmidUndervoltage : exec (.vmidUndervoltage) s = execVmidUndervoltage s := rfl
theorem exec_rampRestart : exec (.rampRestart) s = execRampRestart s := rfl
theorem exec_domainRequest (r : Requester) (v : Word) : exec (.domainRequest r v) s = execDomainRequest r v s := rfl
theorem exec_domainUp (d : Fin 25) : exec (.domainUp d) s = execDomainUp d s := rfl
theorem exec_domainOff (d : Fin 25) : exec (.domainOff d) s = execDomainOff d s := rfl
theorem exec_supplyTrip (d : Fin 25) (usec : Nat) : exec (.supplyTrip d usec) s = execSupplyTrip d usec s := rfl
theorem exec_hallClockFail (h : HallId) : exec (.hallClockFail h) s = execHallClockFail h s := rfl
theorem exec_xtaCheck (khz : Nat) (st : Straps) : exec (.xtaCheck khz st) s = execXtaCheck khz st s := rfl
theorem exec_xtbCheck (hz : Nat) : exec (.xtbCheck hz) s = execXtbCheck hz s := rfl
theorem exec_crystalStop (xtb : Bool) : exec (.crystalStop xtb) s = execCrystalStop xtb s := rfl
theorem exec_pllLock (n : Fin 4) : exec (.pllLock n) s = execPllLock n s := rfl
theorem exec_pllLockLost (n : Fin 4) : exec (.pllLockLost n) s = execPllLockLost n s := rfl
theorem exec_hallTrim (h : HallId) (slower : Bool) : exec (.hallTrim h slower) s = execHallTrim h slower s := rfl
theorem exec_fmeterStart (r : Requester) (v : Word) : exec (.fmeterStart r v) s = execFmeterStart r v s := rfl
theorem exec_fmeterDone (count : Nat) : exec (.fmeterDone count) s = execFmeterDone count s := rfl
theorem exec_modeReqIdle (r : Requester) : exec (.modeReqIdle r) s = execModeReqIdle r s := rfl
theorem exec_modeReqReady (r : Requester) : exec (.modeReqReady r) s = execModeReqReady r s := rfl
theorem exec_modeReqPrint (r : Requester) : exec (.modeReqPrint r) s = execModeReqPrint r s := rfl
theorem exec_modeReqService (r : Requester) : exec (.modeReqService r) s = execModeReqService r s := rfl
theorem exec_modeReqSleep (r : Requester) : exec (.modeReqSleep r) s = execModeReqSleep r s := rfl
theorem exec_modeReqStandby (r : Requester) : exec (.modeReqStandby r) s = execModeReqStandby r s := rfl
theorem exec_modeReqUnlisted (r : Requester) (tgt : BitVec 4) : exec (.modeReqUnlisted r tgt) s = execModeReqUnlisted r tgt s := rfl
theorem exec_modeTransitionDone : exec (.modeTransitionDone) s = execModeTransitionDone s := rfl
theorem exec_wakePin : exec (.wakePin) s = execWakePin s := rfl
theorem exec_wakeAlarm : exec (.wakeAlarm) s = execWakeAlarm s := rfl
theorem exec_wakeHost : exec (.wakeHost) s = execWakeHost s := rfl
theorem exec_bootOffer (r : Requester) (v : Word) : exec (.bootOffer r v) s = execBootOffer r v s := rfl
theorem exec_resetPin : exec (.resetPin) s = execResetPin s := rfl
theorem exec_softwareReset (r : Requester) : exec (.softwareReset r) s = execSoftwareReset r s := rfl
theorem exec_watchdogExpire : exec (.watchdogExpire) s = execWatchdogExpire s := rfl
theorem exec_watchdogKick (r : Requester) (key : BitVec 16) : exec (.watchdogKick r key) s = execWatchdogKick r key s := rfl
theorem exec_aonPowerGood (st : Straps) : exec (.aonPowerGood st) s = execAonPowerGood st s := rfl
theorem exec_vmidGood : exec (.vmidGood) s = execVmidGood s := rfl
theorem exec_secStepEnd : exec (.secStepEnd) s = execSecStepEnd s := rfl
theorem exec_fuseBurnDone : exec (.fuseBurnDone) s = execFuseBurnDone s := rfl
theorem exec_tamperDetect (src : Fin 5) : exec (.tamperDetect src) s = execTamperDetect src s := rfl
theorem exec_debugNewch (r : Requester) (nonce : List Word) : exec (.debugNewch r nonce) s = execDebugNewch r nonce s := rfl
theorem exec_debugTokenGo (r : Requester) : exec (.debugTokenGo r) s = execDebugTokenGo r s := rfl
theorem exec_debugTokenDone (v : Verdict) : exec (.debugTokenDone v) s = execDebugTokenDone v s := rfl
theorem exec_newchBlockExpire : exec (.newchBlockExpire) s = execNewchBlockExpire s := rfl
theorem exec_debugHalt (r : Requester) (hreq : BitVec 4) : exec (.debugHalt r hreq) s = execDebugHalt r hreq s := rfl
theorem exec_debugResume (r : Requester) : exec (.debugResume r) s = execDebugResume r s := rfl
theorem exec_memPortAccess (r : Requester) (write : Bool) (v : Word) : exec (.memPortAccess r write v) s = execMemPortAccess r write v s := rfl
theorem exec_waymarkSample (src : BitVec 4) (sel : BitVec 5) (v : BitVec 32) : exec (.waymarkSample src sel v) s = execWaymarkSample src sel v s := rfl
theorem exec_waymarkWindowEnd (w : Fin 16) : exec (.waymarkWindowEnd w) s = execWaymarkWindowEnd w s := rfl
theorem exec_waymarkClear (r : Requester) (w : Fin 16) : exec (.waymarkClear r w) s = execWaymarkClear r w s := rfl
theorem exec_waymarkSnap (r : Requester) (w : Fin 16) : exec (.waymarkSnap r w) s = execWaymarkSnap r w s := rfl
theorem exec_bistInterconnect (r : Requester) (hmask : BitVec 17) : exec (.bistInterconnect r hmask) s = execBistInterconnect r hmask s := rfl
theorem exec_bistHallLogic (r : Requester) (hmask : BitVec 17) : exec (.bistHallLogic r hmask) s = execBistHallLogic r hmask s := rfl
theorem exec_bistPeMarch (r : Requester) (hmask : BitVec 17) : exec (.bistPeMarch r hmask) s = execBistPeMarch r hmask s := rfl
theorem exec_bistSpareRows (r : Requester) (hmask : BitVec 17) : exec (.bistSpareRows r hmask) s = execBistSpareRows r hmask s := rfl
theorem exec_bistDone (res : BistRes) : exec (.bistDone res) s = execBistDone res s := rfl
theorem exec_fuseRepairBurn (r : Requester) : exec (.fuseRepairBurn r) s = execFuseRepairBurn r s := rfl
theorem exec_fuseRepairDone (bad : List (Fin 320)) : exec (.fuseRepairDone bad) s = execFuseRepairDone bad s := rfl
theorem exec_tapReset : exec (.tapReset) s = execTapReset s := rfl
theorem exec_extest : exec (.extest) s = execExtest s := rfl
theorem exec_idcode : exec (.idcode) s = execIdcode s := rfl
theorem exec_samplePreload (cells : BitVec 1536) : exec (.samplePreload cells) s = execSamplePreload cells s := rfl
theorem exec_extestPulse : exec (.extestPulse) s = execExtestPulse s := rfl
theorem exec_extestTrain : exec (.extestTrain) s = execExtestTrain s := rfl
theorem exec_clamp : exec (.clamp) s = execClamp s := rfl
theorem exec_highz : exec (.highz) s = execHighz s := rfl
theorem exec_bypass : exec (.bypass) s = execBypass s := rfl
theorem exec_dbgacc (go wr : Bool) (off : BitVec 16) (v : Word) : exec (.dbgacc go wr off v) s = execDbgacc go wr off v s := rfl
theorem exec_testacc (go wr : Bool) (off : BitVec 16) (v : Word) : exec (.testacc go wr off v) s = execTestacc go wr off v s := rfl
theorem exec_thermalSample (readings : List (BitVec 16)) (msWarm msHot : Nat) : exec (.thermalSample readings msWarm msHot) s = execThermalSample readings msWarm msHot s := rfl
theorem exec_completionTimeout (tid : BitVec 12) : exec (.completionTimeout tid) s = execCompletionTimeout tid s := rfl
theorem exec_configWriteTlp (w : CfgWrite) : exec (.configWriteTlp w) s = execConfigWriteTlp w s := rfl
theorem exec_ramufinFrameCrcFail (p : Fin 4) : exec (.ramufinFrameCrcFail p) s = execRamufinFrameCrcFail p s := rfl
theorem exec_aonPowerGoodTimeout : exec (.aonPowerGoodTimeout) s = execAonPowerGoodTimeout s := rfl
theorem exec_hallDomainGroupStart : exec (.hallDomainGroupStart) s = execHallDomainGroupStart s := rfl
theorem exec_ddrVdd2lPgChange (high : Bool) : exec (.ddrVdd2lPgChange high) s = execDdrVdd2lPgChange high s := rfl
theorem exec_ddrVdd2lPgTimeout : exec (.ddrVdd2lPgTimeout) s = execDdrVdd2lPgTimeout s := rfl
theorem exec_resetNRelease : exec (.resetNRelease) s = execResetNRelease s := rfl
theorem exec_firmwareVerifyDone (v : Verdict) : exec (.firmwareVerifyDone v) s = execFirmwareVerifyDone v s := rfl

end Sys2Proof.Machine
end

