-- ==== Sys2Proof/Laws/Reg.lean ====
section
/-! SUPPORT. Laws of bit fields and of the control registers: a field reads back what was set, other fields and registers keep
their values. -/

namespace Sys2Proof.Machine

/-! Bit fields. -/

theorem testBit_bits (v hi lo i : Nat) : (bits v hi lo).testBit i = (decide (i < hi + 1 - lo) && v.testBit (lo + i)) := by
  unfold bits
  rw [Nat.testBit_mod_two_pow, Nat.testBit_div_two_pow, Nat.add_comm i lo]

theorem getLsbD_fieldMask (hi lo i : Nat) : (fieldMask hi lo).getLsbD i = (decide (i < 32) && (decide (lo ≤ i) && decide (i < lo + (hi + 1 - lo)))) := by
  unfold fieldMask
  rw [BitVec.getLsbD_ofNat, Nat.testBit_mul_two_pow]
  congr 1
  by_cases h : lo ≤ i
  · simp only [h, decide_true, Bool.true_and, Nat.testBit_two_pow_sub_one]
    congr 1; simp only [eq_iff_iff]; omega
  · simp [h]

theorem getLsbD_setBits (v : Word) (hi lo x i : Nat) (hh : hi < 32) :
    (setBits v hi lo x).getLsbD i = if lo ≤ i ∧ i ≤ hi then x.testBit (i - lo) else v.getLsbD i := by
  unfold setBits
  simp only [BitVec.getLsbD_or, BitVec.getLsbD_and, BitVec.getLsbD_not, getLsbD_fieldMask, BitVec.getLsbD_ofNat,
    Nat.testBit_mul_two_pow]
  by_cases hi32 : i < 32
  · by_cases h1 : lo ≤ i <;> by_cases h2 : i ≤ hi
    · have : i < lo + (hi + 1 - lo) := by omega
      simp [h1, h2, hi32, this]
    · have : ¬ i < lo + (hi + 1 - lo) := by omega
      simp [h1, h2, hi32, this]
    · simp [h1, hi32]
    · simp [h1, hi32]
  · have h2 : ¬ i ≤ hi := by omega
    simp [h2, hi32, BitVec.getLsbD_of_ge v i (by omega)]

theorem getLsbD_toNat (v : Word) (i : Nat) : v.getLsbD i = v.toNat.testBit i := rfl

/-- A field set reads back the value, in the field's width. -/
theorem bits_setBits_same (v : Word) (hi lo x : Nat) (hh : hi < 32) :
    bits (setBits v hi lo x).toNat hi lo = x % 2 ^ (hi + 1 - lo) := by
  apply Nat.eq_of_testBit_eq
  intro i
  rw [testBit_bits, ← getLsbD_toNat, getLsbD_setBits _ _ _ _ _ hh, Nat.testBit_mod_two_pow]
  by_cases h : i < hi + 1 - lo
  · have h1 : lo ≤ lo + i ∧ lo + i ≤ hi := by omega
    simp [h, h1]
  · simp [h]

/-- Setting a field leaves every field that shares no bit with it alone. -/
theorem bits_setBits_disjoint (v : Word) (hi lo hi' lo' x : Nat) (hh : hi < 32) (hd : hi' < lo ∨ hi < lo') :
    bits (setBits v hi lo x).toNat hi' lo' = bits v.toNat hi' lo' := by
  apply Nat.eq_of_testBit_eq
  intro i
  rw [testBit_bits, testBit_bits, ← getLsbD_toNat, ← getLsbD_toNat, getLsbD_setBits _ _ _ _ _ hh]
  by_cases h : i < hi' + 1 - lo'
  · have h1 : ¬ (lo ≤ lo' + i ∧ lo' + i ≤ hi) := by omega
    simp [h, h1]
  · simp [h]

theorem bits_lt (v hi lo : Nat) : bits v hi lo < 2 ^ (hi + 1 - lo) := Nat.mod_lt _ (Nat.two_pow_pos _)

/-! Registers. -/

@[simp] theorem reg_setReg_same (d : Dev) (a : Nat) (v : Word) : (d.setReg a v).reg a = v := bankGet_bankSet_same

theorem reg_setReg_ne (d : Dev) {a b : Nat} (v : Word) (h : b ≠ a) : (d.setReg a v).reg b = d.reg b := bankGet_bankSet_ne h

/-- A field set as hardware sets it reads back, in the field's width. -/
theorem fld_setFld_same (d : Dev) (f : Fld) (x : Nat) (h : f.hi < 32) : (d.setFld f x).fld f = x % 2 ^ (f.hi + 1 - f.lo) := by
  unfold Dev.fld Dev.setFld
  rw [reg_setReg_same, bits_setBits_same _ _ _ _ h]

/-- Fields of other registers, and fields of the same register that share no bit, keep their values. -/
theorem fld_setFld_other (d : Dev) (f g : Fld) (x : Nat) (h : f.hi < 32) (hd : g.addr ≠ f.addr ∨ g.hi < f.lo ∨ f.hi < g.lo) :
    (d.setFld f x).fld g = d.fld g := by
  unfold Dev.fld Dev.setFld
  by_cases ha : g.addr = f.addr
  · rw [ha, reg_setReg_same, bits_setBits_disjoint _ _ _ _ _ _ h (by tauto)]
  · rw [reg_setReg_ne _ _ ha]

theorem flag_setFlag_same (d : Dev) (f : Fld) (b : Bool) (h : f.hi < 32) (hl : f.lo = f.hi) : (d.setFlag f b).flag f = b := by
  unfold Dev.flag Dev.setFlag
  rw [fld_setFld_same _ _ _ h, hl]
  cases b <;> simp [bn]

theorem flag_setFld_other (d : Dev) (f g : Fld) (x : Nat) (h : f.hi < 32) (hd : g.addr ≠ f.addr ∨ g.hi < f.lo ∨ f.hi < g.lo) :
    (d.setFld f x).flag g = d.flag g := by
  unfold Dev.flag
  rw [fld_setFld_other _ _ _ _ h hd]

theorem fld_lt (d : Dev) (f : Fld) : d.fld f < 2 ^ (f.hi + 1 - f.lo) := bits_lt _ _ _

end Sys2Proof.Machine
end

