-- ==== Sys2Proof/Laws/Road.lean ====
section
/-! SUPPORT. Laws of the road: what a request that the road carries does, probes that are off, and what follows a command at once. -/

namespace Sys2Proof.Machine

/-- With nothing held and no fatal fault due, nothing follows. -/
theorem settle_of_quiet {d : Dev} (h : d.Quiet) : d.settle = d := by
  unfold Dev.settle Dev.settleFatal
  simp [h.1, h.2]

/-- A packet that no probe looks on leaves the part as it was. -/
theorem probeAlong_off {d : Dev} (h : d.ProbesOff) (t vc inj : Nat) (links : List (Nat × Bool)) (b : Bool) (hdr : BitVec 64)
    (flits : Nat) : d.probeAlong t vc inj links b hdr flits = d := by
  have hm : ∀ k, k < 4 → d.probeMatch k t vc inj links b = false := by
    intro k hk
    unfold Dev.probeMatch
    simp [h k hk]
  unfold Dev.probeAlong
  simp only [show List.range 4 = [0, 1, 2, 3] from rfl, forEach_cons, forEach_nil]
  simp [hm]

theorem probe_off {d : Dev} (h : d.ProbesOff) (t inj dst : Nat) (hdr : BitVec 64) (flits : Nat) : d.probe t inj dst hdr flits = d :=
  probeAlong_off h _ _ _ _ _ _ _

theorem probePair_off {d : Dev} (h : d.ProbesOff) (w : Who) (n : Nat) (wr mgmt : Bool) (tid a len st bytes : Nat) :
    d.probePair w n wr mgmt tid a len st bytes = d := by
  unfold Dev.probePair
  simp only [probe_off h]

theorem reach_of_carries {d : Dev} {w : Who} {node : Nat} (h : d.Carries w node) (b : Bool) : d.reach node b = (.ok, d) := by
  obtain ⟨_, _, h3, h4, _⟩ := h
  unfold Dev.reach
  rw [h3]
  cases hb : hasBridge node
  · simp
  · simp [h4 hb]

/-- Drawing a TID succeeds when the slice has a free one. -/
theorem drawTid_free {d : Dev} {n : Nat} (h : d.TidFree n) : ∃ t, d.drawTid n = (some t, d.drawn) := by
  obtain ⟨i, hi, hb⟩ := h
  obtain ⟨t, ht⟩ : ∃ t, (d.drawTid n).1 = some t := by
    apply Option.isSome_iff_exists.mp
    unfold Dev.drawTid
    simp only [List.find?_isSome, List.mem_map, List.mem_range]
    generalize hk : (Config.freeWord d.fresh.1).toNat % max 1 (d.slice n).2 = k
    have hk' : k < (d.slice n).2 := by
      have := Nat.mod_lt (Config.freeWord d.fresh.1).toNat (show 0 < max 1 (d.slice n).2 by omega)
      omega
    refine ⟨(d.slice n).1 + i, ⟨(i + (d.slice n).2 - k) % (d.slice n).2, Nat.mod_lt _ (by omega), ?_⟩, ?_⟩
    · congr 1
      rw [Nat.add_mod_mod, show k + (i + (d.slice n).2 - k) = i + (d.slice n).2 by omega, Nat.add_mod_right, Nat.mod_eq_of_lt hi]
    · have : d.fresh.2.tidBusy ((d.slice n).1 + i) = d.tidBusy ((d.slice n).1 + i) := rfl
      simp [this, hb]
  exact ⟨t, Prod.ext ht rfl⟩

/-- The target of a requester that is alive has answered it. -/
theorem concluded_off {α : Type} {d : Dev} {w : Who} (h : d.ProbesOff) (ha : d.nodeDead w.node = false) (node : Nat) (wr : Bool)
    (p : Packet) (st : BitVec 4) (l : List Byte) (x : α) : d.concluded w node wr p st l x = .answered st x d := by
  unfold Dev.concluded
  simp only [ha, Bool.false_eq_true, if_false, probePair_off h]

/-- A write that the road carries is performed at its register and answered OK. -/
theorem write_register {d : Dev} {r : Requester} {b : Block} {a : Nat} {v : Word} (h : d.Writes r b a v)
    (hp : (d.drawn.startWrite (d.who r) b a v).ProbesOff) (ha : (d.drawn.startWrite (d.who r) b a v).nodeDead (d.who r).node = false) :
    d.issueWrite (d.who r) a (leBytes 4 v.toNat) = .answered 0 () (d.drawn.startWrite (d.who r) b a v) := by
  obtain ⟨h1, ⟨node, h2, h3⟩, h4, h5, h6, h7, h8, h9⟩ := h
  have hc := h3
  obtain ⟨c1, c2, c3, c4, c5, c6, c7⟩ := h3
  have hcan : d.canRequest (d.who r).node = true := by simp [Dev.canRequest, c1, c2]
  have hn : ¬ (a = R.DBG_MDATA) := h9
  unfold Dev.issueWrite
  simp only [hcan, Bool.not_true, Bool.false_eq_true, if_false, hn, decide_false, Bool.false_and]
  unfold Dev.busWrite
  simp only [h2, reach_of_carries hc true]
  obtain ⟨tid, hdt⟩ := drawTid_free c5
  rw [hdt]
  have hlen : (leBytes 4 v.toNat).length = 4 := length_leBytes _ _
  have hle : BitVec.ofNat 32 (leNat (leBytes 4 v.toNat)) = v := by
    rw [leNat_leBytes]
    apply BitVec.eq_of_toNat_eq
    rw [BitVec.toNat_ofNat]
    have := v.isLt
    norm_num at this ⊢
    omega
  have hoff : blockBase b + (a - blockBase b) = a := by omega
  have hs : d.drawn.serveWrite (d.who r) a (leBytes 4 v.toNat) = .done 0 () (d.drawn.startWrite (d.who r) b a v) := by
    unfold Dev.serveWrite
    have hpl : d.drawn.place a = some (.window b (a - blockBase b)) := h1
    simp only [hpl, hlen, h4, ne_eq, not_true_eq_false, decide_false, Bool.or_self, Bool.false_eq_true, if_false, hle]
    unfold Dev.regWrite
    have hr : d.drawn.writeRefused (d.who r) b a v = false := h8
    have hsn : (regIn b (a - blockBase b)).isNone = false := by
      cases hx : regIn b (a - blockBase b) <;> simp_all
    simp only [hoff, hr, hsn, Bool.or_false, Bool.false_eq_true, if_false]
    rw [if_neg (by simp; omega)]
  simp only [hs, concluded_off hp ha]

/-- The same for a requester that waits for its answers and has asked for none. -/
theorem write_register_waits {d : Dev} {r : Requester} {b : Block} {a : Nat} {v : Word} (h : d.Writes r b a v)
    (hp : (d.drawn.startWrite (d.who r) b a v).ProbesOff) (ha : (d.drawn.startWrite (d.who r) b a v).nodeDead (d.who r).node = false)
    (hq : d.road.asked = []) : d.write (d.who r) a (leBytes 4 v.toNat) = .answered 0 [] (d.drawn.startWrite (d.who r) b a v) := by
  unfold Dev.write Dev.awaited
  rw [write_register h hp ha, hq]
  rfl

/-- The same as a command: the response is OK. -/
theorem command_register {d : Dev} {r : Requester} {b : Block} {a : Nat} {v : Word} (h : d.Writes r b a v)
    (hp : (d.drawn.startWrite (d.who r) b a v).ProbesOff) (ha : (d.drawn.startWrite (d.who r) b a v).nodeDead (d.who r).node = false) :
    d.commandWord r a v = (d.drawn.startWrite (d.who r) b a v).respond 0 [] := by
  unfold Dev.commandWord Dev.command
  rw [write_register h hp ha]
  simp [Dev.lateBusError]

end Sys2Proof.Machine
end

