-- ==== Sys2Proof/WellFormed.lean ====
section
/-! DEFINITION. Well-formed commands: the limits that the spec sets to a command's operands and that their types do not carry. The
meaning of a command is total; these checks say which commands the part can receive at all. -/

namespace Sys2Proof

open Machine

/-- An access of the register space has 1, 2, 4 or 8 bytes (R6) and lies in the windows of R24. -/
def accessWf (addr : BitVec 40) (size : Nat) : Bool :=
  (size = 1 || size = 2 || size = 4 || size = 8) && 0x10000000 ≤ addr.toNat && addr.toNat < 0x10C00000

/-- The codes that no row of the array instruction tables names (R103). -/
def opcReserved (opc : BitVec 7) : Bool := opc.toNat < 0x70 && (vendorSlots opc.toNat).isNone

/-- A report's SRC is one of its five codes; the sources that name no PE carry no column (HALLn_UPSET, R43). -/
def UpsetRep.wf (u : UpsetRep) : Bool := u.src.toNat ≤ 4 && (u.src.toNat ≤ 2 || u.pcol = 0)

/-- The requesters that wait at a bank differ, and each names a word of a bank (R183, R185). -/
def bankWf (l : List GalReq) : Bool := decide (l.map (fun g => (g.who, g.landing))).Nodup && l.all (fun g => g.word < 98304)

/-- The host reaches the part through BAR 0, 2 and 4 (R359), with at least one byte. -/
def barWf (bar : Fin 6) (n : Nat) : Bool := bar.val % 2 = 0 && 1 ≤ n

/-- A submission entry has 64 bytes: bytes 28 to 63 are its parameters (R364). -/
def Sqe.wf (e : Sqe) : Bool := e.params.length = 36

/-- The host link's negotiated rate and width: codes 1 to 5, and 1, 2, 4 or 8 lanes while the link is up (HOST_LSTAT). -/
def linkWf (up : Bool) (speed width : BitVec 4) : Bool :=
  !up || (1 ≤ speed.toNat && speed.toNat ≤ 5 && (width = 1 || width = 2 || width = 4 || width = 8))

/-- The limits of one command's operands. -/
def Instr.wf : Instr → Bool
  | .registerWrite _ addr size _ => accessWf addr size
  | .commit _ b => hasCommit b
  | .commitApply b => hasCommit b
  | .lock _ b => hasCommit b
  | .reservedArrayOpcode opc _ => opcReserved opc
  | .galleryBankGrant _ waiting => bankWf waiting
  | .upsetRecovery reps => decide (reps.map Prod.fst).Nodup && reps.all (fun r => r.2.wf)
  | .rd p => packetOk .rd p
  | .wr p => packetOk .wr p
  | .pwr p => packetOk .pwr p
  | .swr p => packetOk .swr p
  | .mrd p => packetOk .mrd p
  | .mwr p => packetOk .mwr p
  | .fabricRoadRequest w p => packetOk (if w then .wr else .rd) p
  | .roadRequestFrame _ w p => packetOk (if w then .wr else .rd) p
  | .captureTake ffs => ffs.length = 384
  | .hostReadTlp bar _ n => barWf bar n
  | .hostWriteTlp bar _ data => barWf bar data.length
  | .hostLinkChange up speed width _ => linkWf up speed width
  | .commandStep e => e.wf
  | .attest _ sig => sig.length = 3136
  | .debugNewch _ nonce => nonce.length = 8
  | .thermalSample readings _ _ => readings.length = 18
  | _ => true

end Sys2Proof
end

