-- ==== Sys2Proof/Tests/Slice0.lean ====
section
/-! SUPPORT. Checks of this author's own work: an ill-formed command for each check of WellFormed, worked values of the spec, and for every
statement with hypotheses a state and operands that meet those of each of its clauses. -/

open Sys2Proof Sys2Proof.Machine

namespace Sys2Proof.Tests

set_option Elab.async false

/-! Small states. -/

/-- A core in system mode at the bottom of its instruction memory, its frames below the end of its first data memory. -/
def runningCore : CoreState := { mode := .run, pc := 0x08000000, sr := 0xE0000000, tsp := 0x08020000, vtb := 0x08001000 }

/-- A part in a mode with every domain on, every bridge up, a slice of TIDs for every node, the debug level of a blank part, and its cores
running. -/
def up (mode : Nat) : Dev :=
  ({ regs := (R.PWR_DSTAT, 0x01FFFFFF) :: (List.range 33).map (fun n => (R.ROAD_TID n, BitVec.ofNat 32 (n * 0x400000 + 64))), 
     core := Vector.replicate 4 runningCore } : Dev).setFld R.PWR_MSTAT_MODE mode

/-- Core 1 of a part changed. -/
def core1 (f : CoreState → CoreState) : Dev := (up 6).modCo 1 f

/-- Source 0x80 pends for core 1 with priority 1, the lowest above a LVL of 0. -/
def offered (d : Dev) : Dev := (d.setPend 0x80 true).setReg (R.EVC_SRC 0x80) 0x80100002

def always : Pred := ⟨0, false⟩
def never : Pred := ⟨0, true⟩

/-- A requester's write reaches its register, in a form that evaluates. -/
def writesAt (d : Dev) (r : Requester) (b : Block) (a : Nat) (v : Word) (node : Nat) : Bool :=
  decide (d.place a = some (.window b (a - blockBase b)) ∧ nodeOfAddr d.chipId a = some node ∧ (a - blockBase b) % 4 = 0 ∧ blockBase b ≤ a ∧
    a - blockBase b < 0x8000 ∧ (regIn b (a - blockBase b)).isSome = true ∧ d.writeRefused (d.who r) b a v = false ∧ a ≠ R.DBG_MDATA)

def carriesB (d : Dev) (w : Who) (node : Nat) : Bool :=
  decide (d.domOn 0 = true ∧ d.brState w.node ≠ 5 ∧ d.nodeDead node = false ∧ (hasBridge node = true → d.brState node = 0) ∧
    0 < (d.slice w.node).2 ∧ d.tidBusy ((d.slice w.node).1) = false ∧ d.nodeDead w.node = false) && (List.range 4).all (fun k => !d.flag (R.ROAD_PRBCFG_EN k))

theorem carries_of {d : Dev} {w : Who} {node : Nat} (h : carriesB d w node = true) : d.Carries w node := by
  simp only [carriesB, Bool.and_eq_true, decide_eq_true_eq, List.all_eq_true, List.mem_range, Bool.not_eq_true'] at h
  exact ⟨h.1.1, h.1.2.1, h.1.2.2.1, h.1.2.2.2.1, ⟨0, h.1.2.2.2.2.1, h.1.2.2.2.2.2.1⟩, h.2, h.1.2.2.2.2.2.2⟩

theorem writes_of {d : Dev} {r : Requester} {b : Block} {a : Nat} {v : Word} (node : Nat)
    (h : writesAt d r b a v node = true) (c : carriesB d (d.who r) node = true) : d.Writes r b a v := by
  simp only [writesAt, decide_eq_true_eq] at h
  exact ⟨h.1, ⟨node, h.2.1, carries_of c⟩, h.2.2⟩

theorem probesOff_of {d : Dev} (h : (List.range 4).all (fun k => !d.flag (R.ROAD_PRBCFG_EN k)) = true) : d.ProbesOff := by
  simpa [List.all_eq_true, Dev.ProbesOff] using h

/-! Ill-formed commands, one for each check. -/

def shortPacket : Packet := ⟨0, 0, false, false, 3, 0x0C000000, [1, 2, 3]⟩

theorem test_wf_refuses_access : (Instr.registerWrite .host 0x10000000 3 0).wf = false ∧ (Instr.registerWrite .host 0x10C00000 4 0).wf = false ∧
    (Instr.registerWrite .host 0x10BFFFFC 4 0).wf = true := by decide
theorem test_wf_refuses_block : (Instr.commit .host .test).wf = false ∧ (Instr.commitApply .sys).wf = false ∧ (Instr.lock .host .evc).wf = false ∧
    (Instr.lock .host (.hall 16)).wf = true := by decide
theorem test_wf_refuses_opcode : (Instr.reservedArrayOpcode 0x10 ⟨0, ⟨0, false⟩, 0, 0, 0⟩).wf = false ∧
    (Instr.reservedArrayOpcode 0x6A ⟨0, ⟨0, false⟩, 0, 0, 0⟩).wf = false ∧ (Instr.reservedArrayOpcode 0x09 ⟨0, ⟨0, false⟩, 0, 0, 0⟩).wf = true := by
  decide
theorem test_wf_refuses_grant : (Instr.galleryBankGrant 0 [⟨1, 0, none, false⟩, ⟨1, 1, none, true⟩]).wf = false ∧
    (Instr.galleryBankGrant 0 [⟨1, 98304, none, false⟩]).wf = false ∧ (Instr.galleryBankGrant 0 [⟨1, 98303, none, false⟩, ⟨6, 0, none, false⟩]).wf = true := by decide
theorem test_wf_refuses_report : (Instr.upsetRecovery [(3, ⟨5, false, 0, 0, 0⟩)]).wf = false ∧ (Instr.upsetRecovery [(3, ⟨3, false, 1, 0, 0⟩)]).wf = false ∧
    (Instr.upsetRecovery [(3, ⟨4, false, 0, 0, 0⟩), (3, ⟨0, false, 75, 63, 0⟩)]).wf = false ∧
    (Instr.upsetRecovery [(3, ⟨4, false, 0, 0, 0⟩), (16, ⟨2, false, 75, 63, 0⟩)]).wf = true := by decide
theorem test_wf_refuses_packet : (Instr.rd shortPacket).wf = false ∧ (Instr.wr shortPacket).wf = false ∧ (Instr.pwr shortPacket).wf = false ∧
    (Instr.swr shortPacket).wf = false ∧ (Instr.mrd shortPacket).wf = false ∧ (Instr.mwr shortPacket).wf = false ∧
    (Instr.fabricRoadRequest true shortPacket).wf = false ∧ (Instr.roadRequestFrame 0 false shortPacket).wf = false := by decide
theorem test_wf_refuses_lists : (Instr.captureTake []).wf = false ∧ (Instr.commandStep ⟨1, false, 0, 0, 0, 0, []⟩).wf = false ∧
    (Instr.attest 0 []).wf = false ∧ (Instr.debugNewch .host [1]).wf = false ∧ (Instr.thermalSample [1] 0 0).wf = false := by decide
theorem test_wf_refuses_host : (Instr.hostReadTlp 1 0 4).wf = false ∧ (Instr.hostReadTlp 0 0 0).wf = false ∧ (Instr.hostWriteTlp 2 0 []).wf = false ∧
    (Instr.hostLinkChange true 6 8 false).wf = false ∧ (Instr.hostLinkChange true 5 3 false).wf = false ∧
    (Instr.hostLinkChange true 5 8 false).wf = true := by decide

/-- The table gives no row any bits. -/
theorem test_no_word_spells_a_command : decodeTableWord 16 0 = none := rfl

/-- R268: the words of the worked loop, MOVI, ACCLR, MAC.H2, ADDI, CMP.NE, BRP and ACMOV. -/
theorem test_decode_loop : decodeFlivin 0 0x4320 0 = .movi 0 (.short 3 0x20) ∧ decodeFlivin 0 0xC1D9 0x0400 = .acclr 0 ⟨0, false⟩ 1 ∧
    decodeFlivin 0 0xC1D0 0x5400 = .macH2 0 ⟨0, false⟩ 1 1 1 ∧ decodeFlivin 0 0x53FF 0 = .addi 0 (.short 3 0xFF) ∧
    decodeFlivin 0 0xC149 0x3800 = .cmpNe 0 ⟨0, false⟩ 1 3 (.imm 0) ∧ decodeFlivin 0 0x92F5 0 = .brp 0 ⟨1, false⟩ 0xF5 ∧
    decodeFlivin 0 0xC1D8 0x040F = .acmov 0 ⟨0, false⟩ 0 1 15 := by decide +kernel
/-- R73, R253: ADD F0, F1, F2 of the array under the inverse of P7; LEA; a long LOAD; a required-zero bit (R255); OP 0. -/
theorem test_decode_long : decodeFlivin 1 0xFFC8 0x0022 = .add ⟨1, ⟨7, true⟩, 0, 1, 2⟩ ∧ decodeFlivin 1 0xC10A 0xFFFF = .lea 1 ⟨0, false⟩ 1 2 0xFFFF ∧
    decodeFlivin 1 0xC0A3 0x2005 = .load 1 (.long ⟨0, false⟩ 2 3 1 0 false 5) ∧ decodeFlivin 1 0xC000 0x1231 = .illegalInstruction 1 ∧
    decodeFlivin 1 0x0000 0 = .illegalInstruction 1 := by decide +kernel

/-! Worked values. -/

/-- The part after one step on a command. -/
def stepped (d : Dev) (c : Instr) : Dev := match step ⟨d, [c]⟩ with
  | .next t => t.dev
  | _ => d

/-- R252: ADD wraps modulo 2^32, and the core goes on two bytes further (R256). -/
theorem test_add_wraps : ((stepped ((up 6).modCo 1 (fun k => (k.wrd 2 0xFFFFFFFF).wrd 3 2)) (.coreAdd 1 (.short 2 3))).co 1).rd 2 = 1 ∧
    ((stepped (up 6) (.coreAdd 1 (.short 2 3))).co 1).pc = 0x08000002 := by decide +kernel
/-- R253: MOVHI keeps the low half. -/
theorem test_movhi : ((stepped ((up 6).modCo 0 (fun k => k.wrd 4 0x1234ABCD)) (.movhi 0 always 4 0x5678)).co 0).rd 4 = 0x5678ABCD := by decide +kernel
/-- R281: the high word of (−1) × (−1) is 0, and of the same words unsigned 0xFFFFFFFE. -/
theorem test_mulh : (let d := (up 6).modCo 0 (fun k => k.wrd 1 0xFFFFFFFF)
    ((stepped d (.mulhs 0 always 2 1 1 false)).co 0).rd 2 = 0 ∧ ((stepped d (.mulhu 0 always 2 1 1 false)).co 0).rd 2 = 0xFFFFFFFE) := by decide +kernel
/-- R110, R111: 200 + 100 in 8 bits is 44 with a carry; 100 + 100 signed clamps to 127; −1 × −1 is 1. -/
theorem test_lanes : (laneInt 0x10 0 ⟨8, 8, 8, 200, 100, 0, false⟩).d = 44 ∧ (laneInt 0x10 0 ⟨8, 8, 8, 200, 100, 0, false⟩).c = some true ∧
    (laneInt 0x15 0 ⟨8, 8, 8, 100, 100, 0, false⟩).d = 127 ∧ (laneInt 0x21 0 ⟨8, 8, 8, 255, 255, 0, false⟩).d = 1 := by decide +kernel
/-- R116: 1.5 × 1.5 = 2.25 in half precision, exactly. -/
theorem test_half_product : (fpMul half .rne false false 0x3E00 0x3E00).1 = 0x4080 := by decide +kernel
/-- R300: between two pending sources of one priority the lower number is offered. -/
theorem test_offer_tie : (((offered (up 6)).setPend 0x81 true).setReg (R.EVC_SRC 0x81) 0x80100002).offer 1 = some 0x80 := by decide +kernel
/-- R408: another key does not stop the watchdog's count. -/
theorem test_wrong_key : (stepped { up 6 with pow := { wdogOnce := true } } (.watchdogKick (.core 0) 0x6518)).pow.wdogOnce = true := by decide +kernel
/-- R448: the identification register. -/
theorem test_idcode : (stepped State.reset.dev .idcode).resp.data = [0x4B, 0x73, 0x51, 0x16] := by decide +kernel
/-- R319, R320: a read of an address that nothing maps is answered DECODE. -/
theorem test_decode_error : ((stepped (up 6) (.rd ⟨0x0B, 0x2C0, false, false, 3, 0x18000000, []⟩)).road.resp.map (·.status)) = [1] := by decide +kernel

/-! Flivin cores. -/

/-- Every form that names registers 0 to 15 and any predicate, in 16 and in 32 bits. -/
theorem witness_CoreAluComputes : (up 6).Runs16 0 [] [0, 15] ∧ (up 6).Runs32 3 always [] [15, 0, 15] := by
  simp only [Dev.Runs16, Dev.Runs32, Dev.Meets32]; decide +kernel

theorem witness_CoreAluLongComputes : (up 6).Runs32 0 ⟨7, true⟩ [] [15, 15, 15] := by
  simp only [Dev.Runs32, Dev.Meets32]; decide +kernel

theorem witness_CoreMovesAndImmediates : (up 6).Runs16 2 [] [15] ∧ (up 6).Runs16 2 [] [0, 15] ∧ (up 6).Runs32 2 always [] [15] ∧
    (up 6).Runs32 2 always [] [] := by
  simp only [Dev.Runs16, Dev.Runs32, Dev.Meets32]; decide +kernel

theorem witness_CoreComparesAndPredicates : (7 : PReg) ≠ 0 ∧ (up 6).Runs32 0 always [7] [15, 0] ∧ (up 6).Runs32 0 always [1] [0] ∧
    (up 6).Runs32 0 always [1, 0, 7] [] := by
  simp only [Dev.Runs32, Dev.Meets32]; decide +kernel

theorem witness_CoreMultipliesCompute : (up 6).Runs32 0 always [] [15, 0, 1] ∧ (14 : DReg).getLsbD 0 = false ∧
    (up 6).Runs32 0 always [] [14, 14 ||| 1, 0, 1] := by
  simp only [Dev.Runs32, Dev.Meets32]; decide +kernel

/-- MAC.H2 at the last word of the first data memory and the first of the second. -/
theorem witness_CoreAccumulatorsCompute :
    let k := { runningCore with a := (runningCore.a.set 3 0x0801FFFC).set 4 0x08020000 }
    ((up 6).setCo 0 k).Runs32 0 always [] [] ∧ (k.ra (BitVec.setWidth 3 (3 : BitVec 2))).toNat = 0x0801FFFC ∧
      (k.ra ((0 : BitVec 2).setWidth 3 + 4)).toNat = 0x08020000 ∧ (up 6).Runs32 0 always [] [0, 1, 2] ∧ (0 : DReg) ≠ 1 := by
  simp only [Dev.Runs32, Dev.Meets32]; decide +kernel

theorem witness_CoreBranchesAndReturnStack :
    (up 6).Runs16 1 [] [] ∧ (up 6).Runs32 1 always [] [] ∧ (up 6).Runs16 1 [0] [] ∧ runningCore.holds always = true ∧
    runningCore.holds never = false ∧ (core1 fun k => { k with rs := List.replicate 15 4 }).Runs32 1 always [] [3] ∧
    (core1 fun k => { k with rs := List.replicate 16 4 }).Runs16 1 [] [] ∧ ((core1 fun k => { k with rs := [6] }).co 1).rs = [] ++ [6] ∧
    (let k := { runningCore with rs := List.replicate 16 4, cfg := 1 }
     k.EntersAt 1 7 0x0D01FFF8 ∧ 16 ≤ k.rs.length ∧ k.cfg.getLsbD 0 = true ∧ k.loads = []) ∧
    (runningCore.EntersAt 1 8 0x0D01FFF8 ∧ runningCore.rs = []) := by
  simp only [Dev.Runs16, Dev.Runs32, Dev.Meets32, CoreState.EntersAt]; decide +kernel

theorem witness_WaitsBarriersAndFalsePredicates :
    runningCore.holds never = false ∧ (up 6).Meets32 0 never [1, 0] [0, 14, 15] ∧ (up 6).Runs16 0 [] [] ∧
    (let d := offered (core1 fun k => { k with mode := .wait })
     (d.co 1).mode = .wait ∧ (d.co 1).halted = false ∧ (d.offerAbove 1 (d.co 1).lvl).isSome = true) := by
  simp only [Dev.Runs16, Dev.Meets32]; decide +kernel

/-- A core with a store of its own that has not been performed. -/
def owing : Dev := { up 6 with road := { waiting := [⟨0, 1, 0x0A, false, 0, [], 0⟩] } }

theorem witness_WaitsBarriersAndFalsePredicates_owed : (up 6).accessOwed 1 = false ∧ (up 6).storeOwed 1 = false ∧ owing.Runs16 1 [] [] ∧
    owing.accessOwed 1 = true ∧ owing.storeOwed 1 = true := by
  simp only [Dev.Runs16]; decide +kernel

/-- Single precision with registers 0 to 15, double precision with the pairs 0 and 14; 1.5 and 0 raise nothing. -/
theorem witness_CoreFloatComputes :
    let k := (runningCore.wrd 15 0x3FC00000)
    let d := (up 6).setCo 0 k
    fpEven false [0, 15, 1] = true ∧ d.Runs32 0 always [] (fpRegs false [0, 15, 1]) ∧ fpEven true [14, 0, 2] = true ∧
      d.Runs32 0 always [] (fpRegs true [14, 0, 2]) ∧ { k with fpcr := 0x1F00 }.NoFpTrap (fpMul (fpFmt false) .rne false false 0x3FC00000 0).2 ∧
      k.NoFpTrap (coreRsqrt true false 0).2 := by
  simp only [Dev.Runs32, Dev.Meets32, CoreState.NoFpTrap]; decide +kernel

theorem witness_CoreFloatConverts :
    (7 : PReg) ≠ 0 ∧ (up 6).Runs32 0 always [7] (fpRegs true [0, 14]) ∧ fpEven true [0, 14] = true ∧ fpEven false [15] = true ∧
      (up 6).Runs32 0 always [] (fpRegs true [14] ++ fpRegs false [15]) ∧ (up 6).Runs32 0 always [] (15 :: fpRegs true [14]) ∧
      runningCore.NoFpTrap (fpToInt (fpFmt true) .rne false (-(2 ^ 31)) (2 ^ 31 - 1) 0 0).2 ∧
      runningCore.NoFpTrap (fpOfInt (fpFmt false) .rne (2 ^ 32 - 1)).2 := by
  simp only [Dev.Runs32, Dev.Meets32, CoreState.NoFpTrap]; decide +kernel

/-- Two numbers of the largest exponent overflow, and the exception is enabled. -/
theorem witness_CoreFloatTraps :
    let k := { (runningCore.wrd 1 0x7F000000) with fpcr := 0x1F00 }
    let d := (up 6).setCo 0 k
    fpEven false [0, 1, 1] = true ∧ d.Runs32 0 always [] (fpRegs false [0, 1, 1]) ∧
      ¬k.NoFpTrap (withNans (fpFmt false) k.dn [0x7F000000, 0x7F000000] (fpMul (fpFmt false) k.rm false false 0x7F000000 0x7F000000)).2 ∧
      k.EntersAt 0 11 0x0C01FFF8 ∧ k.loads = [] := by
  simp only [Dev.Runs32, Dev.Meets32, CoreState.NoFpTrap, CoreState.EntersAt]; decide +kernel

/-- A word at the end of the second data memory, a doubleword before it, and a load that waits. -/
theorem witness_CoreLoadsAndStores :
    let k := (runningCore.wra 7 0x0802FFFC).wra 6 0x0802FFF8
    let d := (up 6).setCo 3 k
    d.Runs16 3 [] [15] ∧ d.Runs32 3 always [] [14, 14 ||| 1, 0] ∧ d.Quiet ∧
    ((k.ra 7).toNat / 0x01000000 = 8 ∧ (k.ra 7).toNat % 4 = 0 ∧ ownTcm 3 (k.ra 7).toNat = some 0x0F02FFFC) ∧
    (let x := k.access 3 14 6 0 false 0
     x.addr.toNat / 0x01000000 = 8 ∧ ownTcm 3 x.addr.toNat = some 0x0F02FFF8 ∧ x.addr.toNat % 2 ^ (3 : BitVec 2).toNat = 0 ∧
       memLegal true 3 14 0 false 0 = true) ∧
    (let k : CoreState := { loads := [⟨5, 1, none, 2, none, 4, false⟩] }
     k.loads = [⟨5, 1, none, 2, none, 4, false⟩] ∧ (4 : DReg) ≠ 5) := by
  simp only [Dev.Runs16, Dev.Runs32, Dev.Meets32, Dev.Quiet]; decide +kernel

theorem witness_CoreTrapsEnter :
    let user := { runningCore with sr := 0 }
    (runningCore.loads = [] ∧ ∀ e ∈ [12, 13, 1, 4, 5, 6], runningCore.EntersAt 2 e 0x0E01FFF8) ∧ (up 6).Runs32 2 always [] [] ∧
    (up 6).Runs16 2 [] [] ∧ (up 6).breakHalts 2 = false ∧ (up 6).Meets32 2 never [] [] ∧ 9 < (10 : BitVec 8).toNat ∧ (15 : DReg).getLsbD 0 = true ∧
    (user.EntersAt 2 2 0x0E01FFF8 ∧ user.sys = false ∧ ((up 6).setCo 2 { user with sr := 0 }).Meets32 2 always [] []) ∧
    (let k := { runningCore with pc := 0x0BFFFFFE }
     k.EntersAt 2 3 0x0E01FFF8 ∧ ((up 6).setCo 2 k).coreReady 2 = true ∧ k.fetchable k.pc = false) ∧
    (let k := runningCore.wra 1 0x08030001
     let x := k.access 1 5 1 0 false 0
     let y := k.access 0 5 1 0 false 0
     ((up 6).setCo 2 k).Runs32 2 always [] [5, 5 ||| 1, indexReg 0] ∧ x.addr.toNat % 2 ^ (1 : BitVec 2).toNat ≠ 0 ∧
       memLegal false 1 5 0 false 0 = true ∧ memLegal true 1 5 0 false 0 = true ∧ y.addr.toNat % 2 ^ (0 : BitVec 2).toNat = 0 ∧
       y.addr.toNat / 0x01000000 = 8 ∧ ownTcm 2 y.addr.toNat = none ∧ (k.ra (BitVec.setWidth 3 (1 : BitVec 2))).toNat % 4 ≠ 0) ∧
    (let d := (up 6).setCo 0 { runningCore with tsp := 4 }
     d.Runs32 0 ⟨0, false⟩ [] [] ∧ (d.co 0).loads = [] ∧ ownTcm 0 ((d.co 0).tsp - 8).toNat = none) := by
  simp only [Dev.Runs16, Dev.Runs32, Dev.Meets32, CoreState.EntersAt]; decide +kernel

theorem witness_SystemRegisters : (up 6).Runs32 0 always [] [15] ∧ ((up 6).co 0).sys = true := by
  simp only [Dev.Runs32, Dev.Meets32]; decide +kernel

/-- An offer of priority 1 above a LVL of 0; an imprecise bus error; a frame on the stack with and without IE. -/
theorem witness_EventEntryAndReturn :
    (let d := offered (core1 fun k => { k with sr := 0xE0000000 })
     d.coreReady 1 = true ∧ (d.co 1).ie = true ∧ (d.co 1).loads = [] ∧ d.offer 1 = some 0x80 ∧
       (d.co 1).lvl < d.fld (R.EVC_SRC_PRIO 0x80) ∧ (d.co 1).EntersAt 1 (32 + 0x80) 0x0D01FFF8 ∧ d.preEnabled 1 = false) ∧
    (let k := { runningCore with impr := [(4, 0x10000000)] }
     k.impr = (4, 0x10000000) :: [] ∧ k.halted = false ∧ k.mode = .run ∧ k.loads = [] ∧ k.EntersAt 1 4 0x0D01FFF8) ∧
    (let d := (offered (core1 fun k => { k with tsp := 0x08020000 - 8 })).setWord32 0x0D01FFFC 0x20000000
     d.Runs32 1 always [] [] ∧ (d.co 1).sys = true ∧ (d.co 1).tsp.toNat % 8 = 0 ∧ ownTcm 1 (d.co 1).tsp.toNat = some 0x0D01FFF8 ∧
       (d.word32 (0x0D01FFF8 + 4)).getLsbD 29 = true ∧ bits (d.word32 (0x0D01FFF8 + 4)).toNat 27 24 < d.fld (R.EVC_SRC_PRIO 0x80) ∧
       (d.co 1).fetchable ((d.co 1).vector (32 + 0x80)) = true ∧ (d.setWord32 0x0D01FFFC 0).word32 0x0D01FFFC = 0) := by
  simp only [Dev.Runs32, Dev.Meets32, CoreState.EntersAt]; decide +kernel

/-- An entry for source 0x81 that a source above it takes over; an imprecise trap with none due; a return in the first slot of a load. -/
theorem witness_EventEntryAndReturn_takeover :
    (let d := offered (core1 fun k => { k with sr := 0xE0000000, entering := some 0x81 })
     d.coreReady 1 = true ∧ (d.co 1).ie = true ∧ (d.co 1).inSlots = false ∧ d.offer 1 = some 0x80 ∧ (d.co 1).lvl < d.fld (R.EVC_SRC_PRIO 0x80) ∧
       (d.co 1).entering = some 0x81 ∧ (d.co 1).fetchable ((d.co 1).vector (32 + 0x80)) = true ∧ d.preEnabled 1 = false) ∧
    runningCore.entering = none ∧ runningCore.due = none ∧
    (let d := core1 fun k => { k with tsp := 0x08020000 - 8, loads := [⟨5, 7, none, 2, none, 4, false⟩] }
     d.Runs32 1 always [] [] ∧ ((d.co 1).retire 4).inSlots = true ∧ (((up 6).co 1).retire 4).inSlots = false) := by
  simp only [Dev.Runs32, Dev.Meets32]; decide +kernel

/-! The array. -/

/-- A descriptor of a field, and of a table of lines. -/
def fieldAt (base width : Nat) (lines : Nat := 0) : Word × Word :=
  descLoad (BitVec.ofNat 32 ((width - 1) * 2 ^ 15 + base)) (BitVec.ofNat 32 lines)

/-- Fields F0 to F9 of 8, 8, 8, 1, 16, 16, 16, 32, 32, 32 bits, F10 of 9 bits, F11 a table of 16 lines. -/
def fields : Vector (Word × Word) 32 :=
  Vector.ofFn (fun i => ([fieldAt 0 8, fieldAt 8 8, fieldAt 16 8, fieldAt 24 1, fieldAt 32 16, fieldAt 48 16, fieldAt 64 16, fieldAt 96 32,
    fieldAt 128 32, fieldAt 160 32, fieldAt 200 9, fieldAt 256 8 16, fieldAt 300 4] : List (Word × Word)).getD i.val (fieldAt 8191 1))

/-- Stream 0 with those fields, changed; channel 7 brings data in and channel 6 takes it out; customer opcode 15 has an entry. -/
def stream0 (f : Strm → Strm) : Dev :=
  let d := ((((up 7).setReg (R.STAIR_CHCFG 7) 0x80000000).setReg (R.STAIR_CHCFG 6) 0x90000000).setReg (R.STAIR_CHLIMIT 7) 16).setReg
    (R.STAIR_CHRING 6) 16
  let d := d.setReg (R.SEQ_CDT 15) 0x800001FF
  ({ d with arr := { d.arr with tags := BitVec.allOnes 1024 } } : Dev).modSt 0 (fun x => f { x with desc := fields })

def op (sd sa sb : BitVec 5) : AOp := ⟨0, always, sd, sa, sb⟩
def filler : Job := (stream0 id).makeJob 0 0x08 (op 0 1 0)

/-- An idle stream, and one with an instruction waiting, at an activity depth of 1 for the two opcodes that need one. -/
def idleStream (o : Nat) : Dev := stream0 (fun x => { x with depth := if o = 0x44 ∨ o = 0x45 then 1 else 0 })
def busyStream (o : Nat) : Dev := (idleStream o).modSt 0 (fun x => { x with jobs := [filler] })

/-- Operands that an opcode accepts with those fields. -/
def opFor (o : Nat) : AOp :=
  if o ∈ [0x00, 0x01, 0x08, 0x18] ∨ (0x30 ≤ o ∧ o ≤ 0x37) then op 0 1 0
  else if o ∈ [0x06, 0x07] then op 2 0 0
  else if o ∈ [0x40, 0x44, 0x45] then op 0 0 0
  else if o ∈ [0x19, 0x1A, 0x1B] then op 3 0 1
  else if o = 0x20 ∨ o = 0x21 then op 4 0 1
  else if o = 0x22 then op 10 0 1
  else if 0x28 ≤ o ∧ o ≤ 0x2F then op 0 1 31
  else if o = 0x38 ∨ o = 0x39 then op 0 1 3
  else if 0x41 ≤ o ∧ o ≤ 0x43 then op 0 3 0
  else if o = 0x48 then op 0 12 11
  else if o = 0x50 ∨ o = 0x51 then op 7 0 0
  else if o = 0x52 ∨ o = 0x53 then op 15 0 0
  else if 0x58 ≤ o ∧ o ≤ 0x5B then op 4 5 6
  else if 0x60 ≤ o ∧ o ≤ 0x63 then op 7 8 9
  else if 0x5C ≤ o ∧ o ≤ 0x5E then op 3 5 6
  else if 0x64 ≤ o ∧ o ≤ 0x66 then op 3 8 9
  else if o = 0x5F then op 7 5 0
  else if o = 0x67 then op 4 8 0
  else if o = 0x68 then op 4 0 0
  else if o = 0x69 then op 7 0 0
  else if o = 0x6A then op 0 4 0
  else if o = 0x6B then op 0 7 0
  else if o = 0x6C then op 4 0 7
  else if o = 0x6D then op 0 5 6
  else if o = 0x6E then op 0 0 0
  else if o = 0x6F then op 1 0 0
  else op 0 1 2


theorem witness_ArrayInstructionsQueue : ∀ o ∈ [0x45, 0x7F], (busyStream o).Accepts o (opFor o) ∧ ((busyStream o).st 0).jobs ≠ [] := by
  simp only [Dev.Accepts, Dev.Offers, Dev.Runs32, Dev.Meets32]; decide +kernel

theorem witness_ArrayIntegerInstructionsRun : ∀ o ∈ [0x00, 0x2F], (idleStream o).Begins o (opFor o) := by
  simp only [Dev.Begins, Dev.Accepts, Dev.Offers, Dev.Runs32, Dev.Meets32]; decide +kernel

theorem witness_ArrayDataMovementRuns :
    let d := idleStream 0x30
    (∀ o ∈ [0x22, 0x48, 0x40], d.Begins o (opFor o)) ∧ d.Begins 0x37 (opFor 0x37) ∧
      (d.started 0x37 (opFor 0x37)).jobTokens 0 (d.makeJob 0 0x37 (opFor 0x37)) = some [] := by
  simp only [Dev.Begins, Dev.Accepts, Dev.Offers, Dev.Runs32, Dev.Meets32]; decide +kernel

/-- The floating-point trap may be on. -/
theorem witness_ArraySamplesAndFloatRun : (idleStream 0x53).Begins 0x53 (opFor 0x53) ∧ ((idleStream 0x63).setReg (R.SEQ_FPCTL 0) 0x200).Begins 0x63 (opFor 0x63) := by
  simp only [Dev.Begins, Dev.Accepts, Dev.Offers, Dev.Runs32, Dev.Meets32]; decide +kernel

theorem witness_ArrayControlInstructionsRun :
    (∀ o ∈ [0x6C, 0x6E, 0x6F], (idleStream o).Begins o (opFor o)) ∧ (idleStream 0).Accepts 0x4C (op 31 14 15) ∧ (idleStream 0).Accepts 0x7F (opFor 0x7F) ∧ ((idleStream 0).st 0).jobs = [] ∧
    ((idleStream 0).accepted 0x7F (opFor 0x7F)).canStart 0 ((idleStream 0).makeJob 0 0x7F (opFor 0x7F)) = true := by
  simp only [Dev.Begins, Dev.Accepts, Dev.Offers, Dev.Runs32, Dev.Meets32]; decide +kernel

/-- A destination of another width is refused; core 1 owns no stream while SPLIT is 0; opcode 0x09 is reserved. -/
theorem witness_ArrayRefusalsTrap :
    let d := idleStream 0
    let a : AOp := ⟨1, always, 0, 1, 2⟩
    runningCore.loads = [] ∧ d.Offers 0x10 (op 4 0 1) ∧ d.judge 0 (d.makeJob 0 0x10 (op 4 0 1)) = .refuse 6 0 0 ∧
    runningCore.EntersAt 0 9 0x0C01FFF8 ∧ d.Meets32 1 a.pred [] [] ∧ d.ownsStream 1 = false ∧ runningCore.EntersAt 1 1 0x0D01FFF8 ∧
    d.ownsStream 0 = true ∧ runningCore.holds never = false ∧ d.Meets32 0 never [] [] ∧
    vendorSlots 0x09 = none ∧ d.Offers 0x09 (op 0 0 0) ∧ d.arr.quiesce = false ∧ (d.st 0).rehold = [] ∧ d.underTest 0 = false ∧
    d.blockCode 0 = none := by
  simp only [Dev.Offers, Dev.Runs32, Dev.Meets32, CoreState.EntersAt]; decide +kernel

theorem witness_LaneArithmetic :
    ∀ i ∈ ([⟨64, 64, 64, 2 ^ 64 - 1, 2 ^ 64 - 1, 0, true⟩, ⟨1, 1, 1, 0, 1, 0, false⟩] : List LaneIn),
      i.a < 2 ^ i.wd ∧ i.b < 2 ^ i.wd ∧ 0 < i.wd ∧ i.wa = i.wd ∧ i.wb = i.wd := by decide +kernel

theorem witness_StepsDivide : (1 : Word).toNat < (2 : Word).toNat ∧ (0 < 63 ∧ 0 < 64 ∧ 2 ^ 63 - 1 < 2 ^ 63 ∧ 2 ^ 64 - 1 < 2 ^ 64 ∧
    2 ^ 63 - 2 < 2 ^ 63 - 1) := by decide +kernel

theorem witness_CodesCorrectOneBit : 0 < 72 ∧ 71 < 72 ∧ 0 ≠ 71 := by decide

theorem witness_SteeringRoundTrip :
    [0, 1, 74, 75].Pairwise (· < ·) ∧ [0, 1, 74, 75].length ≤ 4 ∧ (∀ r ∈ [0, 1, 74, 75], r < 76) ∧
    (73 ∉ [0, 1, 74, 75] ∧ 73 - ([0, 1, 74, 75].filter (· < 73)).length = 71) ∧ (75 ∉ [74] ∧ 71 < 75 - ([74].filter (· < 75)).length) := by decide

/-! Registers and commits. -/

/-- The last hall's map and its lock from the host's side of the road, a window's upper half, a byte write. -/
theorem witness_RegisterWritesAndLocks :
    (up 6).Writes (.core 0) (.hall 16) (R.HALL_STEERSET 16) 7 ∧ (regIn (.hall 16) (R.HALL_STEERSET 16 - blockBase (.hall 16))).isSome = true ∧
    (up 6).Writes .host .link (lockAddr .link) 1 ∧ hasCommit .link = true ∧
    (let a := blockBase .line + 0x8000
     nodeOfAddr (up 6).chipId a = some 0x04 ∧ inWindows a = true ∧ (up 6).place a = some (.window .line (a - blockBase .line)) ∧
       (a - blockBase .line) % 4 = 0 ∧ a ≠ R.DBG_MDATA ∧ ((up 6).who (.core 3)).node < 4 ∧ ((up 6).co 3).mode = .run) ∧
    (up 6).Carries ((up 6).who (.core 3)) 0x04 ∧
    (let fs : List FieldDesc := [⟨31, 31, .st, 0⟩, ⟨30, 8, .rw, 0⟩, ⟨7, 0, .lk, 0⟩]
     fs.Pairwise (fun f g => f.hi < g.lo ∨ g.hi < f.lo) ∧ ∀ f ∈ fs, f.lo ≤ f.hi ∧ f.hi < 32) :=
  ⟨writes_of 0x20 (by decide +kernel) (by decide +kernel), by decide +kernel, writes_of 0x0A (by decide +kernel) (by decide +kernel),
    by decide +kernel, by decide +kernel, carries_of (by decide +kernel), by decide +kernel⟩

/-- A hall's commit refused in PRINT and admitted in IDLE; the application points of the blocks; a change of SPLIT with the streams drained,
and one with a started span. -/
theorem witness_CommitCapturesAndApplies :
    (∀ d ∈ [up 6, up 8], d.Writes (.core 0) (.hall 16) (blockBase (.hall 16) + 0x7FF0) 1) ∧ hasCommit (.hall 16) = true ∧
    ((up 8).drawn.writeFields (.hall 16) (blockBase (.hall 16) + 0x7FF0) [⟨0, 0, .wo, 0⟩] 1).commitCause (.hall 16) true
      ((up 8).windowStaged (.hall 16)) = some 0x13 ∧
    ((up 6).drawn.writeFields (.hall 16) (blockBase (.hall 16) + 0x7FF0) [⟨0, 0, .wo, 0⟩] 1).commitCause (.hall 16) true
      ((up 6).windowStaged (.hall 16)) = none ∧ (Block.hall 16) ≠ .seq ∧
    (∀ b ∈ [Block.ddr, .line, .hall 16, .stair, .host], ((up 6).setCapture b []).capture? b = some [] ∧
      ((up 6).setCapture b []).applyPoint b [] = true) ∧
    ((up 6).applySet .ddr []).flag R.DDR_CFG_EN = (up 6).flag R.DDR_CFG_EN ∧ (up 6).flag R.LINE_GOVCTL_EN = false ∧
    (let d := ({ up 6 with arr := { (up 6).arr with quiesce := true } } : Dev).setCapture .seq []
     d.capture? .seq = some [] ∧ d.arr.quiesce = true ∧ d.drained = true ∧ (d.splitLast []).or (d.seqChecks []) = none ∧
       ((d.modSt 0 (fun x => { x with dirty := true })).splitLast []).or (d.seqChecks []) = some 0x13) ∧
    (∀ p ∈ ([(blockBase .line, 1), (blockBase .line + 0x7FFC, 1)] : List (Nat × Word)),
      blockBase .line ≤ p.1 ∧ p.1 < blockBase .line + 0x8000) :=
  ⟨by intro d h
      rcases List.mem_cons.1 h with rfl | h
      · exact writes_of 0x20 (by decide +kernel) (by decide +kernel)
      · obtain rfl := List.mem_singleton.1 h
        exact writes_of 0x20 (by decide +kernel) (by decide +kernel), by decide +kernel⟩

/-! The sequencer and the halls. -/

def customerJob : Job := (stream0 id).makeJob 0 0x7F (op 0 0 0)

/-- Stream 0 in the last patch word, which holds w. -/
def inMicro (w : BitVec 48) : Dev :=
  let d := stream0 (fun x => { x with run := .micro customerJob, micro := { upc := 0x1FFF } })
  { d with arr := { d.arr with patch := [(0x1FFF, w)] } }

theorem witness_MicroroutinesRun :
    (0 : StreamId).val < (inMicro 0).numStreams ∧
    (let e := fun p : BitVec 55 => ({ inMicro 0 with arr := { (inMicro 0).arr with uErr := [(0x1FFF, p)] } } : Dev).uErrOf 0x1FFF
     e (BitVec.ofNat 55 (2 ^ 54)) = BitVec.ofNat 55 (2 ^ 54) ∧ e (BitVec.ofNat 55 (2 ^ 0 + 2 ^ 54)) = BitVec.ofNat 55 (2 ^ 0 + 2 ^ 54)) ∧
    (let d := stream0 (fun x => { x with jobs := [customerJob] })
     (d.st 0).jobs = [customerJob] ∧ d.canStart 0 customerJob = true ∧ d.isMicro customerJob = true) ∧
    ((inMicro 0).st 0).run = .micro customerJob ∧ (inMicro 0).canIssue 0 = true ∧ ((inMicro 0).st 0).micro.hold = none ∧
    (((inMicro 0).setFld R.SEQ_UCTL_UTMO 1).modSt 0 (fun x => { x with micro := { x.micro with cycles := 257 } })).timedOut 0 = true ∧
    (inMicro 0).timedOut 0 = false ∧
    ({ inMicro 0 with arr := { (inMicro 0).arr with tags := 0 } } : Dev).fetchFault ((inMicro 0).st 0).micro = some 2 ∧
    (inMicro 0).fetchFault ((inMicro 0).st 0).micro = none ∧
    (let w := (inMicro (0x3D * 2 ^ 15)).storeWord 0x1FFF
     microFault customerJob ((inMicro 0).st 0).micro w = some 1) ∧
    (let w := (inMicro 0).storeWord ((inMicro 0).served 0x1FFF)
     microFault customerJob ((inMicro 0).st 0).micro w = none ∧ mwOp2 w = 0 ∧ mwOp1 w ≠ 1 ∧ customerJob.opc ≠ 0x6E ∧ condOr (mwCond w) = false ∧
       ((inMicro 0).st 0).span + mwCyc w ≤ (inMicro 0).fld (R.SEQ_SPAN_LIM 0)) := by decide +kernel

/-- ADD enters its three words; a word of OP1 0 opens no channel and passes no edge. -/
theorem witness_MicroroutinesRun_add :
    (let j := (stream0 id).makeJob 0 0x10 (op 0 1 2)
     let d := stream0 (fun x => { x with jobs := [j] })
     (d.st 0).jobs = [j] ∧ j.opc = 0x10 ∧ d.isMicro j = false ∧ d.issueFree 0 = true) ∧
    (let w := (inMicro 0).storeWord ((inMicro 0).served 0x1FFF)
     mwOp1 w ≠ 2 ∧ ((inMicro 0).st 0).micro.chan = none ∧ (inMicro 0).wordOverEdge 0 w (mwCyc w) = false) := by decide +kernel

/-- Logical hall 15 with an entry on its way, and changed. -/
def hall15 (q : HallQ) : Dev := (up 7).setHq 15 q

theorem witness_HallsRunTheirFlights :
    (((hall15 { transit := [1], flight := List.replicate 63 2 }).hq 15).transit = 1 :: [] ∧
      ((hall15 { transit := [1], flight := List.replicate 63 2 }).hq 15).flight.length < 64) ∧
    0 < ((hall15 { returning := 1, credit := 63 }).hq 15).returning ∧
    (let d := hall15 { flight := [withParity 0, 1] }
     d.stream? (d.streamOf 15) = some 0 ∧ (d.hq 15).flight = withParity 0 :: [1] ∧ (d.hq 15).run = none ∧ (d.hq 15).repDue = false) ∧
    (let r : HRun := ⟨1, 1, 0, 0, 0, 5, 2, false⟩
     let d := hall15 { run := some r }
     (d.hq 15).run = some r ∧ r.stall ≠ 5 ∧ d.cycleStall 0 15 (feOp r.e) = none) ∧
    (up 7).fld R.SEQ_CTRL_WDOG ≠ 0 ∧ (up 7).edgeEnd 0 14 ((1 : BitVec 2).getLsbD 0) = .hall 15 ∧ (up 7).phys 15 = 15 := by decide +kernel

/-- Hall 15 waits in a GET over its western edge for hall 14, which runs. -/
theorem witness_HallsRunTheirFlights_wait :
    let r : HRun := ⟨0x23, 1, 0, 0, 0, 5, 1, false⟩
    let d := (hall15 { run := some r }).setHq 14 { run := some ⟨1, 1, 0, 0, 0, 5, 5, false⟩ }
    (d.hq 15).run = some r ∧ d.cycleStall 0 15 (feOp r.e) r.pushed ≠ none ∧ d.fld R.SEQ_CTRL_WDOG ≠ 0 ∧
      d.edgeEnd 0 15 ((0 : BitVec 2).getLsbD 0) = .hall 14 ∧ d.waitsOn 0 15 0 = true ∧ d.signalsStall 14 = false ∧ d.phys 14 = 14 := by
  decide +kernel

def sampleOf (u : SmpUse) (q : Bool) : Dev :=
  stream0 (fun x => { x with smp := some { use := u, bits := 0x8000, contrib := 0xFFFF, release := 0xFFFF, quiet := q } })

theorem witness_ResultsAndReportsArrive :
    (sampleOf .latch false).stream? ((sampleOf .latch false).streamOf 15) = some 0 ∧
    (∀ u ∈ [SmpUse.latch, .toPred 0 7, .toData 0 15, .toFlag true 0x58], ∀ m, ((sampleOf u false).st 0).smp = some m →
      m.use = u ∧ m.quiet = false) ∧
    (let d := sampleOf (.toPred 0 7) true
     (((d.st 0).smp.map (·.contrib)).getD 0 &&& d.halls16 0) = d.halls16 0 ∧ (((d.st 0).smp.map (·.release)).getD 0 &&& d.halls16 0) = d.halls16 0 ∧
       ((d.st 0).smp.map (·.quiet)) = some true ∧ d.upsetPending 0 = false ∧ (d.st 0).smpq = []) ∧
    (let d := stream0 (fun x => { x with fpTrap := some 0x5A })
     (d.st 0).fpTrap = some 0x5A ∧ (d.co 0).mode = .run ∧ (d.co 0).halted = false ∧ (d.co 0).impr = []) ∧
    (let d := stream0 (fun x => { x with run := .mstone filler 0x7FFF })
     (d.st 0).run = .mstone filler 0x7FFF ∧ (0x7FFF : BitVec 16).getLsbD 15 = false ∧ filler.sd.getLsbD 0 = false ∧
       d.upsetPending 0 = false) ∧
    (let d := stream0 (fun x => { x with run := .xfer filler 0xFFFF 0x7FFF })
     (d.st 0).run = .xfer filler 0xFFFF 0x7FFF ∧ (0xFFFF : BitVec 16).getLsbD 15 = true) := by
  refine ⟨by decide +kernel, ?_, by decide +kernel⟩
  intro u hu m hm
  simp only [List.mem_cons, List.not_mem_nil, or_false] at hu
  rcases hu with rfl | rfl | rfl | rfl <;> (cases hm; exact ⟨rfl, rfl⟩)

/-- A result with two destinations. -/
theorem witness_ResultsAndReportsArrive_also :
    (∀ u ∈ [SmpUse.toPred 0 7, .toData 0 15, .toFlag true 0x58], u ≠ .latch) ∧ (sampleOf (.toPred 0 7) false).st 0 ≠ {} ∧
    ((sampleOf (.toPred 0 7) false).st 0).smp.map (·.also) = some [] := by decide +kernel

theorem witness_PreemptionAndOverrun :
    (let d := stream0 (fun x => { x with preReq := true, jobs := [filler] })
     d.stopPoint 0 = true ∧ (d.st 0).rehold = [] ∧ (d.st 0).run = .idle) ∧
    (let h : HeldRec := ⟨1, .idle, {}, [filler], 0, false, 0, false, 0, 0, 0, none⟩
     let d := stream0 (fun x => { x with held := some h })
     (d.st 0).held = some h ∧ (d.st 0).jobs = [] ∧ (d.st 0).smp = none ∧ d.streamIdle 0 = true ∧ h.past = none ∧ d.preAlive 0 = false ∧
       d.upsetPending 0 = false) ∧
    (let d := (inMicro 0).modSt 0 (fun x => { x with span := 0x2000 })
     (d.st 0).run = .micro customerJob ∧ d.wordOverSpan 0 = true) := by decide +kernel

/-! Stairs, gallery, milestones, recovery. -/

/-- A transfer that hall 15 has not made, with its channel open. -/
def transfer (j : Job) (ch : BitVec 3) : Dev :=
  (stream0 (fun x => { x with run := .xfer j 0x7FFF 0 })).setHq 15 { chan := some (ch, 0) }

/-- An in-transfer of 16 units that exactly uses its limit, an out-transfer; the last word of the last ordinary row. -/
theorem witness_StairsAndBanksServe :
    (let j := (stream0 id).makeJob 0 0x6C (op 4 0 7)
     let d := transfer j 7
     d.stream? (d.streamOf 15) = some 0 ∧ (d.st 0).run = .xfer j 0x7FFF 0 ∧ (d.hq 15).chan = some (7, 0) ∧ d.flowOk j = true ∧
       d.chanMarched 7 = false ∧ j.opc = 0x6C) ∧
    (let j := (stream0 id).makeJob 0 0x6D (op 0 5 6)
     let d := transfer j 6
     (d.hq 15).chan = some (6, 0) ∧ d.flowOk j = true ∧ d.chanMarched 6 = false ∧ j.opc = 0x6D) ∧
    (let d := (transfer filler 7).setFld R.STAIR_CTRL_SWAIT 1
     (d.hq 15).chan = some (7, 0) ∧ (d.hq 15).waited = false ∧ d.fld R.STAIR_CTRL_SWAIT ≠ 0) ∧
    (let i := 94207 * 32 + 31
     galRegion (8 * i) ≠ 3 ∧ galRegion (8 * i) ≠ 2 ∧ ((up 6).galWord i).2 = .good ∧ (up 6).domOn 0 = true ∧ galRegion (8 * (i + 1)) = 2 ∧
       (up 6).secureShut = false) := by decide +kernel

/-- A routine's channel; a transfer that waits for its flow condition; the landing part, the secure region by a secure and by another
request, a region under a destructive test. -/
theorem witness_StairsAndBanksServe_more :
    (let d := ((inMicro 0).modSt 0 (fun x => { x with micro := { x.micro with chan := some 7 } })).setHq 15 { chan := some (7, 0) }
     d.stream? (d.streamOf 15) = some 0 ∧ (d.st 0).run = .micro customerJob ∧
       (d.chanJob 0).map (fun j => (j.opc, d.flowOk j)) = some (0x6C, true) ∧ (d.hq 15).chan = some (7, 0) ∧ d.chanMarched 7 = false ∧
       ((d.setReg (R.STAIR_CHLIMIT 7) 0).setFld R.STAIR_CTRL_SWAIT 1).transferWaits 15 = true) ∧
    (let secure : GalReq := ⟨4, 94208, none, true⟩
     galRegion (8 * (secure.word * 32 + 31)) = 2 ∧ secure.who = 4 ∧ secure.sec = true ∧ (up 6).secureShut = false ∧
       (up 6).underMarch (8 * (secure.word * 32 + 31)) 8 = false ∧ ({ secure with sec := false } : GalReq).sec ≠ true ∧
       ({ secure with word := 90112 } : GalReq).landing = true) ∧
    (let d : Dev := { up 9 with gal := { march := some (0, false, 3) } }
     galRegion 0 ≠ 3 ∧ galRegion 0 ≠ 2 ∧ d.underMarch 0 8 = true) := by decide +kernel

theorem witness_GalleryEnginesRun :
    (let d := { (up 8).setFlag R.GAL_LCFG_LEN true with lead := { released := 1 } }
     d.flag R.GAL_LCFG_LEN = true ∧ d.lead.copying = false ∧ d.lead.copied < d.lead.released ∧
       d.lead.copied < d.lead.done + (d.fld R.GAL_LCFG_NSM1 + 1)) ∧
    (up 6).Writes (.core 0) .gal R.GAL_SEC 0x80000000 ∧ (up 6).gal.wipe = .idle ∧
    (∀ w ∈ [WipePhase.clearing, .readback], ({ up 6 with gal := { wipe := w } } : Dev).gal.wipe = w) ∧
    (let v : Word := 0x02030000 ||| 0x80000000
     let t := (up 9).fielded .host .gal R.GAL_MCTL v
     (up 9).Writes .host .gal R.GAL_MCTL v ∧ (up 9).gal.march = none ∧ t.fld R.GAL_MCTL_ALG ≠ 3 ∧ t.fld R.GAL_MCTL_RGN ≠ 0 ∧ (up 9).mode = 9) ∧
    (up 6).Writes .host .gal (R.GAL_RPR 319) 0x80000FFF ∧ (up 6).locked .gal = false ∧ (up 6).flag (R.GAL_RPR_FUSE 319) = false ∧
    (let d := (up 6).setFlag (R.GAL_RPR_FUSE 319) true
     d.Writes .host .gal (R.GAL_RPR 319) 1 ∧ d.flag (R.GAL_RPR_FUSE 319) = true) :=
  ⟨by decide +kernel, writes_of 0x04 (by decide +kernel) (by decide +kernel), by decide +kernel, by decide +kernel,
    ⟨writes_of 0x04 (by decide +kernel) (by decide +kernel), by decide +kernel⟩, writes_of 0x04 (by decide +kernel) (by decide +kernel),
    by decide +kernel, by decide +kernel, writes_of 0x04 (by decide +kernel) (by decide +kernel), by decide +kernel⟩

theorem witness_MilestoneCommits :
    let d := stream0 (fun x => { x with run := .mstone ((stream0 id).makeJob 0 0x6E (op 1 0 0)) 0xFFFF })
    (0 : StreamId).val < d.numStreams ∧ (d.milestoneReady 0).map (·.sd) = some 1 ∧ d.chanBound 0 7 = true ∧ d.chanBound 0 0 = false := by
  decide +kernel

def retireAt (n : Nat) : Dev := { up 7 with arr := { (up 7).arr with retire := [⟨15, 75, false, n, 0⟩] } }
def failing (b : Bool) : Dev := { up 7 with arr := { (up 7).arr with failover := some { strm := 0, hall := 15, imageDone := b, rep := 0 } } }

theorem witness_RecoveryProceeds :
    ((retireAt 0).arr.retire.find? (fun q => q.hall = 15 && q.stage = 0) = some ⟨15, 75, false, 0, 0⟩ ∧ (retireAt 0).capture? (.hall 15) = none ∧
      (retireAt 0).arr.retire.any (fun q => q.hall = 15 && (q.stage = 1 || q.stage = 2)) = false ∧ ((retireAt 0).st 0).run = .idle) ∧
    ((retireAt 1).arr.retire.find? (fun q => q.hall = 15 && q.stage = 1) = some ⟨15, 75, false, 1, 0⟩ ∧ ((retireAt 1).hq 15).chan = none) ∧
    ((retireAt 2).arr.retire.find? (fun q => q.hall = 15 && q.stage = 2) = some ⟨15, 75, false, 2, 0⟩ ∧
      ((retireAt 2).streamOfPhys 15).bind (retireAt 2).stream? = some 0) ∧
    (failing true).arr.failover.map (·.imageDone) = some true ∧ (failing true).retiring 0 = false := by decide +kernel

theorem witness_RecoveryProceeds_refill : ((retireAt 2).refill 15 (addColumn ((retireAt 2).retired 15) 75)).1 = false := by decide +kernel

/-- What the load leaves in the staging area touches no register. -/
theorem regs_looseStaging (d : Dev) : d.looseStaging.regs = d.regs := by
  unfold Dev.looseStaging
  generalize List.range 32768 = l
  exact forEach_frame Dev.regs l _ (fun s b => by simp [Dev.galPut, Dev.setWord64, Dev.setGalErr])

theorem witness_RecoveryProceeds_image :
    (failing false).arr.failover = some { strm := 0, hall := 15, imageDone := false, rep := 0 } ∧
      ((failing false).looseStaging.loadImage 15).1 = false ∧ (failing false).looseStaging.flag (R.SEQ_CARRY_CEN 0) = false ∧
      ((failing false).looseStaging.loadImage 15).2.flag (R.SEQ_CARRY_CEN 0) = false := by
  have hr := regs_looseStaging (failing false)
  generalize (failing false).looseStaging = x at hr
  have hu : x.imageUnits = [] := by
    unfold Dev.imageUnits Dev.fld Dev.reg
    rw [hr]
    decide +kernel
  have hl : x.loadImage 15 = (false, x) := by
    simp only [Dev.loadImage, hu, List.foldl_nil]
  have hf : x.flag (R.SEQ_CARRY_CEN 0) = false := by
    unfold Dev.flag Dev.fld Dev.reg
    rw [hr]
    decide +kernel
  refine ⟨by decide +kernel, by rw [hl], hf, by rw [hl]; exact hf⟩

theorem witness_RecoveryProceeds_record :
    let r : FRec := ⟨1, 15, 15, 75, 0, 0, 0, 0, 0, 0, []⟩
    let d : Dev := { up 6 with arr := { (up 6).arr with frecs := [r] } }
    d.arr.frecs = r :: [] ∧ r.maps = [] ∧ d.domOn 5 = true := by decide +kernel

/-- A map with room, one that has the column already, one that is full; the stair is free. -/
theorem witness_RecoveryProceeds_map :
    (retireAt 0).barRetire ⟨15, 75, false, 0, 0⟩ = none ∧ (((retireAt 0).setReg (R.HALL_STEER 15) (steerWord [75])).barRetire
      ⟨15, 75, false, 0, 0⟩).isSome = true ∧ (retireAt 1).barRetire ⟨15, 75, false, 1, 0⟩ = none ∧
    (((retireAt 1).setReg (R.HALL_STEER 15) (steerWord [0, 1, 2, 3])).barRetire ⟨15, 75, false, 1, 0⟩).isSome = true ∧
    (retireAt 1).logicalOf 15 = some 15 ∧ (retireAt 1).stairBusy 15 = false := by decide +kernel

/-- A word with six wrong bits keeps a refill from its end. -/
theorem witness_RecoveryProceeds_refillBad :
    (((retireAt 2).setPeRaw 15 3 7 0x3F).refill 15 (addColumn (((retireAt 2).setPeRaw 15 3 7 0x3F).retired 15) 75)).1 = true := by decide +kernel

/-- A patch image of one word at the start of the gallery. -/
def patchHeader : List Byte :=
  leBytes 4 0x4D495A49 ++ leBytes 2 1 ++ [2, 0] ++ leBytes 4 8 ++ leBytes 4 0 ++ leBytes 4 1
def withPatch (head : List Byte) : Dev :=
  let d := ((up 6).setReg R.SEQ_PLDSRC 0x40000000).setFlag R.SEQ_PLDSTAT_BUSY true |>.setBytes 0x40000000 head
  { d with arr := { d.arr with pld := (0, 0x8000000) } }

theorem witness_ImagesLoadAndVerify :
    (up 6).Writes (.core 0) .seq R.SEQ_PLDCMD ((up 6).reg R.SEQ_PLDCMD ||| 1) ∧ (up 6).flag R.SEQ_PLDSTAT_BUSY = false ∧
    (up 6).fld R.SEQ_PLDSRC_ADDR * 8 = 0 ∧ 0x40000000 ≤ (withPatch []).fld R.SEQ_PLDSRC_ADDR * 8 ∧
    (withPatch []).flag R.SEQ_PLDSTAT_BUSY = true ∧ (withPatch []).arr.stage = none ∧ patchFrom (withPatch []).arr.pld.2 64 = some 0 ∧
    (parseHeader ((withPatch []).galRead 0 64).1).plainOk 2 = false ∧
    (let x := (withPatch patchHeader).galRead 0 64
     let hd := parseHeader x.1
     let y := x.2.2.galRead 0 (64 + 8 + 3136)
     x.2.1 = false ∧ (patchFrom (withPatch patchHeader).arr.pld.2 (64 + hd.bodyLen + 3136)).isSome = true ∧ hd.plainOk 2 = true ∧ hd.count = 1 ∧ hd.bodyLen = 8 * hd.count ∧
       y.2.1 = false ∧ le y.1 70 2 < 512) := by
  refine ⟨writes_of 0x04 (by decide +kernel) (by decide +kernel), ?_⟩
  decide +kernel

theorem witness_ImagesLoadAndVerify_end :
    (let d : Dev := { up 6 with
       arr := { (up 6).arr with stage := some [(0x1FFF, 1)], stageSlot := 7, stageSig := ⟨1793, [], 1, [], true⟩ }, sec := { verifs := [.patch] } }
     d.arr.stage = some [(0x1FFF, 1)] ∧ d.arr.stageSig.ok = true ∧ d.verifyFirst .patch = true ∧ d.verifyEnd.keyOk 2 7 = true ∧
       d.verifyEnd.keyOk 2 0 = false ∧ ({ d with sec := { verifs := [.boot, .patch] } } : Dev).verifyFirst .patch = false ∧
       (([(0x1FFF, 1)] : List (Nat × BitVec 48)).map Prod.fst).Nodup) ∧
    (up 6).Writes (.core 0) .seq R.SEQ_HIMGCMD 0x8000020F ∧ (up 8).Writes (.core 0) .seq R.SEQ_HIMGCMD 0x8000020F ∧
    (let d := (((up 6).setFld R.SEQ_IMGMASK_MASK 0x40000000).setFld (R.SEQ_HIMG_BASE 15) 63).setFld R.DDR_CFG_USIZE 1
     d.flag R.SEQ_HIMGCMD_BUSY = false ∧ d.mode ≠ 8 ∧ (d.st 0).dirty = false ∧ d.imageEnd (d.fld R.SEQ_IMGMASK_MASK) 15 ≤ d.dramSize) ∧
    ((up 6).modSt 0 (fun x => { x with dirty := true })).stream? (((up 6).modSt 0 (fun x => { x with dirty := true })).streamOf 15) = some 0 ∧
    (∀ o ∈ [(0 : BitVec 2), 1, 2], let d : Dev := { up 6 with arr := { (up 6).arr with himg := some (o, 15) } }
     d.himgFree 15 = true ∧ d.arr.himg = some (o, 15)) := by
  refine ⟨?_, writes_of 0x04 (by decide +kernel) (by decide +kernel), writes_of 0x04 (by decide +kernel) (by decide +kernel), ?_⟩ <;>
    decide +kernel

/-- The premises of each clause hold in the states above; here those that no other witness shows. -/
theorem witness_ServicesComplete :
    ((up 6).setReg R.SEQ_PLDSRC 0x40000000).Writes (.core 0) .seq R.SEQ_PLDCMD (((up 6).setReg R.SEQ_PLDSRC 0x40000000).reg R.SEQ_PLDCMD ||| 1) ∧
    ((up 6).setReg R.SEQ_PLDSRC 0x40000000).flag R.SEQ_PLDSTAT_BUSY = false ∧
    (patchFrom (((up 6).setReg R.SEQ_PLDSRC 0x40000000).fld R.SEQ_PLDSRC_ADDR) 64).isSome = true ∧
    (0 : StreamId) ∉ (retireAt 2).arr.replayDue ∧ ((retireAt 2).streamOfPhys 15).bind (retireAt 2).stream? = some 0 ∧
    (let x : OpenReq := ⟨5, 8, 0x20, true, 0, [1], 0x10200000⟩
     let d : Dev := { up 6 with road := { resp := [x] } }
     d.road.resp.find? (fun z => z.tid = x.tid && z.mgmt = true && d.firstResp z) = some x ∧ d.road.sunk.contains x.tid = false ∧
       d.nodeDead x.src.toNat = false ∧ 4 ≤ x.src.toNat) :=
  ⟨writes_of 0x04 (by decide +kernel) (by decide +kernel), by decide +kernel⟩

/-! The line timer, the event controller, the road. -/

def lines (v : Nat) : Dev := (((up 8).setFlag R.LINE_CTRL_EN true).setFld R.LINE_CTRL_SRC v)

theorem witness_LineTimerRuns :
    ((lines 0).mode = 8 ∧ (lines 0).flag R.LINE_CTRL_EN = true ∧ (lines 0).fld R.LINE_CTRL_SRC = 0 ∧ (true != (lines 0).line.a) = true ∧
      (true != (lines 0).line.b) = true ∧ (true != (lines 0).line.a) ≠ (false != (lines 0).line.b)) ∧
    ((lines 2).fld R.LINE_CTRL_SRC = 2 ∧ (lines 2).flag R.LINE_CTRL_MASTER = false ∧ 16 ≤ 16 ∧ 15 < 16) ∧
    (lines 0).strobeAt (lines 0).line.strobes ≤ (lines 0).line.top ∧
    (let d := { lines 2 with line := { follow := true }, lead := { copied := 1 } }
     d.fld R.LINE_CTRL_SRC = 2 ∧ d.line.follow = true ∧ d.line.strobes < d.lead.copied) ∧
    (lines 1).fld R.LINE_CTRL_SRC = 1 ∧ (lines 1).internalAt 0 % 2 ^ 32 = (lines 1).internalAt (lines 1).line.strobes % 2 ^ 32 ∧
    (lines 0).lead.copied ≤ (lines 0).line.strobes ∧
    (let d := (((lines 0).setFlag (R.LINE_GSTAT_WAIT 0) true).setFld (R.LINE_GATE_AHEAD 0) 1)
     let lends := ((d.st 0).openMilestones.filter (fun j => j.sd.getLsbD 0)).length
     d.flag (R.LINE_GSTAT_WAIT 0) = true ∧ lends < 2 ^ 16 ∧
       0 < (BitVec.ofNat 16 ((if d.mode = 8 then d.fld R.LINE_STAT_SCNT else 0) + d.fld (R.LINE_GATE_AHEAD 0)) -
        BitVec.ofNat 16 (d.fld (R.LINE_GSTAT_GLINE 0) + lends)).toInt) := by decide +kernel

/-- Source 0xE9, the last that a line drives, without a group; a group's held source; a vector that waits. -/
theorem witness_EventsPendAndClaim :
    ((up 6).domOn 0 = true ∧ sourceHasLine 0xE9 = true ∧ (up 6).sourcePowered 0xE9 = true) ∧
    ((up 6).evc.pend.getLsbD 255 = false ∧ ((up 6).setPend 255 true).evc.pend.getLsbD 255 = true ∧ (up 6).fld (R.EVC_SRC_GROUP 255) = 0 ∧
      ((up 6).srcTargets 255).getLsbD 4 = false ∧ (up 6).fallback 255 ≠ some 4) ∧
    (up 6).Writes (.core 0) .evc (R.EVC_SET 7) 0x80000001 ∧ (up 6).Carries ((up 6).who (.core 1)) 0x04 ∧
    (offered (up 6)).offer 1 = some 0x80 ∧ (up 6).offer 1 = none ∧
    (up 6).Writes (ownerRequester 4) .evc (R.EVC_DONE 4) 0xE9 ∧
    (let d := ((up 6).setAct 0xE9 true).setOwner 0xE9 4
     d.evc.act.getLsbD 0xE9 = true ∧ d.evcOwner 0xE9 = 4 ∧ d.evc.pend.getLsbD 0xE9 = false ∧ (d.setPend 0xE9 true).evc.pend.getLsbD 0xE9 = true ∧
       d.evcHeld 0xE9 = 0 ∧ (d.srcTargets 0xE9).getLsbD 4 = false ∧ d.fallback 0xE9 ≠ some 4 ∧ ¬((up 6).evc.act.getLsbD 0xE9 = true)) ∧
    (let d := ((up 6).setReg (R.EVC_MOD 15) 0x80020001).setCount 15 1
     (15 : BitVec 4) ≠ 0 ∧ d.domOn 0 = true ∧ d.flag (R.EVC_MOD_EN 15) = true ∧ d.fld (R.EVC_MOD_TIMER 15) ≠ 0 ∧ d.evcCount 15 ≠ 0) ∧
    (up 6).Writes (.core 0) .evc (R.EVC_MOD 15) (0x00020001 &&& 0x7FFFFFFF) ∧
    (let d : Dev := { (up 6).setFlag R.HOST_LSTAT_UP true with
        evc := { msix := BitVec.ofNat 64 (2 ^ 63) }, host := { busMaster := true, msixEn := true, msixTab := [(255, 0)] } }
     d.evc.msix.getLsbD 63 = true ∧ d.hostOut = true ∧ d.host.msixEn = true ∧ d.host.msixMask = false ∧ d.msixMasked 63 = false) ∧
    (up 6).Writes (.core 0) .sys R.SYS_CRUN 0x8 := by
  refine ⟨?_, ?_, writes_of 0x04 (by decide +kernel) (by decide +kernel), carries_of (by decide +kernel), ?_, ?_,
    writes_of 0x04 (by decide +kernel) (by decide +kernel), ?_, ?_, writes_of 0x04 (by decide +kernel) (by decide +kernel), ?_,
    writes_of 0x04 (by decide +kernel) (by decide +kernel)⟩ <;> decide +kernel

/-- The last byte of a core's second data memory, from the fabric's node. -/
def lastByte : Packet := ⟨0x0B, 0x2C0, false, false, 0, 0x0F02FFFF, []⟩
/-- Two flits from a 64-byte boundary. -/
def longWrite : Packet := ⟨0x08, 0, false, false, 1, 0x0C010000, List.replicate 128 1⟩
def lost : Packet := { lastByte with addr := 0x18000000 }
def hall16At : Packet := { lastByte with addr := 0x10200000 }

theorem witness_PacketsReachTheirTargets :
    (up 6).ProbesOff ∧ nodeOfAddr (up 6).chipId lastByte.addr.toNat = some 0x03 ∧ (up 6).nodeDead 0x03 = false ∧ (up 6).brState 0x03 = 0 ∧
    (up 6).place 0x0F02FFFF = some (.tcm 0x0F02FFFF) ∧
    (∀ k ∈ [PacketKind.rd, .mrd], (up 6).canRequest 0x0B = true ∧ packetOk k lastByte = true ∧ (up 6).tidOk k lastByte = true) ∧
    (∀ k ∈ [PacketKind.wr, .mwr], packetOk k { lastByte with data := [1] } = true ∧ (up 6).tidOk k lastByte = true) ∧
    (∀ k ∈ [PacketKind.pwr, .swr, .msg], (up 6).canRequest 0x08 = true ∧ packetOk k longWrite = true ∧ (up 6).tidOk k longWrite = true) ∧
    (List.range 128).all (fun i => decide ((up 6).place (0x0C010000 + i) = some (.tcm (0x0C010000 + i)))) = true ∧
    nodeOfAddr (up 6).chipId lost.addr.toNat = none ∧ nodeOfAddr (up 6).chipId hall16At.addr.toNat = some 0x20 ∧
    ((up 6).setReg (R.ROAD_DEAD 1) 1).nodeDead 0x20 = true ∧ hasBridge 0x20 = true ∧
    (∀ n ∈ [3, 5], ((up 6).setBr 0x20 n).brState 0x20 = n ∧ ((up 6).setBr 0x20 n).flag (R.ROAD_BR_AW 0x20) = false) ∧
    (let d := (((up 9).setBr 0x20 3).setFlag (R.ROAD_BR_AW 0x20) true).setReg R.PWR_DSTAT 0x00FFFFFF
     d.flag (R.ROAD_BR_AW 0x20) = true ∧ d.canWake 0x20 = true ∧ d.heldAt 0x20 = [] ∧ ((d.setBr 0x20 4).wakeNode 0x20).ProbesOff) ∧
    (let x : OpenReq := ⟨0, 0, 0x20, false, 4, [], 0x10200000⟩
     let d : Dev := { up 6 with road := { resp := [x] } }
     d.road.resp.find? (fun x => x.tid = 0 && x.mgmt = false) = some x ∧ d.road.sunk.contains 0 = false ∧ x.src ≠ 0x0B ∧ x.status ≠ 0 ∧
       (d.co 0).mode = .run) := by
  refine ⟨probesOff_of (by decide +kernel), ?_, ?_, ?_, ?_, ?_, ?_, ?_, ?_, ?_, ?_, ?_, ?_, ?_, ⟨?_, ?_, ?_, probesOff_of (by decide +kernel)⟩,
    ?_⟩ <;> decide +kernel

/-- A response of two that one node has sent; requesters that are alive and dead. -/
theorem witness_PacketsReachTheirTargets_order :
    let x : OpenReq := ⟨5, 0, 0x20, false, 4, [], 0x10200000⟩
    let d : Dev := { up 6 with road := { resp := [x, { x with tid := 6 }] } }
    d.road.resp.find? (fun y => y.tid = 5 && y.mgmt = false && d.firstResp y) = some x ∧
      d.road.resp.find? (fun y => y.tid = 6 && y.mgmt = false && d.firstResp y) = none ∧ d.nodeDead 0 = false ∧
      (d.declareDead 1).nodeDead 1 = true := by decide +kernel

/-- The markers of every input of router 9 on VC3, and the ejections of all but the last node's last VC. -/
def switching : Dev :=
  let d := ((up 6).setFlag R.ROAD_EPOCH_SW true).setCapture .road []
  { d with road := { d.road with
    markers := (routerInputs (nodeRouter 0x20)).map (fun p => (nodeRouter 0x20, p, 3))
    ejects := ((List.range 132).flatMap (fun i => List.replicate (if i / 4 = 0x06 ∨ i / 4 = 0x09 then 2 else 1) (i / 4, i % 4))).filter
      (· ≠ (0x20, 3)) } }

theorem witness_EpochsAndLinksRun :
    (switching.flag R.ROAD_EPOCH_SW = true ∧ (routerInputs 9).all (fun p => decide ((9, p, 0) ∉ switching.road.markers)) = true ∧
      routerInputs 9 ≠ []) ∧
    ((0x20 : BitVec 6).toNat ≤ 0x20 ∧ switching.road.ejects.count (0x20, 3) = 0 ∧ switching.markerSent 9 2 0 = true ∧
      switching.markerSent 9 6 0 = false ∧ (routerInputs 9).contains 2 = true ∧ (routerInputs 9).contains 6 = true ∧
      (∀ p ∈ routerInputs (nodeRouter 0x20), (nodeRouter 0x20, p, 3) ∈ switching.road.markers) ∧ switching.capture? .road = some []) ∧
    (List.range 0x21).all (fun m => (List.range 4).all (fun v =>
      (switching.road.ejects ++ [(0x20, 3)]).count (m, v) == if m = 0x06 ∨ m = 0x09 then 2 else 1)) = true ∧
    ([(0x20, 3)] : List (Nat × Nat)).count (0, 0) ≠ 1 ∧
    ((up 6).domOn 0 = true ∧ ((up 6).fld R.ROAD_LSTAT_FAIL).testBit 14 = false ∧ (up 6).retries 29 < 3 ∧ ((up 6).setRetries 29 3).retries 29 = 3) := by
  decide +kernel

theorem witness_EpochsAndLinksRun_probes : switching.ProbesOff := probesOff_of (by decide +kernel)

/-- A core that kills itself; a node to which nothing is owed. -/
theorem witness_BridgesAndDeadNodes_self :
    (up 6).Writes (.core 1) .road R.ROAD_KILL 1 ∧ ((up 6).who (.core 1)).node = 1 ∧ (0x20 : Nat) ≠ ((up 6).who (.core 0)).node ∧
    (up 6).owedTo 0x20 = [] ∧ (up 6).owedTo (domNode 24) = [] := by
  refine ⟨writes_of 0x04 (by decide +kernel) (by decide +kernel), ?_⟩
  decide +kernel

theorem witness_BridgesAndDeadNodes :
    hasBridge 0x20 = true ∧ ((up 6).setBr 0x20 2).brState 0x20 = 2 ∧ (up 6).road.resp ++ (up 6).road.waiting = [] ∧ (up 6).domOn 0 = true ∧
    (up 6).brState 0x20 ≠ 3 ∧ (up 6).nodeDead 0x20 = false ∧
    (((up 6).setBr 0x20 5).brState 0x20 = 5 ∧ ((up 6).setBr 0x20 5).nodeAlive 0x20 = true) ∧
    (let d : Dev := { (up 6).setFld R.ROAD_CTRL_TTMO 1 with road := { waiting := [⟨0, 0, 0x0A, false, 0, [], 0⟩] } }
     d.fld R.ROAD_CTRL_TTMO ≠ 0 ∧ (d.road.waiting.any (fun x => x.node = 0x0A)) = true) ∧
    (up 6).Writes (.core 0) .road R.ROAD_KILL 0x20 ∧
    (let d := (up 6).setReg (R.ROAD_DEAD 1) 1
     d.Writes (.core 0) .road (R.ROAD_DEAD 1) (BitVec.ofNat 32 (2 ^ 0)) ∧ d.nodeDead (32 * 1 + 0) = true) := by
  refine ⟨?_, ?_, ?_, ?_, ?_, ?_, ?_, ?_, writes_of 0x04 (by decide +kernel) (by decide +kernel),
    writes_of 0x04 (by decide +kernel) (by decide +kernel), ?_⟩ <;> decide +kernel

/-! The Byway fabric. -/

/-- A signature block in form. -/
def sigBlock : SigBlock := ⟨1793, [], 1, [], true⟩

/-- A full load in a phase, its bitstream at the end of the ordinary gallery or at its start. -/
def loading (p : LoadPhase) (slot src : Nat) : Dev :=
  { (up 6).setReg R.BYW_CFGSRC (BitVec.ofNat 32 src) with byw := { load := some ⟨false, 0, p, slot, sigBlock⟩ }, sec := { verifs := [.fabric] } }

/-- The header of a full bitstream whose first frame names address 1. -/
def fabricHeader : List Byte := leBytes 4 0x4D495A49 ++ leBytes 2 1 ++ [4, 0] ++ leBytes 4 (3136 * 264) ++ leBytes 4 0 ++ leBytes 4 3136 ++
  List.replicate 44 0 ++ [1]

/-- The clause of a load whose frames are all good needs a bitstream of at least 101,376 bytes with their CRCs, which is not written out. -/
theorem witness_FabricLoads :
    (up 6).Writes (.core 0) .byw R.BYW_CFGCMD 1 ∧ (up 6).Writes (.core 0) .byw R.BYW_CFGCMD (BitVec.ofNat 32 (3 + 7 * 8)) ∧
    (up 6).flag R.BYW_CFGSTAT_BUSY = false ∧ ((up 6).setFlag R.BYW_CFGSTAT_BUSY true).flag R.BYW_CFGSTAT_BUSY = true ∧ (up 6).mode ≠ 8 ∧
    (up 6).anyQueue = false ∧ ((up 6).setFlag (R.BYW_QCFG_EN 47) true).regionQueue 7 = true ∧
    ((up 6).regionQueue 7 || (up 6).flag R.BYW_CAPSTAT_ARMED) = false ∧ (up 6).flag R.BYW_CFGSTAT_DONE = false ∧
    ((up 6).setFlag R.BYW_CFGSTAT_DONE true).flag R.BYW_CFGSTAT_DONE = true ∧
    (loading .reading 0 0x41700000).streamOff 0 64 = none ∧ (loading .reading 0 0x416FFFC0).streamOff 0 64 = some 0x16FFFC0 ∧
    ((loading .reading 0 0x40000000).galRead 0 64).2.1 = false ∧
    (({ loading .reading 0 0x40000000 with galErr := [(7, 3)] } : Dev).galRead 0 64).2.1 = true ∧
    ((loading .reading 0 0x40000000).galRead 0 64).2.2.headerMatches ⟨false, 0, .reading, 0, sigBlock⟩
      (parseHeader ((loading .reading 0 0x40000000).galRead 0 64).1) = false ∧
    (∀ k ∈ [0, 7], (loading .verifying k 0).byw.load.map (·.phase) = some .verifying) ∧
    (loading .verifying 0 0).verifyFirst .fabric = true ∧ (loading .verifying 0 0).verifyEnd.keyOk 4 0 = false ∧
    (loading .verifying 7 0).verifyEnd.keyOk 4 7 = true ∧
    sigBlock.ok = true ∧ SigBlock.ok {} = false ∧ (loading .starting 7 0).byw.load = some ⟨false, 0, .starting, 7, sigBlock⟩ := by
  refine ⟨writes_of 0x0B (by decide +kernel) (by decide +kernel), writes_of 0x0B (by decide +kernel) (by decide +kernel), ?_⟩
  decide +kernel

/-- A load ends at the first frame that is wrong. -/
theorem readFrames_error {d e : Dev} {p : Nat × Nat} {c : Nat} (l : List (Nat × Nat)) (h : d.readFrame [] p.1 p.2 = (.error c, e)) :
    d.readFrames (p :: l) = (.error c, e) := by
  have stays : ∀ l : List (Nat × Nat), l.foldl (fun (r : Except Nat (List (List Byte)) × Dev) p => match r.1 with
      | .error _ => r
      | .ok seen => r.2.readFrame seen p.1 p.2) (.error c, e) = (.error c, e) := by
    intro l
    induction l with
    | nil => rfl
    | cons _ _ ih => exact ih
  simp only [Dev.readFrames, List.foldl_cons, h]
  exact stays l

def headed : List Byte × Bool × Dev := ((loading .reading 0 0x40000000).setBytes 0x40000000 fabricHeader).galRead 0 64

theorem witness_FabricLoads_frame :
    headed.2.1 = false ∧ headed.2.2.headerMatches ⟨false, 0, .reading, 0, sigBlock⟩ (parseHeader headed.1) = true ∧
      ∃ e, headed.2.2.readFrames ((FabricLoad.addrs ⟨false, 0, .reading, 0, sigBlock⟩).mapIdx (fun i a => (i, a))) = (.error 4, e) := by
  refine ⟨by decide +kernel, by decide +kernel, ?_⟩
  have ha : FabricLoad.addrs ⟨false, 0, .reading, 0, sigBlock⟩ = List.range 3136 := by simp only [FabricLoad.addrs, Bool.false_eq_true, if_false]
  have h : (match (headed.2.2.readFrame [] 0 0).1 with
    | .error c => c
    | .ok _ => 0) = 4 := by decide +kernel
  generalize headed.2.2 = d at h
  rw [ha, show (3136 : Nat) = 3135 + 1 from rfl, List.range_succ_eq_map, List.mapIdx_cons]
  cases hx : d.readFrame [] 0 0 with
  | mk x e =>
    rw [hx] at h
    cases x with
    | error c => cases h; exact ⟨e, readFrames_error _ hx⟩
    | ok _ => cases h

/-- Queue 47 serves one position of a line that has been copied, its tree and that of a capture running. -/
def feed (x : BywQueue) : Dev :=
  let d := ((((up 8).setReg (R.BYW_QCFG 47) 0x80000000).setReg R.BYW_QPLANB 0x10000).setReg R.BYW_QPLAN 1).setReg (R.BYW_HMAP 1) 0xBC000001
  { d.setFlag (R.BYW_CLK_EN 0) true with lead := { copied := 1 } }.setBq 47 x

theorem witness_FabricServesItsLogic :
    ((feed {}).queueOn 47 = true ∧ ((feed {}).bq 47).line = none ∧ ((feed {}).bq 47).next < (feed {}).lead.copied ∧
      ((feed {}).bq 47).next ∉ (feed {}).lead.late ∧ (feed {}).queueEntries 47 ≠ []) ∧
    (0 ∈ ({ feed {} with lead := { copied := 1, late := [0] } } : Dev).lead.late) ∧
    (let d := feed { line := some 0 }
     (d.bq 47).line = some 0 ∧ (d.bq 47).blank = false ∧ (d.queuePositions 47).drop (d.bq 47).pos = [(0, true)] ∧
       (d.takeCodes 47 { (d.bq 47) with blocks := [(0, (d.codeBlock 0).2, (d.galRead (d.slotOff 0 + (d.codeBlock 0).2) 64).1)] }
         [(0, true)]).fifo.length ≤ 1024 ∧ (d.codeBlock 0).1 = 0) ∧
    (((feed { blank := true }).bq 47).blank = true ∧
      (feed { blank := true }).treeRuns ((feed { blank := true }).fld (R.BYW_QCFG_QCLK 47)) = true) ∧
    ((up 6).reg R.BYW_CAPCTL).getLsbD 30 = false ∧ ((up 6).reg R.BYW_CAPCTL).getLsbD 31 = false ∧
    (∀ n ∈ [30, 31], (up 6).Writes (.core 0) .byw R.BYW_CAPCTL (setBit ((up 6).reg R.BYW_CAPCTL) n true)) ∧
    (∀ k ∈ [0, 1, 2], let d := ((feed {}).setFlag R.BYW_CAPSTAT_ARMED true).setFld R.BYW_CAPCTL_TRIG k
     let d := d.modByw (fun b => { b with struck := true })
     d.flag R.BYW_CAPSTAT_ARMED = true ∧ d.treeRuns (d.fld R.BYW_CAPCTL_CLK) = true ∧ d.fld R.BYW_CAPCTL_TRIG = k ∧ d.byw.struck = true) ∧
    ((up 6).Carries ((up 6).who .host) 0x0B ∧ ¬(up 6).debugLevel < levelNeeded ((up 6).who .host) .byw R.BYW_RBDATA ∧
      ({ up 6 with byw := { capture := [7] } } : Dev).byw.capture[(up 6).fld R.BYW_RBADDR_WORD]? = some 7) ∧
    (let d := (up 6).setFld R.BYW_RGNCTL_RUN 0x80
     d.domOn 1 = true ∧ d.fld R.BYW_RGNCTL_RUN ≠ 0 ∧ d.canRequest 0x0B = true ∧
       d.tidOk .rd { lastByte with src := 0x0B, sys := false, sec := false } = true ∧ lastByte.data = []) := by
  refine ⟨?_, ?_, ?_, ?_, ?_, ?_, ?_, ?_, ⟨carries_of (by decide +kernel), ?_, ?_⟩, ?_⟩
  case refine_7 =>
    intro n h
    simp only [List.mem_cons, List.not_mem_nil, or_false] at h
    rcases h with rfl | rfl <;> exact writes_of 0x0B (by decide +kernel) (by decide +kernel)
  all_goals decide +kernel

/-! The host interface. -/

/-- A part whose host link is up and may write; a register changed. -/
def linked (d : Dev) : Dev := { d.setFlag R.HOST_LSTAT_UP true with host := { busMaster := true } }

theorem witness_HostAccessesAndResets :
    ((linked (up 6)).hostIn = true ∧ (up 6).hostIn = false) ∧ (linked (up 6)).Carries hostWho 0x06 ∧
    (let o := 0x16FFFFF
     0 < 1 ∧ o % 64 + 1 ≤ 64 ∧ o + 1 ≤ 0x2000000 ∧ (linked (up 6)).galleryOpen hostWho o 1 = true ∧ (linked (up 6)).underMarch o 1 = false ∧
       ((linked (up 6)).galRead o 1).2.1 = false ∧ ((linked (up 6)).galWrite true o [0xFF]).1 = false ∧ (linked (up 6)).canRequest 0x08 = true ∧
       (linked (up 6)).nodeDead 0x06 = false) ∧
    (linked (up 6)).ProbesOff ∧ (0x3FFF + 1 ≤ 0x4000 ∧ 0x3FC % 4 = 0 ∧ 0x3FC < 0x400) ∧
    barAddr 2 0x2000000 = none ∧ barAddr 5 0 = none ∧
    (let x : OpenReq := ⟨0xFFF, 0, 0x08, false, 0, [], 0⟩
     ({ up 6 with road := { waiting := [x] } } : Dev).road.waiting.find? (fun x => x.node = 0x08 && x.tid = 0xFFF) = some x) ∧
    (up 6).domOn 2 = true ∧ (linked (up 6)).flag R.HOST_LSTAT_UP = true := by
  refine ⟨?_, carries_of (by decide +kernel), ?_, probesOff_of (by decide +kernel), ?_⟩ <;> decide +kernel

def entry (opc : Byte) (len : BitVec 32) (raddr : BitVec 40) : Sqe := ⟨opc, false, 1, 0x1000, raddr, len, [1, 15]⟩

/-- Queue 15 of two entries with one submitted, or with a command in progress. -/
def queued : Dev := ((linked (up 6)).setReg (R.HOST_QCFG 15) 0x80000001).setReg (R.HOST_QSQT 15) 1
def running (fw : Bool) (e : Sqe) : Dev := (linked (up 6)).setHostQ 15 { cmd := some ⟨e, 0, fw⟩ }

theorem witness_HostQueuesRun :
    (∀ n ∈ [R.HOST_QSQT 15, R.HOST_QCQH 15], (up 6).Writes .host .host n 1) ∧
    queued.nextQueue = some 15 ∧ queued.queueFetches 15 = true ∧ (entry 1 64 0).fence = false ∧
    ((queued.setFld R.PWR_MSTAT_MODE 3).mode = 3 ∧ (queued.setFld R.PWR_MSTAT_MODE 3).queueFetches 15 = true) ∧ queued.mode ≠ 3 ∧
    firmwareOpc 1 = false ∧ firmwareOpc 0x10 = true ∧
    (match (queued.setHostQ 15 { cmd := some ⟨entry 0x10 0 0, 0, false⟩ }).write hostWho
        (0x40000000 + queued.fld R.HOST_MBOX_BASE * 4096 + 64 * 15) (Sqe.bytes (entry 0x10 0 0)) with
      | .answered st _ _ => st
      | .wait _ => 15) = 0 ∧
    (∀ o ∈ [1, 2, 3], (running false (entry o 64 0x0C000000)).nextQueue = some 15) ∧
    (running true (entry 0x10 0 0)).Writes (.core 0) .host (R.HOST_FWDC 15)
      (setBit ((running true (entry 0x10 0 0)).reg (R.HOST_FWDC 15)) 31 true) := by
  refine ⟨?_, ?_, ?_, ?_, ?_, ?_, ?_, ?_, ?_, ?_, writes_of 0x08 (by decide +kernel) (by decide +kernel)⟩
  case refine_1 =>
    intro n h
    simp only [List.mem_cons, List.not_mem_nil, or_false] at h
    rcases h with rfl | rfl <;> exact writes_of 0x08 (by decide +kernel) (by decide +kernel)
  all_goals decide +kernel

/-- What a write ends with, when it is answered OK. -/
def wroteOk (x : Done (List Byte)) : Bool := match x with
  | .answered st _ _ => st = 0
  | .wait _ => false

theorem witness_FirmwareCommandsRun :
    (∀ o ∈ [0x10, 0x11, 0x20, 0x21, 0x22, 0x23, 0x24], ((running true (entry o 0 0)).hostQ 15).cmd.map (fun c => (c.e.opc, c.fw)) = some (o, true)) ∧
    (let p : PlanData := ⟨96000000, 0, 0, 2, true, 0, 1, 1, [(0, 1)], false, 0, 0⟩
     p.lead < (96000000 + p.period - 1) / p.period + 2 ∧ ({ p with lead := 3 } : PlanData).lead = 3 ∧ headsBad p = false ∧
       headsBad { p with heads := [(1, 1)] } = true ∧ 2 * (p.spanTime : Int) ≤ p.period - p.work ∧ (p.period : Int) - 96000000 < 2 * (1 : Int) ∧
       (1 : BitVec 16) &&& ~~~(up 6).arr.verified ≠ 0 ∧ (0 : BitVec 16) &&& ~~~(up 6).arr.verified = 0) ∧
    (let d := running true (entry 0x11 0 0)
     (((d.setFlag R.PWR_MSTAT_REF false).modeRequest 0 9).flag R.PWR_MSTAT_REF = false) ∧
       ((d.setFlag R.PWR_MSTAT_REF false).modeRequest 0 8).flag R.PWR_MSTAT_REF = true) ∧
    (let d := running true (entry 0x20 8 0x0C000000)
     let x := d.sweepRead fwWho 0x0C000000 8
     x.1.stuck = false ∧ x.1.st = 0 ∧ (x.2.sweepWrite fwWho (0x20000000 + 0x10000) x.1.data).1.stuck = false ∧
       (d.sweepRead fwWho 0x18000000 8).1.st ≠ 0) ∧
    (3392 : BitVec 32).toNat = 3392 ∧ (15 : Fin 16) ∉ (up 6).sec.sign ∧ ((up 6).setFld R.SEC_STAT_SSTEP 120).fld R.SEC_STAT_SSTEP = 120 ∧
    (let d := running true (entry 0x22 0 0)
     wroteOk ((d.setFlag R.SEQ_HIMGCMD_ERR false).write fwWho R.SEQ_HIMGCMD (leBytes 4 (2 ^ 31 + 1 * 2 ^ 8 + 15))) = true) ∧
    (∀ a ∈ [(R.BYW_CFGSRC, 0x40000000), (R.BYW_CFGCMD, 1), (R.SEQ_PLDSRC, 0x40000000), (R.SEQ_PLDCMD, 3)],
      wroteOk ((running true (entry 0x23 0 0x40000000)).write fwWho a.1 (leBytes 4 a.2)) = true) := by decide +kernel

/-! DRAM, Ramufin, gallery DMA. -/

def port (p : Fin 4) (f : LinkState → LinkState) : Dev :=
  let d := ((((up 8).setFlag (R.LINK_PSTAT_UP p.val) true).setFlag (R.LINK_PCFG_EDGE p.val) true).setFlag (R.LINK_PSTAT_PEDGE p.val) true)
  { d.setFlag (R.LINK_PCFG_EN p.val) true with link := f {} }

theorem witness_LinksAndDramRun :
    (∀ x ∈ [DdrPhase.training, .waitPg, .waitFall], ({ up 6 with ddr := x } : Dev).ddr = x) ∧ (up 6).domOn 3 = true ∧
    (let d := port 3 (fun l => { l with training := 8 })
     d.portTrains 3 = true ∧ d.xtbRef = false ∧ (let e : Dev := { d with pow := { d.pow with straps := some ⟨0, 0, 0, false, 0, true, 0⟩ } }
       e.portTrains 3 = true ∧ e.xtbRef = true)) ∧ (port 3 id).edgeOpen 3 = true ∧ (port 3 id).portUp 3 = true ∧
    ¬(0x2000000000 ≤ (0x2800000000 : Nat) ∧ (0x2800000000 : Nat) < 0x2800000000) ∧
    (0x20FFFFFFFF - 0x2000000000) / 0x100000000 = (port 3 id).chipId ∧ (0x27FFFFFFFF - 0x2000000000) / 0x100000000 ≠ (port 3 id).chipId ∧
    (let x : OpenReq := ⟨0, 0, 0x0A, false, 0, [], 0⟩
     ({ port 3 id with road := { waiting := [x] } } : Dev).road.waiting.find? (fun x => x.node = 0x0A && x.tid = 0) = some x) ∧
    (port 3 id).link.fails[3] ≠ 8 ∧ (port 3 (fun l => { l with fails := Vector.replicate 4 8 })).link.fails[3] = 8 ∧
    (let d := ((port 2 id).setReg R.SEQ_EDGE 0x8).setFld R.LINK_EWAIT_LIM 1
     let d := d.setHq 15 { run := some ⟨0x22, 1, 0, 0, 0, 5, 1, false⟩ }
     d.domOn 4 = true ∧ d.fld R.LINK_EWAIT_LIM ≠ 0 ∧ d.waitsAt 2 0 = true) := by decide +kernel

/-- 64 bytes from core 0's first data memory to core 1's. -/
def copying : Dev :=
  ((((up 6).setFlag (R.GAL_DMACTL_BUSY 7) true).setReg (R.GAL_DMASRC 7) 0x0C010000).setReg (R.GAL_DMADST 7) 0x0D02FFC0).setFld
    (R.GAL_DMACTL_LEN64 7) 1

theorem witness_DmaCopies :
    (up 6).Writes (.core 0) .gal (R.GAL_DMACTL 7) 0x80000001 ∧ (up 6).flag (R.GAL_DMACTL_BUSY 7) = false ∧
    copying.flag (R.GAL_DMACTL_BUSY 7) = true ∧ copying.dmaSrc 7 = 0x0C010000 ∧ copying.dmaDst 7 = 0x0D02FFC0 ∧
    copying.fld (R.GAL_DMACTL_LEN64 7) = 1 ∧ 0x0C010000 + 64 * 1 ≤ 0x0D02FFC0 ∧
    (List.range 64).all (fun i => decide (nodeOfAddr copying.chipId (0x0C010000 + i) = some 0 ∧
      copying.place (0x0C010000 + i) = some (.tcm (0x0C010000 + i)) ∧ nodeOfAddr copying.chipId (0x0D02FFC0 + i) = some 1 ∧
      copying.place (0x0D02FFC0 + i) = some (.tcm (0x0D02FFC0 + i)))) = true ∧
    copying.Carries (copying.who (.dma 7)) 0 ∧ copying.Carries (copying.who (.dma 7)) 1 := by
  refine ⟨writes_of 0x04 (by decide +kernel) (by decide +kernel), ?_, ?_, ?_, ?_, ?_, ?_, ?_, carries_of (by decide +kernel),
    carries_of (by decide +kernel)⟩ <;> decide +kernel

/-! Supplies, clocks, modes. -/

/-- The part in RAMP with only AON. -/
def ramping (f : PowerState → PowerState) : Dev := { State.reset.dev with pow := f {} }
def straps0 : Straps := ⟨0, 0, 0, false, 0, false, 0⟩

theorem witness_PowerRuns :
    (State.reset.dev.setFld R.PWR_MSTAT_MODE 0).mode = 0 ∧ (up 6).mode ≠ 0 ∧ (up 6).aonOn = true ∧ 3799 < 3800 ∧ 22000 < 22001 ∧ (up 6).mode ≠ 4 ∧
    ((up 4).mode = 4 ∧ ({ (up 4) with pow := { fromStandby := true } } : Dev).pow.fromStandby = true) ∧
    ((State.reset.dev.setFld R.PWR_MSTAT_MODE 0).pow.vinOut = false ∧ (State.reset.dev.setFld R.PWR_MSTAT_MODE 0).pow.off ≠ some .thermal) ∧
    (up 9).Writes (.core 0) .pwr R.PWR_DREQ 0x01FFFFFF ∧ 24 ∈ seqDomains ∧ (up 9).pow.rising.getLsbD 24 = false ∧
    (up 9).pow.falling.getLsbD 24 = false ∧
    (let d : Dev := { up 9 with pow := { rising := BitVec.ofNat 25 (2 ^ 24), started := BitVec.ofNat 25 (2 ^ 24) } }
     d.pow.rising.getLsbD 24 = true ∧ d.pow.started.getLsbD 24 = true ∧ d.beforeStep6 = false) ∧
    (let d : Dev := { (up 9).setBr 0x20 3 with pow := { falling := BitVec.ofNat 25 (2 ^ 24) } }
     d.pow.falling.getLsbD 24 = true ∧ d.isolated 24 = true) ∧
    (up 9).monitored 24 = true ∧ (up 9).monitored 0 = true ∧ (up 9).monitored 5 = true ∧
    ((up 9).setFld R.CLK_STAT_LOCK 4).fld R.CLK_STAT_LOCK = 4 ∧
    ((ramping id).mode = 1 ∧ (ramping id).pow.aonGood = false ∧ (ramping id).pow.resetLow = false ∧ (ramping id).pow.vmidGood = false) ∧
    (∀ x : Bool, (ramping (fun p => { p with aonGood := true, xtaDone := x })).pow.xtaDone = x) ∧
    ([(880 : BitVec 16)] : List (BitVec 16)).length ≤ 18 ∧ (879 : BitVec 16).toInt < 880 ∧ 880 ≤ (880 : BitVec 16).toInt ∧
    (959 : BitVec 16).toInt < 960 ∧ 960 ≤ (960 : BitVec 16).toInt := by
  refine ⟨?_, ?_, ?_, ?_, ?_, ?_, ?_, ?_, writes_of 0x05 (by decide +kernel) (by decide +kernel), ?_⟩ <;> decide +kernel

theorem witness_ClocksRun :
    (let d := ramping (fun p => { p with aonGood := true, straps := some straps0 })
     d.mode = 1 ∧ d.pow.aonGood = true ∧ d.pow.xtaDone = false ∧ d.pow.vmidGood = false ∧ d.pow.straps = some straps0 ∧
       d.pow.fromStandby = false ∧ d.flag R.CLK_STAT_XBOK = false) ∧
    (let d := (up 6).setFlag R.CLK_STAT_XAOK true
     d.flag R.CLK_STAT_XAOK = true ∧ d.beforeStep6 = false) ∧
    (let d := ((up 6).setFlag R.CLK_STAT_XAOK true).setFlag (R.CLK_PLL_EN 3) true
     d.domOn 0 = true ∧ d.flag (R.CLK_PLL_EN 3) = true ∧ (d.fld R.CLK_STAT_LOCK).testBit 3 = false ∧ d.refOk = true ∧ (3 : Fin 4) ≠ 2 ∧
       d.beforeStep6 = false ∧ d.mode ≠ 5) ∧
    (((up 6).setFlag (R.CLK_PLL_EN 2) true).flag (R.CLK_PLL_EN 2) = true ∧ (up 6).domOn (8 + 16) = true) ∧
    (((up 6).setFld R.CLK_STAT_LOCK 8).fld R.CLK_STAT_LOCK).testBit 3 = true ∧
    (up 6).Writes (.core 0) .clk R.CLK_FMCTL 0x80000018 ∧ ((up 6).setFlag R.CLK_FMCTL_BUSY true).flag R.CLK_FMCTL_BUSY = true := by
  refine ⟨?_, ?_, ?_, ?_, ?_, writes_of 0x04 (by decide +kernel) (by decide +kernel), ?_⟩ <;> decide +kernel

theorem witness_ModesRun :
    (∀ d ∈ [up 6, up 0xA], d.Writes (.core 0) .pwr R.PWR_MREQ (BitVec.ofNat 32 (2 ^ 31 + 9))) ∧ (up 0xA).mode = 0xA ∧ (up 6).mode ≠ 0xA ∧
    (up 6).mode ≠ 0xB ∧ (up 6).flag R.PWR_MSTAT_BUSY = false ∧ ((up 6).setFlag R.PWR_MSTAT_BUSY true).flag R.PWR_MSTAT_BUSY = true ∧
    ((6 : Nat), (8 : Nat)) ∉ [(2, 6), (6, 7), (7, 8), (8, 7), (7, 6), (9, 6), (6, 9), (7, 9), (6, 5), (6, 4)] ∧
    (up 6).modeReady 0 6 7 = false ∧ (up 6).modeReady 0 6 9 = true ∧ (up 6).test = none ∧
    (let d := ((up 7).setFlag R.PWR_MSTAT_BUSY true).setFld R.PWR_MSTAT_TO 8
     d.transitionReady = true ∧ d.fld R.PWR_MSTAT_TO ≠ 4 ∧ d.fld R.PWR_MSTAT_TO ≠ 5 ∧ d.pow.haltReq = 0) ∧
    (let d := ((up 5).setReg R.PWR_DSTAT 0x40).setReg R.PWR_WAKE 0xE0000000
     d.flag R.PWR_MSTAT_BUSY = false ∧ d.mode = 5 ∧ d.flag R.PWR_WAKE_PIN = true ∧ d.flag R.PWR_WAKE_ALRM = true ∧ d.flag R.PWR_WAKE_HOST = true ∧
       d.domOn 0 = false) ∧
    (up 4).mode = 4 ∧ (up 2).Writes .host .pwr R.PWR_BOOTADR 0x80000000 ∧
    (({ up 2 with pow := { boot := some .wait } } : Dev).pow.boot = some .wait) ∧ (up 6).Writes (.core 0) .pwr R.PWR_RST 0x80000000 ∧
    ((up 9).setFlag R.PWR_WDOG_EN true).flag R.PWR_WDOG_EN = true ∧ (up 9).mode ∈ [2, 6, 7, 8, 9] ∧ (up 9).pow.wdogOnce = false ∧
    (up 9).Writes (.core 0) .pwr R.PWR_WKICK 0x6517 := by
  refine ⟨?_, ?_, ?_, ?_, ?_, ?_, ?_, ?_, ?_, ?_, ?_, ?_, ?_, writes_of 0x05 (by decide +kernel) (by decide +kernel), ?_,
    writes_of 0x05 (by decide +kernel) (by decide +kernel), ?_, ?_, ?_, writes_of 0x05 (by decide +kernel) (by decide +kernel)⟩
  case refine_1 =>
    intro d h
    simp only [List.mem_cons, List.not_mem_nil, or_false] at h
    rcases h with rfl | rfl <;> exact writes_of 0x05 (by decide +kernel) (by decide +kernel)
  all_goals decide +kernel

/-! Security, debug, test. -/

def inLife (mode n : Nat) : Dev := (up mode).setFld R.SEC_LCS_LCS n

/-- A firmware image of 8 bytes under the key of slot 7. -/
def firmware : Dev :=
  { (((up 2).setBytes 0x20000000 (leBytes 4 0x4D495A49 ++ leBytes 2 1 ++ [1, 7] ++ leBytes 4 8)).setBytes 0x20000048
      (leBytes 2 1793)).setBytes (0x2000004A + 1793) (leBytes 2 1) with pow := { boot := some (.image 0) }, sec := { verifs := [.boot] } }

theorem witness_SecurityRuns :
    (let d : Dev := { up 6 with sec := { sign := [15], derive := 499 } }
     d.sec.sign ≠ [] ∧ d.sec.serve = false ∧ ({ d with sec := { d.sec with serve := true } } : Dev).sec.sign ≠ [] ∧ d.flag R.SEC_STAT_KEYRDY = false ∧ 499 ≤ d.sec.derive ∧ ((up 6).setFlag R.SEC_STAT_KEYRDY true).flag R.SEC_STAT_KEYRDY = true ∧
       ((up 6).setFld R.SEC_STAT_SSTEP 119).fld R.SEC_STAT_SSTEP = 119) ∧
    (let d : Dev := { up 6 with sec := { burn := some 1 } }
     d.sec.burn = some 1 ∧ d.pow.boot ≠ some .revocation) ∧
    (2 ≤ (inLife 2 2).mode ∧ (inLife 2 2).mode ≠ 0xB ∧ (inLife 2 2).lcs = 2 ∧ (2 : Fin 5).val < 3 ∧
      (((up 6).setFld R.PWR_TAMPEN_EN 0x10).fld R.PWR_TAMPEN_EN).testBit 4 = true) ∧
    (firmware.pow.boot = some (.image 0) ∧ firmware.bootAddr (.image 0) = some 0x20000000 ∧ firmware.mode = 2 ∧
      firmware.verifyFirst .boot = true ∧ firmware.verifyEnd.imageOk 0x20000000 = true ∧ (up 2).verifyEnd.imageOk 0x20000000 = false) := by decide +kernel

/-- A token for level FULL under slot 4 in RETURNED, and one that no slot may give. -/
def token (lvl : BitVec 2) : Dev := { inLife 6 3 with sec := { tokReq := some (lvl, 4), verifs := [.token] } }

/-- In BOOT once core 0 has given up the secure attribute. -/
def noSec : Dev := (up 2).modCo 0 (fun k => { k with sr := 0xA0000000 })

theorem witness_DebugRuns :
    (((up 6).reg R.DBG_TOKCMD).getLsbD 31 = false ∧ ((up 6).reg R.DBG_TOKCMD).getLsbD 30 = false ∧ (up 6).canRequest ((up 6).who .host).node = true ∧
      (up 6).writeRefused ((up 6).who .host) .dbg R.DBG_TOKCMD (setBit ((up 6).reg R.DBG_TOKCMD) 30 true) = false ∧ (up 6).sec.blocked = false ∧
      (up 6).mode ≠ 3 ∧ (up 6).mode ≠ 0xB) ∧
    (up 6).Writes .host .dbg R.DBG_TOKCMD (setBit ((up 6).reg R.DBG_TOKCMD) 31 true) ∧ (up 6).flag R.DBG_STAT_TOKBUSY = false ∧
    ({ inLife 6 3 with regs := (R.SEC_KEYS, 0x10) :: (inLife 6 3).regs } : Dev).slotValid 4 = true ∧ tokenAllowed 3 4 2 = true ∧
    ((token 2).sec.tokReq = some (2, 4) ∧ (token 2).verifyFirst .token = true) ∧ tokenAllowed 3 4 0 = false ∧
    (∀ m ∈ [1, 0x80000000], (up 6).Writes .dbg .dbg R.DBG_HALT m) ∧ (1 : BitVec 4) ≠ 0 ∧ 6 ≤ (up 6).mode ∧ (up 9).mode ≤ 9 ∧
    (up 6).flag R.PWR_MSTAT_BUSY = false ∧ ((up 6).co 3).mode ≠ .reset ∧ (up 6).ownsStream 0 = true ∧ ((up 6).st 0).held = none ∧
    noSec.mode = 2 ∧ noSec.Writes .dbg .dbg R.DBG_HALT 1 ∧
    ((up 0xA).Writes .dbg .dbg R.DBG_HALT 0x80000000 ∧ (up 0xA).mode = 0xA ∧ ({ up 0xA with pow := { haltFrom := 9 } } : Dev).pow.haltFrom < 16) ∧
    (let d := (up 6).setReg R.DBG_MADDR 0x0F02FFFC
     d.canRequest (d.who .host).node = true ∧ 2 ≤ d.debugLevel ∧ d.Carries ⟨0x0F, true, false⟩ 3 ∧ d.Carries (d.who .host) 0x04 ∧
       (List.range 4).all (fun i => decide (nodeOfAddr d.chipId (d.memPortAddr + i) = some 3 ∧
         d.place (d.memPortAddr + i) = some (.tcm (d.memPortAddr + i)))) = true ∧ d.road.asked = []) := by
  refine ⟨?_, writes_of 0x04 (by decide +kernel) (by decide +kernel), ?_, ?_, ?_, ?_, ?_, ?_, ?_, ?_, ?_, ?_, ?_, ?_, ?_, ?_,
    writes_of 0x04 (by decide +kernel) (by decide +kernel), ⟨writes_of 0x04 (by decide +kernel) (by decide +kernel), ?_⟩,
    ?_, ?_, carries_of (by decide +kernel), carries_of (by decide +kernel), ?_⟩
  case refine_7 =>
    intro m h
    simp only [List.mem_cons, List.not_mem_nil, or_false] at h
    rcases h with rfl | rfl <;> exact writes_of 0x04 (by decide +kernel) (by decide +kernel)
  all_goals decide +kernel

/-- Waymark unit 15 watches source 15, element 31, with a window of one strobe. -/
def watching : Dev := ((up 9).setReg (R.WAY_CFG 15) 0xFFC00000).setReg (R.WAY_STEP 15) 0x00010001

/-- A token with its signature block in form; no answer is awaited. -/
theorem witness_DebugRuns_block :
    ({ token 2 with sec := { (token 2).sec with tok := [(0, 1793), (448, BitVec.ofNat 32 (2 ^ 24))] } } : Dev).tokenBlock.ok = true ∧
      (token 2).tokenBlock.ok = false ∧ (up 6).road.asked = [] := by decide +kernel

theorem witness_WaymarksAndTestsRun :
    watching.domOn 0 = true ∧ (watching.fld (R.WAY_CFG_SRC 15) = (15 : BitVec 4).toNat ∧ watching.fld (R.WAY_CFG_SEL 15) = (31 : BitVec 5).toNat ∧
      watching.wayTakes 15 = true) ∧
    (let d : Dev := { watching with way := watching.way.set 15 { strobes := 1, nsamp := 1 } }
     d.flag (R.WAY_CFG_EN 15) = true ∧ d.fld (R.WAY_STEP_WIN 15) ≠ 0 ∧ d.flag (R.WAY_CTL_STOP 15) = false ∧
       d.fld (R.WAY_STEP_WIN 15) ≤ (d.way[15]).strobes ∧ (d.way[15]).nsamp ≠ 0) ∧
    (∀ v ∈ [(0x40000000 : Word), 0x80000000], watching.Writes (.core 0) .way (R.WAY_CTL 15) v) ∧
    (inLife 9 1).Writes (.core 0) .test R.TEST_BCMD (BitVec.ofNat 32 (2 ^ 31 + 3 * 2 ^ 28 + 0x10000)) ∧
    (up 6).testRefusal 3 0x10000 ≠ none ∧ (inLife 9 1).testRefusal 4 0 = none ∧ (inLife 9 1).pow.testReq = none ∧
    (∀ t ∈ [(1 : BitVec 3), 2, 3, 4], ({ up 9 with test := some (t, 0x1FFFF) } : Dev).test = some (t, 0x1FFFF)) ∧
    (up 9).Writes (.core 0) .test R.TEST_FUSE 0x80000000 ∧ (inLife 9 1).lcs = 1 ∧
    ((inLife 9 1).setFlag R.TEST_FUSE_BUSY true).flag R.TEST_FUSE_BUSY = true ∧
    319 ∈ ((up 9).setReg (R.GAL_RPR 319) 0x80000B00).burnable := by
  refine ⟨?_, ?_, ?_, ?_, writes_of 0x04 (by decide +kernel) (by decide +kernel), ?_, ?_, ?_, ?_,
    writes_of 0x04 (by decide +kernel) (by decide +kernel), ?_⟩
  case refine_4 =>
    intro v h
    simp only [List.mem_cons, List.not_mem_nil, or_false] at h
    rcases h with rfl | rfl <;> exact writes_of 0x04 (by decide +kernel) (by decide +kernel)
  all_goals decide +kernel

/-- An access through DBGACC is answered. -/
theorem witness_TapRuns :
    wroteOk ((up 6).write ⟨0x0F, false, false⟩ (blockBase .dbg + 0) (leBytes 4 0)) = true ∧
    (match (up 6).read ⟨0x0F, false, false⟩ (blockBase .test + 0xFFFC) 4 with
      | .answered st _ _ => st
      | .wait _ => 15) = 0 := by decide +kernel

/-! Steps, and the state after reset. -/

/-- The state after reset meets the premises of the statements about every step. -/
theorem witness_EveryStepGoesOn : State.reset.dev.fatal = none := rfl
theorem witness_MemoryStaysCanonical :
    Memory.wf (State.reset.dev.setByte 0x41000000 1).mem ∧ ∃ t, step ⟨State.reset.dev.setByte 0x41000000 1, []⟩ = .next t :=
  ⟨wf_setByte wf_reset, _, rfl⟩

end Sys2Proof.Tests
end

section
/-! The application of a change of SPLIT (R171, R172, R212): it clears every hall's fault history, which the statement of COMMIT leaves out. -/

namespace Sys2Proof.Machine

/-- What one element's application brings about and every application keeps, holds after the whole. -/
theorem forEach_reaches {σ β : Type} {P : σ → Prop} {l : List β} {b : β} {f : σ → β → σ} (hb : b ∈ l) (hf : ∀ s, P (f s b))
    (hk : ∀ s c, P s → P (f s c)) (s : σ) : P (forEach l s f) := by
  induction l generalizing s with
  | nil => cases hb
  | cons c l ih =>
    rcases List.mem_cons.mp hb with rfl | hb
    · exact forEach_keeps l hk (hf s)
    · exact ih hb (f s c)

theorem reg_setReg_zero {d : Dev} {a b : Nat} (h : d.reg a = 0) : (d.setReg b 0).reg a = 0 := by
  by_cases hab : a = b
  · rw [hab, reg_setReg_same]
  · rw [reg_setReg_ne d 0 hab, h]

/-- R212: every entry of every hall's fault history cleared. -/
def Dev.clearHistories (d : Dev) : Dev :=
  forEach (List.range 17) d (fun d h => forEach (List.range 4) d (fun d k => d.setReg (R.HALL_FHIST h k) 0))

theorem reg_clearHistories (d : Dev) {h k : Nat} (hh : h < 17) (hk : k < 4) : d.clearHistories.reg (R.HALL_FHIST h k) = 0 := by
  have hall (d : Dev) : (forEach (List.range 4) d (fun d k => d.setReg (R.HALL_FHIST h k) 0)).reg (R.HALL_FHIST h k) = 0 :=
    forEach_reaches (P := (Dev.reg · _ = 0)) (List.mem_range.mpr hk) (fun d => reg_setReg_same d _ 0) (fun _ _ => reg_setReg_zero) d
  exact forEach_reaches (P := (Dev.reg · _ = 0)) (List.mem_range.mpr hh) hall
    (fun _ _ => forEach_keeps (P := (Dev.reg · _ = 0)) _ (fun _ _ => reg_setReg_zero)) d

theorem regs_setEdgePort (d : Dev) (x : Bool) (p : Fin 4) (e : EdgePort) : (d.setEdgePort x p e).regs = d.regs := by
  cases x <;> rfl

theorem regs_modPorts (d : Dev) (ps : List (Fin 4)) (f : EdgePort → EdgePort) : (d.modPorts ps f).regs = d.regs :=
  forEach_frame Dev.regs _ d (fun d x => forEach_frame Dev.regs ps d (fun d p => regs_setEdgePort d x p _))

theorem reg_of_regs {d e : Dev} (h : d.regs = e.regs) (a : Nat) : d.reg a = e.reg a := congrArg (bankGet regReset · a) h

/-- The array takes instructions again: the change of SPLIT is decided (R171). -/
def Dev.resumed (d : Dev) : Dev := { d with arr := { d.arr with quiesce := false } }

/-- R212: a change of SPLIT that is applied clears every entry of every hall's fault history. -/
theorem splitQuiesced_clears_fhist {d : Dev} {c : CapSet} {h k : Nat} (hq : d.arr.quiesce = true) (hd : d.drained = true)
    (hc : d.capture? .seq = some c) (hn : (d.resumed.splitLast c).or (d.resumed.seqChecks c) = none) (hh : h < 17) (hk : k < 4) :
    d.splitQuiesced.reg (R.HALL_FHIST h k) = 0 := by
  unfold Dev.resumed at hn
  unfold Dev.splitQuiesced
  simp only [hq, hd, hc, hn, Bool.not_true, Bool.or_self, Bool.false_eq_true, if_false]
  refine (reg_of_regs ((forEach_frame Dev.regs _ _ (fun d x => regs_modHq d x _)).trans (regs_modPorts _ _ _)) _).trans ?_
  exact reg_clearHistories _ hh hk

/-- Two effects with one outcome leave one part. -/
theorem settle_eq_of_run_eq_after {s : State} {f : Dev → Dev} {d : Dev} (h : s.run f = s.after d) : (f s.dev).settle = d.settle :=
  congrArg State.dev (Host.Outcome.next.inj h)

/-- The part as the statement of COMMIT gives it: the set applied, new streams, fresh credits, and the fault histories as they were. -/
def Dev.splitStated (d : Dev) (c : CapSet) : Dev :=
  let e := d.resumed
  let t := (e.applySeq c).applied .seq
  let t := forEach (List.finRange 4) t (fun t x => if x.val < t.numStreams then t.newStream e x else t)
  forEach (List.finRange 16) t (fun t h => t.modHq h (fun q => { q with credit := 64, returning := 0 }))

/-- What the statement says of a change of SPLIT that is applied. -/
theorem splitQuiesced_as_stated (ho : Obligations.CommitCapturesAndApplies) {d : Dev} {c : CapSet} (hq : d.arr.quiesce = true)
    (hd : d.drained = true) (hc : d.capture? .seq = some c) (hn : (d.resumed.splitLast c).or (d.resumed.seqChecks c) = none) :
    d.splitQuiesced.settle = (d.splitStated c).settle := by
  unfold Obligations.CommitCapturesAndApplies at ho
  obtain ⟨ho, _⟩ := ho
  obtain ⟨_, _, hsplit⟩ := ho ⟨d, []⟩ .host .seq
  obtain ⟨happlied, _⟩ := hsplit c hc hq hd
  exact settle_eq_of_run_eq_after (s := ⟨d, []⟩) (f := Dev.splitQuiesced) (happlied hn)

/-- The captured set of a change to two streams. -/
def splitSet : CapSet := [(R.SEQ_CTRL, 1)]

/-- A part in IDLE with every domain on, whose captured SPLIT = 1 waits for the streams, which have drained; hall 0 keeps one fault. -/
def splitWaiting : Dev :=
  let d := (({ regs := [(R.PWR_DSTAT, 0x01FFFFFF)] } : Dev).setFld R.PWR_MSTAT_MODE 6).setFlag (busyFld .seq) true
  let d := (d.setReg (R.HALL_FHIST 0 0) 0x90000000).setCapture .seq splitSet
  { d with arr := { d.arr with quiesce := true } }

theorem splitWaiting_captured : splitWaiting.capture? .seq = some splitSet := by decide +kernel

theorem splitWaiting_drained : splitWaiting.drained = true := by decide +kernel

theorem splitWaiting_passes : (splitWaiting.resumed.splitLast splitSet).or (splitWaiting.resumed.seqChecks splitSet) = none := by
  decide +kernel

theorem splitQuiesced_quiet : splitWaiting.splitQuiesced.Quiet := ⟨List.isEmpty_iff.mp (by decide +kernel), by decide +kernel⟩

theorem splitStated_quiet : (splitWaiting.splitStated splitSet).Quiet := ⟨List.isEmpty_iff.mp (by decide +kernel), by decide +kernel⟩

theorem splitStated_keeps_fhist : (splitWaiting.splitStated splitSet).reg (R.HALL_FHIST 0 0) = 0x90000000 := by decide +kernel

/-- Refutes O27: its clause of SPLIT_QUIESCED leaves the fault histories as they were, and a configuration change clears every history
(R212). Hall 0 of splitWaiting keeps one fault. -/
theorem not_commitCapturesAndApplies : ¬ Obligations.CommitCapturesAndApplies := by
  intro ho
  have hstep := splitQuiesced_as_stated ho rfl splitWaiting_drained splitWaiting_captured splitWaiting_passes
  rw [settle_of_quiet splitQuiesced_quiet, settle_of_quiet splitStated_quiet] at hstep
  have hclear : splitWaiting.splitQuiesced.reg (R.HALL_FHIST 0 0) = 0 :=
    splitQuiesced_clears_fhist rfl splitWaiting_drained splitWaiting_captured splitWaiting_passes (by decide) (by decide)
  rw [hstep, splitStated_keeps_fhist] at hclear
  exact absurd hclear (by decide)

end Sys2Proof.Machine
end

section
/-! The event controller's operations change its own state alone. -/

namespace Sys2Proof.Machine

/-- A command whose effect leaves a given part. -/
theorem run_eq_after {s : State} {f : Dev → Dev} {d : Dev} (h : f s.dev = d) : s.run f = s.after d := by
  subst h; rfl

/-- Nothing but the event controller's own state tells e from d. -/
def Dev.EvcOnly (d e : Dev) : Prop := e = { d with evc := e.evc }

section EvcOnly

variable {d e : Dev}

theorem Dev.EvcOnly.refl (d : Dev) : d.EvcOnly d := rfl

theorem Dev.EvcOnly.trans {f : Dev} (h : d.EvcOnly e) (k : e.EvcOnly f) : d.EvcOnly f := by
  unfold Dev.EvcOnly at *
  rw [k, h]

theorem Dev.EvcOnly.regs (h : d.EvcOnly e) : e.regs = d.regs := (congrArg Dev.regs h).trans rfl

theorem Dev.EvcOnly.core (h : d.EvcOnly e) : e.core = d.core := (congrArg Dev.core h).trans rfl

theorem Dev.EvcOnly.reg (h : d.EvcOnly e) (a : Nat) : e.reg a = d.reg a := reg_of_regs h.regs a

theorem Dev.EvcOnly.co (h : d.EvcOnly e) (c : CoreId) : e.co c = d.co c := congrArg (·[c]) h.core

theorem Dev.EvcOnly.ite {p : Prop} [Decidable p] {f : Dev} (h : d.EvcOnly e) (k : d.EvcOnly f) : d.EvcOnly (if p then e else f) := by
  split
  · exact h
  · exact k

theorem forEach_evcOnly {β : Type} {f : Dev → β → Dev} (l : List β) (h : ∀ (d : Dev) b, d.EvcOnly (f d b)) (d : Dev) :
    d.EvcOnly (forEach l d f) :=
  forEach_keeps (P := Dev.EvcOnly d) l (fun e b he => Dev.EvcOnly.trans he (h e b)) (.refl d)

end EvcOnly

variable (d : Dev) (n : Nat)

theorem toHost_evcOnly : d.EvcOnly (d.toHost n) := by
  unfold Dev.toHost
  split_ifs <;> rfl

theorem askHost_evcOnly : d.EvcOnly (d.askHost n) := .ite (.refl d) (toHost_evcOnly d n)

theorem scanFallback_evcOnly : d.EvcOnly d.scanFallback :=
  forEach_evcOnly _ (fun d n => .ite (askHost_evcOnly d n) (.refl d)) d

theorem releaseGroup_evcOnly (g : Nat) : d.EvcOnly (d.releaseGroup g) :=
  (forEach_evcOnly _ (fun d n => toHost_evcOnly ((d.setHeld n 0).setHeldBy n 0) n) d).trans rfl

theorem pendSource_evcOnly : d.EvcOnly (d.pendSource n) := by
  unfold Dev.pendSource
  dsimp only
  refine .ite (.refl d) (.ite (.ite (Dev.EvcOnly.trans ?_ (releaseGroup_evcOnly _ _)) rfl) (toHost_evcOnly (d.setPend n true) n))
  rfl

theorem levelScan_evcOnly : d.EvcOnly (d.levelScan n) := .ite (pendSource_evcOnly d n) (.refl d)

theorem sourceLine_evcOnly (x : Bool) : d.EvcOnly (d.sourceLine n x) :=
  .ite (pendSource_evcOnly { d with evc := _ } n) (levelScan_evcOnly { d with evc := _ } n)

theorem raise_evcOnly : d.EvcOnly (d.raise n) :=
  .ite (.ite (.refl d) ((sourceLine_evcOnly d n true).trans (sourceLine_evcOnly _ n false))) (.refl d)

theorem endSource_evcOnly : d.EvcOnly (d.endSource n) :=
  .ite (toHost_evcOnly ((d.setAct n false).setOwner n 5) n) (levelScan_evcOnly ((d.setAct n false).setOwner n 5) n)

theorem dropOwner_evcOnly (c : Nat) : d.EvcOnly (d.dropOwner c) :=
  (forEach_evcOnly _ (fun d n => pendSource_evcOnly ((d.setAct n false).setOwner n 5) n) d).trans (scanFallback_evcOnly _)

theorem eventSet_evcOnly (w : Nat) (v : Word) : d.EvcOnly (d.eventSet w v) :=
  forEach_evcOnly _ (fun d _ => .ite (pendSource_evcOnly d _) (.refl d)) d

end Sys2Proof.Machine
end

section
/-! What keeps an array instruction from the queue (R20, R74, R103, R275, R279). -/

namespace Sys2Proof.Machine

variable {d : Dev} {opc ra : Nat} {a : AOp}

/-- Recording an array fault and raising its event leave the cores as they are. -/
theorem co_arrayFault (d : Dev) (s : StreamId) (opc code n v : Nat) (c : CoreId) : (d.arrayFault s opc code n v).co c = d.co c := by
  unfold Dev.arrayFault
  rw [(raise_evcOnly _ _).co]
  split_ifs
  · rfl
  · rw [co_setReg]

/-- A precise trap whose entry succeeds, in a part e whose core is as it was in d (R275, R276). -/
theorem trapHere_succeeds {d e : Dev} {c : CoreId} {t : Trap} {ra : Nat} (hco : e.co c = d.co c)
    (he : (d.co c).EntersAt c (trapNo t).toNat ra) (hl : (d.co c).loads = []) :
    e.trapHere c t = e.trapTaken c ra t (d.co c).pc 0 false := by
  rw [← hco] at he hl ⊢
  exact trap_succeeds he hl

/-- A refusal is recorded and takes the array-fault trap at the instruction (R103, R275). -/
theorem arrayIssue_refused {code n v : Nat} (h : d.Offers opc a) (hj : d.judge a.core (d.makeJob a.core opc a) = .refuse code n v)
    (he : (d.co a.core).EntersAt a.core 9 ra) (hl : (d.co a.core).loads = []) :
    d.arrayIssue opc a = (d.arrayFault a.core opc code n v).trapTaken a.core ra .array (d.co a.core).pc 0 false := by
  rw [arrayIssue_offers h, hj]
  exact trapHere_succeeds (co_arrayFault d a.core opc code n v a.core) he hl

/-- What an array instruction passes before its stream is looked at: its core is ready and both halfwords are fetched (R20, R257). -/
theorem arrayIssue_meets (h : d.Meets32 a.core a.pred [] []) (f : Dev → Dev) : d.instr a.core 4 [] [] f = f d := by
  obtain ⟨hready, hlow, hhigh, -⟩ := h
  have hhigh' : (d.co a.core).fetchable ((d.co a.core).pc + BitVec.ofNat 32 (4 - 2)) = true := hhigh
  have hnone : (d.co a.core).pends [] [] = false := rfl
  unfold Dev.instr
  simp [hready, hlow, hhigh', hnone]

/-- A core that owns no stream takes the illegal-instruction trap (R20). -/
theorem arrayIssue_noStream (h : d.Meets32 a.core a.pred [] []) (hs : d.ownsStream a.core = false)
    (he : (d.co a.core).EntersAt a.core 1 ra) (hl : (d.co a.core).loads = []) :
    d.arrayIssue opc a = d.trapTaken a.core ra .illegal (d.co a.core).pc 0 false := by
  unfold Dev.arrayIssue
  rw [arrayIssue_meets h, hs]
  exact trap_succeeds he hl

/-- A false condition costs a cycle (R74, R257). -/
theorem arrayIssue_skips (h : d.Meets32 a.core a.pred [] []) (hs : d.ownsStream a.core = true)
    (hc : (d.co a.core).holds a.pred = false) : d.arrayIssue opc a = d.setCo a.core ((d.co a.core).advance 4 1) := by
  have hp : (d.co a.core).pendP.getLsbD a.pred.p.toNat = false := by
    obtain ⟨-, -, -, hp⟩ := h
    simpa [CoreState.pends] using hp
  unfold Dev.arrayIssue
  rw [arrayIssue_meets h, hs, hp]
  simp [Dev.pred, hc, Dev.modCo]

/-- The sequencer refuses an opcode of no row with code 0x01 (R103). -/
theorem judge_reserved {c : StreamId} {opc : BitVec 7} (hlt : opc.toNat < 0x70) (hv : vendorSlots opc.toNat = none)
    (hq : d.arr.quiesce = false) (hr : (d.st c).rehold = []) (ht : d.underTest c = false) (hb : d.blockCode c = none) (a : AOp) :
    d.judge c (d.makeJob c opc.toNat a) = .refuse 1 0 0 := by
  have hopc : (d.makeJob c opc.toNat a).opc = opc := by
    simp [Dev.makeJob, Nat.mod_eq_of_lt (show opc.toNat < 128 from opc.isLt)]
  have hcheck : d.check103 c (d.makeJob c opc.toNat a) = some (1, 0, 0) := by
    have hcust : isCustomer opc.toNat = false := by
      simpa [isCustomer] using hlt
    unfold Dev.check103 jobSlots
    simp only [hopc, hcust, hv, Bool.false_eq_true, if_false]
  unfold Dev.judge
  simp [hq, hr, ht, hb, hcheck]

/-- The array instructions that the statement of refusals speaks of, with their opcodes. -/
def refusalSamples : List ((AOp → Instr) × Nat) :=
  [(Instr.add, 0x10), (Instr.mulu, 0x20), (Instr.agor, 0x50), (Instr.faddH, 0x58), (Instr.actpush, 0x42), (Instr.lookup, 0x48),
    (Instr.strin, 0x6C), (Instr.milestone, 0x6E), (Instr.amode, 0x6F), (Instr.afd, 0x4C)]

/-- Each of them reaches its core's issue point under its opcode. -/
theorem exec_refusalSample {e : (AOp → Instr) × Nat} (he : e ∈ refusalSamples) (a : AOp) (s : State) :
    exec (e.1 a) s = s.run (fun d => d.arrayIssue e.2 a) := by
  fin_cases he <;> rfl

/-- Settles O21: the three outcomes of an array instruction that does not join its stream, and the refusal of a reserved opcode. -/
theorem arrayRefusalsTrap : Obligations.ArrayRefusalsTrap := by
  unfold Obligations.ArrayRefusalsTrap
  intro s a ra hl
  refine ⟨fun e he => ⟨?_, ?_, ?_⟩, ?_⟩
  · intro ho hent code n v hj
    rw [exec_refusalSample he]
    exact run_eq_after (arrayIssue_refused ho hj hent hl)
  · intro hm hs hent
    rw [exec_refusalSample he]
    exact run_eq_after (arrayIssue_noStream hm hs hent hl)
  · intro hm hs hc
    rw [exec_refusalSample he]
    exact run_eq_after (arrayIssue_skips hm hs hc)
  · intro opc hlt hv ho hent hq hr ht hb
    rw [exec_reservedArrayOpcode, execReservedArrayOpcode]
    exact run_eq_after (arrayIssue_refused ho (judge_reserved hlt hv hq hr ht hb a) hent hl)

end Sys2Proof.Machine
end

section
/-! The event controller (R297 to R302, R306 to R308): a line's change, pending and held sources, the end of a source, offers. -/

namespace Sys2Proof.Machine

theorem getLsbD_setBit_same {n : Nat} (v : BitVec n) {i : Nat} (b : Bool) (h : i < n) : (setBit v i b).getLsbD i = b := by
  have hbit : (BitVec.ofNat n (2 ^ i)).getLsbD i = true := by
    rw [BitVec.getLsbD_ofNat, Nat.testBit_two_pow_self, decide_eq_true h, Bool.and_self]
  unfold setBit
  cases b
  · rw [if_neg Bool.false_ne_true, BitVec.getLsbD_and, BitVec.getLsbD_not, hbit, Bool.not_true, Bool.and_false, Bool.and_false]
  · rw [if_pos rfl, BitVec.getLsbD_or, hbit, Bool.or_true]

theorem bankGet_of_notMem {α : Type} {dflt : Nat → α} {m : List (Nat × α)} {k : Nat} (h : k ∉ m.map Prod.fst) :
    bankGet dflt m k = dflt k := by
  induction m with
  | nil => rfl
  | cons p r ih =>
    rw [List.map_cons, List.mem_cons, not_or] at h
    rw [bankGet, if_neg (Ne.symm h.1), ih h.2]

/-! Pending. -/

/-- The source's filtered line has taken a value, and nothing has followed yet (R297). -/
def Dev.lined (d : Dev) (n : Nat) (x : Bool) : Dev := { d with evc := { d.evc with line := setBit d.evc.line n x } }

/-- A change of the filtered line makes its enabled source pending: an edge source at the rise, a level source while it is not
active (R297, R298). -/
theorem sourceLine_eq (d : Dev) {n : Nat} (x : Bool) (h : n < 256) :
    d.sourceLine n x =
      if x && d.srcEn n && (if d.flag (R.EVC_SRC_LEVEL n) then !d.evc.act.getLsbD n else !d.evc.line.getLsbD n)
      then (d.lined n x).pendSource n else d.lined n x := by
  have hen : (d.lined n x).srcEn n = d.srcEn n := rfl
  have hlevel : (d.lined n x).flag (R.EVC_SRC_LEVEL n) = d.flag (R.EVC_SRC_LEVEL n) := rfl
  have hact : (d.lined n x).evc.act = d.evc.act := rfl
  have hline : (d.lined n x).evc.line.getLsbD n = x := getLsbD_setBit_same _ x h
  change (if x && !d.evc.line.getLsbD n && d.srcEn n && !d.flag (R.EVC_SRC_LEVEL n) then (d.lined n x).pendSource n
    else (d.lined n x).levelScan n) = _
  unfold Dev.levelScan Dev.levelDue
  rw [hen, hlevel, hact, hline]
  cases d.flag (R.EVC_SRC_LEVEL n) <;> cases x <;> cases d.srcEn n <;> simp

/-- A source that is pending is merged (R298). -/
theorem pendSource_pending {d : Dev} {n : Nat} (h : d.evc.pend.getLsbD n = true) : d.pendSource n = d := if_pos h

/-- A source that names the host neither as a target nor by the fallback is not requested of the host alone (R308, R311). -/
theorem hostAlone_eq_false {d : Dev} {n : Nat} (ht : (d.srcTargets n).getLsbD 4 = false) (hf : d.fallback n ≠ some 4) :
    d.hostAlone n = false := by
  have hne : d.srcTargets n ≠ 16 := fun he => absurd (he ▸ ht) (by decide)
  unfold Dev.hostAlone
  rw [decide_eq_false hne, decide_eq_false hf, Bool.or_self]

/-- Such a source asks for no message. -/
theorem toHost_eq_self {d : Dev} {n : Nat} (ht : (d.srcTargets n).getLsbD 4 = false) (hf : d.fallback n ≠ some 4) : d.toHost n = d := by
  unfold Dev.toHost
  simp only [hostAlone_eq_false ht hf, ht, Bool.false_eq_true, if_false, ite_self]

/-- A source outside moderation that does not reach the host becomes pending, and nothing else follows (R298). -/
theorem pendSource_unmoderated {d : Dev} {n : Nat} (hp : d.evc.pend.getLsbD n = false)
    (hg : d.fld (R.EVC_SRC_GROUP n) = 0 ∨ d.flag (R.EVC_MOD_EN (d.fld (R.EVC_SRC_GROUP n))) = false)
    (ht : (d.srcTargets n).getLsbD 4 = false) (hf : d.fallback n ≠ some 4) : d.pendSource n = d.setPend n true := by
  have hfree : (decide (d.fld (R.EVC_SRC_GROUP n) ≠ 0) && d.flag (R.EVC_MOD_EN (d.fld (R.EVC_SRC_GROUP n))) && decide (n ≠ 0x2C)) =
      false := by
    rcases hg with hg | hg <;> simp [hg]
  have hstay : (d.setPend n true).toHost n = d.setPend n true := toHost_eq_self (d := d.setPend n true) ht hf
  calc d.pendSource n = (d.setPend n true).toHost n :=
        (if_neg (hp ▸ Bool.false_ne_true)).trans (if_neg (hfree ▸ Bool.false_ne_true))
    _ = d.setPend n true := hstay

/-! The end of a source (R302). -/

/-- The source has ended: it is not active and has no owner. -/
def Dev.ended (d : Dev) (n : Nat) : Dev := (d.setAct n false).setOwner n 5

/-- A source that has ended is due again as an enabled level source whose line is 1. -/
theorem levelDue_ended (d : Dev) {n : Nat} (hn : n < 256) :
    (d.ended n).levelDue n = (d.srcEn n && d.flag (R.EVC_SRC_LEVEL n) && d.evc.line.getLsbD n) := by
  have hact : (d.ended n).evc.act.getLsbD n = false := getLsbD_setBit_same _ false hn
  unfold Dev.levelDue
  rw [hact, Bool.not_false, Bool.and_true]
  rfl

theorem endSource_notPending {d : Dev} {n : Nat} (hn : n < 256) (hp : d.evc.pend.getLsbD n = false) :
    d.endSource n =
      if d.srcEn n && d.flag (R.EVC_SRC_LEVEL n) && d.evc.line.getLsbD n then (d.ended n).pendSource n else d.ended n := by
  rw [← levelDue_ended d hn]
  refine if_neg ?_
  rw [show ((d.setAct n false).setOwner n 5).evc.pend.getLsbD n = false from hp, Bool.false_and, Bool.false_and]
  exact Bool.false_ne_true

/-- One that pended meanwhile and does not reach the host stays pending. -/
theorem endSource_pending {d : Dev} {n : Nat} (hp : d.evc.pend.getLsbD n = true) (ht : (d.srcTargets n).getLsbD 4 = false)
    (hf : d.fallback n ≠ some 4) : d.endSource n = d.ended n := by
  have halone : (d.ended n).hostAlone n = false := hostAlone_eq_false (d := d.ended n) ht hf
  have hscan : (d.ended n).levelScan n = d.ended n := by
    unfold Dev.levelScan
    rw [pendSource_pending (d := d.ended n) hp, ite_self]
  refine (if_neg ?_).trans hscan
  rw [show ((d.setAct n false).setOwner n 5).hostAlone n = false from halone, Bool.and_false]
  exact Bool.false_ne_true

theorem doneSource_owned {d : Dev} {o n : Nat} (ha : d.evc.act.getLsbD n = true) (ho : d.evcOwner n = o) :
    d.doneSource o n = d.endSource n := by
  unfold Dev.doneSource
  rw [ha, decide_eq_true ho, Bool.and_self, if_pos rfl]

theorem doneSource_notOwned {d : Dev} {o n : Nat} (h : ¬(d.evc.act.getLsbD n = true ∧ d.evcOwner n = o)) :
    d.doneSource o n = d.addFld R.EVC_STAT_BADDONE 1 := by
  unfold Dev.doneSource
  rw [if_neg]
  rwa [Bool.and_eq_true, decide_eq_true_eq]

/-! What a group holds (R306, R307). -/

theorem evcHeld_setHeld_same (d : Dev) (n : Nat) (m : BitVec 5) : (d.setHeld n m).evcHeld n = m := by
  unfold Dev.evcHeld Dev.setHeld
  exact bankGet_bankSet_same

theorem evcHeld_setHeld_ne (d : Dev) {n k : Nat} (m : BitVec 5) (h : k ≠ n) : (d.setHeld n m).evcHeld k = d.evcHeld k := by
  unfold Dev.evcHeld Dev.setHeld
  exact bankGet_bankSet_ne h

theorem evcCount_setCount_same (d : Dev) (g c : Nat) : (d.setCount g c).evcCount g = c := by
  unfold Dev.evcCount Dev.setCount
  exact bankGet_bankSet_same

theorem held_toHost (d : Dev) (n : Nat) : (d.toHost n).evc.held = d.evc.held := by
  unfold Dev.toHost
  split_ifs <;> rfl

/-- What a released source is held from: nothing; every other source stays as it was. -/
theorem evcHeld_released (d : Dev) (n m : Nat) :
    (((d.setHeld n 0).setHeldBy n 0).toHost n).evcHeld m = if m = n then 0 else d.evcHeld m := by
  have h : (((d.setHeld n 0).setHeldBy n 0).toHost n).evcHeld m = (d.setHeld n 0).evcHeld m :=
    congrArg (bankGet (fun _ => (0 : BitVec 5)) · m) (held_toHost _ n)
  rw [h]
  split
  · next hm => rw [hm, evcHeld_setHeld_same]
  · next hm => exact evcHeld_setHeld_ne d 0 hm

theorem evcHeld_forEach_released (l : List Nat) (d : Dev) (m : Nat) :
    (forEach l d (fun d n => ((d.setHeld n 0).setHeldBy n 0).toHost n)).evcHeld m = if m ∈ l then 0 else d.evcHeld m := by
  induction l generalizing d with
  | nil => rfl
  | cons n l ih =>
    rw [forEach_cons, ih, evcHeld_released]
    by_cases hl : m ∈ l <;> by_cases hn : m = n <;> simp [hl, hn]

/-- A group's release frees exactly the sources that it holds. -/
theorem evcHeld_releaseGroup (d : Dev) (g n : Nat) : (d.releaseGroup g).evcHeld n = if d.evcHeldBy n = g then 0 else d.evcHeld n := by
  have h : (d.releaseGroup g).evcHeld n =
      if n ∈ (d.evc.held.map Prod.fst).filter (fun n => d.evcHeldBy n = g) then 0 else d.evcHeld n :=
    evcHeld_forEach_released _ d n
  have hunlisted : n ∉ d.evc.held.map Prod.fst → d.evcHeld n = 0 := bankGet_of_notMem
  by_cases hk : n ∈ d.evc.held.map Prod.fst
  · simp only [h, List.mem_filter, decide_eq_true_eq, hk, true_and]
  · simp only [h, List.mem_filter, hk, false_and, hunlisted hk, ite_self]

theorem evcCount_releaseGroup (d : Dev) (g : Nat) : (d.releaseGroup g).evcCount g = 0 :=
  evcCount_setCount_same _ g 0

theorem modExpire_releases {d : Dev} {g : Nat} (hg : g ≠ 0) (h0 : d.domOn 0 = true) (hen : d.flag (R.EVC_MOD_EN g) = true)
    (ht : d.fld (R.EVC_MOD_TIMER g) ≠ 0) (hc : d.evcCount g ≠ 0) : d.modExpire g = d.releaseGroup g := by
  unfold Dev.modExpire
  rw [h0, hen, decide_eq_true hg, decide_eq_true ht, decide_eq_true hc]
  rfl

/-! Offers (R300). -/

/-- n is the member of l of the highest priority, the lowest number among equals. -/
def Foremost (prio : Nat → Nat) (l : List Nat) (n : Nat) : Prop :=
  n ∈ l ∧ ∀ m ∈ l, prio m < prio n ∨ prio m = prio n ∧ n ≤ m

/-- Going through a rising list and moving on only to a higher priority ends at the foremost member. -/
theorem foldl_foremost {prio : Nat → Nat} {f : Option Nat → Nat → Option Nat} {l : List Nat} {m n : Nat}
    (h : l.foldl f (some m) = some n) (hl : (m :: l).Pairwise (· < ·))
    (hf : ∀ m n, f (some m) n = if prio m < prio n then some n else some m) : Foremost prio (m :: l) n := by
  induction l generalizing m with
  | nil =>
    cases h
    exact ⟨List.mem_singleton_self _, fun x hx => .inr (List.mem_singleton.mp hx ▸ ⟨rfl, le_rfl⟩)⟩
  | cons x l ih =>
    obtain ⟨hm, hx⟩ := List.pairwise_cons.mp hl
    have hmx : m < x := hm x List.mem_cons_self
    rw [List.foldl_cons, hf] at h
    split at h
    · next hlt =>
      obtain ⟨hmem, hmax⟩ := ih h hx
      have hxn := hmax x List.mem_cons_self
      refine ⟨List.mem_cons_of_mem m hmem, List.forall_mem_cons.mpr ⟨?_, hmax⟩⟩
      omega
    · next hge =>
      obtain ⟨hmem, hmax⟩ := ih h (hl.sublist ((List.sublist_cons_self x l).cons_cons m))
      obtain ⟨hmn, hrest⟩ := List.forall_mem_cons.mp hmax
      refine ⟨List.cons_subset_cons m (List.subset_cons_self x l) hmem,
        List.forall_mem_cons.mpr ⟨hmn, List.forall_mem_cons.mpr ⟨?_, hrest⟩⟩⟩
      omega

/-- A core's offer is the foremost of the sources that can be offered to it, and the core can take it. -/
theorem offer_foremost {d : Dev} {c n : Nat} (h : d.offer c = some n) :
    d.canTake c = true ∧ Foremost (fun m => d.fld (R.EVC_SRC_PRIO m)) ((List.range 256).filter (d.offerable c)) n := by
  unfold Dev.offer at h
  split at h
  · next hc =>
    refine ⟨hc, ?_⟩
    have hsorted : ((List.range 256).filter (d.offerable c)).Pairwise (· < ·) := List.pairwise_lt_range.filter _
    generalize (List.range 256).filter (d.offerable c) = l at h hsorted
    cases l with
    | nil => cases h
    | cons m l => exact foldl_foremost h hsorted (fun _ _ => rfl)
  · cases h

theorem offer_lt {d : Dev} {c n : Nat} (h : d.offer c = some n) : n < 256 := by
  obtain ⟨-, hmem, -⟩ := offer_foremost h
  exact List.mem_range.mp (List.mem_filter.mp hmem).1

theorem offer_highest {d : Dev} {c n : Nat} (h : d.offer c = some n) :
    d.offerable c n = true ∧ d.canTake c = true ∧ ∀ m, m < 256 → d.offerable c m = true →
      d.fld (R.EVC_SRC_PRIO m) < d.fld (R.EVC_SRC_PRIO n) ∨ d.fld (R.EVC_SRC_PRIO m) = d.fld (R.EVC_SRC_PRIO n) ∧ n ≤ m := by
  obtain ⟨hc, hmem, hmax⟩ := offer_foremost h
  exact ⟨(List.mem_filter.mp hmem).2, hc, fun m hm ho => hmax m (List.mem_filter.mpr ⟨List.mem_range.mpr hm, ho⟩)⟩

theorem claim_some {d : Dev} {c n : Nat} (h : d.offer c = some n) :
    d.claim c = (some n, ((d.setPend n false).setAct n true).setOwner n c) := by
  unfold Dev.claim
  rw [h]

theorem claim_none {d : Dev} {c : Nat} (h : d.offer c = none) : d.claim c = (none, d.addFld R.EVC_STAT_SPUR 1) := by
  unfold Dev.claim
  rw [h]

/-- The word of a claim fits a register. -/
theorem claimWord_toNat (d : Dev) {n : Nat} (hn : n < 256) :
    (d.claimWord (some n)).toNat = 2 ^ 31 + d.fld (R.EVC_SRC_PRIO n) * 2 ^ 24 + n := by
  have hp : d.fld (R.EVC_SRC_PRIO n) < 2 ^ (23 + 1 - 20) := fld_lt d (R.EVC_SRC_PRIO n)
  unfold Dev.claimWord
  rw [BitVec.toNat_ofNat, Nat.mod_eq_of_lt (by omega)]

end Sys2Proof.Machine
end

section
/-! Writes of control registers change the register that they name, and with it at most its window's CSTAT (R3, R15). -/

namespace Sys2Proof.Machine

variable (d : Dev) (w : Who)

theorem reg_setFld_ne {f : Fld} {x : Nat} (n : Nat) (h : x ≠ f.addr) : (d.setFld f n).reg x = d.reg x := reg_setReg_ne d _ h

theorem reg_setFlag_ne {f : Fld} {x : Nat} (b : Bool) (h : x ≠ f.addr) : (d.setFlag f b).reg x = d.reg x := reg_setFld_ne d _ h

theorem reg_addFld_ne {f : Fld} {x : Nat} (n : Nat) (h : x ≠ f.addr) : (d.addFld f n).reg x = d.reg x := reg_setFld_ne d _ h

theorem reg_writeFields_ne {b : Block} {a x : Nat} (fs : List FieldDesc) (v : Word) (h : x ≠ a) :
    (d.writeFields b a fs v).reg x = d.reg x := by
  unfold Dev.writeFields
  dsimp only
  split
  · exact reg_setReg_ne d _ h
  · exact (reg_of_regs (regs_setStaged _ _ _) x).trans (reg_setReg_ne d _ h)

/-- A write by the field types in a window without COMMIT changes no register but its own and the window's CSTAT. -/
theorem reg_plainWrite_ne {b : Block} {a x : Nat} (v : Word) (hb : hasCommit b = false) (ha : x ≠ a) (hc : x ≠ cstatAddr b) :
    (d.plainWrite w b a v).reg x = d.reg x := by
  unfold Dev.plainWrite
  generalize regIn b (a - blockBase b) = o
  cases o with
  | none => rfl
  | some f =>
    simp only [hb, Bool.false_and, Bool.false_eq_true, if_false]
    split
    · rw [reg_setFlag_ne _ true hc, reg_writeFields_ne d _ _ ha]
    · exact reg_writeFields_ne d _ _ ha

end Sys2Proof.Machine
end

section
/-! Commands that write or read a register: the requester has its answer while the probes stay off and its node stays alive (R319,
R335, R336). -/

namespace Sys2Proof.Machine

/-- The registers by which a response reaches its requester: the probes' configurations, and the dead nodes that include every
requester. -/
def responseRegs : List Nat := [R.ROAD_PRBCFG 0, R.ROAD_PRBCFG 1, R.ROAD_PRBCFG 2, R.ROAD_PRBCFG 3, R.ROAD_DEAD 0]

variable {d e : Dev} {r : Requester} {b : Block} {a : Nat} {v : Word}

theorem probesOff_of_responseRegs (h : ∀ x ∈ responseRegs, e.reg x = d.reg x) (hp : d.ProbesOff) : e.ProbesOff := by
  intro k hk
  have hmem : R.ROAD_PRBCFG k ∈ responseRegs := by
    interval_cases k <;> decide
  have hreg : e.reg (R.ROAD_PRBCFG_EN k).addr = d.reg (R.ROAD_PRBCFG_EN k).addr := h _ hmem
  rw [← hp k hk, Dev.flag, Dev.flag, Dev.fld, Dev.fld, hreg]

theorem nodeDead_of_responseRegs (h : ∀ x ∈ responseRegs, e.reg x = d.reg x) {n : Nat} (hn : n < 32) : e.nodeDead n = d.nodeDead n := by
  unfold Dev.nodeDead
  rw [Nat.div_eq_of_lt hn, h _ (by decide)]

theorem who_node_lt (d : Dev) (r : Requester) : (d.who r).node < 32 := by
  cases r with
  | core c => exact lt_trans c.isLt (by decide)
  | _ => simp [Dev.who]

/-- A requester's register command whose write leaves the answer its way: the part as the write leaves it, and the response OK. -/
theorem run_commandWord {s : State} (hw : s.dev.Writes r b a v) (he : s.dev.drawn.startWrite (s.dev.who r) b a v = e)
    (hk : ∀ x ∈ responseRegs, e.reg x = s.dev.reg x) : s.run (fun d => d.commandWord r a v) = s.wrote e := by
  subst he
  have hcarried := hw
  obtain ⟨_, ⟨_, _, _, _, _, _, _, hoff, halive⟩, _⟩ := hcarried
  have hdead := nodeDead_of_responseRegs hk (who_node_lt s.dev r)
  exact run_eq_after (command_register hw (probesOff_of_responseRegs hk hoff) (hdead.trans halive))

/-- The same for a write that changes the event controller's own state alone. -/
theorem run_commandWord_evcOnly {s : State} (hw : s.dev.Writes r b a v) (he : s.dev.drawn.startWrite (s.dev.who r) b a v = e)
    (hk : s.dev.drawn.EvcOnly e) : s.run (fun d => d.commandWord r a v) = s.wrote e :=
  run_commandWord hw he (fun x _ => hk.reg x)

/-- A read that the road carries is performed at its register and answered OK. -/
theorem read_register {w : Who} {node : Nat} {x : Word} (hc : d.Carries w node) (hn : nodeOfAddr d.chipId a = some node)
    (hpl : d.place a = some (.window b (a - blockBase b))) (hal : (a - blockBase b) % 4 = 0)
    (hm : a ≠ R.DBG_MDATA ∧ a ≠ R.DBG_MDATA + 0x8000) (hq : d.road.asked = [])
    (hr : d.drawn.regRead w b (a - blockBase b) = (0, x, e)) (hk : ∀ x ∈ responseRegs, e.reg x = d.reg x) (hw : w.node < 32) :
    d.read w a 4 = .answered 0 (leBytes 4 x.toNat) e := by
  have hreach := reach_of_carries hc true
  obtain ⟨hon, hbr, _, _, hfree, hoff, halive⟩ := hc
  obtain ⟨hdata, hmirror⟩ := hm
  obtain ⟨tid, htid⟩ := drawTid_free hfree
  have hcan : d.canRequest w.node = true := by simp [Dev.canRequest, hon, hbr]
  have hport : d.portRead a 4 = d := by simp [Dev.portRead, hdata, hmirror]
  have hplace : d.drawn.place a = some (.window b (a - blockBase b)) := hpl
  have hserved : d.drawn.serveRead w a 4 = .done 0 (leBytes 4 x.toNat) e := by
    unfold Dev.serveRead
    simp [hplace, hal, hr]
  have hend := concluded_off (probesOff_of_responseRegs hk hoff) ((nodeDead_of_responseRegs hk hw).trans halive) node false
    (w.packet tid a 4 []) 0 (leBytes 4 x.toNat) (leBytes 4 x.toNat)
  have hissued : d.issueRead w a 4 = .answered 0 (leBytes 4 x.toNat) e := by
    unfold Dev.issueRead Dev.busRead
    simp only [hcan, hport, hn, hreach, htid, hserved, hend, Bool.not_true, Bool.false_eq_true, if_false]
  unfold Dev.read Dev.awaited
  rw [hissued, hq]
  rfl

end Sys2Proof.Machine
end

section
/-! The registers of the event controller (R296): what a write of EVC_SET, EVC_DONE and EVC_MOD and a read of EVC_CLAIM start. -/

namespace Sys2Proof.Machine

variable (d : Dev) (w : Who)

theorem startWrite_eventSet (i : Fin 8) (v : Word) : d.startWrite w .evc (R.EVC_SET i.val) v = d.eventSet i.val v := by
  have hdone : arrIdx (R.EVC_DONE 0) 16 5 (R.EVC_SET i.val) = none := by revert i; decide
  have hset : arrIdx (R.EVC_SET 0) 4 8 (R.EVC_SET i.val) = some i.val := by revert i; decide
  unfold Dev.startWrite
  simp only [hdone, hset]

theorem startWrite_done (o : Fin 5) (v : Word) : d.startWrite w .evc (R.EVC_DONE o.val) v = d.doneSource o.val (bits v.toNat 7 0) := by
  have hdone : arrIdx (R.EVC_DONE 0) 16 5 (R.EVC_DONE o.val) = some o.val := by revert o; decide
  unfold Dev.startWrite
  simp only [hdone]

/-- A write of EVC_MODg with EN = 0 releases the group (R307). -/
theorem startWrite_modDisable {g : Fin 16} (hg : g.val ≠ 0) {v : Word} (hv : v.getLsbD 31 = false) :
    d.startWrite w .evc (R.EVC_MOD g.val) v = (d.plainWrite w .evc (R.EVC_MOD g.val) v).releaseGroup g.val := by
  have hdone : arrIdx (R.EVC_DONE 0) 16 5 (R.EVC_MOD g.val) = none := by revert g; decide
  have hset : arrIdx (R.EVC_SET 0) 4 8 (R.EVC_MOD g.val) = none := by revert g; decide
  have hpend : arrIdx (R.EVC_PEND 0) 4 8 (R.EVC_MOD g.val) = none := by revert g; decide
  have hmod : arrIdx (R.EVC_MOD 0) 4 16 (R.EVC_MOD g.val) = some g.val := by revert g; decide
  unfold Dev.startWrite Dev.modWrite
  simp only [hdone, hset, hpend, hmod, hg, hv, if_false, Bool.false_eq_true]

/-- A core's read of its EVC_CLAIM claims (R301). -/
theorem regRead_claim {c off : Nat} (hw : w.node < 4) (ho : arrIdx (R.EVC_CLAIM 0) 16 4 (blockBase .evc + off) = some c) :
    d.regRead w .evc off = (0, d.claimWord (d.claim c).1, (d.claim c).2) := by
  have hnode : w.node ≠ 0x0F := by omega
  unfold Dev.regRead levelNeeded
  simp only [hnode, ho, decide_false, Bool.false_and, Bool.false_eq_true, if_false, Nat.not_lt_zero]

theorem reg_claim (c : Nat) {x : Nat} (hx : x ≠ R.EVC_STAT) : (d.claim c).2.reg x = d.reg x := by
  cases h : d.offer c with
  | none =>
    rw [claim_none h]
    exact reg_addFld_ne d 1 hx
  | some n => rw [claim_some h]; rfl

/-- The command CLAIM: the claim at the controller, and its word as the response (R301). -/
theorem readCommand_claim {c : CoreId} (hc : d.Carries (d.who (.core c)) 0x04) (hq : d.road.asked = []) :
    d.readCommand (.core c) (R.EVC_CLAIM c.val) =
      (d.drawn.claim c.val).2.respond 0 (leBytes 4 (d.claimWord (d.drawn.claim c.val).1).toNat) := by
  have hblock : blockOf (R.EVC_CLAIM c.val) = some .evc := by clear * -; revert c; decide
  have hrange : 0x10000000 ≤ R.EVC_CLAIM c.val ∧ R.EVC_CLAIM c.val < 0x10C00000 := by clear * -; revert c; decide
  have hal : (R.EVC_CLAIM c.val - blockBase .evc) % 4 = 0 := by clear * -; revert c; decide
  have hm : R.EVC_CLAIM c.val ≠ R.DBG_MDATA ∧ R.EVC_CLAIM c.val ≠ R.DBG_MDATA + 0x8000 := by clear * -; revert c; decide
  have hpl : d.place (R.EVC_CLAIM c.val) = some (.window .evc (R.EVC_CLAIM c.val - blockBase .evc)) := by
    unfold Dev.place
    rw [if_neg (by omega), if_neg (by simp; omega), if_pos (by simp; omega), hblock]
    rfl
  have hn : nodeOfAddr d.chipId (R.EVC_CLAIM c.val) = some 0x04 := by
    unfold nodeOfAddr
    rw [if_neg (by omega), if_neg (by simp; omega), if_pos (by simp; omega), hblock]
  have hidx : arrIdx (R.EVC_CLAIM 0) 16 4 (blockBase .evc + (R.EVC_CLAIM c.val - blockBase .evc)) = some c.val := by
    clear * -; revert c; decide
  have hk : ∀ x ∈ responseRegs, (d.drawn.claim c.val).2.reg x = d.reg x := fun x hx =>
    reg_claim d.drawn c.val (by revert x; decide)
  unfold Dev.readCommand
  dsimp only
  rw [read_register hc hn hpl hal hm hq (regRead_claim d.drawn _ c.isLt hidx) hk (who_node_lt d _)]
  rfl

end Sys2Proof.Machine
end

section
/-! The release of the cores (R32, R273): SYS_CRUN. -/

namespace Sys2Proof.Machine

variable {d : Dev} {a : Nat}

theorem regs_doubleFault (d : Dev) (c : CoreId) : (d.doubleFault c).regs = d.regs := by
  unfold Dev.doubleFault
  dsimp only
  have h := (raise_evcOnly ((d.modCo c (fun k => { k with mode := .dead })).dropOwner c.val) (0x30 + c.val)).regs.trans
    (dropOwner_evcOnly (d.modCo c (fun k => { k with mode := .dead })) c.val).regs
  split
  · exact h
  · exact h

theorem regs_enter (d : Dev) (c : CoreId) (ret : Word) (n : Nat) (f : CoreState → CoreState) : (d.enter c ret n f).regs = d.regs := by
  unfold Dev.enter
  dsimp only
  split
  · exact regs_doubleFault d c
  · split_ifs
    · exact regs_doubleFault d c
    · simp [Dev.setWord32]
    · simp [regs_doubleFault, Dev.setWord32]

theorem regs_trap (d : Dev) (c : CoreId) (t : Trap) (ret taddr : Word) (impr : Bool) : (d.trap c t ret taddr impr).regs = d.regs := by
  unfold Dev.trap Dev.takeTrap
  split
  · rfl
  · exact regs_enter _ c _ _ _

theorem reg_answerHeld {n : Nat} {st : BitVec 4} (h : a ≠ R.ROAD_BR n) : (d.answerHeld n st (R.ROAD_BR_ASLP n)).reg a = d.reg a := by
  have hanswer (d : Dev) (k : PacketKind) (p : Packet) : (d.answer n k p st).reg a = d.reg a := by
    unfold Dev.answer
    split <;> rfl
  have hcount (d : Dev) : (d.countHeld n).reg a = d.reg a := by
    unfold Dev.countHeld
    split
    · exact reg_setFld_ne d _ h
    · rfl
  unfold Dev.answerHeld
  dsimp only
  rw [hcount]
  refine forEach_frame (Dev.reg · a) _ _ (fun d x => ?_)
  split
  · exact (reg_addFld_ne _ _ h).trans (hanswer d _ _)
  · exact reg_addFld_ne d 1 h

/-- The link-down at a bridge changes no register but the bridge's. -/
theorem reg_bridgeReset {n : Nat} (h : a ≠ R.ROAD_BR n) : (d.bridgeReset n).reg a = d.reg a := by
  unfold Dev.bridgeReset Dev.setBr
  split
  · rfl
  have hheld : (((d.answerWaiting n 4).sinkFor n).answerHeld n 4 (R.ROAD_BR_ASLP n)).reg a = d.reg a := reg_answerHeld h
  split
  · exact (reg_setFld_ne _ _ h).trans hheld
  · exact hheld

/-- A core that the written word does not name, and that is not held, returns to reset with link-down at its bridge (R273, R334). -/
def Dev.holdUnnamed (v : Word) (d : Dev) (c : CoreId) : Dev :=
  if v.getLsbD c.val = false ∧ (d.co c).mode ≠ .reset then ((d.setCo c {}).dropOwner c.val).bridgeReset c.val else d

/-- A core that SYS_CRUN names and that is still held starts at its SYS_CPC (R273). -/
def Dev.startNamed (d : Dev) (c : CoreId) : Dev :=
  if (d.reg R.SYS_CRUN).getLsbD c.val = true ∧ (d.co c).mode = .reset then
    let pc := d.reg (R.SYS_CPC c.val) &&& 0xFFFFFFFE
    let e := d.setCo c (coreStart c pc)
    if 0x08000000 ≤ pc.toNat ∧ pc.toNat < 0x08008000 then e else e.trap c .fetch pc pc false
  else d

/-- The part with SYS_CRUN written and every core that it does not name held. -/
def Dev.crunHeld (d : Dev) (v : Word) : Dev :=
  forEach [(1 : CoreId), 2, 3] (d.setReg R.SYS_CRUN ((v &&& 0xE) ||| 1)) (Dev.holdUnnamed v)

theorem reg_holdUnnamed (v : Word) (d : Dev) (c : CoreId) (ha : ∀ c : CoreId, a ≠ R.ROAD_BR c.val) :
    (d.holdUnnamed v c).reg a = d.reg a := by
  unfold Dev.holdUnnamed
  split
  · rw [reg_bridgeReset (ha c), (dropOwner_evcOnly _ _).reg, reg_setCo]
  · rfl

theorem reg_startNamed (d : Dev) (c : CoreId) : (d.startNamed c).reg a = d.reg a := by
  unfold Dev.startNamed
  split
  · dsimp only
    split
    · rfl
    · exact reg_of_regs (regs_trap _ c _ _ _ _) a
  · rfl

theorem reg_crunHeld (v : Word) (ha : ∀ c : CoreId, a ≠ R.ROAD_BR c.val) (hc : a ≠ R.SYS_CRUN) : (d.crunHeld v).reg a = d.reg a :=
  (forEach_frame (Dev.reg · a) _ _ (fun d c => reg_holdUnnamed v d c ha)).trans (reg_setReg_ne d _ hc)

theorem mode_crunHeld (d : Dev) (v : Word) : (d.crunHeld v).mode = d.mode := by
  have hreg : (d.crunHeld v).reg R.PWR_MSTAT = d.reg R.PWR_MSTAT := reg_crunHeld v (by decide) (by decide)
  exact congrArg (fun x : Word => bits x.toNat R.PWR_MSTAT_MODE.hi R.PWR_MSTAT_MODE.lo) hreg

/-- A write of SYS_CRUN holds the cores that it does not name and, where the mode runs more than C0, starts those that it names. -/
theorem coreRun_eq (d : Dev) (v : Word) :
    d.coreRun v = if d.mode = 2 ∨ d.mode = 3 ∨ d.mode = 0xB then d.crunHeld v
      else forEach [(1 : CoreId), 2, 3] (d.crunHeld v) Dev.startNamed := by
  have hhold : (fun (d : Dev) (c : CoreId) => if v.getLsbD c.val || (d.co c).mode = .reset then d else (d.holdCore c).bridgeReset c.val) =
      Dev.holdUnnamed v := by
    funext d c
    unfold Dev.holdUnnamed Dev.holdCore
    cases v.getLsbD c.val <;> by_cases hm : (d.co c).mode = .reset <;> simp [hm]
  have hstart : (fun (d : Dev) (c : CoreId) => if (d.reg R.SYS_CRUN).getLsbD c.val && (d.co c).mode = .reset then
      let pc := d.reg (R.SYS_CPC c.val) &&& 0xFFFFFFFE
      let d := d.releaseCore c pc
      if 0x08000000 ≤ pc.toNat && pc.toNat < 0x08008000 then d else d.trap c .fetch pc pc false
    else d) = Dev.startNamed := by
    funext d c
    simp only [Dev.startNamed, Dev.releaseCore, Bool.and_eq_true, decide_eq_true_eq]
  have hheld : d.coreRun v = (d.crunHeld v).releaseRun := by
    unfold Dev.coreRun Dev.crunHeld
    rw [hhold]
  rw [hheld, Dev.releaseRun, hstart, onlyC0, mode_crunHeld]
  simp only [Bool.or_eq_true, decide_eq_true_eq, or_assoc]

theorem reg_coreRun (v : Word) (ha : ∀ c : CoreId, a ≠ R.ROAD_BR c.val) (hc : a ≠ R.SYS_CRUN) : (d.coreRun v).reg a = d.reg a := by
  rw [coreRun_eq]
  split
  · exact reg_crunHeld v ha hc
  · exact (forEach_frame (Dev.reg · a) _ _ (fun d c => reg_startNamed d c)).trans (reg_crunHeld v ha hc)

theorem startWrite_crun (d : Dev) (w : Who) (v : Word) : d.startWrite w .sys R.SYS_CRUN v = d.coreRun v := by
  unfold Dev.startWrite
  exact if_pos rfl

end Sys2Proof.Machine
end

section
/-! The commands of the event controller and of SYS_CRUN (R297 to R302, R306, R307, R311, R273). -/

namespace Sys2Proof.Machine

variable {s : State} {r : Requester} {v : Word}

theorem exec_eventLineChange_powered {src : BitVec 8} (x : Bool) (h0 : s.dev.domOn 0 = true) (hl : sourceHasLine src.toNat = true)
    (hp : s.dev.sourcePowered src.toNat = true) : exec (.eventLineChange src x) s = s.after (s.dev.sourceLine src.toNat x) := by
  refine run_eq_after ?_
  rw [h0, hl, hp, Bool.and_true, Bool.and_true, if_pos rfl]

theorem exec_eventSet_writes {w : Fin 8} (hw : s.dev.Writes r .evc (R.EVC_SET w.val) v) :
    exec (.eventSet r w v) s = s.wrote (s.dev.drawn.eventSet w.val v) :=
  run_commandWord_evcOnly hw (startWrite_eventSet _ _ w v) (eventSet_evcOnly _ _ _)

/-- The word of a claim, and the part that it leaves (R301). -/
theorem exec_claim_carries {c : CoreId} (hc : s.dev.Carries (s.dev.who (.core c)) 0x04) (hq : s.dev.road.asked = []) :
    exec (.claim c) s = s.after ((s.dev.drawn.claim c.val).2.respond 0
      (leBytes 4 (s.dev.claimWord (s.dev.drawn.claim c.val).1).toNat)) := by
  rw [exec_claim, execClaim]
  exact run_eq_after (readCommand_claim s.dev hc hq)

theorem exec_claim_offered {c : CoreId} {n : Nat} (hc : s.dev.Carries (s.dev.who (.core c)) 0x04) (hq : s.dev.road.asked = [])
    (ho : s.dev.offer c.val = some n) : exec (.claim c) s = s.after ((((s.dev.drawn.setPend n false).setAct n true).setOwner n
      c.val).respond 0 (leBytes 4 (2 ^ 31 + s.dev.fld (R.EVC_SRC_PRIO n) * 2 ^ 24 + n))) := by
  have hclaim := claim_some (d := s.dev.drawn) (c := c.val) (n := n) ho
  rw [exec_claim_carries hc hq, hclaim, claimWord_toNat s.dev (offer_lt ho)]

theorem exec_claim_spurious {c : CoreId} (hc : s.dev.Carries (s.dev.who (.core c)) 0x04) (hq : s.dev.road.asked = [])
    (ho : s.dev.offer c.val = none) :
    exec (.claim c) s = s.after ((s.dev.drawn.addFld R.EVC_STAT_SPUR 1).respond 0 [0, 0, 0, 0]) := by
  have hclaim := claim_none (d := s.dev.drawn) (c := c.val) ho
  have hzero : leBytes 4 (s.dev.claimWord none).toNat = [0, 0, 0, 0] := (rfl : leBytes 4 (0 : Word).toNat = [0, 0, 0, 0])
  rw [exec_claim_carries hc hq, hclaim, hzero]

/-- What a write of EVC_DONE leaves: the source's end for its owner, else one more bad DONE (R302). -/
theorem exec_done_writes {o : Fin 5} {src : BitVec 8}
    (hw : s.dev.Writes (ownerRequester o) .evc (R.EVC_DONE o.val) (src.setWidth 32)) :
    exec (.done o src) s = s.wrote (s.dev.drawn.doneSource o.val src.toNat) := by
  have hsrc : bits (src.setWidth 32).toNat 7 0 = src.toNat := by
    simp [bits, src.isLt]
  refine run_commandWord hw ((startWrite_done _ _ o _).trans (by rw [hsrc])) (fun x hx => ?_)
  unfold Dev.doneSource
  split
  · exact (endSource_evcOnly _ _).reg x
  · exact reg_addFld_ne s.dev.drawn 1 (by revert x; decide)

theorem exec_modDisable_writes {g : BitVec 4} (hg : g.toNat ≠ 0)
    (hw : s.dev.Writes r .evc (R.EVC_MOD g.toNat) (v &&& 0x7FFFFFFF)) :
    exec (.modDisable r g v) s = s.wrote ((s.dev.fielded r .evc (R.EVC_MOD g.toNat) (v &&& 0x7FFFFFFF)).releaseGroup g.toNat) := by
  have hen : (v &&& 0x7FFFFFFF).getLsbD 31 = false := by
    rw [BitVec.getLsbD_and, show (0x7FFFFFFF : Word).getLsbD 31 = false from by decide, Bool.and_false]
  have hmod : ∀ x ∈ responseRegs, ∀ g : Fin 16, x ≠ R.EVC_MOD g.val ∧ x ≠ cstatAddr .evc := by decide
  refine run_commandWord hw (startWrite_modDisable _ _ (g := g.toFin) hg hen) (fun x hx => ?_)
  obtain ⟨hne, hcstat⟩ := hmod x hx g.toFin
  exact ((releaseGroup_evcOnly _ _).reg x).trans (reg_plainWrite_ne _ _ _ rfl hne hcstat)

theorem exec_msixSend_leaves {vec : BitVec 6} (ha : s.dev.evc.msix.getLsbD vec.toNat = true) (hout : s.dev.hostOut = true)
    (hen : s.dev.host.msixEn = true) (hm : s.dev.host.msixMask = false) (hv : s.dev.msixMasked vec.toNat = false) :
    exec (.msixSend vec) s =
      s.after { s.dev with evc := { s.dev.evc with msix := setBit s.dev.evc.msix vec.toNat false } } := by
  rw [exec_msixSend, execMsixSend]
  refine run_eq_after ?_
  unfold Dev.msixSend
  rw [ha, hout, hen, hm, hv]
  rfl

theorem exec_coreRun_writes (hw : s.dev.Writes r .sys R.SYS_CRUN v) :
    exec (.coreRun r v) s = s.wrote (s.dev.drawn.coreRun v) :=
  have hapart : ∀ x ∈ responseRegs, (∀ c : CoreId, x ≠ R.ROAD_BR c.val) ∧ x ≠ R.SYS_CRUN := by decide
  run_commandWord hw (startWrite_crun _ _ v) (fun x hx => reg_coreRun v (hapart x hx).1 (hapart x hx).2)

/-- Settles O39: each clause is one command of the controller or of SYS_CRUN, or the rule of a source that becomes pending. -/
theorem eventsPendAndClaim : Obligations.EventsPendAndClaim := by
  unfold Obligations.EventsPendAndClaim
  intro s r v
  refine ⟨?line, ?pend, ?set, ?claim, ?done, ?moderation, ?message, ?release⟩
  case line =>
    intro src x h0 hl hp
    rw [exec_eventLineChange_powered x h0 hl hp, sourceLine_eq _ _ src.isLt]
    rfl
  case pend => exact fun n _ => ⟨pendSource_pending, pendSource_unmoderated⟩
  case set => exact fun w hw => exec_eventSet_writes hw
  case claim =>
    exact fun c hc hq => ⟨fun n ho => ⟨offer_highest ho, exec_claim_offered hc hq ho⟩, exec_claim_spurious hc hq⟩
  case done =>
    intro o src hw
    rw [exec_done_writes hw]
    refine ⟨fun h => ?_, fun ha ho hp => ?_, fun ha ho hp _ ht hf => ?_⟩
    · exact congrArg s.wrote (doneSource_notOwned (d := s.dev.drawn) h)
    · exact congrArg s.wrote ((doneSource_owned (d := s.dev.drawn) ha ho).trans (endSource_notPending src.isLt hp))
    · exact congrArg s.wrote ((doneSource_owned (d := s.dev.drawn) ha ho).trans (endSource_pending hp ht hf))
  case moderation =>
    intro g hg
    have hg0 : g.toNat ≠ 0 := fun h => hg (BitVec.eq_of_toNat_eq h)
    refine ⟨fun h0 hen ht hc => ?_, exec_modDisable_writes hg0⟩
    exact ⟨s.dev.releaseGroup g.toNat, run_eq_after (modExpire_releases hg0 h0 hen ht hc), evcCount_releaseGroup _ _,
      evcHeld_releaseGroup _ _⟩
  case message => exact fun vec => exec_msixSend_leaves
  case release =>
    intro hw
    rw [exec_coreRun_writes hw, coreRun_eq]
    rfl

end Sys2Proof.Machine
end

section
/-! The row word's code (R49 to R51): its syndrome adds up column by column, and the columns' codes differ and have odd weight. -/

namespace Sys2Proof.Machine

theorem xorCodes_xor (l : List (BitVec 8)) (v w j : Nat) : xorCodes l (v ^^^ w) j = xorCodes l v j ^^^ xorCodes l w j := by
  induction l generalizing j with
  | nil => exact BitVec.xor_self.symm
  | cons c l ih =>
    have hcol : (if (v ^^^ w).testBit j then c else 0) = (if v.testBit j then c else 0) ^^^ (if w.testBit j then c else 0) := by
      rw [Nat.testBit_xor]
      cases v.testBit j <;> cases w.testBit j <;> simp
    rw [xorCodes, xorCodes, xorCodes, hcol, ih]
    ac_rfl

theorem xorCodes_append (l m : List (BitVec 8)) (w j : Nat) :
    xorCodes (l ++ m) w j = xorCodes l w j ^^^ xorCodes m w (j + l.length) := by
  induction l generalizing j with
  | nil => simp [xorCodes]
  | cons c l ih => simp only [List.cons_append, xorCodes, ih, List.length_cons, BitVec.xor_assoc, Nat.add_right_comm j 1, Nat.add_assoc]

/-- The codes from column j on depend on the bits of their own columns alone. -/
theorem xorCodes_congr {l : List (BitVec 8)} {v w j k : Nat} (h : ∀ i < l.length, v.testBit (j + i) = w.testBit (k + i)) :
    xorCodes l v j = xorCodes l w k := by
  induction l generalizing j k with
  | nil => rfl
  | cons c l ih =>
    have hhead : v.testBit j = w.testBit k := h 0 (Nat.succ_pos _)
    have htail : xorCodes l v (j + 1) = xorCodes l w (k + 1) := ih fun i hi => by
      simpa only [Nat.add_assoc, Nat.add_comm 1] using h (i + 1) (Nat.succ_lt_succ hi)
    simp only [xorCodes, hhead, htail]

theorem xorCodes_zero (l : List (BitVec 8)) (j : Nat) : xorCodes l 0 j = 0 := by
  have h := xorCodes_xor l 0 0 j
  rwa [Nat.xor_self, BitVec.xor_self] at h

/-- A word whose one bit is column i's gives that column's code. -/
theorem xorCodes_two_pow {l : List (BitVec 8)} {i : Nat} (j : Nat) (h : i < l.length) : xorCodes l (2 ^ (j + i)) j = l[i] := by
  induction l generalizing i j with
  | nil => exact absurd h (Nat.not_lt_zero i)
  | cons c l ih =>
    cases i with
    | zero =>
      have hrest : xorCodes l (2 ^ j) (j + 1) = xorCodes l 0 (j + 1) :=
        xorCodes_congr fun i _ => by rw [Nat.zero_testBit, Nat.testBit_two_pow_of_ne (by omega)]
      simp [xorCodes, hrest, xorCodes_zero, Nat.testBit_two_pow_self]
    | succ i =>
      have hi := ih (j + 1) (Nat.lt_of_succ_lt_succ h)
      rw [Nat.add_assoc, Nat.add_comm 1 i] at hi
      have hne : (2 ^ (j + (i + 1))).testBit j = false := Nat.testBit_two_pow_of_ne (by omega)
      simp [xorCodes, hi, hne]

/-! The syndrome (R49). -/

theorem rowSyndrome_xor (v w : BitVec 72) : rowSyndrome (v ^^^ w) = rowSyndrome v ^^^ rowSyndrome w := by
  unfold rowSyndrome
  rw [BitVec.toNat_xor, xorCodes_xor]

/-- The row word whose one bit is column i's. -/
def colBit (i : Nat) : BitVec 72 := BitVec.ofNat 72 (2 ^ i)

theorem rowSyndrome_colBit {i : Nat} (h : i < 72) : rowSyndrome (colBit i) = colCodes[i]'h := by
  have hsmall : 2 ^ i < 2 ^ 72 := Nat.pow_lt_pow_right (by decide) h
  have hcode := xorCodes_two_pow 0 (show i < colCodes.length from h)
  rw [Nat.zero_add] at hcode
  rw [rowSyndrome, colBit, BitVec.toNat_ofNat, Nat.mod_eq_of_lt hsmall]
  exact hcode

/-- The codes of the check columns spell the check bits. -/
theorem xorCodes_check (c : BitVec 8) : xorCodes [0x01, 0x02, 0x04, 0x08, 0x10, 0x20, 0x40, 0x80] c.toNat 0 = c := by
  revert c
  decide

theorem getLsbD_rowEncode (x : BitVec 64) (i : Nat) :
    (rowEncode x).getLsbD i = if i < 64 then x.getLsbD i else (xorCodes laneCodes x.toNat 0).getLsbD (i - 64) :=
  BitVec.getLsbD_append

theorem rowEncode_lanes (x : BitVec 64) : (rowEncode x).setWidth 64 = x := by
  ext i hi
  simp [getLsbD_rowEncode, hi, ← BitVec.getLsbD_eq_getElem]

/-- What a write encodes has the syndrome 0 (R50). -/
theorem rowSyndrome_rowEncode (x : BitVec 64) : rowSyndrome (rowEncode x) = 0 := by
  have hlanes : xorCodes laneCodes (rowEncode x).toNat 0 = xorCodes laneCodes x.toNat 0 :=
    xorCodes_congr fun i hi => by
      have hi64 : 0 + i < 64 := (Nat.zero_add i).symm ▸ hi
      exact (getLsbD_rowEncode x (0 + i)).trans (if_pos hi64)
  have hchecks : xorCodes [0x01, 0x02, 0x04, 0x08, 0x10, 0x20, 0x40, 0x80] (rowEncode x).toNat (0 + laneCodes.length) =
      xorCodes laneCodes x.toNat 0 := by
    refine (xorCodes_congr fun i _ => ?_).trans (xorCodes_check _)
    have hi : ¬64 + i < 64 := by omega
    refine (getLsbD_rowEncode x (64 + i)).trans ?_
    rw [if_neg hi, Nat.add_sub_cancel_left, Nat.zero_add]
    rfl
  rw [rowSyndrome, colCodes, xorCodes_append, hlanes, hchecks]
  exact BitVec.xor_self

/-! The columns' codes differ, and each has an odd number of 1 bits, so that two of them add up to no code. -/

/-- The exclusive OR of a code's bits in the given places. -/
def parityOf (s : BitVec 8) (l : List Nat) : Bool := l.foldr (fun i b => s.getLsbD i ^^ b) false

theorem parityOf_xor (s t : BitVec 8) (l : List Nat) : parityOf (s ^^^ t) l = (parityOf s l ^^ parityOf t l) := by
  induction l with
  | nil => rfl
  | cons i l ih =>
    unfold parityOf at ih ⊢
    rw [List.foldr_cons, ih, BitVec.getLsbD_xor]
    simp only [List.foldr_cons, Bool.xor_assoc, Bool.xor_left_comm]

/-- A code has an odd number of 1 bits. -/
def oddWeight (s : BitVec 8) : Bool := parityOf s (List.range 8)

theorem oddWeight_xor (s t : BitVec 8) : oddWeight (s ^^^ t) = (oddWeight s ^^ oddWeight t) := parityOf_xor s t _

theorem oddWeight_colCodes : ∀ c ∈ colCodes, oddWeight c = true := by decide

theorem nodup_colCodes : colCodes.Nodup := by decide

theorem colOfCode_colCodes : ∀ i : Fin 72, colOfCode colCodes[i] = some i.val := by decide

/-- A code of even weight names no column. -/
theorem colOfCode_even {s : BitVec 8} (h : oddWeight s = false) : colOfCode s = none := by
  refine List.find?_eq_none.mpr fun j _ hj => ?_
  obtain ⟨hlt, hs⟩ := List.getElem?_eq_some_iff.mp (of_decide_eq_true hj)
  rw [← hs, oddWeight_colCodes _ (List.getElem_mem hlt)] at h
  exact absurd h (by decide)

/-! The decoder (R51). -/

theorem rowDecode_good {w : BitVec 72} (h : rowSyndrome w = 0) : rowDecode none w = ⟨w, [], false⟩ := by
  unfold rowDecode
  exact if_pos h

theorem rowDecode_corrects {w : BitVec 72} {j : Nat} (h : rowSyndrome w ≠ 0) (hj : colOfCode (rowSyndrome w) = some j) :
    rowDecode none w = ⟨w ^^^ colBit j, [j], false⟩ := by
  unfold rowDecode
  simp only [h, hj, if_false]
  rfl

theorem rowDecode_bad {w : BitVec 72} (h : rowSyndrome w ≠ 0) (hn : colOfCode (rowSyndrome w) = none) :
    rowDecode none w = ⟨w, [], true⟩ := by
  unfold rowDecode
  simp only [h, hn, if_false]

/-- One inverted column of a good word is put right. -/
theorem rowDecode_oneWrong {w : BitVec 72} {i : Nat} (hw : rowSyndrome w = 0) (hi : i < 72) :
    rowDecode none (w ^^^ colBit i) = ⟨w, [i], false⟩ := by
  have hlen : i < colCodes.length := hi
  have hsyn : rowSyndrome (w ^^^ colBit i) = colCodes[i] := by
    rw [rowSyndrome_xor, hw, rowSyndrome_colBit hi]
    exact BitVec.zero_xor
  have hodd := oddWeight_colCodes _ (List.getElem_mem hlen)
  have hne : rowSyndrome (w ^^^ colBit i) ≠ 0 := fun h0 => by
    rw [← hsyn, h0] at hodd
    exact absurd hodd (by decide)
  have hcol : colOfCode (rowSyndrome (w ^^^ colBit i)) = some i := hsyn ▸ colOfCode_colCodes ⟨i, hi⟩
  rw [rowDecode_corrects hne hcol, BitVec.xor_assoc, BitVec.xor_self, BitVec.xor_zero]

/-- Two inverted columns of a good word are found. -/
theorem rowDecode_twoWrong {w : BitVec 72} {i j : Nat} (hw : rowSyndrome w = 0) (hi : i < 72) (hj : j < 72) (hij : i ≠ j) :
    rowDecode none ((w ^^^ colBit i) ^^^ colBit j) = ⟨(w ^^^ colBit i) ^^^ colBit j, [], true⟩ := by
  have hleni : i < colCodes.length := hi
  have hlenj : j < colCodes.length := hj
  have hsyn : rowSyndrome ((w ^^^ colBit i) ^^^ colBit j) = colCodes[i] ^^^ colCodes[j] := by
    rw [rowSyndrome_xor, rowSyndrome_xor, hw, rowSyndrome_colBit hi, rowSyndrome_colBit hj]
    exact congrArg (· ^^^ _) BitVec.zero_xor
  have hne : colCodes[i] ^^^ colCodes[j] ≠ 0 := fun h0 =>
    hij ((List.Nodup.getElem_inj_iff nodup_colCodes).mp (BitVec.xor_eq_zero_iff.mp h0))
  have heven : oddWeight (colCodes[i] ^^^ colCodes[j]) = false := by
    rw [oddWeight_xor, oddWeight_colCodes _ (List.getElem_mem hleni), oddWeight_colCodes _ (List.getElem_mem hlenj), Bool.xor_self]
  exact rowDecode_bad (hsyn ▸ hne) (hsyn ▸ colOfCode_even heven)

end Sys2Proof.Machine
end

section
/-! The words of the gallery and the DRAM (R183): what a read finds goes by the number of wrong bits. -/

namespace Sys2Proof.Machine

theorem errWeight_eq_card {e : BitVec 72} {t : Finset Nat} (ht : ∀ i ∈ t, i < 72) (he : ∀ i, e.getLsbD i = decide (i ∈ t)) :
    errWeight e = t.card := by
  have hset : ((List.range 72).filter e.getLsbD).toFinset = t := by
    ext i
    simp only [List.mem_toFinset, List.mem_filter, List.mem_range, he, decide_eq_true_eq]
    exact and_iff_right_of_imp (ht i)
  rw [errWeight, ← hset, List.toFinset_card_of_nodup (List.nodup_range.filter _)]

theorem errWeight_zero : errWeight 0 = 0 :=
  errWeight_eq_card (t := ∅) (by simp) (by simp)

theorem errWeight_two_pow {i : Nat} (hi : i < 72) : errWeight (BitVec.ofNat 72 (2 ^ i)) = 1 := by
  refine (errWeight_eq_card (t := {i}) (by simpa using hi) fun k => ?_).trans (Finset.card_singleton i)
  rw [BitVec.getLsbD_ofNat, Nat.testBit_two_pow, ← Bool.decide_and, decide_eq_decide, Finset.mem_singleton]
  omega

theorem testBit_two_pow_add_two_pow {i j : Nat} (h : i ≠ j) (k : Nat) :
    (2 ^ i + 2 ^ j).testBit k = (decide (i = k) || decide (j = k)) := by
  wlog hlt : j < i generalizing i j
  · rw [Nat.add_comm, Bool.or_comm, this h.symm (by omega)]
  have hor : 2 ^ i + 2 ^ j = 2 ^ i ||| 2 ^ j := by
    simpa using Nat.two_pow_add_eq_or_of_lt (Nat.pow_lt_pow_right (by decide) hlt : 2 ^ j < 2 ^ i) 1
  rw [hor, Nat.testBit_or, Nat.testBit_two_pow, Nat.testBit_two_pow]

theorem errWeight_two_pow_add {i j : Nat} (hi : i < 72) (hj : j < 72) (hij : i ≠ j) :
    errWeight (BitVec.ofNat 72 (2 ^ i + 2 ^ j)) = 2 := by
  refine (errWeight_eq_card (t := {i, j}) (by simp [hi, hj]) fun k => ?_).trans (Finset.card_pair hij)
  rw [BitVec.getLsbD_ofNat, testBit_two_pow_add_two_pow hij, ← Bool.decide_or, ← Bool.decide_and, decide_eq_decide]
  simp only [Finset.mem_insert, Finset.mem_singleton]
  omega

variable {beyond : BitVec 72 → Nat} {x : BitVec 64} {e : BitVec 72}

theorem secdedRead_good (h : errWeight e = 0) : secdedRead beyond x e = (x, .good) := by
  unfold secdedRead
  simp only [h]

theorem secdedRead_corrected (h : errWeight e = 1) : secdedRead beyond x e = (x, .corrected) := by
  unfold secdedRead
  simp only [h]

theorem secdedRead_uncorrectable (h : errWeight e = 2) : secdedRead beyond x e = (x ^^^ e.setWidth 64, .uncorrectable) := by
  unfold secdedRead
  simp only [h]

/-- Settles O24: the row code by its syndrome and the odd weight of its columns' codes, the gallery's words by their number of wrong
bits. -/
theorem codesCorrectOneBit : Obligations.CodesCorrectOneBit := by
  unfold Obligations.CodesCorrectOneBit
  constructor
  · intro x i j hi hj hij
    have hw := rowSyndrome_rowEncode x
    exact ⟨rowEncode_lanes x, rowDecode_good hw, rowDecode_oneWrong hw hi, rowDecode_twoWrong hw hi hj hij⟩
  · intro beyond v i j hi hj hij
    refine ⟨secdedRead_good errWeight_zero, secdedRead_corrected (errWeight_two_pow hi), ?_⟩
    rw [secdedRead_uncorrectable (errWeight_two_pow_add hi hj hij)]

end Sys2Proof.Machine
end

section
/-! Steering (R56): the retired columns, in ascending order, are taken one by one, the highest last. -/

namespace Sys2Proof.Machine

theorem testBit_gapBit (v r p : Nat) :
    (gapBit v r).testBit p = if p < r then v.testBit p else if p = r then false else v.testBit (p - 1) := by
  have hlow : v % 2 ^ r < 2 ^ r := Nat.mod_lt _ (Nat.two_pow_pos r)
  have hgap : gapBit v r = 2 ^ r * (v / 2 ^ r * 2) + v % 2 ^ r := by
    unfold gapBit
    ring
  rw [hgap, Nat.testBit_two_pow_mul_add _ hlow]
  split_ifs with hlt heq
  · rw [Nat.testBit_mod_two_pow, decide_eq_true hlt, Bool.true_and]
  · rw [heq, Nat.sub_self, Nat.testBit_zero]
    simp
  · obtain ⟨k, rfl⟩ : ∃ k, p = r + k + 1 := ⟨p - r - 1, by omega⟩
    rw [show r + k + 1 - r = k + 1 by omega, Nat.testBit_succ, Nat.mul_div_cancel _ (by decide), Nat.testBit_div_two_pow,
      Nat.add_sub_cancel, Nat.add_comm k r]

/-- Taking a bit out undoes putting a 0 in. -/
theorem dropBit_gapBit (v r : Nat) : dropBit (gapBit v r) r = v := by
  have hlow : v % 2 ^ r < 2 ^ r := Nat.mod_lt _ (Nat.two_pow_pos r)
  have hmod : gapBit v r % 2 ^ r = v % 2 ^ r := by
    rw [gapBit, pow_succ, Nat.mul_comm (2 ^ r) 2, ← Nat.mul_assoc, Nat.add_mul_mod_self_right, Nat.mod_mod]
  have hdiv : gapBit v r / 2 ^ (r + 1) = v / 2 ^ r := by
    rw [gapBit, Nat.add_mul_div_right _ _ (Nat.two_pow_pos _), Nat.div_eq_of_lt (hlow.trans (Nat.pow_lt_pow_succ (by decide))),
      Nat.zero_add]
  rw [dropBit, hmod, hdiv, Nat.mod_add_div']

theorem gapBit_lt {v n : Nat} (r : Nat) (h : v < 2 ^ n) : gapBit v r < 2 ^ (n + 1) := by
  have hdiv : v / 2 ^ r * 2 ^ r + v % 2 ^ r = v := Nat.div_add_mod' v (2 ^ r)
  have hgap : gapBit v r = v % 2 ^ r + 2 * (v / 2 ^ r * 2 ^ r) := by
    unfold gapBit
    ring
  rw [pow_succ]
  omega

/-- A number with a 0 put in at each column of a list. -/
def gapBits (ret : List Nat) (v : Nat) : Nat := ret.foldl gapBit v

theorem gapBits_append (ret : List Nat) (r v : Nat) : gapBits (ret ++ [r]) v = gapBit (gapBits ret v) r := by
  simp [gapBits]

theorem dropBits_gapBits (ret : List Nat) (v : Nat) : ret.foldr (fun r v => dropBit v r) (gapBits ret v) = v := by
  induction ret using List.reverseRecOn with
  | nil => rfl
  | append_singleton ret r ih => rw [gapBits_append, List.foldr_append, List.foldr_cons, List.foldr_nil, dropBit_gapBit, ih]

theorem gapBits_lt {v n : Nat} (ret : List Nat) (h : v < 2 ^ n) : gapBits ret v < 2 ^ (n + ret.length) := by
  induction ret using List.reverseRecOn with
  | nil => exact h
  | append_singleton ret r ih => simpa [gapBits_append, Nat.add_assoc] using gapBit_lt r ih

/-- The number of retired columns below a column. -/
def retiredBelow (ret : List Nat) (p : Nat) : Nat := (ret.filter (· < p)).length

theorem retiredBelow_append (ret : List Nat) (r p : Nat) :
    retiredBelow (ret ++ [r]) p = retiredBelow ret p + if r < p then 1 else 0 := by
  unfold retiredBelow
  split_ifs with h <;> simp [List.filter_append, h]

theorem retiredBelow_of_all {ret : List Nat} {p : Nat} (h : ∀ r ∈ ret, r < p) : retiredBelow ret p = ret.length := by
  unfold retiredBelow
  rw [List.filter_eq_self.mpr fun r hr => decide_eq_true (h r hr)]

theorem physCol_append (ret : List Nat) (r j : Nat) :
    physCol (ret ++ [r]) j = if r ≤ physCol ret j then physCol ret j + 1 else physCol ret j := by
  unfold physCol
  rw [List.foldl_append]
  rfl

theorem physCol_le (ret : List Nat) (j : Nat) : physCol ret j ≤ j + ret.length := by
  induction ret using List.reverseRecOn with
  | nil => exact Nat.le_refl j
  | append_singleton ret r ih =>
    rw [physCol_append, List.length_append, List.length_singleton]
    split_ifs <;> omega

/-- An ascending list without its last element, which is above the others. -/
theorem ascending_append {ret : List Nat} {r : Nat} (h : (ret ++ [r]).Pairwise (· < ·)) :
    ret.Pairwise (· < ·) ∧ ∀ q ∈ ret, q < r := by
  obtain ⟨hret, -, hlast⟩ := List.pairwise_append.mp h
  exact ⟨hret, fun q hq => hlast q hq r (List.mem_singleton_self r)⟩

/-- The logical column that a physical column which is not retired serves (R56). -/
def serves (ret : List Nat) (p : Nat) : Nat := p - retiredBelow ret p

theorem serves_append_below {ret : List Nat} {r p : Nat} (h : p < r) : serves (ret ++ [r]) p = serves ret p := by
  rw [serves, serves, retiredBelow_append, if_neg (by omega), Nat.add_zero]

theorem serves_append_above {ret : List Nat} {r p : Nat} (hlast : ∀ q ∈ ret, q < r) (h : r < p) :
    serves (ret ++ [r]) p = serves ret (p - 1) := by
  have hhere : retiredBelow ret p = ret.length := retiredBelow_of_all fun q hq => (hlast q hq).trans h
  have hbelow : retiredBelow ret (p - 1) = ret.length := retiredBelow_of_all fun q hq => by have := hlast q hq; omega
  rw [serves, serves, retiredBelow_append, if_pos h, hhere, hbelow, Nat.add_comm, Nat.sub_add_eq]

variable {ret : List Nat}

/-- A column serves logical column j exactly if it is not retired and j is its number less the retired columns below it. -/
theorem physCol_eq_iff (h : ret.Pairwise (· < ·)) (j p : Nat) : physCol ret j = p ↔ p ∉ ret ∧ serves ret p = j := by
  induction ret using List.reverseRecOn generalizing p with
  | nil => simp [physCol, serves, retiredBelow, eq_comm]
  | append_singleton ret r ih =>
    obtain ⟨hret, hlast⟩ := ascending_append h
    rw [physCol_append, List.mem_append, List.mem_singleton]
    rcases lt_trichotomy p r with hlt | rfl | hgt
    · have hne : p ≠ r := hlt.ne
      rw [serves_append_below hlt, or_iff_left hne, ← ih hret]
      split_ifs <;> omega
    · simp only [or_true, not_true_eq_false, false_and, iff_false]
      split_ifs <;> omega
    · have hout : ∀ q, r ≤ q → q ∉ ret := fun q hq hmem => absurd (hlast q hmem) (by omega)
      have hprev := ih hret (p - 1)
      rw [and_iff_right (hout (p - 1) (by omega))] at hprev
      rw [serves_append_above hlast hgt, and_iff_right (not_or.mpr ⟨hout p hgt.le, hgt.ne'⟩), ← hprev]
      split_ifs <;> omega

/-- A steered word holds in a column that is not retired the bit of the logical column that it serves, and 0 in a retired one. -/
theorem testBit_gapBits (h : ret.Pairwise (· < ·)) (v p : Nat) :
    (gapBits ret v).testBit p = (decide (p ∉ ret) && v.testBit (serves ret p)) := by
  induction ret using List.reverseRecOn generalizing p with
  | nil => simp [gapBits, serves, retiredBelow]
  | append_singleton ret r ih =>
    obtain ⟨hret, hlast⟩ := ascending_append h
    rw [gapBits_append, testBit_gapBit]
    rcases lt_trichotomy p r with hlt | rfl | hgt
    · rw [if_pos hlt, ih hret, serves_append_below hlt]
      simp [hlt.ne]
    · simp
    · have hout : ∀ q, r ≤ q → q ∉ ret := fun q hq hmem => absurd (hlast q hmem) (by omega)
      rw [if_neg hgt.not_gt, if_neg hgt.ne', ih hret, serves_append_above hlast hgt]
      simp [hout p hgt.le, hout (p - 1) (by omega), hgt.ne']

theorem physCol_notMem (h : ret.Pairwise (· < ·)) (j : Nat) : physCol ret j ∉ ret := ((physCol_eq_iff h j _).mp rfl).1

theorem serves_physCol (h : ret.Pairwise (· < ·)) (j : Nat) : serves ret (physCol ret j) = j := ((physCol_eq_iff h j _).mp rfl).2

/-! The column that serves, and the words before and behind the steering. -/

theorem findIdx_eq_some {n j : Nat} {f : Nat → Bool} (hj : j < n) (hf : ∀ i, f i = true ↔ i = j) : findIdx n f = some j := by
  cases hfind : findIdx n f with
  | none => exact absurd ((hf j).mpr rfl) (List.find?_eq_none.mp hfind j (List.mem_range.mpr hj))
  | some i => rw [(hf i).mp (List.find?_some hfind)]

theorem servedCol_retired {p : Nat} (h : ret.Pairwise (· < ·)) (hp : p ∈ ret) : servedCol ret p = none := by
  refine List.find?_eq_none.mpr fun j _ hj => ?_
  exact ((physCol_eq_iff h j p).mp (of_decide_eq_true hj)).1 hp

theorem servedCol_spare {p : Nat} (h : ret.Pairwise (· < ·)) (hs : 71 < serves ret p) : servedCol ret p = none := by
  refine List.find?_eq_none.mpr fun j hj heq => ?_
  have hcol := ((physCol_eq_iff h j p).mp (of_decide_eq_true heq)).2
  have hlt := List.mem_range.mp hj
  omega

theorem servedCol_serving {p : Nat} (h : ret.Pairwise (· < ·)) (hp : p ∉ ret) (hs : serves ret p ≤ 71) :
    servedCol ret p = some (serves ret p) := by
  refine findIdx_eq_some (Nat.lt_succ_of_le hs) fun i => ?_
  rw [decide_eq_true_eq, physCol_eq_iff h, and_iff_right hp, eq_comm]

variable (w : BitVec 72)

theorem gapBits_fits (hl : ret.length ≤ 4) : gapBits ret w.toNat < 2 ^ 76 :=
  (gapBits_lt ret w.isLt).trans_le (Nat.pow_le_pow_right (by decide) (by omega))

/-- Reading back through the same columns loses no bit. -/
theorem steerIn_steerOut (hl : ret.length ≤ 4) : steerIn ret (steerOut ret w) = w := by
  have hout : (steerOut ret w).toNat = gapBits ret w.toNat := by
    rw [steerOut, BitVec.toNat_ofNat]
    exact Nat.mod_eq_of_lt (gapBits_fits w hl)
  rw [steerIn, hout, dropBits_gapBits, BitVec.ofNat_toNat, BitVec.setWidth_eq]

theorem getLsbD_steerOut {p : Nat} (h : ret.Pairwise (· < ·)) (hp : p < 76) :
    (steerOut ret w).getLsbD p = (decide (p ∉ ret) && w.getLsbD (serves ret p)) := by
  rw [steerOut, BitVec.getLsbD_ofNat, decide_eq_true hp, Bool.true_and]
  exact testBit_gapBits h w.toNat p

/-- Settles O25: the columns that serve by induction on the retired columns, the highest last, as are the bits of a steered word. -/
theorem steeringRoundTrip : Obligations.SteeringRoundTrip := by
  unfold Obligations.SteeringRoundTrip
  intro ret w h hl hlt
  refine ⟨steerIn_steerOut w hl, ?retired, ?column, ?logical⟩
  case retired =>
    intro r hr
    refine ⟨?_, servedCol_retired h hr⟩
    rw [getLsbD_steerOut w h (hlt r hr), decide_eq_false (not_not_intro hr), Bool.false_and]
  case column =>
    intro p hp hmem
    have hbit : (steerOut ret w).getLsbD p = w.getLsbD (serves ret p) := by
      rw [getLsbD_steerOut w h hp, decide_eq_true hmem, Bool.true_and]
    refine ⟨fun hs => ⟨servedCol_serving h hmem hs, hbit⟩, fun hs => ⟨servedCol_spare h hs, ?_⟩⟩
    exact hbit.trans (BitVec.getLsbD_of_ge w _ hs)
  case logical =>
    intro j hj
    have hle := physCol_le ret j
    refine ⟨physCol_notMem h j, by omega, serves_physCol h j, fun p _ hmem hs => ?_⟩
    exact ((physCol_eq_iff h j p).mpr ⟨hmem, hs⟩).symm

end Sys2Proof.Machine
end

section
/-! An array instruction that its idle stream begins at once (R75, R132), up to the effect of its own routine. -/

namespace Sys2Proof.Machine

variable {d : Dev} {opc : Nat} {a : AOp}

theorem opc_makeJob (d : Dev) (c : StreamId) (a : AOp) (h : opc < 128) : (d.makeJob c opc a).opc = BitVec.ofNat 7 opc := by
  change BitVec.ofNat 7 (opc % 128) = _
  rw [Nat.mod_eq_of_lt h]

theorem opc_makeJob_toNat (d : Dev) (c : StreamId) (a : AOp) (h : opc < 128) : (d.makeJob c opc a).opc.toNat = opc := by
  rw [opc_makeJob d c a h, BitVec.toNat_ofNat, Nat.mod_eq_of_lt h]

@[simp] theorem st_modSt_same (d : Dev) (s : StreamId) (f : Strm → Strm) : (d.modSt s f).st s = f (d.st s) := st_setSt_same d s _

theorem jobs_markHold (d : Dev) (s : StreamId) (j : Job) : ((d.markHold s j).st s).jobs = (d.st s).jobs := by
  unfold Dev.markHold
  split
  · rw [st_modSt_same]
  · rfl

theorem st_setFlag (d : Dev) (s : StreamId) (f : Fld) (b : Bool) : (d.setFlag f b).st s = d.st s := rfl

theorem jobs_enqueue (d : Dev) (s : StreamId) (j : Job) : ((d.enqueue s j).st s).jobs = (d.st s).jobs ++ [j] := by
  unfold Dev.enqueue
  dsimp only
  split
  · rw [st_modSt_same]
  · rw [st_setFlag, st_modSt_same]

theorem jobs_accepted (d : Dev) (opc : Nat) (a : AOp) :
    ((d.accepted opc a).st a.core).jobs = (d.st a.core).jobs ++ [d.makeJob a.core opc a] :=
  (jobs_markHold _ a.core _).trans (jobs_enqueue d a.core _)

/-- An instruction that is accepted by a stream with an empty queue is tried at once. -/
theorem arrayIssue_accepts (h : d.Accepts opc a) (hne : opc ≠ 0x4C) (hq : (d.st a.core).jobs = []) :
    d.arrayIssue opc a = (d.accepted opc a).startNext a.core := by
  obtain ⟨hoffers, haccept⟩ := h
  rw [arrayIssue_offers hoffers, haccept]
  simp only [hne, hq, List.isEmpty_nil, if_true, if_false]

/-- An instruction that can start leaves the queue and begins. -/
theorem startNext_accepted (hq : (d.st a.core).jobs = [])
    (hs : (d.accepted opc a).canStart a.core (d.makeJob a.core opc a) = true) :
    (d.accepted opc a).startNext a.core = (d.started opc a).begin a.core (d.makeJob a.core opc a) := by
  have hjobs : ((d.accepted opc a).st a.core).jobs = [d.makeJob a.core opc a] := by rw [jobs_accepted, hq, List.nil_append]
  unfold Dev.startNext
  rw [hjobs]
  simp only [hs, if_true]
  rfl

/-- A vendor routine whose entry word is the ROM's and valid acts whole (R131, R147). -/
theorem begin_runVendor {s : StreamId} {j : Job} (hlt : j.opc.toNat < 0x6C) (hr : d.redirected j.opc = false)
    (hgood : microFind (d.uErrOf (vendorEntry j.opc).toNat) = .good) : d.begin s j = d.runVendor s j := by
  have hmicro : d.isMicro j = false := by
    simp only [Dev.isMicro, isCustomer, hr, Bool.or_false, decide_eq_false_iff_not]
    omega
  have hcount : d.countMicro s (vendorEntry j.opc).toNat = d := by
    unfold Dev.countMicro
    rw [hgood]
    rfl
  have ho : j.opc.toNat ≠ 0x6F ∧ j.opc.toNat ≠ 0x6E ∧ j.opc.toNat ≠ 0x6C ∧ j.opc.toNat ≠ 0x6D := by omega
  obtain ⟨hmode, hmilestone, hin, hout⟩ := ho
  unfold Dev.begin
  simp only [hmicro, hcount, hmode, hmilestone, hin, hout, Bool.false_eq_true, if_false, decide_false, Bool.or_self]

/-- What an array instruction of the PEs does that its idle stream begins at once: its whole routine. -/
theorem arrayIssue_begins (h : d.Begins opc a) (hlt : opc < 0x6C) (hne : opc ≠ 0x4C) :
    d.arrayIssue opc a = (d.started opc a).runVendor a.core (d.makeJob a.core opc a) := by
  obtain ⟨haccepts, hq, hstart, hr, hgood⟩ := h
  have hopc := opc_makeJob d a.core a (show opc < 128 by omega)
  have hnat := opc_makeJob_toNat d a.core a (show opc < 128 by omega)
  rw [arrayIssue_accepts haccepts hne hq, startNext_accepted hq hstart]
  exact begin_runVendor (hnat.symm ▸ hlt) (hopc.symm ▸ hr) (hopc.symm ▸ hgood (by omega))

end Sys2Proof.Machine
end

section
/-! The instructions that leave an OR sample (R69, R97, R124): the OR instructions and array floating point. -/

namespace Sys2Proof.Machine

variable {d : Dev} {s : StreamId} {j : Job}

/-- An opcode outside a range, as the model's branches test it. -/
theorem outside_range {n lo hi : Nat} (h : n < lo ∨ hi < n) : ¬(decide (lo ≤ n) && decide (n ≤ hi)) = true := by
  rw [Bool.and_eq_true, decide_eq_true_eq, decide_eq_true_eq]
  omega

/-- An opcode that is neither of two, as the model's branches test it. -/
theorem neither_of {n a b : Nat} (ha : n ≠ a) (hb : n ≠ b) : (decide (n = a) || decide (n = b)) = false := by
  rw [decide_eq_false ha, decide_eq_false hb, Bool.or_false]

/-- The opcode of an OR instruction (R97). -/
def isOr (opc : Nat) : Bool := 0x50 ≤ opc && opc ≤ 0x53

/-- What an OR instruction does in one row: it reads FA and leaves C undefined. -/
def Dev.rowOr (d : Dev) (j : Job) (g p row : Nat) : Dev := (d.accountField p row (fieldAddrs j.dA.1) .ra).looseCarry p row g

theorem vendorEffect_or (h : isOr j.opc.toNat = true) (s : Nat) (toks : List (BitVec 512)) : d.vendorEffect s j toks =
    (({ d with free := d.free + 1 } : Dev).forRows s (fun e _ p row => e.rowOr j d.free p row)).looseEnd s := by
  obtain ⟨hlo, hhi⟩ : 0x50 ≤ j.opc.toNat ∧ j.opc.toNat ≤ 0x53 := by simpa [isOr] using h
  have hor : (decide (0x50 ≤ j.opc.toNat) && decide (j.opc.toNat ≤ 0x53)) = true := h
  unfold Dev.vendorEffect
  dsimp only
  rw [if_neg (by omega), if_neg (outside_range (by omega)), if_neg (outside_range (by omega)), if_neg (by omega), if_pos hor]
  rfl

theorem vendorEffect_fp (h : isFp j.opc.toNat = true) (s : Nat) (toks : List (BitVec 512)) : d.vendorEffect s j toks =
    (({ d with free := d.free + 1 } : Dev).forRows s (fun e _ p row => e.rowFp j d.free p row)).looseEnd s := by
  obtain ⟨hlo, hhi⟩ : 0x58 ≤ j.opc.toNat ∧ j.opc.toNat ≤ 0x6B := by simpa [isFp] using h
  unfold Dev.vendorEffect
  dsimp only
  rw [if_neg (by omega), if_neg (outside_range (by omega)), if_neg (outside_range (by omega)), if_neg (by omega),
    if_neg (outside_range (by omega)), if_pos h]
  rfl

theorem le_of_samples {n : Nat} (h : (isOr n || isFp n) = true) : 0x50 ≤ n := by
  simp only [isOr, isFp, Bool.or_eq_true, Bool.and_eq_true, decide_eq_true_eq] at h
  omega

/-- A routine that takes a sample leaves it on its way to its core, with its cost in the span (R69, R200). -/
theorem runVendor_samples (h : (isOr j.opc.toNat || isFp j.opc.toNat) = true) (hj : j.delivered = false) : d.runVendor s j =
    (((d.twinStream s.val).vendorEffect s.val j ((d.jobTokens s j).getD [])).vendorMicro s j).modSt s (fun x => { x with
      span := x.span + d.jobCost s j
      smp := some ⟨j.smpUse, d.orBits s.val j, d.halls16 s, 0, j.opc.toNat = 0x51 || j.opc.toNat = 0x53, j.idx, false, []⟩ }) := by
  have hget : (decide (0x30 ≤ j.opc.toNat) && decide (j.opc.toNat ≤ 0x37)) = false := by
    have hlo : 0x50 ≤ j.opc.toNat := le_of_samples h
    exact eq_false_of_ne_true (outside_range (by omega))
  have htakes : (decide (0x50 ≤ j.opc.toNat) && decide (j.opc.toNat ≤ 0x53) || isFp j.opc.toNat) = true := h
  unfold Dev.runVendor
  simp only [htakes, if_true, hj, hget, Bool.false_eq_true, if_false]
  rfl

theorem orBits_or (h : isFp j.opc.toNat = false) (s : Nat) :
    d.orBits s j = (d.streamHalls s).foldl (fun v h => setBit v h (d.hallOr j (d.phys h))) 0 := by
  unfold Dev.orBits
  simp only [h, Bool.false_eq_true, if_false]

theorem orBits_fp (h : isFp j.opc.toNat = true) (s : Nat) :
    d.orBits s j = (d.streamHalls s).foldl (fun v h => setBit v h (d.hallFlags j (d.phys h))) 0 := by
  unfold Dev.orBits
  simp only [h, if_true]

theorem smpUse_fp (h : isFp j.opc.toNat = true) : j.smpUse = .toFlag (fpCtlOf j.fpctl).trap j.opc := by
  obtain ⟨hlo, hhi⟩ : 0x58 ≤ j.opc.toNat ∧ j.opc.toNat ≤ 0x6B := by simpa [isFp] using h
  unfold Job.smpUse
  dsimp only
  rw [neither_of (by omega) (by omega), neither_of (by omega) (by omega)]
  rfl

/-- The part after an instruction of an idle stream whose rows and sample are given (R69). -/
def Dev.sampled (d : Dev) (opc : Nat) (a : AOp) (use : SmpUse) (barrier : Bool) (bit : Dev → Job → Nat → Bool)
    (f : Job → Nat → Dev → Nat → Nat → Nat → Dev) : Dev :=
  let j := d.makeJob a.core opc a
  let e := d.started opc a
  let bits := (e.streamHalls a.core).foldl (fun v h => setBit v h (bit e j (e.phys h))) (0 : BitVec 16)
  ((e.everyRow a.core (f j)).vendorMicro a.core j).modSt a.core (fun x => { x with
    span := x.span + e.jobCost a.core j, smp := some ⟨use, bits, e.halls16 a.core, 0, barrier, j.idx, false, []⟩ })

variable {opc : Nat} {a : AOp}

theorem arrayIssue_or (h : d.Begins opc a) (ho : isOr opc = true) : d.arrayIssue opc a =
    d.sampled opc a (d.makeJob a.core opc a).smpUse (opc = 0x51 || opc = 0x53) (fun e j p => e.hallOr j p)
      (fun j g e _ p row => e.rowOr j g p row) := by
  obtain ⟨hlo, hhi⟩ : 0x50 ≤ opc ∧ opc ≤ 0x53 := by simpa [isOr] using ho
  have hnat := opc_makeJob_toNat d a.core a (show opc < 128 by omega)
  have hor : isOr (d.makeJob a.core opc a).opc.toNat = true := hnat.symm ▸ ho
  have hfp : isFp (d.makeJob a.core opc a).opc.toNat = false := by
    rw [hnat]
    exact eq_false_of_ne_true (outside_range (by omega))
  rw [arrayIssue_begins h (by omega) (by omega), runVendor_samples (by rw [hor, Bool.true_or]) rfl, vendorEffect_or hor,
    orBits_or hfp, hnat]
  rfl

theorem arrayIssue_fp (h : d.Begins opc a) (ho : isFp opc = true) : d.arrayIssue opc a =
    d.sampled opc a (.toFlag ((d.reg (R.SEQ_FPCTL a.core)).getLsbD 9) (BitVec.ofNat 7 opc)) false (fun e j p => e.hallFlags j p)
      (fun j g e _ p row => e.rowFp j g p row) := by
  obtain ⟨hlo, hhi⟩ : 0x58 ≤ opc ∧ opc ≤ 0x6B := by simpa [isFp] using ho
  have hopc := opc_makeJob d a.core a (show opc < 128 by omega)
  have hnat := opc_makeJob_toNat d a.core a (show opc < 128 by omega)
  have hfp : isFp (d.makeJob a.core opc a).opc.toNat = true := hnat.symm ▸ ho
  have hbarrier : (decide (opc = 0x51) || decide (opc = 0x53)) = false := neither_of (by omega) (by omega)
  rw [arrayIssue_begins h (by omega) (by omega), runVendor_samples (by rw [hfp, Bool.or_true]) rfl, vendorEffect_fp hfp,
    orBits_fp hfp, smpUse_fp hfp, hnat, hbarrier, hopc]
  rfl

/-- The OR instructions: opcode, whether the result goes to a D register, whether the stream waits for it (R97, R98). -/
def orInstrs : List ((AOp → Instr) × Nat × Bool × Bool) :=
  [(Instr.agor, 0x50, false, false), (Instr.agorB, 0x51, false, true), (Instr.hor, 0x52, true, false), (Instr.horB, 0x53, true, true)]

theorem exec_orInstr {e : (AOp → Instr) × Nat × Bool × Bool} (he : e ∈ orInstrs) (a : AOp) (s : State) :
    exec (e.1 a) s = s.run (fun d => d.arrayIssue e.2.1 a) := by
  fin_cases he <;> rfl

theorem isOr_orInstr : ∀ e ∈ orInstrs.map Prod.snd, isOr e.1 = true := by decide

theorem barrier_orInstr : ∀ e ∈ orInstrs.map Prod.snd, (decide (e.1 = 0x51) || decide (e.1 = 0x53)) = e.2.2 := by decide

theorem smpUse_orInstr {e : (AOp → Instr) × Nat × Bool × Bool} (he : e ∈ orInstrs) (d : Dev) (a : AOp) :
    (d.makeJob a.core e.2.1 a).smpUse = if e.2.2.1 then .toData a.core a.sd else .toPred a.core a.sd := by
  fin_cases he <;> rfl

/-- The array floating-point instructions with their opcodes (R99). -/
def fpInstrs : List ((AOp → Instr) × Nat) :=
  [(Instr.faddH, 0x58), (Instr.fsubH, 0x59), (Instr.fmulH, 0x5A), (Instr.fmaH, 0x5B), (Instr.fceqH, 0x5C), (Instr.fcltH, 0x5D),
    (Instr.fcleH, 0x5E), (Instr.fcvtSH, 0x5F), (Instr.faddS, 0x60), (Instr.fsubS, 0x61), (Instr.fmulS, 0x62), (Instr.fmaS, 0x63),
    (Instr.fceqS, 0x64), (Instr.fcltS, 0x65), (Instr.fcleS, 0x66), (Instr.fcvtHS, 0x67), (Instr.fcvtHI, 0x68), (Instr.fcvtSI, 0x69),
    (Instr.fcvtIH, 0x6A), (Instr.fcvtIS, 0x6B)]

theorem exec_fpInstr {e : (AOp → Instr) × Nat} (he : e ∈ fpInstrs) (a : AOp) (s : State) :
    exec (e.1 a) s = s.run (fun d => d.arrayIssue e.2 a) := by
  fin_cases he <;> rfl

theorem isFp_fpInstr : ∀ o ∈ fpInstrs.map Prod.snd, isFp o = true := by decide

/-- Settles O19: the OR and the floating-point instructions as routines that act whole and take a sample. -/
theorem arraySamplesAndFloatRun : Obligations.ArraySamplesAndFloatRun := by
  unfold Obligations.ArraySamplesAndFloatRun
  intro s a
  refine ⟨fun e he hb => ?_, fun e he hb => ?_⟩
  · have hmem := List.mem_map_of_mem (f := Prod.snd) he
    have hrun := arrayIssue_or hb (isOr_orInstr _ hmem)
    rw [smpUse_orInstr he, barrier_orInstr _ hmem] at hrun
    rw [exec_orInstr he]
    exact run_eq_after hrun
  · rw [exec_fpInstr he]
    exact run_eq_after (arrayIssue_fp hb (isFp_fpInstr _ (List.mem_map_of_mem he)))

end Sys2Proof.Machine
end

section
/-! The OR result (R69 to R71, R98, R204): its release by the halls, its forming, its delivery. -/

namespace Sys2Proof.Machine

variable {d : Dev} {x : StreamId} {h : LHall} {m : Smp}

theorem hallStream_eq {f : StreamId → Dev} (hx : d.stream? (d.streamOf h.val) = some x) : d.hallStream h f = f x := by
  unfold Dev.hallStream
  rw [hx]

theorem onStream_eq {f : Dev → Dev} (hx : x.val < d.numStreams) : d.onStream x f = f d := if_pos hx

/-- Every hall of the stream has contributed and released the outstanding sample, and no upset is reported (R70, R204). -/
def Dev.orDue (d : Dev) (x : StreamId) (m : Smp) : Prop :=
  (d.st x).smp = some m ∧ (m.contrib &&& d.halls16 x) = d.halls16 x ∧ (m.release &&& d.halls16 x) = d.halls16 x ∧
    d.upsetPending x = false ∧ (d.st x).smpq = []

/-- The tree is free and the condition latch holds the result. -/
def Dev.orLatched (d : Dev) (x : StreamId) (m : Smp) : Dev :=
  d.modSt x (fun y => { y with smp := none, smpq := [], micro := { y.micro with hor := m.bits, cval := true, waitOr := false } })

/-- The log entry of an instruction is marked delivered (R203). -/
def Dev.markDelivered (d : Dev) (x : StreamId) (i : Nat) : Dev :=
  d.modSt x (fun y => { y with log := y.log.map (fun j => if j.idx = i then { j with delivered := true } else j) })

/-- What the forming of an OR result does: the latch takes it, and unless it is the latch's alone or quiet it is delivered. -/
theorem formOr_due (hd : d.orDue x m) : d.formOr x =
    if m.quiet || m.use == .latch then d.orLatched x m
    else (forEach m.also ((d.orLatched x m).deliver x m) (fun e u => e.deliver x { m with use := u })).markDelivered x m.idx := by
  obtain ⟨hsmp, hcontrib, hrelease, hupset, hqueue⟩ := hd
  have hlatch : d.modSt x (fun y => { y with
      smp := y.smpq.head?, smpq := y.smpq.tail,
      micro := { y.micro with hor := m.bits, cval := y.smpq.isEmpty, waitOr := y.micro.waitOr && !y.smpq.isEmpty } }) =
      d.orLatched x m := by
    unfold Dev.orLatched Dev.modSt
    simp [hqueue]
  have hmask : d.hallMask x = d.halls16 x := rfl
  unfold Dev.formOr
  simp only [hsmp, hmask, hcontrib, hrelease, hupset, hlatch, Bool.not_false, decide_true, Bool.and_true, if_true]
  rfl

theorem formOr_latch (hd : d.orDue x m) (hm : m.use = .latch ∨ m.quiet = true) : d.formOr x = d.orLatched x m := by
  rw [formOr_due hd, if_pos]
  rcases hm with hm | hm <;> simp [hm]

theorem formOr_delivers (hd : d.orDue x m) (hu : m.use ≠ .latch) (hq : m.quiet = false) : d.formOr x =
    (forEach m.also ((d.orLatched x m).deliver x m) (fun e u => e.deliver x { m with use := u })).markDelivered x m.idx := by
  rw [formOr_due hd, if_neg]
  simp [hu, hq]

/-- A result with one destination. -/
theorem formOr_delivers_one (hd : d.orDue x m) (hu : m.use ≠ .latch) (ha : m.also = []) (hq : m.quiet = false) :
    d.formOr x = ((d.orLatched x m).deliver x m).markDelivered x m.idx := by
  rw [formOr_delivers hd hu hq, ha, forEach_nil]

theorem deliver_toPred {c : CoreId} {n : BitVec 5} (hm : m.use = .toPred c n) : d.deliver x m = d.modCo c (fun k =>
    { k with pendP := setBit k.pendP (n.toNat % 8) false }.wrp (n.setWidth 3) (m.bits ≠ 0)) := by
  unfold Dev.deliver
  rw [hm]

theorem deliver_toData {c : CoreId} {n : BitVec 5} (hm : m.use = .toData c n) : d.deliver x m = d.modCo c (fun k =>
    { k with pendD := setBit k.pendD (n.toNat % 16) false }.wrd (n.setWidth 4) (m.bits.setWidth 32)) := by
  unfold Dev.deliver
  rw [hm]

/-- A floating-point sample's result adds to AF. -/
def Dev.addAf (d : Dev) (x : StreamId) (b : BitVec 16) : Dev := if b ≠ 0 then d.setFlag (R.SEQ_FPST_AF x) true else d

theorem deliver_toFlag {trap : Bool} {opc : BitVec 7} (hm : m.use = .toFlag trap opc) : d.deliver x m =
    if trap then (d.addAf x m.bits).modSt x (fun y => if m.bits ≠ 0 then { y with fpTrap := some opc } else { y with fpHold := false })
    else d.addAf x m.bits := by
  unfold Dev.deliver
  rw [hm]
  rfl

/-- The held core takes the floating-point trap (R125). -/
theorem arrayFpTrap_taken {opc : BitVec 7} (hf : (d.st x).fpTrap = some opc) (hrun : (d.co x).mode = .run)
    (hhalt : (d.co x).halted = false) (himpr : (d.co x).impr = []) : d.arrayFpTrap x =
      ((if d.flag (R.SEQ_FPST_TVAL x) then d
        else (d.setFld (R.SEQ_FPST_TOPC x) opc.toNat).setFlag (R.SEQ_FPST_TVAL x) true).modSt x
          (fun y => { y with fpTrap := none, fpHold := false })).trapHere x .arrayFp := by
  unfold Dev.arrayFpTrap
  simp [hf, hrun, hhalt, himpr]

end Sys2Proof.Machine
end

section
/-! The halls' reports (R166, R167). -/

namespace Sys2Proof.Machine

variable {d e : Dev} {x : StreamId} {h : LHall} {j : Job}

/-- Whether an upset of a stream waits goes by the reports and by the registers that place a hall in its stream. -/
theorem upsetPending_congr (hr : e.arr.reports = d.arr.reports) (hsub : e.reg R.SEQ_HSUB = d.reg R.SEQ_HSUB)
    (hctrl : e.reg R.SEQ_CTRL = d.reg R.SEQ_CTRL) (x : StreamId) : e.upsetPending x = d.upsetPending x := by
  have hphys : e.phys = d.phys := by
    funext h
    have hv : e.flag R.SEQ_HSUB_V = d.flag R.SEQ_HSUB_V := congrArg (fun w : Word => decide (bits w.toNat 31 31 ≠ 0)) hsub
    have hn : e.fld R.SEQ_HSUB_HALL = d.fld R.SEQ_HSUB_HALL := congrArg (fun w : Word => bits w.toNat 3 0) hsub
    rw [Dev.phys, Dev.phys, hv, hn]
  have hstream : e.streamOf = d.streamOf := by
    have hn : e.numStreams = d.numStreams := congrArg (fun w : Word => streamsOf (bits w.toNat 1 0)) hctrl
    funext h
    rw [Dev.streamOf, Dev.streamOf, Dev.perStream, Dev.perStream, hn]
  have hlogical : e.logicalOf = d.logicalOf := by
    funext p
    rw [Dev.logicalOf, Dev.logicalOf, hphys]
  unfold Dev.upsetPending
  rw [hr, hstream, hlogical]

theorem reg_countStall {a : Nat} (d : Dev) (h : LHall) (c n : Nat) (ha : a < R.HALL_STALL 0 0) : (d.countStall h c n).reg a = d.reg a := by
  have hlow : R.HALL_STALL 0 0 ≤ R.HALL_STALL (d.phys h.val) c := by
    simp only [R.HALL_STALL]
    omega
  exact reg_addFld_ne _ _ (f := R.HALL_STALL_COUNT (d.phys h.val) c) (ha.trans_le hlow).ne

theorem upsetPending_countStall (d : Dev) (h : LHall) (c n : Nat) (x : StreamId) :
    (d.countStall h c n).upsetPending x = d.upsetPending x :=
  have hreports : (d.countStall h c n).arr.reports = d.arr.reports := rfl
  have hsub : (d.countStall h c n).reg R.SEQ_HSUB = d.reg R.SEQ_HSUB := reg_countStall d h c n (by decide)
  have hctrl : (d.countStall h c n).reg R.SEQ_CTRL = d.reg R.SEQ_CTRL := reg_countStall d h c n (by decide)
  upsetPending_congr hreports hsub hctrl x

theorem carryAtReport_off (hc : ¬(j.sd.getLsbD 0 = true ∧ d.flag (R.SEQ_CARRY_CEN x) = true)) : d.carryAtReport x j h = d := by
  unfold Dev.carryAtReport
  rw [if_neg]
  rwa [Bool.and_eq_true]

/-- A hall's report of a MILESTONE joins the set that the commit waits for (R166). -/
theorem repReport_mstone {rep : BitVec 16} (hx : d.stream? (d.streamOf h.val) = some x) (hu : d.upsetPending x = false)
    (hrun : (d.st x).run = .mstone j rep) (hrep : rep.getLsbD h.val = false)
    (hc : ¬(j.sd.getLsbD 0 = true ∧ d.flag (R.SEQ_CARRY_CEN x) = true)) :
    d.repReport h = (d.countStall h 4 0).modSt x (fun y => { y with run := .mstone j (setBit rep h.val true) }) := by
  unfold Dev.repReport
  simp only [hx, hu, hrun, hrep, carryAtReport_off hc, upsetPending_countStall, Bool.false_eq_true, if_false]

/-- A hall's report of a transfer ends it once every hall has reported (R167). -/
theorem repReport_xfer {moved rep : BitVec 16} (hx : d.stream? (d.streamOf h.val) = some x) (hu : d.upsetPending x = false)
    (hrun : (d.st x).run = .xfer j moved rep) (hmoved : moved.getLsbD h.val = true) (hrep : rep.getLsbD h.val = false) :
    let rep' := setBit rep h.val true
    let t := d.modSt x (fun y => { y with run := .xfer j moved rep' })
    d.repReport h = if (rep' &&& d.halls16 x) = d.halls16 x
      then (((t.advanceChan j).closeChan x j.sb.toNat).modSt x (fun y => { y with run := .idle })).looseEnd x.val else t := by
  unfold Dev.repReport
  simp only [hx, hu, hrun, hmoved, hrep, Bool.not_true, Bool.or_self, Bool.false_eq_true, if_false]
  rfl

end Sys2Proof.Machine
end

section
/-! The commands of results and reports. -/

namespace Sys2Proof.Machine

variable {s : State} {x : StreamId} {h : LHall}

theorem exec_orRelease_eq (hx : s.dev.stream? (s.dev.streamOf h.val) = some x) :
    exec (.orRelease h) s = s.after (s.dev.releaseOr x h) := by
  rw [exec_orRelease, execOrRelease]
  exact run_eq_after (hallStream_eq hx)

theorem exec_orResultFormed_eq {e : Dev} (hx : x.val < s.dev.numStreams) (he : s.dev.formOr x = e) :
    exec (.orResultFormed x) s = s.after e := by
  rw [exec_orResultFormed, execOrResultFormed]
  exact run_eq_after ((onStream_eq hx).trans he)

/-- Settles O30: each clause is one command, by what the forming of a result, its delivery, the trap and a report do. -/
theorem resultsAndReportsArrive : Obligations.ResultsAndReportsArrive := by
  unfold Obligations.ResultsAndReportsArrive
  intro s x h
  refine ⟨exec_orRelease_eq, ?formed, ?trap, ?reports⟩
  case formed =>
    intro m hx hsmp hcontrib hrelease hupset hqueue
    have hd : s.dev.orDue x m := ⟨hsmp, hcontrib, hrelease, hupset, hqueue⟩
    refine ⟨?latch, ?delivers, ?pred, ?data, ?flag⟩
    case latch => exact fun hm => exec_orResultFormed_eq hx (formOr_latch hd hm)
    case delivers => exact fun hu hq => exec_orResultFormed_eq hx (formOr_delivers hd hu hq)
    case pred =>
      intro c n hm ha hq
      refine exec_orResultFormed_eq hx ((formOr_delivers_one hd (by simp [hm]) ha hq).trans ?_)
      rw [deliver_toPred hm]
      rfl
    case data =>
      intro c n hm ha hq
      refine exec_orResultFormed_eq hx ((formOr_delivers_one hd (by simp [hm]) ha hq).trans ?_)
      rw [deliver_toData hm]
      rfl
    case flag =>
      intro trap opc hm ha hq
      refine exec_orResultFormed_eq hx ((formOr_delivers_one hd (by simp [hm]) ha hq).trans ?_)
      rw [deliver_toFlag hm]
      rfl
  case trap =>
    intro opc hf hrun hhalt himpr
    rw [exec_arrayFpTrap, execArrayFpTrap]
    exact run_eq_after (arrayFpTrap_taken hf hrun hhalt himpr)
  case reports =>
    intro hx hu
    refine ⟨fun j rep hrun hrep hc => ?_, fun j moved rep hrun hmoved hrep => ?_⟩
    · rw [exec_repReport, execRepReport]
      exact run_eq_after (repReport_mstone hx hu hrun hrep hc)
    · rw [exec_repReport, execRepReport]
      exact run_eq_after (repReport_xfer hx hu hrun hmoved hrep)

end Sys2Proof.Machine
end

section
/-! Array instructions that wait in their stream's queue (R73, R75, R132). -/

namespace Sys2Proof.Machine

variable {d : Dev} {s : StreamId} {j : Job} {opc : Nat} {a : AOp}

/-- The instruction comes to its core's issue point under the opcode (R73, R85, R99). -/
def IssuesAs (i : AOp → Instr) (opc : Nat) : Prop := ∀ a s, exec (i a) s = s.run (fun d => d.arrayIssue opc a)

/-- What an instruction does that comes to its core's issue point under an opcode. -/
theorem IssuesAs.exec_eq {i : AOp → Instr} {s : State} {e : Dev} (h : IssuesAs i opc) (hd : s.dev.arrayIssue opc a = e) :
    exec (i a) s = s.after e :=
  (h a s).trans (run_eq_after hd)

theorem issuesAs_customerOpcode (n : BitVec 4) : IssuesAs (.customerOpcode n) (0x70 + n.toNat) := fun _ _ => rfl

theorem log_markHold (d : Dev) (s : StreamId) (j : Job) : ((d.markHold s j).st s).log = (d.st s).log := by
  unfold Dev.markHold
  split
  · rw [st_modSt_same]
  · rfl

theorem log_enqueue (d : Dev) (s : StreamId) (j : Job) : ((d.enqueue s j).st s).log = (d.st s).log ++ [j] := by
  unfold Dev.enqueue
  dsimp only
  split
  · rw [st_modSt_same]
  · rw [st_setFlag, st_modSt_same]

/-- An accepted instruction is logged (R203). -/
theorem log_accepted (d : Dev) (opc : Nat) (a : AOp) :
    ((d.accepted opc a).st a.core).log = (d.st a.core).log ++ [d.makeJob a.core opc a] :=
  (log_markHold _ a.core _).trans (log_enqueue d a.core _)

/-- An instruction that is accepted by a stream in which others wait is queued, and nothing else happens (R132). -/
theorem arrayIssue_queues (h : d.Accepts opc a) (hne : opc ≠ 0x4C) (hq : (d.st a.core).jobs ≠ []) :
    d.arrayIssue opc a = d.accepted opc a := by
  obtain ⟨hoffers, haccept⟩ := h
  rw [arrayIssue_offers hoffers, haccept]
  simp only [hne, List.isEmpty_iff, hq, if_false]

/-- Settles O16: an accepted instruction joins queue and log under its own opcode. -/
theorem arrayInstructionsQueue : Obligations.ArrayInstructionsQueue := by
  unfold Obligations.ArrayInstructionsQueue
  refine ⟨fun e he s a h hq => ?_, fun s n a h hq => ?_⟩
  · have hissue : IssuesAs e.1 e.2 := by fin_cases he <;> exact fun _ _ => rfl
    have hne : e.2 ≠ 0x4C := by fin_cases he <;> decide
    exact ⟨hissue.exec_eq (arrayIssue_queues h hne hq), jobs_accepted s.dev e.2 a, log_accepted s.dev e.2 a⟩
  · exact (issuesAs_customerOpcode n).exec_eq (arrayIssue_queues h (by omega) hq)

end Sys2Proof.Machine
end

section
/-! The instructions of the PEs that leave no sample (R75): integer, logic, division step, neighbour transfer, activity, lookup. -/

namespace Sys2Proof.Machine

variable {d : Dev} {s : StreamId} {j : Job} {opc : Nat} {a : AOp}

/-- A routine's effect in every row of its stream's halls, each given the routine's free value, then X, Y and the scratch segment left
undefined (R79, R83). -/
def Dev.rowsEffect (d : Dev) (s : Nat) (f : Nat → Dev → Nat → Nat → Nat → Dev) : Dev :=
  (({ d with free := d.free + 1 } : Dev).forRows s (f d.free)).looseEnd s

/-- The opcode of a neighbour transfer (R90). -/
def isGet (opc : Nat) : Bool := 0x30 ≤ opc && opc ≤ 0x37

/-- The opcode of an activity instruction (R93). -/
def isAct (opc : Nat) : Bool := 0x40 ≤ opc && opc ≤ 0x45

/-- The opcode of an integer or logic instruction (R85, R89): those below the activity instructions but DSTEP and the GETs. -/
def isInteger (opc : Nat) : Bool := opc < 0x40 && opc ≠ 0x22 && !isGet opc

/-- The count of a shift: the opcodes from 0x2C on add 32 (R89). -/
def shiftCount (opc : Nat) (sb : BitVec 5) : Nat := if 0x2C ≤ opc ∧ opc ≤ 0x2F then sb.toNat + 32 else sb.toNat

theorem vendorEffect_dstep (h : j.opc.toNat = 0x22) (s : Nat) (toks : List (BitVec 512)) :
    d.vendorEffect s j toks = d.rowsEffect s (fun g d _ p row => d.rowDstep j g p row) := by
  unfold Dev.vendorEffect
  dsimp only
  rw [if_pos h]
  rfl

theorem vendorEffect_get (h : isGet j.opc.toNat = true) (s : Nat) (toks : List (BitVec 512)) :
    d.vendorEffect s j toks = d.rowsEffect s (fun _ e h p row => e.rowGet d s j toks h p row) := by
  have hget : (decide (0x30 ≤ j.opc.toNat) && decide (j.opc.toNat ≤ 0x37)) = true := h
  obtain ⟨hlo, hhi⟩ : 0x30 ≤ j.opc.toNat ∧ j.opc.toNat ≤ 0x37 := by simpa using hget
  unfold Dev.vendorEffect
  dsimp only
  rw [if_neg (by omega), if_pos hget]
  rfl

theorem vendorEffect_act (h : isAct j.opc.toNat = true) (s : Nat) (toks : List (BitVec 512)) :
    d.vendorEffect s j toks = d.rowsEffect s (fun _ d _ p row => d.rowAct j p row) := by
  have hact : (decide (0x40 ≤ j.opc.toNat) && decide (j.opc.toNat ≤ 0x45)) = true := h
  obtain ⟨hlo, hhi⟩ : 0x40 ≤ j.opc.toNat ∧ j.opc.toNat ≤ 0x45 := by simpa using hact
  unfold Dev.vendorEffect
  dsimp only
  rw [if_neg (by omega), if_neg (outside_range (by omega)), if_pos hact]
  rfl

theorem vendorEffect_lookup (h : j.opc.toNat = 0x48) (s : Nat) (toks : List (BitVec 512)) :
    d.vendorEffect s j toks = d.rowsEffect s (fun g d _ p row => d.rowLookup j g p row) := by
  unfold Dev.vendorEffect
  dsimp only
  rw [if_neg (by omega), if_neg (outside_range (by omega)), if_neg (outside_range (by omega)), if_pos h]
  rfl

theorem isInteger_iff {n : Nat} : isInteger n = true ↔ n < 0x40 ∧ n ≠ 0x22 ∧ (n < 0x30 ∨ 0x37 < n) := by
  simp only [isInteger, isGet, Bool.and_eq_true, Bool.not_eq_true', Bool.and_eq_false_iff, decide_eq_true_eq, decide_eq_false_iff_not]
  omega

theorem vendorEffect_integer (h : isInteger j.opc.toNat = true) (s : Nat) (toks : List (BitVec 512)) :
    d.vendorEffect s j toks = d.rowsEffect s (fun g d _ p row => d.rowInt j (shiftCount j.opc.toNat j.sb) g p row) := by
  obtain ⟨hlt, hdstep, hget⟩ := isInteger_iff.mp h
  have hfp : ¬ isFp j.opc.toNat = true := outside_range (by omega)
  unfold Dev.vendorEffect
  dsimp only
  rw [if_neg hdstep, if_neg (outside_range (by omega)), if_neg (outside_range (by omega)), if_neg (by omega),
    if_neg (outside_range (by omega)), if_neg hfp]
  simp only [Bool.and_eq_true, decide_eq_true_eq]
  rfl

/-- An instruction that an idle stream begins, given by what it does in a row (R75): the rows, the micro-state left by its routine, its
cost. -/
def Dev.ranRows (d : Dev) (opc : Nat) (a : AOp) (f : Job → Nat → Dev → Nat → Nat → Nat → Dev) : Dev :=
  let j := d.makeJob a.core opc a
  let e := d.started opc a
  ((e.everyRow a.core (f j)).vendorMicro a.core j).charge a.core (e.jobCost a.core j)

/-- The opcodes below the OR instructions take no OR sample (R69). -/
theorem samples_none {n : Nat} (h : n < 0x50) : (decide (0x50 ≤ n) && decide (n ≤ 0x53) || isFp n) = false := by
  rw [eq_false_of_ne_true (outside_range (by omega)), isFp, eq_false_of_ne_true (outside_range (by omega))]
  rfl

/-- A routine without a sample and without tokens is its rows, its micro-state and its cost. -/
theorem runVendor_rows {f : Nat → Dev → Nat → Nat → Nat → Dev} (hlt : j.opc.toNat < 0x50) (hget : isGet j.opc.toNat = false)
    (hrows : ∀ (e : Dev) toks, e.vendorEffect s.val j toks = e.rowsEffect s.val f) :
    d.runVendor s j = ((d.everyRow s f).vendorMicro s j).charge s (d.jobCost s j) := by
  have hget' : (decide (0x30 ≤ j.opc.toNat) && decide (j.opc.toNat ≤ 0x37)) = false := hget
  unfold Dev.runVendor
  simp only [samples_none hlt, hget', hrows, Bool.false_eq_true, if_false]
  rfl

/-- A neighbour transfer's routine takes its tokens before its rows run, and consumes and sends after them (R68, R164). -/
theorem runVendor_get {toks : List (BitVec 512)} (hget : isGet j.opc.toNat = true) (htoks : d.jobTokens s j = some toks) :
    d.runVendor s j = ((((d.everyRow s (fun _ e h p row => e.rowGet (d.twinStream s) s j toks h p row)).useTokens s
      (dirOf (j.opc.toNat - 0x30)) (descWidth j.dD.1) (d.ownTokens s j)).vendorMicro s j).charge s (d.jobCost s j)) := by
  have hget' : (decide (0x30 ≤ j.opc.toNat) && decide (j.opc.toNat ≤ 0x37)) = true := hget
  obtain ⟨hlo, hhi⟩ : 0x30 ≤ j.opc.toNat ∧ j.opc.toNat ≤ 0x37 := by simpa using hget'
  unfold Dev.runVendor
  simp only [samples_none (show j.opc.toNat < 0x50 by omega), hget', htoks, vendorEffect_get hget, Bool.false_eq_true,
    if_false, if_true, Option.getD_some]
  rfl

/-- The same for the instruction that an idle stream begins at its issue. -/
theorem arrayIssue_rows (f : Job → Nat → Dev → Nat → Nat → Nat → Dev) (h : d.Begins opc a) (hlt : opc < 0x4C)
    (hget : isGet opc = false)
    (hrows : ∀ (e : Dev) toks, e.vendorEffect a.core.val (d.makeJob a.core opc a) toks =
      e.rowsEffect a.core.val (f (d.makeJob a.core opc a))) :
    d.arrayIssue opc a = d.ranRows opc a f := by
  have hnat := opc_makeJob_toNat d a.core a (show opc < 128 by omega)
  rw [arrayIssue_begins h (by omega) (by omega)]
  exact runVendor_rows (by omega) (hnat.symm ▸ hget) hrows

theorem arrayIssue_dstep (h : d.Begins 0x22 a) :
    d.arrayIssue 0x22 a = d.ranRows 0x22 a (fun j g d _ p row => d.rowDstep j g p row) :=
  arrayIssue_rows _ h (by decide) rfl (fun _ toks => vendorEffect_dstep rfl a.core toks)

theorem arrayIssue_lookup (h : d.Begins 0x48 a) :
    d.arrayIssue 0x48 a = d.ranRows 0x48 a (fun j g d _ p row => d.rowLookup j g p row) :=
  arrayIssue_rows _ h (by decide) rfl (fun _ toks => vendorEffect_lookup rfl a.core toks)

theorem arrayIssue_act (h : d.Begins opc a) (ho : isAct opc = true) :
    d.arrayIssue opc a = d.ranRows opc a (fun j _ d _ p row => d.rowAct j p row) := by
  obtain ⟨hlo, hhi⟩ : 0x40 ≤ opc ∧ opc ≤ 0x45 := by simpa [isAct] using ho
  have hnat := opc_makeJob_toNat d a.core a (show opc < 128 by omega)
  exact arrayIssue_rows _ h (by omega) (eq_false_of_ne_true (outside_range (by omega)))
    (fun _ toks => vendorEffect_act (hnat.symm ▸ ho) a.core toks)

theorem arrayIssue_integer (h : d.Begins opc a) (ho : isInteger opc = true) :
    d.arrayIssue opc a = d.ranRows opc a (fun j g d _ p row => d.rowInt j (shiftCount opc a.sb) g p row) := by
  obtain ⟨hlt, -, hout⟩ := isInteger_iff.mp ho
  have hnat := opc_makeJob_toNat d a.core a (show opc < 128 by omega)
  refine arrayIssue_rows _ h (by omega) (eq_false_of_ne_true (outside_range hout)) (fun _ toks => ?_)
  rw [vendorEffect_integer (hnat.symm ▸ ho), hnat]
  rfl

theorem arrayIssue_get {toks : List (BitVec 512)} (h : d.Begins opc a) (ho : isGet opc = true)
    (htoks : (d.started opc a).jobTokens a.core (d.makeJob a.core opc a) = some toks) :
    d.arrayIssue opc a =
      let j := d.makeJob a.core opc a
      let e := d.started opc a
      (((e.everyRow a.core (fun _ d' h p row => d'.rowGet (e.twinStream a.core) a.core j toks h p row)).useTokens a.core
        (dirOf (opc - 0x30)) (descWidth j.dD.1) (e.ownTokens a.core j)).vendorMicro a.core j).charge a.core (e.jobCost a.core j) := by
  obtain ⟨hlo, hhi⟩ : 0x30 ≤ opc ∧ opc ≤ 0x37 := by simpa [isGet] using ho
  have hnat := opc_makeJob_toNat d a.core a (show opc < 128 by omega)
  rw [arrayIssue_begins h (by omega) (by omega), runVendor_get (hnat.symm ▸ ho) htoks, hnat]

/-- Settles O17: every integer and logic opcode runs in all rows at once, with the count that its opcode gives. -/
theorem arrayIntegerInstructionsRun : Obligations.ArrayIntegerInstructionsRun := by
  unfold Obligations.ArrayIntegerInstructionsRun
  intro e he s a h
  have hissue : IssuesAs e.1 e.2 := by fin_cases he <;> exact fun _ _ => rfl
  have hinteger : isInteger e.2 = true := by fin_cases he <;> rfl
  exact hissue.exec_eq (arrayIssue_integer h hinteger)

/-- Settles O18: the division step, lookup, activity and neighbour transfers, each by its own effect in a row. -/
theorem arrayDataMovementRuns : Obligations.ArrayDataMovementRuns := by
  unfold Obligations.ArrayDataMovementRuns
  intro s a
  refine ⟨fun h => ?dstep, fun h => ?lookup, fun e he h => ?activity, fun e he toks h htoks => ?transfer⟩
  case dstep =>
    have hissue : IssuesAs .dstep 0x22 := fun _ _ => rfl
    exact hissue.exec_eq (arrayIssue_dstep h)
  case lookup =>
    have hissue : IssuesAs .lookup 0x48 := fun _ _ => rfl
    exact hissue.exec_eq (arrayIssue_lookup h)
  case activity =>
    have hissue : IssuesAs e.1 e.2 := by fin_cases he <;> exact fun _ _ => rfl
    have hact : isAct e.2 = true := by fin_cases he <;> rfl
    exact hissue.exec_eq (arrayIssue_act h hact)
  case transfer =>
    have hissue : IssuesAs e.1 e.2 := by fin_cases he <;> exact fun _ _ => rfl
    have hget : isGet e.2 = true := by fin_cases he <;> rfl
    exact hissue.exec_eq (arrayIssue_get h hget htoks)

end Sys2Proof.Machine
end

section
/-! The array instructions that act outside the PEs: AFD, AMODE, MILESTONE, the transfers, the customer opcodes (R77, R102, R105,
R166, R176). -/

namespace Sys2Proof.Machine

variable {d : Dev} {s : StreamId} {j : Job} {opc : Nat} {a : AOp}

/-- A vendor instruction whose entry is not redirected does not run microword by microword. -/
theorem isMicro_vendor (hlt : j.opc.toNat < 0x70) (hr : d.redirected j.opc = false) : d.isMicro j = false := by
  simp only [Dev.isMicro, isCustomer, hr, Bool.or_false, decide_eq_false_iff_not]
  omega

/-- The fetch of a good word counts nothing (R131, R150). -/
theorem countMicro_good {n : Nat} (h : microFind (d.uErrOf n) = .good) : d.countMicro s n = d := by
  unfold Dev.countMicro
  rw [h]
  rfl

/-- AMODE issues no microword: it changes the stream's mode (R102, R132). -/
theorem begin_amode (ho : j.opc.toNat = 0x6F) (hr : d.redirected j.opc = false) :
    d.begin s j = d.modSt s (fun x => { x with ct := j.sd = 1 }) := by
  have hmicro : d.isMicro j = false := isMicro_vendor (by omega) hr
  unfold Dev.begin
  simp only [hmicro, ho, Bool.false_eq_true, if_false, if_true]

/-- MILESTONE occupies its stream until every hall has reported (R101, R166). -/
theorem begin_milestone (ho : j.opc.toNat = 0x6E) (hr : d.redirected j.opc = false)
    (hgood : microFind (d.uErrOf (vendorEntry j.opc).toNat) = .good) :
    d.begin s j = ((d.twinStream s.val).vendorMicro s j).modSt s (fun x => { x with run := .mstone j 0 }) := by
  have hmicro : d.isMicro j = false := isMicro_vendor (by omega) hr
  unfold Dev.begin
  simp only [hmicro, countMicro_good hgood, ho, Bool.false_eq_true, if_false, if_true, Nat.reduceEqDiff]

/-- STRIN and STROUT occupy their stream and open their channel (R100, R176). -/
theorem begin_transfer (ho : j.opc.toNat = 0x6C ∨ j.opc.toNat = 0x6D) (hr : d.redirected j.opc = false)
    (hgood : microFind (d.uErrOf (vendorEntry j.opc).toNat) = .good) :
    d.begin s j = (((d.twinStream s.val).vendorMicro s j).modSt s (fun x => { x with
      run := .xfer j 0 0, span := x.span + d.jobCost s j })).openChan s j.sb.toNat := by
  have hmicro : d.isMicro j = false := isMicro_vendor (by omega) hr
  have hamode : j.opc.toNat ≠ 0x6F := by omega
  have hmilestone : j.opc.toNat ≠ 0x6E := by omega
  have hxfer : (decide (j.opc.toNat = 0x6C) || decide (j.opc.toNat = 0x6D)) = true := by
    rwa [Bool.or_eq_true, decide_eq_true_eq, decide_eq_true_eq]
  unfold Dev.begin
  simp only [hmicro, hamode, hmilestone, hxfer, countMicro_good hgood, Bool.false_eq_true, if_false, if_true]

/-- A customer opcode enters its microroutine at the entry of its decode register (R104, R105). -/
theorem begin_customer (ho : isCustomer j.opc.toNat = true) : d.begin s j =
    d.modSt s (fun x => { x with
      run := .micro j, micro := x.micro.enter (BitVec.ofNat 13 (0x1E00 + bits j.cdt.toNat 8 0)) }) := by
  have hmicro : d.isMicro j = true := by rw [Dev.isMicro, ho, Bool.true_or]
  unfold Dev.begin
  simp only [hmicro, ho, if_true]

/-- An instruction that its idle stream begins at once, up to what its beginning does. -/
theorem arrayIssue_starts (h : d.Begins opc a) (hne : opc ≠ 0x4C) :
    d.arrayIssue opc a = (d.started opc a).begin a.core (d.makeJob a.core opc a) := by
  obtain ⟨haccepts, hq, hstart, -, -⟩ := h
  rw [arrayIssue_accepts haccepts hne hq, startNext_accepted hq hstart]

theorem arrayIssue_amode (h : d.Begins 0x6F a) :
    d.arrayIssue 0x6F a = (d.started 0x6F a).modSt a.core (fun x => { x with ct := a.sd = 1 }) := by
  rw [arrayIssue_starts h (by decide)]
  obtain ⟨-, -, -, hr, -⟩ := h
  exact begin_amode rfl hr

theorem arrayIssue_milestone (h : d.Begins 0x6E a) : d.arrayIssue 0x6E a =
    (((d.started 0x6E a).twinStream a.core.val).vendorMicro a.core (d.makeJob a.core 0x6E a)).modSt a.core
      (fun x => { x with run := .mstone (d.makeJob a.core 0x6E a) 0 }) := by
  rw [arrayIssue_starts h (by decide)]
  obtain ⟨-, -, -, hr, hgood⟩ := h
  exact begin_milestone rfl hr (hgood (by decide))

theorem arrayIssue_transfer (h : d.Begins opc a) (ho : opc = 0x6C ∨ opc = 0x6D) : d.arrayIssue opc a =
    let j := d.makeJob a.core opc a
    let e := d.started opc a
    (((e.twinStream a.core.val).vendorMicro a.core j).modSt a.core (fun x => { x with
      run := .xfer j 0 0, span := x.span + e.jobCost a.core j })).openChan a.core a.sb.toNat := by
  have hopc := opc_makeJob d a.core a (show opc < 128 by omega)
  have hnat := opc_makeJob_toNat d a.core a (show opc < 128 by omega)
  rw [arrayIssue_starts h (by omega)]
  obtain ⟨-, -, -, hr, hgood⟩ := h
  exact begin_transfer (hnat.symm ▸ ho) (hopc.symm ▸ hr) (hopc.symm ▸ hgood (by omega))

/-- AFD acts at its acceptance, on its stream's descriptors alone (R77). -/
theorem arrayIssue_afd (h : d.Accepts 0x4C a) : d.arrayIssue 0x4C a =
    (d.loadDescriptor a.core a.sd ((d.co a.core).rd (a.sa.setWidth 4)) ((d.co a.core).rd (a.sb.setWidth 4))).setCo a.core
      ((d.co a.core).advance 4 1) := by
  obtain ⟨hoffers, haccept⟩ := h
  rw [arrayIssue_offers hoffers, haccept]
  rfl

/-- A customer opcode is checked and runs with the decode register of its number (R104, R106). -/
theorem cdt_makeJob_customer (d : Dev) (c : StreamId) (n : BitVec 4) (a : AOp) :
    (d.makeJob c (0x70 + n.toNat) a).cdt = d.reg (R.SEQ_CDT n.toNat) := by
  have hmod : (0x70 + n.toNat) % 128 = 0x70 + n.toNat := Nat.mod_eq_of_lt (by omega)
  have hcustomer : isCustomer (0x70 + n.toNat) = true := decide_eq_true (by omega)
  simp only [Dev.makeJob, hmod, hcustomer, if_true, Nat.add_sub_cancel_left]

theorem arrayIssue_customer (n : BitVec 4) (h : d.Accepts (0x70 + n.toNat) a) (hq : (d.st a.core).jobs = [])
    (hs : (d.accepted (0x70 + n.toNat) a).canStart a.core (d.makeJob a.core (0x70 + n.toNat) a) = true) :
    d.arrayIssue (0x70 + n.toNat) a = (d.started (0x70 + n.toNat) a).modSt a.core (fun x => { x with
      run := .micro (d.makeJob a.core (0x70 + n.toNat) a)
      micro := x.micro.enter (BitVec.ofNat 13 (0x1E00 + bits (d.reg (R.SEQ_CDT n.toNat)).toNat 8 0)) }) := by
  have hnat := opc_makeJob_toNat d a.core a (show 0x70 + n.toNat < 128 by omega)
  have hcustomer : isCustomer (d.makeJob a.core (0x70 + n.toNat) a).opc.toNat = true := by
    rw [hnat]
    exact decide_eq_true (by omega)
  rw [arrayIssue_accepts h (by omega) hq, startNext_accepted hq hs, begin_customer hcustomer, cdt_makeJob_customer]

/-- Settles O20: each instruction by what its acceptance (AFD) or its beginning does. -/
theorem arrayControlInstructionsRun : Obligations.ArrayControlInstructionsRun := by
  unfold Obligations.ArrayControlInstructionsRun
  intro s a
  refine ⟨fun h => ?afd, fun h => ?amode, fun h => ?milestone, fun e he h => ?transfer, fun n h hq hs => ?customer⟩
  case afd =>
    have hissue : IssuesAs .afd 0x4C := fun _ _ => rfl
    exact hissue.exec_eq (arrayIssue_afd h)
  case amode =>
    have hissue : IssuesAs .amode 0x6F := fun _ _ => rfl
    exact hissue.exec_eq (arrayIssue_amode h)
  case milestone =>
    have hissue : IssuesAs .milestone 0x6E := fun _ _ => rfl
    exact hissue.exec_eq (arrayIssue_milestone h)
  case transfer =>
    have hissue : IssuesAs e.1 e.2 := by fin_cases he <;> exact fun _ _ => rfl
    have hopc : e.2 = 0x6C ∨ e.2 = 0x6D := by fin_cases he <;> decide
    exact hissue.exec_eq (arrayIssue_transfer h hopc)
  case customer => exact (issuesAs_customerOpcode n).exec_eq (arrayIssue_customer n h hq hs)

end Sys2Proof.Machine
end

section
/-! Two's complement of w bits: the pattern of an integer, the signed value of a pattern (R109). -/

namespace Sys2Proof.Machine

variable {w x : Nat} {y : Int}

theorem cast_wrapInt (w : Nat) (y : Int) : (wrapInt w y : Int) = y % 2 ^ w := by
  unfold wrapInt
  rw [Int.toNat_of_nonneg (Int.emod_nonneg _ (by positivity)), Nat.cast_pow, Nat.cast_ofNat]

theorem wrapInt_lt (w : Nat) (y : Int) : wrapInt w y < 2 ^ w := by
  have hlt : (wrapInt w y : Int) < 2 ^ w := cast_wrapInt w y ▸ Int.emod_lt_of_pos y (by positivity)
  exact_mod_cast hlt

/-- A pattern's signed value: itself in the lower half, 2^w less in the upper half. -/
theorem sval_of_lt (h : x < 2 ^ w) : sval w x = if x < 2 ^ (w - 1) then (x : Int) else x - (2 ^ w : Nat) := by
  rw [sval, Nat.mod_eq_of_lt h]

theorem sval_emod (h : x < 2 ^ w) : sval w x % 2 ^ w = x := by
  have hx : (x : Int) % 2 ^ w = x := Int.emod_eq_of_lt (by omega) (by exact_mod_cast h)
  rw [sval_of_lt h]
  split
  · exact hx
  · rw [Nat.cast_pow, Nat.cast_ofNat, Int.sub_emod_right, hx]

theorem sval_range (hw : 0 < w) (h : x < 2 ^ w) : -(2 ^ (w - 1)) ≤ sval w x ∧ sval w x < 2 ^ (w - 1) := by
  have hhalf : (2 ^ (w - 1) : Int) = (2 ^ (w - 1) : Nat) := by norm_cast
  have hdouble := Nat.two_pow_pred_add_two_pow_pred hw
  rw [sval_of_lt h, hhalf]
  split <;> omega

/-- A signed value in range is that of its pattern. -/
theorem sval_wrapInt (hw : 0 < w) (hlo : -(2 ^ (w - 1)) ≤ y) (hhi : y < 2 ^ (w - 1)) : sval w (wrapInt w y) = y := by
  obtain ⟨slo, shi⟩ := sval_range hw (wrapInt_lt w y)
  have hdouble : (2 ^ (w - 1) + 2 ^ (w - 1) : Int) = 2 ^ w := by exact_mod_cast Nat.two_pow_pred_add_two_pow_pred hw
  have hmod : sval w (wrapInt w y) % 2 ^ w = y % 2 ^ w := by rw [sval_emod (wrapInt_lt w y), cast_wrapInt]
  have hdvd : (2 ^ w : Int) ∣ y - sval w (wrapInt w y) := Int.ModEq.dvd hmod
  have habs : |y - sval w (wrapInt w y)| < 2 ^ w := abs_lt.mpr ⟨by omega, by omega⟩
  have hzero := Int.eq_zero_of_abs_lt_dvd hdvd habs
  omega

/-- The signed value of a clamped integer (R109). -/
theorem sval_clampSigned (hw : 0 < w) (y : Int) : sval w (clampSigned w y) =
    if y < -(2 ^ (w - 1)) then -(2 ^ (w - 1)) else if 2 ^ (w - 1) ≤ y then 2 ^ (w - 1) - 1 else y := by
  have hpos : (0 : Int) < 2 ^ (w - 1) := by positivity
  unfold clampSigned
  rw [Nat.cast_pow, Nat.cast_ofNat, sval_wrapInt hw (by omega) (by omega)]
  split_ifs <;> omega

end Sys2Proof.Machine
end

section
/-! What the integer instructions compute in one PE (R85, R107 to R111). -/

namespace Sys2Proof.Machine

variable {i : LaneIn}

theorem d_laneSum (i : LaneIn) (x cin : Nat) : ((laneSum i x cin).d : Int) = (i.a + x + cin) % 2 ^ i.wd := by
  simp [laneSum]

theorem c_laneSum (i : LaneIn) (x cin : Nat) :
    (laneSum i x cin).c = some (decide ((2 ^ i.wd : Int) ≤ i.a + x + cin)) := by
  have hcast : (2 ^ i.wd : Int) ≤ i.a + x + cin ↔ 2 ^ i.wd ≤ i.a + x + cin := by norm_cast
  simp only [laneSum, hcast]

/-- Adding the complement of FB subtracts it, less one (R107). -/
theorem d_laneSum_complement (h : i.b < 2 ^ i.wd) (cin : Nat) :
    ((laneSum i (2 ^ i.wd - 1 - i.b) cin).d : Int) = (i.a - i.b - 1 + cin) % 2 ^ i.wd := by
  have hcast : ((2 ^ i.wd - 1 - i.b : Nat) : Int) = 2 ^ i.wd - 1 - i.b := by
    rw [Nat.cast_sub (by omega), Nat.cast_sub Nat.one_le_two_pow]
    norm_num
  have hsum : (i.a + (2 ^ i.wd - 1 - i.b) + cin : Int) = i.a - i.b - 1 + cin + 2 ^ i.wd := by ring
  rw [d_laneSum, hcast, hsum, Int.add_emod_right]

/-- The carry of a difference is 1 when nothing is borrowed (R107). -/
theorem c_laneSum_complement (h : i.b < 2 ^ i.wd) (cin : Nat) :
    (laneSum i (2 ^ i.wd - 1 - i.b) cin).c = some (decide (i.b < i.a + cin)) := by
  have hborrow : 2 ^ i.wd ≤ i.a + (2 ^ i.wd - 1 - i.b) + cin ↔ i.b < i.a + cin := by omega
  simp only [laneSum, hborrow]

theorem d_laneNeg (i : LaneIn) (h : i.a < 2 ^ i.wd) : ((laneNeg i).d : Int) = -(i.a : Int) % 2 ^ i.wd := by
  have hsum : ((2 ^ i.wd - i.a : Nat) : Int) = -i.a + 2 ^ i.wd := by
    rw [Nat.cast_sub h.le, Nat.cast_pow, Nat.cast_ofNat]
    ring
  unfold laneNeg
  rw [Int.natCast_emod, hsum, Nat.cast_pow, Nat.cast_ofNat, Int.add_emod_right]

theorem d_laneNot (h : i.a < 2 ^ i.wd) : ((laneNot i).d : Int) = 2 ^ i.wd - 1 - i.a := by
  unfold laneNot
  rw [Nat.mod_eq_of_lt h, Nat.cast_sub (by omega), Nat.cast_sub Nat.one_le_two_pow]
  norm_num

theorem d_laneAndn (h : i.b < 2 ^ i.wd) : (laneAndn i).d = i.a &&& (2 ^ i.wd - 1 - i.b) := by
  rw [laneAndn, Nat.mod_eq_of_lt h]

theorem d_laneAddsu (i : LaneIn) : ((laneAddsu i).d : Int) = min (2 ^ i.wd - 1 : Int) (i.a + i.b) := by
  have hpred : ((2 ^ i.wd - 1 : Nat) : Int) = 2 ^ i.wd - 1 := by
    rw [Nat.cast_sub Nat.one_le_two_pow]
    norm_num
  rw [laneAddsu, Nat.cast_min, hpred, Nat.cast_add]

theorem d_laneSubsu (i : LaneIn) : ((laneSubsu i).d : Int) = max 0 ((i.a : Int) - i.b) := by
  unfold laneSubsu
  dsimp only
  omega

theorem d_laneMinu (i : LaneIn) : ((laneMinu i).d : Int) = min i.a i.b := by
  unfold laneMinu
  dsimp only
  split <;> omega

theorem d_laneMaxu (i : LaneIn) : ((laneMaxu i).d : Int) = max i.a i.b := by
  unfold laneMaxu
  dsimp only
  split <;> omega

theorem d_laneCmplts (hwa : i.wa = i.wd) (hwb : i.wb = i.wd) :
    ((laneCmplts i).d : Int) = bn (sval i.wd i.a < sval i.wd i.b) := by
  rw [laneCmplts, hwa, hwb]

theorem d_laneMulu (i : LaneIn) : ((laneMulu i).d : Int) = i.a * i.b % 2 ^ i.wd := by
  simp [laneMulu]

theorem d_laneMuls (hwa : i.wa = i.wd) (hwb : i.wb = i.wd) :
    ((laneMuls i).d : Int) = sval i.wd i.a * sval i.wd i.b % 2 ^ i.wd := by
  rw [laneMuls, cast_wrapInt, hwa, hwb]

theorem sval_laneMins (i : LaneIn) : sval i.wd (laneMins i).d = min (sval i.wd i.a) (sval i.wd i.b) := by
  unfold laneMins
  dsimp only
  split <;> omega

theorem sval_laneMaxs (i : LaneIn) : sval i.wd (laneMaxs i).d = max (sval i.wd i.a) (sval i.wd i.b) := by
  unfold laneMaxs
  dsimp only
  split <;> omega

end Sys2Proof.Machine
end

section
/-! The LOGIC micro-operation's truth table and carry rules, lane by lane (R140). -/

namespace Sys2Proof.Machine

/-- The plane that is 1 in the lanes whose a, b and C select row i of a truth table. -/
def ttMinterm (a b c : BitVec 64) (i : Nat) : BitVec 64 :=
  (if i.testBit 2 then a else ~~~a) &&& (if i.testBit 1 then b else ~~~b) &&& (if i.testBit 0 then c else ~~~c)

/-- The row of a truth table that three bits select. -/
def ttRow (x y z : Bool) : Nat := 4 * bn x + 2 * bn y + bn z

theorem ttRow_lt (x y z : Bool) : ttRow x y z < 8 := by
  revert x y z
  decide

theorem getLsbD_ite_not (v : BitVec 64) (p : Bool) {l : Nat} (hl : l < 64) :
    (if p then v else ~~~v).getLsbD l = (v.getLsbD l == p) := by
  cases p <;> simp [hl]

theorem testBit_row : ∀ i < 8, ∀ x y z : Bool,
    ((x == i.testBit 2) && (y == i.testBit 1) && (z == i.testBit 0)) = decide (i = ttRow x y z) := by decide

theorem getLsbD_ttMinterm (a b c : BitVec 64) {i l : Nat} (hi : i < 8) (hl : l < 64) :
    (ttMinterm a b c i).getLsbD l = decide (i = ttRow (a.getLsbD l) (b.getLsbD l) (c.getLsbD l)) := by
  rw [ttMinterm, BitVec.getLsbD_and, BitVec.getLsbD_and, getLsbD_ite_not a _ hl, getLsbD_ite_not b _ hl, getLsbD_ite_not c _ hl]
  exact testBit_row i hi _ _ _

/-- A lane of the planes of a list ORed where they are selected. -/
theorem getLsbD_foldl_or (p : Nat → Bool) (m : Nat → BitVec 64) (is : List Nat) (r : BitVec 64) (l : Nat) :
    (is.foldl (fun r i => if p i then r ||| m i else r) r).getLsbD l = (r.getLsbD l || is.any (fun i => p i && (m i).getLsbD l)) := by
  induction is generalizing r with
  | nil => simp
  | cons i is ih =>
    rw [List.foldl_cons, ih, List.any_cons]
    cases p i <;> simp [Bool.or_assoc]

/-- A lane of a LOGIC result is the bit of the truth table that its a, b and C select (R140). -/
theorem getLsbD_ttPlane (tt : Nat) (a b c : BitVec 64) {l : Nat} (hl : l < 64) :
    (ttPlane tt a b c).getLsbD l = tt.testBit (ttRow (a.getLsbD l) (b.getLsbD l) (c.getLsbD l)) := by
  have hfold : (ttPlane tt a b c).getLsbD l = (List.range 8).any (fun i => tt.testBit i && (ttMinterm a b c i).getLsbD l) := by
    refine (getLsbD_foldl_or tt.testBit (ttMinterm a b c) (List.range 8) 0 l).trans ?_
    exact (congrArg (· || _) BitVec.getLsbD_zero).trans (Bool.false_or _)
  rw [hfold, Bool.eq_iff_iff, List.any_eq_true]
  constructor
  · rintro ⟨i, hi, hbit⟩
    rw [getLsbD_ttMinterm a b c (List.mem_range.mp hi) hl, Bool.and_eq_true, decide_eq_true_eq] at hbit
    exact hbit.2 ▸ hbit.1
  · intro hbit
    refine ⟨ttRow (a.getLsbD l) (b.getLsbD l) (c.getLsbD l), List.mem_range.mpr (ttRow_lt _ _ _), ?_⟩
    rw [getLsbD_ttMinterm a b c (ttRow_lt _ _ _) hl, hbit, decide_eq_true rfl, Bool.and_true]

theorem majority_eq (x y z : Bool) : (x && y || x && z || y && z) = decide (2 ≤ bn x + bn y + bn z) := by
  revert x y z
  decide

/-- Carry rule 1 is the majority (R140). -/
theorem getLsbD_carryRule_majority (a b c r : BitVec 64) (l : Nat) :
    (carryRule 1 a b c r).getLsbD l = decide (2 ≤ bn (a.getLsbD l) + bn (b.getLsbD l) + bn (c.getLsbD l)) := by
  simp only [carryRule, BitVec.getLsbD_or, BitVec.getLsbD_and, majority_eq]

end Sys2Proof.Machine
end

section
/-! The obligation on one PE's arithmetic and logic. -/

namespace Sys2Proof.Machine

/-- Settles O22: each integer instruction by the value of its lane function, and LOGIC lane by lane. -/
theorem laneArithmetic : Obligations.LaneArithmetic := by
  unfold Obligations.LaneArithmetic
  refine ⟨fun i k ha hb hw hwa hwb => ?integers, fun tt a b c r l hl => ?logic⟩
  case integers =>
    refine ⟨fun x hx => ⟨sval_emod hx, sval_range hw hx⟩, ⟨?add, ?addCarry⟩, ⟨d_laneSum i i.b (bn i.c), c_laneSum i i.b (bn i.c)⟩,
      ⟨?sub, ?subCarry⟩, ⟨d_laneSum_complement hb (bn i.c), c_laneSum_complement hb (bn i.c)⟩, ⟨d_laneNeg i ha, rfl⟩, d_laneAddsu i,
      d_laneSubsu i, sval_clampSigned hw _, sval_clampSigned hw _, d_laneMinu i, d_laneMaxu i, sval_laneMins i, sval_laneMaxs i, rfl, rfl,
      d_laneCmplts hwa hwb, d_laneNot ha, d_laneAndn hb, d_laneMulu i, d_laneMuls hwa hwb⟩
    case add => exact (d_laneSum i i.b 0).trans (by rw [Nat.cast_zero, add_zero])
    case addCarry => exact (c_laneSum i i.b 0).trans (by rw [Nat.cast_zero, add_zero])
    case sub => exact (d_laneSum_complement hb 1).trans (by rw [Nat.cast_one, sub_add_cancel])
    case subCarry => exact (c_laneSum_complement hb 1).trans (by simp only [Nat.lt_add_one_iff])
  case logic =>
    refine ⟨getLsbD_ttPlane tt a b c hl, getLsbD_carryRule_majority a b c r l, rfl, rfl, rfl, ?_, ?_⟩
    · exact BitVec.getLsbD_zero
    · exact (BitVec.getLsbD_allOnes).trans (decide_eq_true hl)

end Sys2Proof.Machine
end

section
/-! The commit of a MILESTONE (R101, R181, R199, R218). -/

namespace Sys2Proof.Machine

variable {d : Dev} {x : StreamId} {j : Job} {r : Nat}

/-- A value that no application to an element of the list changes, the whole does not change. -/
theorem forEach_frame_of_mem {σ β γ : Type} (g : σ → γ) {l : List β} {f : σ → β → σ} (h : ∀ s, ∀ b ∈ l, g (f s b) = g s) (s : σ) :
    g (forEach l s f) = g s := by
  induction l generalizing s with
  | nil => rfl
  | cons b l ih =>
    rw [forEach_cons, ih (fun s c hc => h s c (List.mem_cons_of_mem b hc)), h s b List.mem_cons_self]

theorem reg_raise (d : Dev) (n r : Nat) : (d.raise n).reg r = d.reg r := (raise_evcOnly d n).reg r

theorem Dev.EvcOnly.arr {e : Dev} (h : d.EvcOnly e) : e.arr = d.arr := (congrArg Dev.arr h).trans rfl

theorem arr_raise (d : Dev) (n : Nat) : (d.raise n).arr = d.arr := (raise_evcOnly d n).arr

theorem reg_modWay (d : Dev) (w : Nat) (f : WayUnit → WayUnit) (r : Nat) : (d.modWay w f).reg r = d.reg r := by
  unfold Dev.modWay
  split <;> rfl

theorem arr_modWay (d : Dev) (w : Nat) (f : WayUnit → WayUnit) : (d.modWay w f).arr = d.arr := by
  unfold Dev.modWay
  split <;> rfl

/-- A sample that a waymark unit takes changes no register but the unit's WAY_CTL (R437, R438). -/
theorem reg_wayTake_ne (d : Dev) (w : Nat) (t : Int) (h : r ≠ R.WAY_CTL w) : (d.wayTake w t).reg r = d.reg r := by
  have hlow (e : Dev) : (e.setFlag (R.WAY_CTL_ALO w) true).reg r = e.reg r := reg_setFlag_ne e true h
  have hhigh (e : Dev) : (e.setFlag (R.WAY_CTL_AHI w) true).reg r = e.reg r := reg_setFlag_ne e true h
  unfold Dev.wayTake
  simp only [apply_ite (Dev.reg · r), reg_raise, hlow, hhigh, reg_modWay, ite_self]

theorem arr_wayTake (d : Dev) (w : Nat) (t : Int) : (d.wayTake w t).arr = d.arr := by
  unfold Dev.wayTake
  simp only [apply_ite Dev.arr, arr_raise, arr_setFlag, arr_modWay, ite_self]

theorem reg_wayDeliver_ne (d : Dev) (src sel : Nat) (t : Int) (h : ∀ w, r ≠ R.WAY_CTL w) :
    (d.wayDeliver src sel t).reg r = d.reg r :=
  forEach_frame (Dev.reg · r) _ d fun e w => by rw [apply_ite (Dev.reg · r), reg_wayTake_ne e w t (h w), ite_self]

theorem arr_wayDeliver (d : Dev) (src sel : Nat) (t : Int) : (d.wayDeliver src sel t).arr = d.arr :=
  forEach_frame Dev.arr _ d fun e w => by rw [apply_ite Dev.arr, arr_wayTake, ite_self]

/-- The expiry of a hall's fault history changes no register but its entries (R212). -/
theorem reg_expireHall_ne (d : Dev) (x : StreamId) (p : Nat) (h : ∀ k < 4, r ≠ R.HALL_FHIST p k) :
    (d.expireHall x p).reg r = d.reg r := by
  refine forEach_frame_of_mem (Dev.reg · r) (fun e k hk => ?_) d
  split
  · exact reg_setReg_ne e 0 (h k (List.mem_range.mp hk))
  · rfl

theorem arr_expireHall (d : Dev) (x : StreamId) (p : Nat) : (d.expireHall x p).arr = d.arr :=
  forEach_frame Dev.arr _ d fun e k => by
    split <;> rfl

/-- A field reads its register alone. -/
theorem fld_congr {e : Dev} {f : Fld} (h : e.reg f.addr = d.reg f.addr) : e.fld f = d.fld f := by
  rw [Dev.fld, Dev.fld, h]

theorem flag_congr {e : Dev} {f : Fld} (h : e.reg f.addr = d.reg f.addr) : e.flag f = d.flag f := by
  rw [Dev.flag, Dev.flag, fld_congr h]

theorem chanBound_congr {e : Dev} {ch : Nat} (h : e.reg (R.STAIR_CHCFG ch) = d.reg (R.STAIR_CHCFG ch)) :
    e.chanBound x ch = d.chanBound x ch := by
  rw [Dev.chanBound, Dev.chanBound, flag_congr (f := R.STAIR_CHCFG_EN ch) h, fld_congr (f := R.STAIR_CHCFG_STRM ch) h]

/-! The channels' committed positions (R181). -/

/-- A channel's committed position becomes its write position when the channel is bound to the stream. -/
def Dev.commitChan (d : Dev) (x : StreamId) (ch : Nat) : Dev :=
  if d.chanBound x ch then d.setFld (R.STAIR_CHCPOS_POS ch) (d.fld (R.STAIR_CHWPOS_POS ch)) else d

/-- The position that a commit of the stream gives to a channel. -/
def Dev.commitPos (d : Dev) (x : StreamId) (ch : Nat) : Nat :=
  if d.chanBound x ch then d.fld (R.STAIR_CHWPOS_POS ch) else d.fld (R.STAIR_CHCPOS_POS ch)

theorem commitPos_congr {e : Dev} {ch : Nat} (hcfg : e.reg (R.STAIR_CHCFG ch) = d.reg (R.STAIR_CHCFG ch))
    (hwpos : e.reg (R.STAIR_CHWPOS ch) = d.reg (R.STAIR_CHWPOS ch)) (hcpos : e.reg (R.STAIR_CHCPOS ch) = d.reg (R.STAIR_CHCPOS ch)) :
    e.commitPos x ch = d.commitPos x ch := by
  rw [Dev.commitPos, Dev.commitPos, chanBound_congr hcfg, fld_congr (f := R.STAIR_CHWPOS_POS ch) hwpos,
    fld_congr (f := R.STAIR_CHCPOS_POS ch) hcpos]

theorem reg_commitChan_ne (d : Dev) (x : StreamId) {ch : Nat} (h : r ≠ R.STAIR_CHCPOS ch) : (d.commitChan x ch).reg r = d.reg r := by
  unfold Dev.commitChan
  split
  · exact reg_setFld_ne d _ h
  · rfl

theorem arr_commitChan (d : Dev) (x : StreamId) (ch : Nat) : (d.commitChan x ch).arr = d.arr := by
  unfold Dev.commitChan
  split <;> rfl

theorem cfg_commitChan (d : Dev) (x : StreamId) (ch n : Nat) :
    (d.commitChan x n).reg (R.STAIR_CHCFG ch) = d.reg (R.STAIR_CHCFG ch) :=
  reg_commitChan_ne d x (by simp only [R.STAIR_CHCFG, R.STAIR_CHCPOS]; omega)

theorem wpos_commitChan (d : Dev) (x : StreamId) (ch n : Nat) :
    (d.commitChan x n).reg (R.STAIR_CHWPOS ch) = d.reg (R.STAIR_CHWPOS ch) :=
  reg_commitChan_ne d x (by simp only [R.STAIR_CHWPOS, R.STAIR_CHCPOS]; omega)

theorem cpos_commitChan_ne (d : Dev) (x : StreamId) {ch n : Nat} (h : ch ≠ n) :
    (d.commitChan x n).reg (R.STAIR_CHCPOS ch) = d.reg (R.STAIR_CHCPOS ch) :=
  reg_commitChan_ne d x (by simp only [R.STAIR_CHCPOS]; omega)

theorem fld_commitChan_same (d : Dev) (x : StreamId) (ch : Nat) :
    (d.commitChan x ch).fld (R.STAIR_CHCPOS_POS ch) = d.commitPos x ch := by
  have hlt : d.fld (R.STAIR_CHWPOS_POS ch) < 2 ^ 24 := fld_lt d (R.STAIR_CHWPOS_POS ch)
  have hhi : (R.STAIR_CHCPOS_POS ch).hi < 32 := show 23 < 32 by decide
  unfold Dev.commitChan Dev.commitPos
  split
  · exact (fld_setFld_same d _ _ hhi).trans (Nat.mod_eq_of_lt hlt)
  · rfl

/-- Committing a channel leaves what the commit gives to it and to every other. -/
theorem commitPos_commitChan (d : Dev) (x : StreamId) (ch n : Nat) : (d.commitChan x n).commitPos x ch = d.commitPos x ch := by
  by_cases hch : ch = n
  · rw [Dev.commitPos, chanBound_congr (cfg_commitChan d x ch n), fld_congr (f := R.STAIR_CHWPOS_POS ch) (wpos_commitChan d x ch n),
      hch, fld_commitChan_same]
    unfold Dev.commitPos
    split <;> rfl
  · exact commitPos_congr (cfg_commitChan d x ch n) (wpos_commitChan d x ch n) (cpos_commitChan_ne d x hch)

/-- Every channel of the part (R176). -/
def Dev.commitChans (d : Dev) (x : StreamId) : Dev := forEach (List.range 8) d (fun e ch => e.commitChan x ch)

theorem arr_commitChans (d : Dev) (x : StreamId) : (d.commitChans x).arr = d.arr :=
  forEach_frame Dev.arr _ d fun e ch => arr_commitChan e x ch

theorem reg_commitChans_ne (d : Dev) (x : StreamId) (h : ∀ ch, r ≠ R.STAIR_CHCPOS ch) : (d.commitChans x).reg r = d.reg r :=
  forEach_frame (Dev.reg · r) _ d fun e ch => reg_commitChan_ne e x (h ch)

/-- After the commit each channel stands where the commit put it. -/
theorem fld_commitChans (d : Dev) (x : StreamId) {ch : Nat} (h : ch < 8) :
    (d.commitChans x).fld (R.STAIR_CHCPOS_POS ch) = d.commitPos x ch := by
  have hreached : (d.commitChans x).fld (R.STAIR_CHCPOS_POS ch) = (d.commitChans x).commitPos x ch := by
    refine forEach_reaches (P := fun e : Dev => e.fld (R.STAIR_CHCPOS_POS ch) = e.commitPos x ch) (List.mem_range.mpr h) ?_ ?_ d
    · exact fun e => (fld_commitChan_same e x ch).trans (commitPos_commitChan e x ch ch).symm
    · intro e n he
      by_cases hn : ch = n
      · rw [← hn, fld_commitChan_same, commitPos_commitChan]
      · rw [fld_congr (f := R.STAIR_CHCPOS_POS ch) (cpos_commitChan_ne e x hn), commitPos_commitChan, he]
  exact hreached.trans (forEach_frame (Dev.commitPos · x ch) _ d fun e n => commitPos_commitChan e x ch n)

/-! The commit's steps 1 to 4 (R218). -/

/-- The restart point and the phase of the next span. -/
def Dev.nextSpan (d : Dev) (x : StreamId) (j : Job) : Dev :=
  (d.setReg (R.SEQ_RADR x) (j.pc + 4)).setFlag (R.SEQ_SPSTAT_PH x) (!d.flag (R.SEQ_SPSTAT_PH x))

/-- The registers that the commit moves on: the restart point, the phase, the channels' positions, the count of milestones. -/
def Dev.commitRegs (d : Dev) (x : StreamId) (j : Job) : Dev :=
  let e := (d.nextSpan x j).commitChans x
  e.setReg (R.SEQ_MSCNT x) (e.reg (R.SEQ_MSCNT x) + 1)

/-- The stream's own record of its span after the commit of the MILESTONE j. -/
def Strm.newSpan (y : Strm) (j : Job) : Strm :=
  { y with
    log := y.log.filter (fun k => j.idx < k.idx), span := 0, replays := 0, reps := 0, sites := [], ctRp := y.ct, mdepth := 0,
    gateRp := j.sd.getLsbD 0 }

theorem commitSpan_eq (d : Dev) (x : StreamId) (j : Job) : d.commitSpan x j =
    let e := ((d.commitRegs x j).wayDeliver 5 x.val ((d.commitRegs x j).st x).reps).modSt x (·.newSpan j)
    forEach (e.streamHalls x.val) e (fun e h => e.expireHall x (e.phys h)) := rfl

/-- No waymark unit's control register and no entry of a fault history. -/
def spanKeeps (r : Nat) : Prop := (∀ w, r ≠ R.WAY_CTL w) ∧ ∀ p, ∀ k < 4, r ≠ R.HALL_FHIST p k

theorem spanKeeps_of_lt (h : r < 0x10100000) : spanKeeps r :=
  ⟨fun w => by simp only [R.WAY_CTL]; omega, fun p k _ => by simp only [R.HALL_FHIST]; omega⟩

theorem spanKeeps_chcpos (ch : Nat) : spanKeeps (R.STAIR_CHCPOS ch) :=
  ⟨fun w => by simp only [R.STAIR_CHCPOS, R.WAY_CTL]; omega, fun p k hk => by simp only [R.STAIR_CHCPOS, R.HALL_FHIST]; omega⟩

theorem reg_commitSpan (d : Dev) (x : StreamId) (j : Job) (h : spanKeeps r) :
    (d.commitSpan x j).reg r = (d.commitRegs x j).reg r := by
  obtain ⟨hway, hhist⟩ := h
  rw [commitSpan_eq]
  exact (forEach_frame (Dev.reg · r) _ _ fun e p => reg_expireHall_ne e x (e.phys p) (hhist (e.phys p))).trans
    (reg_wayDeliver_ne _ _ _ _ hway)

theorem arr_commitRegs (d : Dev) (x : StreamId) (j : Job) : (d.commitRegs x j).arr = d.arr :=
  arr_commitChans (d.nextSpan x j) x

/-- The commit opens the stream's next span (R203). -/
theorem st_commitSpan (d : Dev) (x : StreamId) (j : Job) : (d.commitSpan x j).st x = (d.st x).newSpan j := by
  have harr (e : Dev) (h : e.arr = d.arr) : e.st x = d.st x := congrArg (·.strm[x]) h
  have hexpire (e : Dev) (hs : List Nat) : (forEach hs e (fun e h => e.expireHall x (e.phys h))).st x = e.st x :=
    congrArg (·.strm[x]) (forEach_frame Dev.arr hs e fun e h => arr_expireHall e x (e.phys h))
  rw [commitSpan_eq]
  refine (hexpire _ _).trans ((st_modSt_same _ x _).trans (congrArg (Strm.newSpan · j) (harr _ ?_)))
  rw [arr_wayDeliver, arr_commitRegs]

theorem reg_nextSpan_ne (d : Dev) (j : Job) (hradr : r ≠ R.SEQ_RADR x) (hstat : r ≠ R.SEQ_SPSTAT x) :
    (d.nextSpan x j).reg r = d.reg r :=
  (reg_setFlag_ne _ _ hstat).trans (reg_setReg_ne d _ hradr)

theorem reg_commitRegs_ne (d : Dev) (j : Job) (hpos : ∀ ch, r ≠ R.STAIR_CHCPOS ch) (hcnt : r ≠ R.SEQ_MSCNT x) :
    (d.commitRegs x j).reg r = (d.nextSpan x j).reg r :=
  (reg_setReg_ne _ _ hcnt).trans (reg_commitChans_ne _ x hpos)

/-- The restart point is the instruction behind the MILESTONE. -/
theorem radr_commitSpan (d : Dev) (x : StreamId) (j : Job) : (d.commitSpan x j).reg (R.SEQ_RADR x) = j.pc + 4 := by
  rw [reg_commitSpan d x j (spanKeeps_of_lt (by simp only [R.SEQ_RADR]; omega)),
    reg_commitRegs_ne d j (by simp only [R.SEQ_RADR, R.STAIR_CHCPOS]; omega) (by simp only [R.SEQ_RADR, R.SEQ_MSCNT]; omega)]
  exact (reg_setFlag_ne (f := R.SEQ_SPSTAT_PH x) _ _ (by simp only [R.SEQ_RADR, R.SEQ_SPSTAT_PH, R.SEQ_SPSTAT]; omega)).trans
    (reg_setReg_same d _ _)

/-- The commit is counted. -/
theorem mscnt_commitSpan (d : Dev) (x : StreamId) (j : Job) :
    (d.commitSpan x j).reg (R.SEQ_MSCNT x) = d.reg (R.SEQ_MSCNT x) + 1 := by
  have hbefore : ((d.nextSpan x j).commitChans x).reg (R.SEQ_MSCNT x) = d.reg (R.SEQ_MSCNT x) := by
    rw [reg_commitChans_ne _ x (by simp only [R.SEQ_MSCNT, R.STAIR_CHCPOS]; omega),
      reg_nextSpan_ne d j (by simp only [R.SEQ_MSCNT, R.SEQ_RADR]; omega) (by simp only [R.SEQ_MSCNT, R.SEQ_SPSTAT]; omega)]
  rw [reg_commitSpan d x j (spanKeeps_of_lt (by simp only [R.SEQ_MSCNT]; omega)), ← hbefore]
  exact reg_setReg_same _ _ _

/-- The phase turns over (R199). -/
theorem ph_commitSpan (d : Dev) (x : StreamId) (j : Job) :
    (d.commitSpan x j).flag (R.SEQ_SPSTAT_PH x) = !d.flag (R.SEQ_SPSTAT_PH x) := by
  have hreg : (d.commitSpan x j).reg (R.SEQ_SPSTAT x) = (d.nextSpan x j).reg (R.SEQ_SPSTAT x) := by
    rw [reg_commitSpan d x j (spanKeeps_of_lt (by simp only [R.SEQ_SPSTAT]; omega)),
      reg_commitRegs_ne d j (by simp only [R.SEQ_SPSTAT, R.STAIR_CHCPOS]; omega) (by simp only [R.SEQ_SPSTAT, R.SEQ_MSCNT]; omega)]
  have hhi : (R.SEQ_SPSTAT_PH x).hi < 32 := show 31 < 32 by decide
  exact (flag_congr (f := R.SEQ_SPSTAT_PH x) hreg).trans (flag_setFlag_same _ _ _ hhi rfl)

/-- A bound channel's committed position becomes its write position, an unbound channel keeps its own (R181). -/
theorem cpos_commitSpan (d : Dev) (x : StreamId) (j : Job) {ch : Nat} (h : ch < 8) :
    (d.commitSpan x j).fld (R.STAIR_CHCPOS_POS ch) = d.commitPos x ch := by
  have hreg : (d.commitSpan x j).reg (R.STAIR_CHCPOS ch) = ((d.nextSpan x j).commitChans x).reg (R.STAIR_CHCPOS ch) := by
    rw [reg_commitSpan d x j (spanKeeps_chcpos ch)]
    exact reg_setReg_ne _ _ (by simp only [R.STAIR_CHCPOS, R.SEQ_MSCNT]; omega)
  have hnext {n : Nat} (hn : 0x10300000 ≤ n) : (d.nextSpan x j).reg n = d.reg n :=
    reg_nextSpan_ne d j (by simp only [R.SEQ_RADR]; omega) (by simp only [R.SEQ_SPSTAT]; omega)
  rw [fld_congr (f := R.STAIR_CHCPOS_POS ch) hreg, fld_commitChans _ x h]
  exact commitPos_congr (hnext (by simp only [R.STAIR_CHCFG]; omega)) (hnext (by simp only [R.STAIR_CHWPOS]; omega))
    (hnext (by simp only [R.STAIR_CHCPOS]; omega))

/-- The part after the commit of the MILESTONE j up to the routine's own state: the span, at a LEND the line, and the edges' tokens. -/
def Dev.committed (d : Dev) (x : StreamId) (j : Job) : Dev :=
  (if j.sd.getLsbD 0 then (d.commitSpan x j).commitLine x else d.commitSpan x j).commitEdges x (j.sd.getLsbD 0)

/-- A microroutine goes on behind its MSTONE; a MILESTONE instruction makes every PE active with its latches clear, and its stream idle
(R101). -/
def Dev.milestoneEnded (d : Dev) (x : StreamId) : Dev :=
  match (d.st x).run with
  | .micro _ => d.modSt x (fun y => { y with micro := { y.micro with msWait := false, rep := 0 } })
  | _ => (d.milestoneLatches x).modSt x (fun y => { y with run := .idle })

theorem milestoneCommit_ready (h : d.milestoneReady x = some j) (t : Int) : d.milestoneCommit x t =
    (((d.committed x j).milestoneEnded x).noteReleases t).deferredDue x (j.sd.getLsbD 0) := by
  unfold Dev.milestoneCommit
  rw [h]
  rfl

/-- Settles O34: the commit's own steps, then what its first four leave in the registers, the log and the span. -/
theorem milestoneCommits : Obligations.MilestoneCommits := by
  unfold Obligations.MilestoneCommits
  intro s x t j hx hready
  have hexec : exec (.milestoneCommit x t) s = s.run (fun d => d.onStream x (fun d => d.milestoneCommit x t)) := rfl
  have hst := st_commitSpan s.dev x j
  refine ⟨?outcome, radr_commitSpan s.dev x j, mscnt_commitSpan s.dev x j, ph_commitSpan s.dev x j, ?span, ?log, ?bound, ?unbound⟩
  case outcome =>
    rw [hexec]
    exact run_eq_after ((onStream_eq hx).trans (milestoneCommit_ready hready t))
  case span => rw [hst]; rfl
  case log => rw [hst]; rfl
  case bound =>
    intro ch hch hbound
    exact (cpos_commitSpan s.dev x j hch).trans (if_pos hbound)
  case unbound =>
    intro ch hch hbound
    exact (cpos_commitSpan s.dev x j hch).trans (if_neg (ne_true_of_eq_false hbound))

end Sys2Proof.Machine
end

section
/-! The microstore's code (R131): a single wrong bit is corrected and counted, two are uncorrectable. -/

namespace Sys2Proof.Machine

variable {d : Dev} {x : StreamId}

theorem microFind_oneWrong {k : Nat} (hk : k < 55) : microFind (BitVec.ofNat 55 (2 ^ k)) = .corrected := by
  have hw : (BitVec.ofNat 55 (2 ^ k)).setWidth 72 = BitVec.ofNat 72 (2 ^ k) :=
    BitVec.setWidth_ofNat_of_le_of_lt (by decide) (Nat.pow_lt_pow_right (by decide) hk)
  simp only [microFind, hw, errWeight_two_pow (show k < 72 by omega)]

theorem microWrong_oneWrong {k : Nat} (hk : k < 55) : microWrong (BitVec.ofNat 55 (2 ^ k)) = 0 := by
  have hw : (BitVec.ofNat 55 (2 ^ k)).setWidth 72 = BitVec.ofNat 72 (2 ^ k) :=
    BitVec.setWidth_ofNat_of_le_of_lt (by decide) (Nat.pow_lt_pow_right (by decide) hk)
  simp only [microWrong, hw, errWeight_two_pow (show k < 72 by omega)]

theorem microWrong_zero : microWrong 0 = 0 := by
  have hw : (0 : BitVec 55).setWidth 72 = 0 := rfl
  simp only [microWrong, hw, errWeight_zero]

theorem microFind_twoWrong {i k : Nat} (hi : i < k) (hk : k < 55) :
    microFind (BitVec.ofNat 55 (2 ^ i + 2 ^ k)) = .uncorrectable := by
  have hlt : 2 ^ i + 2 ^ k < 2 ^ 55 := by
    have h1 : 2 ^ i < 2 ^ k := Nat.pow_lt_pow_right (by decide) hi
    have h2 : 2 ^ (k + 1) ≤ 2 ^ 55 := Nat.pow_le_pow_right (by decide) hk
    rw [pow_succ] at h2
    omega
  have hw : (BitVec.ofNat 55 (2 ^ i + 2 ^ k)).setWidth 72 = BitVec.ofNat 72 (2 ^ i + 2 ^ k) :=
    BitVec.setWidth_ofNat_of_le_of_lt (by decide) hlt
  simp only [microFind, hw, errWeight_two_pow_add (show i < 72 by omega) (show k < 72 by omega) hi.ne]

theorem countMicro_corrected {n : Nat} (h : microFind (d.uErrOf n) = .corrected) :
    d.countMicro x n = d.addFld (R.SEQ_USTAT_CORR x.val) 1 := if_pos h

/-- A word whose error is corrected is delivered as it was stored. -/
theorem storeWord_corrects {a : BitVec 13} (h : microWrong (d.uErrOf a.toNat) = 0) :
    d.storeWord a = ({ d with arr := { d.arr with uErr := [] } } : Dev).storeWord a := by
  have hclean : microWrong (({ d with arr := { d.arr with uErr := [] } } : Dev).uErrOf a.toNat) = 0 := microWrong_zero
  simp only [Dev.storeWord, h, hclean]

/-- Counting a correction changes the stream's SEQ_USTAT alone. -/
theorem countMicro_regs (d : Dev) (x : StreamId) (n : Nat) : ∃ r, d.countMicro x n = { d with regs := r } := by
  unfold Dev.countMicro
  split
  · exact ⟨_, rfl⟩
  · exact ⟨_, rfl⟩

theorem reg_countMicro_ne (d : Dev) (x : StreamId) (n : Nat) {a : Nat} (h : a ≠ R.SEQ_USTAT x) :
    (d.countMicro x n).reg a = d.reg a := by
  unfold Dev.countMicro
  split
  · exact reg_addFld_ne (f := R.SEQ_USTAT_CORR x) d 1 h
  · rfl

theorem st_countMicro (d : Dev) (x : StreamId) (n : Nat) (y : StreamId) : (d.countMicro x n).st y = d.st y := by
  obtain ⟨r, hr⟩ := countMicro_regs d x n
  rw [hr]
  rfl

/-- The match registers stand apart from SEQ_USTAT, so that a correction redirects no fetch (R147, R150). -/
theorem served_countMicro (d : Dev) (x : StreamId) (n : Nat) (a : BitVec 13) : (d.countMicro x n).served a = d.served a := by
  have hreg (i : Nat) : (d.countMicro x n).reg (R.SEQ_MATCH i) = d.reg (R.SEQ_MATCH i) :=
    reg_countMicro_ne d x n (by simp only [R.SEQ_MATCH, R.SEQ_USTAT]; omega)
  have hen (i : Nat) := flag_congr (f := R.SEQ_MATCH_EN i) (hreg i)
  have hroma (i : Nat) := fld_congr (f := R.SEQ_MATCH_ROMA i) (hreg i)
  have htgt (i : Nat) := fld_congr (f := R.SEQ_MATCH_TGT i) (hreg i)
  simp only [Dev.served, Dev.matchOf, hen, hroma, htgt]

end Sys2Proof.Machine
end

section
/-! Microroutines: their start, their words' issue, their faults (R130, R132, R133, R135, R136, R149, R151). -/

namespace Sys2Proof.Machine

variable {d : Dev} {x : StreamId} {j : Job} {w : BitVec 48}

theorem modSt_modSt (d : Dev) (x : StreamId) (f g : Strm → Strm) : (d.modSt x f).modSt x g = d.modSt x (fun y => g (f y)) := by
  simp only [Dev.modSt, Dev.setSt, Dev.st, Fin.getElem_fin, Vector.getElem_set_self, Vector.set_set]

/-- What the part holds after a microcode fault at an address (R149): recorded unless a record stands, reported, the work abandoned. -/
theorem microcodeFault_micro (h : (d.st x).run = .micro j) (cause upc : Nat) : d.microcodeFault x cause upc =
    ((((if d.flag (R.SEQ_USTAT_VAL x) then d else
        ((d.setFlag (R.SEQ_USTAT_VAL x) true).setFld (R.SEQ_USTAT_UCAUSE x) cause).setFld (R.SEQ_USTAT_UPC x) upc).arrayFault
          x j.opc.toNat 0x0E 0 0).imprecise x .array 0).abandonStream x) := by
  simp only [Dev.microcodeFault, h, Run.job?, Option.map_some, Option.getD_some]

/-- Where a routine that runs word by word is entered (R130). -/
def Job.entry (j : Job) : BitVec 13 :=
  if 0x70 ≤ j.opc.toNat then BitVec.ofNat 13 (0x1E00 + bits j.cdt.toNat 8 0) else vendorEntry j.opc

theorem startQueued_micro {r : List Job} (hj : (d.st x).jobs = j :: r) (hs : d.canStart x j = true) (hm : d.isMicro j = true) :
    d.startQueued x = d.modSt x (fun y => { y with jobs := r, run := .micro j, micro := y.micro.enter j.entry }) := by
  have hm' : (d.modSt x (fun y => { y with jobs := r })).isMicro j = true := hm
  simp only [Dev.startQueued, Dev.startNext, hj, hm, hs, Bool.not_true, Bool.and_false, Bool.false_and, Bool.false_eq_true, if_false,
    if_true, Dev.begin, hm', modSt_modSt, isCustomer, decide_eq_true_eq, Job.entry]

/-- ADD's three words are known, so that it runs word by word from its own entry. -/
theorem startQueued_add {r : List Job} (hj : (d.st x).jobs = j :: r) (ho : j.opc = 0x10) (hm : d.isMicro j = false)
    (hf : d.issueFree x = true) :
    d.startQueued x = d.modSt x (fun y => { y with jobs := r, run := .micro j, micro := y.micro.enter 0x0120 }) := by
  have hentry : vendorEntry j.opc = 0x0120 := by rw [ho]; rfl
  simp only [Dev.startQueued, hj, ho, hm, hf, decide_true, Bool.not_false, Bool.and_true, if_true, Dev.enterRoutine, modSt_modSt]
  rfl

theorem routineTimeout_micro (h : (d.st x).run = .micro j) (hi : d.canIssue x = true) (hh : (d.st x).micro.hold = none)
    (ht : d.timedOut x = true) : d.routineTimeout x = d.microcodeFault x 8 (d.st x).micro.upc.toNat := by
  simp only [Dev.routineTimeout, h, hh, hi, ht, Bool.and_true, if_true]

section Issue

variable (h : (d.st x).run = .micro j) (hi : d.canIssue x = true) (hh : (d.st x).micro.hold = none) (ht : d.timedOut x = false)
include h hi hh ht

/-- A fault of the fetch stops the word (R149). -/
theorem issueWord_fetchFault {c : Nat} (hf : d.fetchFault (d.st x).micro = some c) :
    d.issueWord x = d.microcodeFault x c (d.st x).micro.upc.toNat := by
  simp only [Dev.issueWord, hi, h, hh, ht, hf, Bool.not_true, Bool.false_eq_true, if_false]

/-- A fault of the word itself stops it, the fetch counted. -/
theorem issueWord_microFault {c : Nat} (hf : d.fetchFault (d.st x).micro = none)
    (hm : microFault j (d.st x).micro (d.storeWord (d.served (d.st x).micro.upc)) = some c) :
    d.issueWord x = (d.countMicro x (d.served (d.st x).micro.upc).toNat).microcodeFault x c (d.st x).micro.upc.toNat := by
  simp only [Dev.issueWord, hi, h, hh, ht, hf, hm, Bool.not_true, Bool.false_eq_true, if_false]

/-- A word that passes its checks and fits the span and the Ramufin edges is sent. -/
theorem issueWord_sends (hf : d.fetchFault (d.st x).micro = none) (hw : d.storeWord (d.served (d.st x).micro.upc) = w)
    (hm : microFault j (d.st x).micro w = none) (hop2 : mwOp2 w ≠ 0x3C)
    (hedge : d.wordOverEdge x w (effCycles (d.st x).micro w) = false)
    (hspan : (d.st x).span + effCycles (d.st x).micro w ≤ d.fld (R.SEQ_SPAN_LIM x)) :
    d.issueWord x = (d.countMicro x (d.served (d.st x).micro.upc).toNat).sendWord x j w (effCycles (d.st x).micro w) := by
  simp only [Dev.issueWord, hi, h, hh, ht, hf, hw, hm, hedge, hop2, hspan.not_gt, Bool.not_true, Bool.false_eq_true, if_false,
    decide_false, Bool.and_false, Bool.false_and, Bool.or_self]

end Issue

theorem mwCyc_pos (w : BitVec 48) : 0 < mwCyc w := by
  have hlt : bits w.toNat 30 28 < 8 := bits_lt w.toNat 30 28
  unfold mwCyc
  generalize bits w.toNat 30 28 = n at hlt ⊢
  interval_cases n <;> decide

/-- A word without a sequencer operation leaves the micro-state to its pointers' steps. -/
theorem op2Micro_none (hop2 : mwOp2 w = 0) (level : Bool) (m : Micro) (eff : Nat) : op2Micro level j m w eff = m := by
  simp [op2Micro, hop2]

theorem chan_setLc (m : Micro) (n : Nat) (v : BitVec 13) : (m.setLc n v).chan = m.chan := by
  unfold Micro.setLc
  split <;> rfl

theorem chan_setBp (m : Micro) (n : Nat) (v : BitVec 13) (t : BitVec 2) : (m.setBp n v t).chan = m.chan := by
  unfold Micro.setBp
  split <;> rfl

/-- The cycles of a word step its pointers; they open and close no channel (R139, R140). -/
theorem chan_stepPointers (m : Micro) (w : BitVec 48) (eff : Nat) : (stepPointers m w eff).chan = m.chan := by
  have hnamed (l : List Nat) :
      (forEach l m (fun m n => m.setBp n (stepBy (m.bpAt n) (m.stepAt n) eff) (m.stepAt n))).chan = m.chan :=
    forEach_frame Micro.chan l m (fun m n => chan_setBp m n _ _)
  simp only [stepPointers, apply_ite Micro.chan, chan_setLc, hnamed, ite_self]

section Plain

variable (hop2 : mwOp2 w = 0) (hsample : mwOp1 w ≠ 1)
include hop2 hsample

/-- What such a word leaves in the micro-state, if it takes no OR sample either. -/
theorem wordMicro_plain (eff : Nat) : d.wordMicro x j w eff = { stepPointers (d.st x).micro w eff with
    cycles := (stepPointers (d.st x).micro w eff).cycles + eff, safe := mwSafe w, begun := true,
    prev := some (d.served (d.st x).micro.upc) } := by
  have hsamples : mwSamples w = false := decide_eq_false hsample
  simp only [Dev.wordMicro, hsamples, op2Micro_none hop2, Bool.false_and, Bool.false_eq_true, if_false]

/-- A word that neither samples nor acts on the activity stack, of a routine without a channel: its entry goes to every hall, the span
grows by its cycles, the next address is formed (R133, R135, R136). -/
theorem sendWord_plain (hact : mwOp1 w ≠ 2) (hopc : j.opc ≠ 0x6E)
    (hcond : condOr (mwCond w) = false) (hchan : (d.st x).micro.chan = none) (eff : Nat) :
    d.sendWord x j w eff = (d.sendEntry x (withParity (flightEntry (d.st x).micro j w eff false false)) eff).modSt x (fun y =>
      { y with span := y.span + eff, micro := nextAddress y.ct j (d.wordMicro x j w eff) w }) := by
  have hfault : d.stackFault x w eff = none := if_pos hact
  have hsamples : mwSamples w = false := decide_eq_false hsample
  have hpushes : wordPushes w eff = 0 := if_pos hact
  have hends : d.endsTransfer x j w eff = false := by
    simp only [Dev.endsTransfer, wordMicro_plain hop2 hsample, chan_stepPointers, hchan, hop2, Option.isSome_none, OfNat.zero_ne_ofNat,
      decide_false, Bool.or_false, Bool.false_and]
  have hholds (m : Micro) : wordHolds m w = false := by simp only [wordHolds, hcond, Bool.false_and]
  unfold Dev.sendWord
  simp only [hfault, hop2, hends, hpushes, hholds, hopc, Option.isSome_none, Bool.false_eq_true, if_false, Bool.or_false,
    Bool.false_and, Dev.takeSamples, hsamples, Bool.not_false, if_true, Dev.op2Outside, add_zero, Int.toNat_natCast,
    OfNat.zero_ne_ofNat, zero_ne_one, decide_false, modSt_modSt]

end Plain

theorem run_onStream {s : State} {f : Dev → Dev} {e : Dev} (hx : x.val < s.dev.numStreams) (he : f s.dev = e) :
    s.run (fun d => d.onStream x f) = s.after e :=
  run_eq_after ((onStream_eq hx).trans he)

section Commands

variable {s : State} {e : Dev} (hx : x.val < s.dev.numStreams)
include hx

theorem exec_routineStart_eq (he : s.dev.startQueued x = e) : exec (.routineStart x) s = s.after e :=
  run_onStream (f := fun d => d.startQueued x) hx he

theorem exec_microwordIssue_eq (he : s.dev.issueWord x = e) : exec (.microwordIssue x) s = s.after e :=
  run_onStream (f := fun d => d.issueWord x) hx he

theorem exec_routineTimeout_eq (he : s.dev.routineTimeout x = e) : exec (.routineTimeout x) s = s.after e :=
  run_onStream (f := fun d => d.routineTimeout x) hx he

end Commands

/-- Settles O28: the microstore's code, the two starts of a routine, and the issue of a word by what its fetch and its checks find. -/
theorem microroutinesRun : Obligations.MicroroutinesRun := by
  unfold Obligations.MicroroutinesRun
  intro s x hx
  refine ⟨?code, ?starts, ?startsAdd, ?issues⟩
  case code =>
    intro a i k hk
    refine ⟨fun he => ⟨?_, ?_⟩, fun hi he => ?_⟩
    · exact countMicro_corrected (he ▸ microFind_oneWrong hk)
    · exact storeWord_corrects (he ▸ microWrong_oneWrong hk)
    · exact he ▸ microFind_twoWrong hi hk
  case starts =>
    intro j r hj hs hm
    exact exec_routineStart_eq hx (startQueued_micro hj hs hm)
  case startsAdd =>
    intro j r hj ho hm hf
    exact exec_routineStart_eq hx (startQueued_add hj ho hm hf)
  case issues =>
    intro j h hi hh
    refine ⟨fun ht => ?timeout, fun ht => ⟨fun c hf => ?fetch, fun hf => ⟨fun c hm => ?word, ?sends⟩⟩⟩
    case timeout => exact exec_routineTimeout_eq hx ((routineTimeout_micro h hi hh ht).trans (microcodeFault_micro h 8 _))
    case fetch => exact exec_microwordIssue_eq hx ((issueWord_fetchFault h hi hh ht hf).trans (microcodeFault_micro h c _))
    case word =>
      have hcounted := (congrArg Strm.run (st_countMicro s.dev x (s.dev.served (s.dev.st x).micro.upc).toNat x)).trans h
      exact exec_microwordIssue_eq hx ((issueWord_microFault h hi hh ht hf hm).trans (microcodeFault_micro hcounted c _))
    case sends =>
      intro hm hop2 hsample hact hopc hcond hchan hedge hspan
      generalize hw : s.dev.storeWord (s.dev.served (s.dev.st x).micro.upc) = w at hm hop2 hsample hact hcond hedge hspan ⊢
      have heff : effCycles (s.dev.st x).micro w = mwCyc w := if_neg (by rw [hop2]; decide)
      have hsend := issueWord_sends h hi hh ht hf hw hm (by rw [hop2]; decide) (by rw [heff]; exact hedge) (by rw [heff]; exact hspan)
      refine exec_microwordIssue_eq hx (hsend.trans ?_)
      rw [heff, sendWord_plain hop2 hsample hact hopc hcond (by rw [st_countMicro]; exact hchan), wordMicro_plain hop2 hsample,
        st_countMicro, served_countMicro, Dev.sendEntry, if_neg (mwCyc_pos w).ne']

end Sys2Proof.Machine
end

section
/-! A stop between routines, its resume, a span overrun (R152 to R157, R202). -/

namespace Sys2Proof.Machine

variable {d : Dev} {x : StreamId}

theorem regs_setLatchNo (d : Dev) (h copy row n : Nat) (v : BitVec 64) : (d.setLatchNo h copy row n v).regs = d.regs := by
  unfold Dev.setLatchNo
  split <;> rfl

/-- Work on the rows of a stream that writes no register leaves every register alone. -/
theorem regs_forRows {f : Dev → Nat → Nat → Nat → Dev} (hf : ∀ d h p row, (f d h p row).regs = d.regs) (d : Dev) (s : Nat) :
    (d.forRows s f).regs = d.regs :=
  (forEach_frame Dev.regs (d.streamHalls s) d.tick fun e h => forEach_frame Dev.regs (List.range 64) e fun e row => hf e h (e.phys h) row)

theorem regs_dropStack (d : Dev) (x : StreamId) (n : Nat) : (d.dropStack x n).regs = d.regs :=
  regs_forRows (fun d _ p row => forEach_frame Dev.regs [0, 1] d fun d k =>
    forEach_frame Dev.regs (List.range 8) d fun d _ => regs_setLatchNo d p k row _ _) d x

/-- Which planes a stop saves depends on the configuration alone (R155). -/
theorem shadowPlanes_congr {e : Dev} (h : e.regs = d.regs) : e.shadowPlanes = d.shadowPlanes := by
  have hstreams : e.numStreams = d.numStreams := congrArg streamsOf (fld_congr (f := R.SEQ_CTRL_SPLIT) (reg_of_regs h R.SEQ_CTRL))
  unfold Dev.shadowPlanes
  rw [hstreams]

/-- What a stop between routines keeps (R155). -/
def Strm.stopIdle (y : Strm) : HeldRec :=
  { kind := 1, run := .idle, micro := y.micro, jobs := y.jobs, depth := y.runDepth, ct := y.ct, issDepth := y.depth,
    issCt := y.ctIss, mdepth := y.mdepth, at_ := ((y.jobs.head?).map (·.idx)).getD y.nextIdx, no := y.stops }

theorem preemptStop_idle (hp : d.stopPoint x = true) (hre : (d.st x).rehold = []) (hrun : (d.st x).run = .idle) :
    d.preemptStop x = ((d.stopLatches x).forHalls x.val (fun d h => d.countStall h 4 1)).modSt x (fun z => { z with
      held := some (d.st x).stopIdle, jobs := [], run := .idle, preReq := false, depth := (d.st x).runDepth, ctIss := (d.st x).ct,
      stops := z.stops + 1 }) := by
  simp only [Dev.preemptStop, hp, hre, hrun, Bool.not_true, Bool.false_eq_true, if_false, Run.job?, Option.toList_none, List.nil_append,
    Strm.stopIdle]
  rfl

/-- A resume that no replay re-established brings back what the stop kept (R157). -/
theorem preemptResume_idle {h : HeldRec} (hh : (d.st x).held = some h) (hj : (d.st x).jobs = []) (hs : (d.st x).smp = none)
    (hidle : d.streamIdle x = true) (hpast : h.past = none) (halive : d.preAlive x = false) (hup : d.upsetPending x = false) :
    d.preemptResume x = ((d.dropStack x ((d.st x).depth - h.depth)).shadow x d.shadowPlanes false).modSt x (fun z => { z with
      held := none, jobs := h.jobs, run := h.run, micro := h.micro, ct := h.ct, ctIss := h.issCt, depth := h.issDepth,
      mdepth := h.mdepth }) := by
  simp only [Dev.preemptResume, hh, hj, hs, hidle, hpast, halive, hup, List.isEmpty_nil, Option.isNone_none, Option.isSome_none,
    Bool.and_true, Bool.not_true, Bool.and_false, Bool.or_self, Bool.false_eq_true, if_false, Option.getD_none,
    shadowPlanes_congr (regs_dropStack d x _)]

theorem spanOverrun_micro {j : Job} (hrun : (d.st x).run = .micro j) (hover : d.wordOverSpan x = true) :
    d.spanOverrun x = (d.countWord x).overrun x j.opc.toNat := by
  simp only [Dev.spanOverrun, hrun, hover, if_true]

/-- Settles O31: the stop and the resume between routines, and the overrun of a word. -/
theorem preemptionAndOverrun : Obligations.PreemptionAndOverrun := by
  unfold Obligations.PreemptionAndOverrun
  intro s x hx
  refine ⟨fun hp hre hrun => ?stop, fun h hh hj hs hidle hpast halive hup => ?resume, fun j hrun hover => ?overrun⟩
  case stop => exact run_onStream (f := fun d => d.preemptStop x) hx (preemptStop_idle hp hre hrun)
  case resume =>
    exact run_onStream (f := fun d => d.preemptResume x) hx (preemptResume_idle hh hj hs hidle hpast halive hup)
  case overrun => exact run_onStream (f := fun d => d.spanOverrun x) hx (spanOverrun_micro hrun hover)

end Sys2Proof.Machine
end

section
/-! Writes of control registers that start a load or an image command (R3, R145, R224). -/

namespace Sys2Proof.Machine

variable {d : Dev} {b : Block} {a x : Nat}

theorem writeFields_eq (d : Dev) (b : Block) (a : Nat) (fs : List FieldDesc) (v : Word) :
    ∃ r t, d.writeFields b a fs v = { d with regs := r, staged := t } := by
  unfold Dev.writeFields
  dsimp only
  split
  · exact ⟨_, _, rfl⟩
  · exact ⟨_, _, rfl⟩

/-- A write by the field types that is no COMMIT changes registers and staged values alone. -/
theorem plainWrite_eq (w : Who) (v : Word) (hc : a ≠ blockBase b + 0x7FF0) :
    ∃ r t, d.plainWrite w b a v = { d with regs := r, staged := t } := by
  unfold Dev.plainWrite
  generalize regIn b (a - blockBase b) = o
  cases o with
  | none => exact ⟨_, _, rfl⟩
  | some f =>
    obtain ⟨r, t, hwrite⟩ := writeFields_eq d b a f.fields v
    simp only [hc, decide_false, Bool.and_false, Bool.false_and, Bool.false_eq_true, if_false, hwrite]
    split
    · exact ⟨_, _, rfl⟩
    · exact ⟨_, _, rfl⟩

/-- It changes no register but its own and the window's CSTAT. -/
theorem reg_plainWrite_noCommit (d : Dev) (w : Who) (v : Word) (hc : a ≠ blockBase b + 0x7FF0) (ha : x ≠ a) (hs : x ≠ cstatAddr b) :
    (d.plainWrite w b a v).reg x = d.reg x := by
  unfold Dev.plainWrite
  generalize regIn b (a - blockBase b) = o
  cases o with
  | none => rfl
  | some f =>
    simp only [hc, decide_false, Bool.and_false, Bool.false_and, Bool.false_eq_true, if_false]
    split
    · rw [reg_setFlag_ne _ true hs, reg_writeFields_ne d _ _ ha]
    · exact reg_writeFields_ne d _ _ ha

theorem reg_writeFields_same (d : Dev) (b : Block) (a : Nat) (fs : List FieldDesc) (v : Word) :
    (d.writeFields b a fs v).reg a =
      ((merge (tyMask fs (fun t => t == .rw || (t == .lk && !d.locked b))) (d.reg a) v) &&& ~~~(tyMask fs (· == .w1c) &&& v)) |||
        (tyMask fs (· == .w1s) &&& v) := by
  unfold Dev.writeFields
  dsimp only
  split
  · exact reg_setReg_same d a _
  · exact (reg_of_regs (regs_setStaged _ _ _) a).trans (reg_setReg_same d a _)

/-- A one-bit field is its bit. -/
theorem flag_bit (d : Dev) (a i : Nat) : d.flag ⟨a, i, i⟩ = (d.reg a).getLsbD i := by
  have hone : i + 1 - i = 1 := by omega
  rw [getLsbD_toNat, Nat.testBit_eq_decide_div_mod_eq]
  simp only [Dev.flag, Dev.fld, bits, hone, pow_one, ne_eq, decide_eq_decide]
  omega

/-- The fields of SEQ_HIMGCMD (R224). -/
def himgFields : List FieldDesc :=
  [⟨31, 31, .wo, 0⟩, ⟨30, 30, .ro, 0⟩, ⟨29, 29, .w1c, 0⟩, ⟨28, 28, .w1c, 0⟩, ⟨27, 27, .w1c, 0⟩, ⟨26, 24, .ro, 0⟩,
    ⟨9, 8, .rw, 0⟩, ⟨3, 0, .rw, 0⟩]

theorem regIn_himgcmd : regIn .seq (R.SEQ_HIMGCMD - blockBase .seq) = some ⟨0x680, [], himgFields⟩ := by decide +kernel

/-- BUSY of SEQ_HIMGCMD is read-only (R224): a write of the register leaves it. -/
theorem himgBusy_plainWrite (d : Dev) (w : Who) (v : Word) :
    (d.plainWrite w .seq R.SEQ_HIMGCMD v).flag R.SEQ_HIMGCMD_BUSY = d.flag R.SEQ_HIMGCMD_BUSY := by
  have hbusy : R.SEQ_HIMGCMD_BUSY = ⟨R.SEQ_HIMGCMD, 30, 30⟩ := rfl
  have hrw : ∀ l : Bool, (tyMask himgFields (fun t => t == .rw || (t == .lk && !l))).getLsbD 30 = false := by decide
  have hw1c : (tyMask himgFields (· == .w1c)).getLsbD 30 = false := by decide
  have hw1s : (tyMask himgFields (· == .w1s)).getLsbD 30 = false := by decide
  have hhit : d.lockHit .seq himgFields = false := Bool.and_false _
  have hplain : d.plainWrite w .seq R.SEQ_HIMGCMD v = d.writeFields .seq R.SEQ_HIMGCMD himgFields v := by
    have hgo : R.SEQ_HIMGCMD ≠ blockBase .seq + 0x7FF0 := by decide
    simp only [Dev.plainWrite, regIn_himgcmd, hhit, hgo, decide_false, Bool.and_false, Bool.false_and, Bool.false_eq_true, if_false]
  rw [hplain, hbusy, flag_bit, flag_bit, reg_writeFields_same]
  simp only [merge, BitVec.getLsbD_or, BitVec.getLsbD_and, BitVec.getLsbD_not, hrw, hw1c, hw1s, Bool.not_false, Bool.and_true,
    Bool.and_false, Bool.false_and, Bool.or_false, Nat.reduceLT, decide_true]

end Sys2Proof.Machine
end

section
/-! Patch loads: their start, the staged image, the end of its verify (R145, R412, R419). -/

namespace Sys2Proof.Machine

variable {d : Dev} {x : Nat}

theorem regs_patchError (d : Dev) (c : Nat) : (d.patchError c).regs =
    (((d.setFlag R.SEQ_PLDSTAT_BUSY false).setFlag R.SEQ_PLDSTAT_ERR true).setFld R.SEQ_PLDSTAT_ECAUSE c).regs := rfl

theorem reg_patchError_ne (d : Dev) (c : Nat) (h : x ≠ R.SEQ_PLDSTAT) : (d.patchError c).reg x = d.reg x := by
  rw [reg_of_regs (regs_patchError d c), reg_setFld_ne _ _ h, reg_setFlag_ne _ _ h, reg_setFlag_ne _ _ h]

theorem patchLoad_busy (hb : d.flag R.SEQ_PLDSTAT_BUSY = true) :
    d.patchLoad = (d.setFlag R.SEQ_PLDSTAT_ERR true).setFld R.SEQ_PLDSTAT_ECAUSE 1 := by
  simp only [Dev.patchLoad, hb, if_true]

theorem patchLoad_outside (hb : d.flag R.SEQ_PLDSTAT_BUSY = false) (hp : patchFrom (d.fld R.SEQ_PLDSRC_ADDR) 64 = none) :
    d.patchLoad = d.patchError 2 := by
  simp only [Dev.patchLoad, Dev.patchSource, hb, hp, Bool.false_eq_true, if_false]

/-- The part with a patch load started. -/
def Dev.patchStarted (d : Dev) : Dev :=
  { d.setFlag R.SEQ_PLDSTAT_BUSY true with arr := { d.arr with pld := (d.fld R.SEQ_PLDCMD_HALF, d.fld R.SEQ_PLDSRC_ADDR) } }

theorem patchLoad_starts (hb : d.flag R.SEQ_PLDSTAT_BUSY = false) (hp : (patchFrom (d.fld R.SEQ_PLDSRC_ADDR) 64).isSome = true) :
    d.patchLoad = d.patchStarted := by
  obtain ⟨a, ha⟩ := Option.isSome_iff_exists.mp hp
  simp only [Dev.patchLoad, Dev.patchSource, hb, ha, Bool.false_eq_true, if_false, Dev.patchStarted]

theorem reg_patchLoad_ne (d : Dev) (h : x ≠ R.SEQ_PLDSTAT) : d.patchLoad.reg x = d.reg x := by
  cases hb : d.flag R.SEQ_PLDSTAT_BUSY with
  | true => rw [patchLoad_busy hb, reg_setFld_ne _ _ h, reg_setFlag_ne _ _ h]
  | false =>
    cases hp : patchFrom (d.fld R.SEQ_PLDSRC_ADDR) 64 with
    | none => rw [patchLoad_outside hb hp, reg_patchError_ne d 2 h]
    | some a => exact (congrArg (Dev.reg · x) (patchLoad_starts hb (hp ▸ rfl))).trans (reg_setFlag_ne d true h)

theorem patchFrom_isSome (src n : Nat) : (patchFrom src n).isSome = true ↔ 0x40000000 ≤ src * 8 ∧ src * 8 + n ≤ 0x41700000 := by
  simp [patchFrom]

theorem patchFrom_eq_none (src n : Nat) : patchFrom src n = none ↔ ¬(0x40000000 ≤ src * 8 ∧ src * 8 + n ≤ 0x41700000) := by
  simp [patchFrom]

theorem arr_galCount (d : Dev) (i : Nat) (r : EccFind) (b : Bool) : (d.galCount i r b).arr = d.arr := by
  cases r with
  | good => rfl
  | corrected => cases b <;> rfl
  | uncorrectable => exact arr_raise _ 0x38

theorem arr_galRead (d : Dev) (a n : Nat) : (d.galRead a n).2.2.arr = d.arr :=
  forEach_frame Dev.arr (wordsOf a n) d fun d i => arr_galCount d i (d.galWord i).2 true

section Staging

variable {a : Nat} (hb : d.flag R.SEQ_PLDSTAT_BUSY = true) (hs : d.arr.stage = none) (ha : patchFrom d.arr.pld.2 64 = some a)
include hb hs ha

/-- The staged bytes could not be read, or did not come (R145 step 1). -/
theorem patchStaged_unread {ok : Bool} (h : (d.galRead a 64).2.1 = true ∨ ok = false) :
    d.patchStaged ok = (d.galRead a 64).2.2.patchError 6 := by
  have hbad : ((d.galRead a 64).2.1 || !ok) = true := by
    rcases h with h | h
    · rw [h, Bool.true_or]
    · rw [h, Bool.not_false, Bool.or_true]
  simp only [Dev.patchStaged, hb, hs, ha, hbad, Option.isSome_none, Bool.not_true, Bool.or_self, Bool.false_eq_true, if_false, if_true]

/-- What the load takes from the header's bytes on: the whole image, checked. -/
def Dev.patchImage (d : Dev) (hd : Header) (a half : Nat) : Dev :=
  let y := d.galRead a (64 + hd.bodyLen + 3136)
  if y.2.1 then y.2.2.patchError 6 else
  if !hd.plainOk (2 + half) || hd.count = 0 || 512 < hd.count || hd.bodyLen ≠ 8 * hd.count then y.2.2.patchError 3 else
  let ws := (List.range hd.count).map (fun i => (le y.1 (64 + 8 * i) 6, le y.1 (64 + 8 * i + 6) 2))
  if ws.any (fun p => 512 ≤ p.2) then y.2.2.patchError 3 else
  { y.2.2 with arr := { y.2.2.arr with
      stage := some (ws.map (fun (p : Nat × Nat) => (0x1C00 + 0x200 * half + p.2, BitVec.ofNat 48 p.1))),
      stageSlot := hd.slot, stageSig := parseSig (y.1.drop (64 + hd.bodyLen)) } }.verifyRequest .patch

theorem patchStaged_tooLong (hr : (d.galRead a 64).2.1 = false)
    (hn : patchFrom d.arr.pld.2 (64 + (parseHeader (d.galRead a 64).1).bodyLen + 3136) = none) :
    d.patchStaged true = (d.galRead a 64).2.2.patchError 2 := by
  have hn' := (congrArg (fun e : ArrayState => patchFrom e.pld.2 _) (arr_galRead d a 64)).trans hn
  simp only [Dev.patchStaged, hb, hs, ha, hr, hn', Option.isSome_none, Bool.not_true, Bool.or_self, Bool.false_eq_true,
    if_false]

theorem patchStaged_image (hr : (d.galRead a 64).2.1 = false)
    (hn : (patchFrom d.arr.pld.2 (64 + (parseHeader (d.galRead a 64).1).bodyLen + 3136)).isSome = true) :
    d.patchStaged true = (d.galRead a 64).2.2.patchImage (parseHeader (d.galRead a 64).1) a d.arr.pld.1 := by
  obtain ⟨k, hk⟩ := Option.isSome_iff_exists.mp hn
  have hk' := (congrArg (fun e : ArrayState => patchFrom e.pld.2 _) (arr_galRead d a 64)).trans hk
  simp only [Dev.patchStaged, hb, hs, ha, hr, hk', Option.isSome_none, Bool.not_true, Bool.or_self, Bool.false_eq_true,
    if_false]
  rfl

end Staging

/-- The words of an image with their targets in the half (R145): six bytes of the word, two of its place. -/
def imageWords (l : List Byte) (n : Nat) : List (Nat × Nat) :=
  (List.range n).map (fun i => (le l (64 + 8 * i) 6, le l (64 + 8 * i + 6) 2))

/-- The part with an image staged. -/
def Dev.imageStaged (d : Dev) (hd : Header) (l : List Byte) (half : Nat) : Dev :=
  { d with arr := { d.arr with
      stage := some ((imageWords l hd.count).map (fun p => (0x1C00 + 0x200 * half + p.2, BitVec.ofNat 48 p.1))),
      stageSlot := hd.slot, stageSig := parseSig (l.drop (64 + hd.bodyLen)) } }

section Image

variable {hd : Header} {a half : Nat}

theorem patchImage_unread (h : (d.galRead a (64 + hd.bodyLen + 3136)).2.1 = true) :
    d.patchImage hd a half = (d.galRead a (64 + hd.bodyLen + 3136)).2.2.patchError 6 := by
  simp only [Dev.patchImage, h, if_true]

variable (h : (d.galRead a (64 + hd.bodyLen + 3136)).2.1 = false)
include h

theorem patchImage_notPlain (hp : hd.plainOk (2 + half) = false) :
    d.patchImage hd a half = (d.galRead a (64 + hd.bodyLen + 3136)).2.2.patchError 3 := by
  simp only [Dev.patchImage, h, hp, Bool.not_false, Bool.true_or, Bool.false_eq_true, if_false, if_true]

/-- An image that passes its checks is staged, and its verify requested (R145 step 2, R412). -/
theorem patchImage_stages (hp : hd.plainOk (2 + half) = true) (hpos : 0 < hd.count) (hle : hd.count ≤ 512)
    (hlen : hd.bodyLen = 8 * hd.count)
    (hin : ∀ p ∈ imageWords (d.galRead a (64 + hd.bodyLen + 3136)).1 hd.count, p.2 < 512) :
    d.patchImage hd a half = ((d.galRead a (64 + hd.bodyLen + 3136)).2.2.imageStaged hd
      (d.galRead a (64 + hd.bodyLen + 3136)).1 half).verifyRequest .patch := by
  have hany : (imageWords (d.galRead a (64 + hd.bodyLen + 3136)).1 hd.count).any (fun p => 512 ≤ p.2) = false :=
    List.any_eq_false.mpr fun p hp => by simpa using hin p hp
  have hbad : (!hd.plainOk (2 + half) || decide (hd.count = 0) || decide (512 < hd.count) ||
      decide (hd.bodyLen ≠ 8 * hd.count)) = false := by
    simp only [hp, hlen, hpos.ne', hle.not_gt, Bool.not_true, decide_false, ne_eq, not_true_eq_false, Bool.or_self]
  unfold Dev.patchImage
  dsimp only
  rw [if_neg (ne_true_of_eq_false h), if_neg (ne_true_of_eq_false hbad)]
  exact if_neg (ne_true_of_eq_false hany)

end Image

/-- One word in the patch RAM, valid and tagged (R145 steps 4 and 5). -/
def Dev.putPatch (d : Dev) (p : Nat × BitVec 48) : Dev :=
  { d with arr := { d.arr with
    patch := bankSet (fun _ => 0) d.arr.patch p.1 p.2, uErr := bankSet (fun _ => 0) d.arr.uErr p.1 0,
    tags := setBit d.arr.tags (p.1 - 0x1C00) true } }

theorem tags_putPatch (d : Dev) (p : Nat × BitVec 48) : (d.putPatch p).arr.tags = setBit d.arr.tags (p.1 - 0x1C00) true := rfl

/-- The words of a verified image in the patch RAM. -/
def Dev.patchWritten (d : Dev) (ws : List (Nat × BitVec 48)) : Dev := forEach ws d Dev.putPatch

/-- The part with a patch load ended without an error (R145 step 6). -/
def Dev.patchDone (d : Dev) (n : Nat) : Dev :=
  ((({ d with arr := { d.arr with stage := none } } : Dev).setFlag R.SEQ_PLDSTAT_BUSY false).setFlag R.SEQ_PLDSTAT_DONE true).setFld
    R.SEQ_PLDSTAT_NWORDS n

section Verified

variable {ws : List (Nat × BitVec 48)} (hs : d.arr.stage = some ws)
include hs

theorem patchVerified_waits (hv : d.verifyFirst .patch = false) (v : Verdict) : d.patchVerified v = d := by
  simp only [Dev.patchVerified, hs, hv, Bool.not_false, if_true]

variable (hv : d.verifyFirst .patch = true)
include hv

theorem patchVerified_badKey (hk : d.verifyEnd.keyOk (2 + d.verifyEnd.arr.pld.1) d.verifyEnd.arr.stageSlot = false) (v : Verdict) :
    d.patchVerified v = d.verifyEnd.patchError 5 := by
  simp only [Dev.patchVerified, hs, hv, hk, Bool.not_true, Bool.not_false, Bool.false_eq_true, if_false, if_true]

variable (hk : d.verifyEnd.keyOk (2 + d.verifyEnd.arr.pld.1) d.verifyEnd.arr.stageSlot = true)
include hk

theorem patchVerified_badSig {v : Verdict} (h : v ≠ .pass ∨ d.verifyEnd.arr.stageSig.ok = false) :
    d.patchVerified v = d.verifyEnd.patchError 4 := by
  have hbad : (decide (v ≠ .pass) || !d.verifyEnd.arr.stageSig.ok) = true := by
    rcases h with h | h
    · rw [decide_eq_true h, Bool.true_or]
    · rw [h, Bool.not_false, Bool.or_true]
  simp only [Dev.patchVerified, hs, hv, hk, hbad, Bool.not_true, Bool.false_eq_true, if_false, if_true]

theorem patchVerified_passes (h : d.verifyEnd.arr.stageSig.ok = true) :
    d.patchVerified .pass = (d.verifyEnd.patchWritten ws).patchDone ws.length := by
  simp only [Dev.patchVerified, hs, hv, hk, h, ne_eq, not_true_eq_false, decide_false, Bool.not_true, Bool.or_self, Bool.false_eq_true,
    if_false]
  rfl

end Verified

theorem arr_verifyEnd (d : Dev) : d.verifyEnd.arr = d.arr := arr_raise _ 0xE8

/-- A word that the image does not name keeps its value. -/
theorem patch_patchWritten_other {ws : List (Nat × BitVec 48)} {a : Nat} (h : ∀ p ∈ ws, p.1 ≠ a) (d : Dev) :
    bankGet (fun _ => 0) (d.patchWritten ws).arr.patch a = bankGet (fun _ => 0) d.arr.patch a :=
  forEach_frame_of_mem (fun d : Dev => bankGet (fun _ => 0) d.arr.patch a) (fun _ p hp => bankGet_bankSet_ne (h p hp).symm) d

theorem patch_patchWritten_same {ws : List (Nat × BitVec 48)} (hn : (ws.map Prod.fst).Nodup) {p : Nat × BitVec 48} (hp : p ∈ ws)
    (d : Dev) : bankGet (fun _ => 0) (d.patchWritten ws).arr.patch p.1 = p.2 := by
  induction ws generalizing d with
  | nil => exact absurd hp List.not_mem_nil
  | cons q ws ih =>
    obtain ⟨hq, hn⟩ := List.nodup_cons.mp hn
    rcases List.mem_cons.mp hp with rfl | hp
    · refine (patch_patchWritten_other (fun r hr he => hq ?_) (d.putPatch p)).trans bankGet_bankSet_same
      exact he ▸ List.mem_map_of_mem hr
    · exact ih hn hp _

theorem getLsbD_setBit_true {n : Nat} (v : BitVec n) (i k : Nat) (h : v.getLsbD k = true) : (setBit v i true).getLsbD k = true := by
  simp only [setBit, if_true, BitVec.getLsbD_or, h, Bool.true_or]

/-- Every word of the image has its verified tag (R144). -/
theorem tags_patchWritten {ws : List (Nat × BitVec 48)} {p : Nat × BitVec 48} (hp : p ∈ ws) (hlt : p.1 < 0x2000) (d : Dev) :
    (d.patchWritten ws).arr.tags.getLsbD (p.1 - 0x1C00) = true := by
  have hin : p.1 - 0x1C00 < 1024 := by omega
  refine forEach_reaches (P := fun e : Dev => e.arr.tags.getLsbD (p.1 - 0x1C00) = true) hp (fun e => ?_) (fun e q h => ?_) d
  · rw [tags_putPatch, getLsbD_setBit_same _ _ hin]
  · rw [tags_putPatch, getLsbD_setBit_true _ _ _ h]

section Done

variable (d : Dev) (n : Nat)

theorem flag_done_patchDone : (d.patchDone n).flag R.SEQ_PLDSTAT_DONE = true :=
  (flag_setFld_other _ R.SEQ_PLDSTAT_NWORDS R.SEQ_PLDSTAT_DONE n (by decide) (.inr (.inr (by decide)))).trans
    (flag_setFlag_same _ R.SEQ_PLDSTAT_DONE true (by decide) rfl)

theorem flag_busy_patchDone : (d.patchDone n).flag R.SEQ_PLDSTAT_BUSY = false :=
  (flag_setFld_other _ R.SEQ_PLDSTAT_NWORDS R.SEQ_PLDSTAT_BUSY n (by decide) (.inr (.inr (by decide)))).trans
    ((flag_setFld_other _ R.SEQ_PLDSTAT_DONE R.SEQ_PLDSTAT_BUSY 1 (by decide) (.inr (.inr (by decide)))).trans
      (flag_setFlag_same _ R.SEQ_PLDSTAT_BUSY false (by decide) rfl))

theorem fld_nwords_patchDone : (d.patchDone n).fld R.SEQ_PLDSTAT_NWORDS = n % 2 ^ 10 := fld_setFld_same _ _ n (by decide)

end Done

end Sys2Proof.Machine
end

section
/-! Hall image commands (R224, R471), and the obligation on loads and image commands. -/

namespace Sys2Proof.Machine

variable {d : Dev} {op : BitVec 2} {h : LHall} {x : Nat}

/-- The hall's stream has changed its PEs since its last MILESTONE (R471). -/
def Dev.hallDirty (d : Dev) (h : LHall) : Bool :=
  match d.stream? (d.streamOf h.val) with | some s => (d.st s).dirty | none => false

theorem hallDirty_true (hx : ∃ x, d.stream? (d.streamOf h.val) = some x ∧ (d.st x).dirty = true) : d.hallDirty h = true := by
  obtain ⟨x, hx, hd⟩ := hx
  simp only [Dev.hallDirty, hx, hd]

theorem hallDirty_false (hx : ∀ x, d.stream? (d.streamOf h.val) = some x → (d.st x).dirty = false) : d.hallDirty h = false := by
  unfold Dev.hallDirty
  cases hs : d.stream? (d.streamOf h.val) with
  | none => rfl
  | some x => exact hx x hs

/-- The part with an image command started. -/
def Dev.imageStarted (d : Dev) (op : BitVec 2) (h : LHall) : Dev :=
  ({ d with arr := { d.arr with himg := some (op, h) } } : Dev).setFlag R.SEQ_HIMGCMD_BUSY true

/-- The outcomes of a GO of SEQ_HIMGCMD, in the order of its checks (R224, R471). -/
theorem himgGo_eq (d : Dev) (op : BitVec 2) (h : LHall) : d.himgGo op h =
    if d.flag R.SEQ_HIMGCMD_BUSY then d.himgRefuse 1
    else if op = 3 then d.himgRefuse 6
    else if d.mode = 8 then d.himgRefuse 2
    else if d.hallDirty h then d.himgRefuse 3
    else if d.dramSize < d.imageEnd (d.fld R.SEQ_IMGMASK_MASK) h.val then d.himgRefuse 5
    else d.imageStarted op h := rfl

theorem reg_himgRefuse_ne (c : Nat) (hx : x ≠ R.SEQ_HIMGCMD) : (d.himgRefuse c).reg x = d.reg x :=
  (reg_setFld_ne (f := R.SEQ_HIMGCMD_ECAUSE) _ c hx).trans (reg_setFlag_ne d true hx)

theorem reg_himgGo_ne (hx : x ≠ R.SEQ_HIMGCMD) : (d.himgGo op h).reg x = d.reg x := by
  have hstart : (d.imageStarted op h).reg x = d.reg x :=
    reg_setFlag_ne ({ d with arr := { d.arr with himg := some (op, h) } } : Dev) true hx
  simp only [himgGo_eq, apply_ite (Dev.reg · x), reg_himgRefuse_ne _ hx, hstart, ite_self]

theorem hallDirty_congr {e : Dev} (harr : e.arr = d.arr) (hreg : e.reg R.SEQ_CTRL = d.reg R.SEQ_CTRL) :
    e.hallDirty h = d.hallDirty h := by
  have hstreams : e.numStreams = d.numStreams := congrArg streamsOf (fld_congr (f := R.SEQ_CTRL_SPLIT) hreg)
  have hst (x : StreamId) : e.st x = d.st x := congrArg (·.strm[x]) harr
  have hof : e.stream? (e.streamOf h.val) = d.stream? (d.streamOf h.val) := by
    unfold Dev.stream? Dev.streamOf Dev.perStream
    rw [hstreams]
  simp only [Dev.hallDirty, hof, hst]

/-- The write of SEQ_HIMGCMD leaves what its GO's checks go by. -/
theorem himgGo_fielded (d : Dev) (r : Requester) (v : Word) (op : BitVec 2) (h : LHall) :
    (d.fielded r .seq R.SEQ_HIMGCMD v).himgGo op h =
      let t := d.fielded r .seq R.SEQ_HIMGCMD v
      if d.flag R.SEQ_HIMGCMD_BUSY then t.himgRefuse 1
      else if op = 3 then t.himgRefuse 6
      else if d.mode = 8 then t.himgRefuse 2
      else if d.hallDirty h then t.himgRefuse 3
      else if d.dramSize < d.imageEnd (d.fld R.SEQ_IMGMASK_MASK) h.val then t.himgRefuse 5
      else t.imageStarted op h := by
  have hgo : R.SEQ_HIMGCMD ≠ blockBase .seq + 0x7FF0 := by decide
  have hreg {x : Nat} (ha : x ≠ R.SEQ_HIMGCMD) (hs : x ≠ cstatAddr .seq) :
      (d.fielded r .seq R.SEQ_HIMGCMD v).reg x = d.reg x := reg_plainWrite_noCommit d.drawn (d.who r) v hgo ha hs
  have hbusy : (d.fielded r .seq R.SEQ_HIMGCMD v).flag R.SEQ_HIMGCMD_BUSY = d.flag R.SEQ_HIMGCMD_BUSY :=
    himgBusy_plainWrite d.drawn (d.who r) v
  have hmode : (d.fielded r .seq R.SEQ_HIMGCMD v).mode = d.mode :=
    fld_congr (f := R.PWR_MSTAT_MODE) (hreg (by decide) (by decide))
  have harr : (d.fielded r .seq R.SEQ_HIMGCMD v).arr = d.arr := by
    obtain ⟨_, _, he⟩ := plainWrite_eq (d := d.drawn) (d.who r) v hgo
    exact (congrArg Dev.arr he).trans rfl
  have hdirty := hallDirty_congr (h := h) harr (hreg (by decide) (by decide))
  have hsize : (d.fielded r .seq R.SEQ_HIMGCMD v).dramSize = d.dramSize :=
    congrArg (· * 2 ^ 28) (fld_congr (f := R.DDR_CFG_USIZE) (hreg (by decide) (by decide)))
  have hmask := fld_congr (f := R.SEQ_IMGMASK_MASK) (hreg (by decide) (by decide))
  have hbase : (d.fielded r .seq R.SEQ_HIMGCMD v).fld (R.SEQ_HIMG_BASE h) = d.fld (R.SEQ_HIMG_BASE h) :=
    fld_congr (f := R.SEQ_HIMG_BASE h) (hreg (by simp only [R.SEQ_HIMG_BASE, R.SEQ_HIMG, R.SEQ_HIMGCMD]; omega)
      (by simp only [R.SEQ_HIMG_BASE, R.SEQ_HIMG, cstatAddr, blockBase]; omega))
  rw [himgGo_eq, hbusy, hmode, hdirty, hsize, hmask, Dev.imageEnd, hbase]
  rfl

/-- The three image commands with the operation that each spells (R224). -/
def himgInstrs : List ((Requester → LHall → Instr) × Nat) := [(.himgUnload, 0), (.himgLoad, 1), (.himgVerify, 2)]

theorem himgInstrs_lt {e : (Requester → LHall → Instr) × Nat} (he : e ∈ himgInstrs) : e.2 < 3 := by
  have hall : ∀ n ∈ himgInstrs.map Prod.snd, n < 3 := by decide
  exact hall e.2 (List.mem_map_of_mem he)

theorem himgOp_ne_three {n : Nat} (hn : n < 3) : BitVec.ofNat 2 n ≠ 3 := by
  interval_cases n <;> decide

/-- A GO word of SEQ_HIMGCMD names its operation and its hall. -/
theorem himgWord_fields : ∀ (op : Fin 3) (h : LHall), (himgWord op.val h).getLsbD 31 = true ∧
    BitVec.ofNat 2 (bits (himgWord op.val h).toNat 9 8) = BitVec.ofNat 2 op.val ∧
      Fin.ofNat 16 (bits (himgWord op.val h).toNat 3 0) = h := by
  decide +kernel

theorem startWrite_himgcmd (d : Dev) (w : Who) (op : Fin 3) (h : LHall) :
    d.startWrite w .seq R.SEQ_HIMGCMD (himgWord op.val h) =
      (d.plainWrite w .seq R.SEQ_HIMGCMD (himgWord op.val h)).himgGo (BitVec.ofNat 2 op.val) h := by
  obtain ⟨hgo, hop, hhall⟩ := himgWord_fields op h
  have hne : R.SEQ_HIMGCMD ≠ R.SEQ_PLDCMD := by decide
  simp only [Dev.startWrite, hne, hgo, hop, hhall, if_false, if_true]

theorem startWrite_pldcmd (d : Dev) (w : Who) {v : Word} (hv : v.getLsbD 0 = true) :
    d.startWrite w .seq R.SEQ_PLDCMD v = (d.plainWrite w .seq R.SEQ_PLDCMD v).patchLoad := by
  simp only [Dev.startWrite, hv, if_true]

/-- The registers by which a response reaches its requester lie below the sequencer's. -/
theorem ne_of_responseRegs {a : Nat} (hx : x ∈ responseRegs) (ha : 0x10060000 ≤ a) : x ≠ a := by
  have hall : ∀ x ∈ responseRegs, x < 0x10060000 := by decide
  exact ((hall x hx).trans_le ha).ne

section Commands

variable {s : State} {r : Requester}

/-- The command of an image operation writes its GO. -/
theorem exec_himgInstr {e : (Requester → LHall → Instr) × Nat} (he : e ∈ himgInstrs) (r : Requester) (h : LHall) (s : State) :
    exec (e.1 r h) s = s.run (fun d => d.commandWord r R.SEQ_HIMGCMD (himgWord e.2 h)) := by
  simp only [himgInstrs, List.mem_cons, List.not_mem_nil, or_false] at he
  rcases he with rfl | rfl | rfl <;> rfl

theorem exec_himg_writes {e : (Requester → LHall → Instr) × Nat} (he : e ∈ himgInstrs)
    (hw : s.dev.Writes r .seq R.SEQ_HIMGCMD (himgWord e.2 h)) :
    exec (e.1 r h) s = s.wrote ((s.dev.fielded r .seq R.SEQ_HIMGCMD (himgWord e.2 h)).himgGo (BitVec.ofNat 2 e.2) h) := by
  rw [exec_himgInstr he]
  refine run_commandWord hw (startWrite_himgcmd _ _ ⟨e.2, himgInstrs_lt he⟩ h) (fun x hx => ?_)
  rw [reg_himgGo_ne (ne_of_responseRegs hx (by decide))]
  exact reg_plainWrite_noCommit s.dev.drawn _ _ (by decide) (ne_of_responseRegs hx (by decide)) (ne_of_responseRegs hx (by decide))

theorem exec_patchLoad_writes (hw : s.dev.Writes r .seq R.SEQ_PLDCMD (s.dev.reg R.SEQ_PLDCMD ||| 1)) :
    exec (.patchLoad r) s = s.wrote (s.dev.fielded r .seq R.SEQ_PLDCMD (s.dev.reg R.SEQ_PLDCMD ||| 1)).patchLoad := by
  have hexec : exec (.patchLoad r) s = s.run (fun d => d.commandWord r R.SEQ_PLDCMD (s.dev.reg R.SEQ_PLDCMD ||| 1)) := by
    rw [exec_patchLoad]
    unfold execPatchLoad State.run
    with_reducible rfl
  have hgo : (s.dev.reg R.SEQ_PLDCMD ||| 1).getLsbD 0 = true := by
    rw [BitVec.getLsbD_or, show (1 : Word).getLsbD 0 = true from by decide, Bool.or_true]
  rw [hexec]
  refine run_commandWord hw (startWrite_pldcmd _ _ hgo) (fun x hx => ?_)
  rw [reg_patchLoad_ne _ (ne_of_responseRegs hx (by decide))]
  exact reg_plainWrite_noCommit s.dev.drawn _ _ (by decide) (ne_of_responseRegs hx (by decide)) (ne_of_responseRegs hx (by decide))

end Commands

/-- Whether a hall's image has passed a verify since it was written (R223). -/
def Dev.sawImage (d : Dev) (g : LHall) (b : Bool) : Dev := { d with arr := { d.arr with verified := setBit d.arr.verified g.val b } }

/-- The end of a command: BUSY clear, then the mismatch, then DONE or the cause (R224). -/
theorem himgEnd_eq (d : Dev) (cause : Nat) (mism : Bool) : d.himgEnd cause mism =
    let t := ({ d with arr := { d.arr with himg := none } } : Dev).setFlag R.SEQ_HIMGCMD_BUSY false
    let t := if mism then t.setFlag R.SEQ_HIMGCMD_MISM true else t
    if cause = 0 then t.setFlag R.SEQ_HIMGCMD_DONE true
    else (t.setFlag R.SEQ_HIMGCMD_ERR true).setFld R.SEQ_HIMGCMD_ECAUSE cause := rfl

section Done

variable {g : LHall} (hf : d.himgFree g = true)
include hf

theorem himgDone_unload (hi : d.arr.himg = some (0, g)) : d.himgDone =
    ((d.unloadImage g.val).2.sawImage g false).himgEnd (if (d.unloadImage g.val).1 then 7 else 0) false := by
  simp only [Dev.himgDone, hi, hf, Bool.not_true, Bool.false_eq_true, if_false, if_true]
  rfl

theorem himgDone_load (hi : d.arr.himg = some (1, g)) : d.himgDone =
    (d.loadImage g.val).2.himgEnd (if (d.loadImage g.val).1 then 4 else 0) false := by
  have hne : (1 : BitVec 2) ≠ 0 := by decide
  simp only [Dev.himgDone, hi, hf, hne, Bool.not_true, Bool.false_eq_true, if_false, if_true]

/-- The cause with which a verify ends (R224). -/
def verifyCause (err bad : Bool) : Nat := if err then 4 else if bad then 7 else 0

theorem himgDone_verify {o : BitVec 2} (hi : d.arr.himg = some (o, g)) (h0 : o ≠ 0) (h1 : o ≠ 1) : d.himgDone =
    let x := d.verifyImage g.val
    (x.2.2.2.sawImage g (verifyCause x.1 x.2.1 = 0 && !x.2.2.1)).himgEnd (verifyCause x.1 x.2.1) x.2.2.1 := by
  unfold Dev.himgDone
  simp only [hi, hf, h0, h1, Bool.not_true, Bool.false_eq_true, if_false]
  generalize d.verifyImage g.val = x
  rfl

end Done

section Outcomes

variable {s : State} {e : Dev}

theorem exec_patchStagingDone_eq {ok : Bool} (he : s.dev.patchStaged ok = e) : exec (.patchStagingDone ok) s = s.after e :=
  run_eq_after (f := fun d => d.patchStaged ok) he

theorem exec_patchVerifyDone_eq {v : Verdict} (he : s.dev.patchVerified v = e) : exec (.patchVerifyDone v) s = s.after e :=
  run_eq_after (f := fun d => d.patchVerified v) he

theorem exec_himgDone_eq (he : s.dev.himgDone = e) : exec .himgDone s = s.after e := run_eq_after (f := Dev.himgDone) he

end Outcomes

/-- Settles O36: the load's GO, its staged image, its verify, the GO of an image command and its end, each by its own cases. -/
theorem imagesLoadAndVerify : Obligations.ImagesLoadAndVerify := by
  unfold Obligations.ImagesLoadAndVerify
  intro s r h
  refine ⟨?loads, ?stages, ?waits, ?verifies, ?images, ?ends⟩
  case loads =>
    intro v t a hw
    have hreg {x : Nat} (ha : x ≠ R.SEQ_PLDCMD) (hs : x ≠ cstatAddr .seq) :
        (s.dev.fielded r .seq R.SEQ_PLDCMD (s.dev.reg R.SEQ_PLDCMD ||| 1)).reg x = s.dev.reg x :=
      reg_plainWrite_noCommit s.dev.drawn _ _ (by decide) ha hs
    have hbusy := flag_congr (f := R.SEQ_PLDSTAT_BUSY) (hreg (by decide) (by decide))
    have hsrc := fld_congr (f := R.SEQ_PLDSRC_ADDR) (hreg (by decide) (by decide))
    rw [exec_patchLoad_writes hw]
    refine ⟨fun hb => ?_, fun hb ha => ?_, fun hb ha => ?_⟩
    · rw [patchLoad_busy (hbusy.trans hb)]
    · rw [patchLoad_starts (hbusy.trans hb) (by rw [hsrc]; exact (patchFrom_isSome _ _).mpr ha)]
      rfl
    · rw [patchLoad_outside (hbusy.trans hb) (by rw [hsrc]; exact (patchFrom_eq_none _ _).mpr ha)]
  case stages =>
    intro hb hs a ha
    refine ⟨fun hr => ?_, ?_, fun hr hn => ?_, fun hr hn => ?_⟩
    · exact exec_patchStagingDone_eq (patchStaged_unread hb hs ha (.inl hr))
    · exact exec_patchStagingDone_eq (patchStaged_unread hb hs ha (.inr rfl))
    · exact exec_patchStagingDone_eq (patchStaged_tooLong hb hs ha hr hn)
    · have himage := patchStaged_image hb hs ha hr hn
      refine ⟨fun hy => ?_, fun hy hp => ?_, fun hy hp hpos hle hlen hin => ?_⟩
      · exact exec_patchStagingDone_eq (himage.trans (patchImage_unread hy))
      · exact exec_patchStagingDone_eq (himage.trans (patchImage_notPlain hy hp))
      · exact exec_patchStagingDone_eq (himage.trans (patchImage_stages hy hp hpos hle hlen hin))
  case waits =>
    intro ws hs hv v
    exact exec_patchVerifyDone_eq (patchVerified_waits hs hv v)
  case verifies =>
    intro ws hs hv
    have hpld : s.dev.verifyEnd.arr.pld = s.dev.arr.pld := congrArg ArrayState.pld (arr_verifyEnd s.dev)
    rw [← hpld]
    refine ⟨fun hk v => exec_patchVerifyDone_eq (patchVerified_badKey hs hv hk v), fun hk =>
      ⟨fun v hp => ?_, fun hsig => ?_, fun hsig => ?_⟩⟩
    · exact exec_patchVerifyDone_eq (patchVerified_badSig hs hv hk (.inl hp))
    · exact exec_patchVerifyDone_eq (patchVerified_badSig hs hv hk (.inr hsig))
    · refine ⟨_, exec_patchVerifyDone_eq (patchVerified_passes hs hv hk hsig), rfl, flag_busy_patchDone _ _, flag_done_patchDone _ _,
        fld_nwords_patchDone _ _, fun a ha => ?_, fun hn p hp => ⟨?_, fun hlt => ?_⟩⟩
      · exact (patch_patchWritten_other ha s.dev.verifyEnd).trans (by rw [arr_verifyEnd])
      · exact patch_patchWritten_same hn hp s.dev.verifyEnd
      · exact tags_patchWritten hp hlt s.dev.verifyEnd
  case images =>
    intro e he v t hw
    have hop : BitVec.ofNat 2 e.2 ≠ 3 := himgOp_ne_three (himgInstrs_lt he)
    rw [exec_himg_writes he hw, himgGo_fielded]
    refine ⟨fun hb => ?_, fun hb hm => ?_, fun hb hm hd => ?_, fun hb hm hd hroom => ?_, fun hb hm hd hroom => ?_⟩
    · rw [if_pos hb]
      rfl
    · rw [if_neg (ne_true_of_eq_false hb), if_neg hop, if_pos hm]
      rfl
    · rw [if_neg (ne_true_of_eq_false hb), if_neg hop, if_neg hm, if_pos (hallDirty_true hd)]
      rfl
    · rw [if_neg (ne_true_of_eq_false hb), if_neg hop, if_neg hm, if_neg (ne_true_of_eq_false (hallDirty_false hd)), if_pos hroom]
      rfl
    · rw [if_neg (ne_true_of_eq_false hb), if_neg hop, if_neg hm, if_neg (ne_true_of_eq_false (hallDirty_false hd)), if_neg hroom.not_gt]
      rfl
  case ends =>
    intro g hf
    refine ⟨fun hi => ?_, fun hi => ?_, fun hi => ?_⟩
    · exact exec_himgDone_eq ((himgDone_unload hf hi).trans (himgEnd_eq _ _ false))
    · exact exec_himgDone_eq ((himgDone_load hf hi).trans (himgEnd_eq _ _ false))
    · exact exec_himgDone_eq ((himgDone_verify hf hi (by decide) (by decide)).trans (himgEnd_eq _ _ _))

end Sys2Proof.Machine
end


section
/-! The commands of loads and images complete (R145, R224). -/

namespace Sys2Proof.Machine

/-- The instruction answers a next state that holds its effect. -/
def State.Completes (s : State) (c : Instr) (effect : Dev → Prop) : Prop := ∃ t, exec c s = s.after t ∧ effect t

section Loads

variable {s : State} {r : Requester} {d : Dev}

theorem completes_patchLoad (hw : s.dev.Writes r .seq R.SEQ_PLDCMD (s.dev.reg R.SEQ_PLDCMD ||| 1))
    (hb : s.dev.flag R.SEQ_PLDSTAT_BUSY = false) (hp : (patchFrom (s.dev.fld R.SEQ_PLDSRC_ADDR) 64).isSome = true) :
    s.Completes (.patchLoad r) (fun t => t.flag R.SEQ_PLDSTAT_BUSY = true ∧ t.resp.status = 0) := by
  have hreg {x : Nat} (ha : x ≠ R.SEQ_PLDCMD) (hs : x ≠ cstatAddr .seq) :
      (s.dev.fielded r .seq R.SEQ_PLDCMD (s.dev.reg R.SEQ_PLDCMD ||| 1)).reg x = s.dev.reg x :=
    reg_plainWrite_noCommit s.dev.drawn _ _ (by decide) ha hs
  have hbusy := flag_congr (f := R.SEQ_PLDSTAT_BUSY) (hreg (by decide) (by decide))
  have hsrc := fld_congr (f := R.SEQ_PLDSRC_ADDR) (hreg (by decide) (by decide))
  have hstart := patchLoad_starts (hbusy.trans hb) (by rw [hsrc]; exact hp)
  exact ⟨_, exec_patchLoad_writes hw, (congrArg (Dev.flag · R.SEQ_PLDSTAT_BUSY) hstart).trans
    (flag_setFlag_same _ R.SEQ_PLDSTAT_BUSY true (by decide) rfl), rfl⟩

theorem sec_raise (d : Dev) (n : Nat) : (d.raise n).sec = d.sec := (congrArg Dev.sec (raise_evcOnly d n)).trans rfl

theorem sec_galCount (d : Dev) (i : Nat) (r : EccFind) (b : Bool) : (d.galCount i r b).sec = d.sec := by
  cases r with
  | good => rfl
  | corrected => cases b <;> rfl
  | uncorrectable => exact sec_raise _ 0x38

theorem sec_galRead (d : Dev) (a n : Nat) : (d.galRead a n).2.2.sec = d.sec :=
  forEach_frame Dev.sec (wordsOf a n) d fun d i => sec_galCount d i (d.galWord i).2 true

theorem stage_verifyRequest (d : Dev) (k : VerifyKind) : (d.verifyRequest k).arr.stage = d.arr.stage := rfl

theorem verifs_verifyRequest (d : Dev) (k : VerifyKind) : (d.verifyRequest k).sec.verifs = d.sec.verifs ++ [k] := rfl

theorem length_stage_imageStaged (d : Dev) (hd : Header) (l : List Byte) (half : Nat) :
    (d.imageStaged hd l half).arr.stage.map List.length = some hd.count := by
  show some _ = some _
  rw [imageWords, List.length_map, List.length_map, List.length_range]

theorem sec_imageStaged (d : Dev) (hd : Header) (l : List Byte) (half : Nat) : (d.imageStaged hd l half).sec = d.sec := rfl

theorem completes_patchStagingDone {a : Nat} (hb : s.dev.flag R.SEQ_PLDSTAT_BUSY = true) (hs : s.dev.arr.stage = none)
    (ha : patchFrom s.dev.arr.pld.2 64 = some a) (hr : (s.dev.galRead a 64).2.1 = false) {hd : Header}
    (hhd : parseHeader (s.dev.galRead a 64).1 = hd) {y : List Byte × Bool × Dev}
    (hy : (s.dev.galRead a 64).2.2.galRead a (64 + hd.bodyLen + 3136) = y)
    (hn : (patchFrom s.dev.arr.pld.2 (64 + hd.bodyLen + 3136)).isSome = true) (hread : y.2.1 = false)
    (hp : hd.plainOk (2 + s.dev.arr.pld.1) = true) (hpos : 0 < hd.count) (hle : hd.count ≤ 512) (hlen : hd.bodyLen = 8 * hd.count)
    (hin : ∀ i, i < hd.count → le y.1 (64 + 8 * i + 6) 2 < 512) :
    s.Completes (.patchStagingDone true) (fun t => t.arr.stage.map List.length = some hd.count ∧
      t.sec.verifs = s.dev.sec.verifs ++ [.patch]) := by
  subst hhd hy
  have hplaces : ∀ p ∈ imageWords ((s.dev.galRead a 64).2.2.galRead a (64 + (parseHeader (s.dev.galRead a 64).1).bodyLen + 3136)).1
      (parseHeader (s.dev.galRead a 64).1).count, p.2 < 512 := by
    intro p hmem
    obtain ⟨i, hi, rfl⟩ := List.mem_map.mp hmem
    exact hin i (List.mem_range.mp hi)
  refine ⟨_, exec_patchStagingDone_eq ((patchStaged_image hb hs ha hr hn).trans
    (patchImage_stages hread hp hpos hle hlen hplaces)), ?_, ?_⟩
  · rw [stage_verifyRequest, length_stage_imageStaged]
  · rw [verifs_verifyRequest, sec_imageStaged, sec_galRead, sec_galRead]

theorem completes_patchVerifyDone {ws : List (Nat × BitVec 48)} (hs : s.dev.arr.stage = some ws)
    (hv : s.dev.verifyFirst .patch = true) (hsig : s.dev.arr.stageSig.ok = true)
    (hk : s.dev.verifyEnd.keyOk (2 + s.dev.arr.pld.1) s.dev.arr.stageSlot = true) :
    s.Completes (.patchVerifyDone .pass) (fun t => t.arr.stage = none ∧ t.flag R.SEQ_PLDSTAT_DONE = true ∧
      t.flag R.SEQ_PLDSTAT_BUSY = false) := by
  have harr := arr_verifyEnd s.dev
  rw [← congrArg ArrayState.pld harr, ← congrArg ArrayState.stageSlot harr] at hk
  have hsig' : s.dev.verifyEnd.arr.stageSig.ok = true := (congrArg (fun e : ArrayState => e.stageSig.ok) harr).trans hsig
  exact ⟨_, exec_patchVerifyDone_eq (patchVerified_passes hs hv hk hsig'), rfl, flag_done_patchDone _ _, flag_busy_patchDone _ _⟩

end Loads

section Images

variable {s : State} {r : Requester} {h : LHall}

theorem completes_himgCommand (hb : s.dev.flag R.SEQ_HIMGCMD_BUSY = false) (hm : s.dev.mode ≠ 8)
    (hd : ∀ y, s.dev.stream? (s.dev.streamOf h.val) = some y → (s.dev.st y).dirty = false)
    (hroom : s.dev.imageEnd (s.dev.fld R.SEQ_IMGMASK_MASK) h.val ≤ s.dev.dramSize)
    {e : (Requester → LHall → Instr) × Nat} (he : e ∈ himgInstrs)
    (hw : s.dev.Writes r .seq R.SEQ_HIMGCMD (himgWord e.2 h)) :
    s.Completes (e.1 r h) (fun t => t.arr.himg = some (BitVec.ofNat 2 e.2, h) ∧ t.flag R.SEQ_HIMGCMD_BUSY = true ∧
      t.resp.status = 0) := by
  have hstart : (s.dev.fielded r .seq R.SEQ_HIMGCMD (himgWord e.2 h)).himgGo (BitVec.ofNat 2 e.2) h =
      (s.dev.fielded r .seq R.SEQ_HIMGCMD (himgWord e.2 h)).imageStarted (BitVec.ofNat 2 e.2) h := by
    rw [himgGo_fielded, if_neg (ne_true_of_eq_false hb), if_neg (himgOp_ne_three (himgInstrs_lt he)), if_neg hm,
      if_neg (ne_true_of_eq_false (hallDirty_false hd)), if_neg hroom.not_gt]
  exact ⟨_, (exec_himg_writes he hw).trans (congrArg s.wrote hstart), rfl,
    flag_setFlag_same _ R.SEQ_HIMGCMD_BUSY true (by decide) rfl, rfl⟩

variable (d : Dev)

theorem himg_himgEnd (cause : Nat) (mism : Bool) : (d.himgEnd cause mism).arr.himg = none := by
  rw [himgEnd_eq]
  dsimp only
  split <;> cases mism <;> rfl

theorem busy_himgEnd (cause : Nat) (mism : Bool) : (d.himgEnd cause mism).flag R.SEQ_HIMGCMD_BUSY = false := by
  have hkeeps {f : Fld} (hf : f.hi < R.SEQ_HIMGCMD_BUSY.lo) (t : Dev) (n : Nat) :
      (t.setFld f n).flag R.SEQ_HIMGCMD_BUSY = t.flag R.SEQ_HIMGCMD_BUSY :=
    flag_setFld_other t f R.SEQ_HIMGCMD_BUSY n (hf.trans (by decide)) (.inr (.inr hf))
  have hclear := flag_setFlag_same ({ d with arr := { d.arr with himg := none } } : Dev) R.SEQ_HIMGCMD_BUSY false (by decide) rfl
  have hmism : (if mism then (({ d with arr := { d.arr with himg := none } } : Dev).setFlag R.SEQ_HIMGCMD_BUSY false).setFlag
      R.SEQ_HIMGCMD_MISM true else ({ d with arr := { d.arr with himg := none } } : Dev).setFlag R.SEQ_HIMGCMD_BUSY false).flag
        R.SEQ_HIMGCMD_BUSY = false := by
    cases mism with
    | true => exact (hkeeps (by decide) _ 1).trans hclear
    | false => exact hclear
  rw [himgEnd_eq]
  dsimp only
  split
  · exact (hkeeps (by decide) _ 1).trans hmism
  · exact (hkeeps (by decide) _ cause).trans ((hkeeps (by decide) _ 1).trans hmism)

/-- Whatever the operation, its end clears the command. -/
theorem himgDone_ends {d : Dev} {o : BitVec 2} (hf : d.himgFree h = true) (ho : d.arr.himg = some (o, h)) :
    ∃ e cause mism, d.himgDone = Dev.himgEnd e cause mism := by
  by_cases h0 : o = 0
  · exact ⟨_, _, _, himgDone_unload hf (h0 ▸ ho)⟩
  · by_cases h1 : o = 1
    · exact ⟨_, _, _, himgDone_load hf (h1 ▸ ho)⟩
    · exact ⟨_, _, _, himgDone_verify hf ho h0 h1⟩

theorem completes_himgDone {o : BitVec 2} (hf : s.dev.himgFree h = true) (ho : s.dev.arr.himg = some (o, h)) :
    s.Completes .himgDone (fun t => t.arr.himg = none ∧ t.flag R.SEQ_HIMGCMD_BUSY = false) := by
  obtain ⟨e, cause, mism, hend⟩ := himgDone_ends hf ho
  exact ⟨_, exec_himgDone_eq hend, himg_himgEnd e cause mism, busy_himgEnd e cause mism⟩

end Images

end Sys2Proof.Machine
end


section
/-! The stairs and the gallery's banks complete (R180, R185). -/

namespace Sys2Proof.Machine

section Stairs

variable {s : State} {h : LHall} {d : Dev}

theorem hq_modHq_same (d : Dev) (h : LHall) (f : HallQ → HallQ) : (d.modHq h f).hq h = f (d.hq h) :=
  Vector.getElem_set_self h.isLt

theorem run_countStall (d : Dev) (h : LHall) (c n : Nat) (f : HallQ → HallQ) (x : StreamId) :
    (((d.countStall h c n).modHq h f).st x).run = (d.st x).run := rfl

/-- A hall whose transfer's flow condition holds moves its data, and the routine notes the hall (R180). -/
theorem startTransfer_moves {x : StreamId} {j : Job} {moved rep : BitVec 16} {ch : BitVec 3}
    (hx : d.stream? (d.streamOf h.val) = some x) (hrun : (d.st x).run = .xfer j moved rep) (hch : (d.hq h).chan = some (ch, 0))
    (hflow : d.flowOk j = true) (hmarch : d.chanMarched ch.toNat = false) :
    ∃ e : Dev, d.startTransfer h = e.modSt x (fun y => { y with run := .xfer j (setBit moved h.val true) rep }) := by
  have hjob : d.chanJob x = some j := by
    unfold Dev.chanJob
    rw [hrun]
  have hgo : (!d.flowOk j || d.chanMarched ch.toNat) = false := by rw [hflow, hmarch]; rfl
  have hkept (c n : Nat) (f : HallQ → HallQ) : (((d.countStall h c n).modHq h f).st x).run = .xfer j moved rep :=
    (run_countStall d h c n f x).trans hrun
  unfold Dev.startTransfer
  simp only [hx, hjob, hch, hgo, hkept, Bool.false_eq_true, if_false]
  exact ⟨_, rfl⟩

theorem completes_stairTransferStart {x : StreamId} {j : Job} {moved rep : BitVec 16} {ch : BitVec 3}
    (hx : s.dev.stream? (s.dev.streamOf h.val) = some x) (hrun : (s.dev.st x).run = .xfer j moved rep)
    (hch : (s.dev.hq h).chan = some (ch, 0)) (hflow : s.dev.flowOk j = true) (hmarch : s.dev.chanMarched ch.toNat = false) :
    s.Completes (.stairTransferStart h) (fun t => (t.st x).run = .xfer j (setBit moved h.val true) rep) := by
  obtain ⟨e, he⟩ := startTransfer_moves hx hrun hch hflow hmarch
  exact ⟨_, run_eq_after (f := fun d => d.startTransfer h) he, congrArg Strm.run (st_modSt_same e x _)⟩

theorem stairTimeout_waits {ch : BitVec 3} (hch : (d.hq h).chan = some (ch, 0)) (hw : (d.hq h).waited = false)
    (hlim : d.fld R.STAIR_CTRL_SWAIT ≠ 0) (ht : d.transferWaits h = true) :
    d.stairTimeout h = ((d.modHq h (fun q => { q with waited := true })).setFlag (R.STAIR_CHSTAT_WTO ch.toNat) true).raise 0x37 := by
  simp only [Dev.stairTimeout, hch, hw, hlim, ht, decide_false, Bool.not_true, Bool.or_self, Bool.false_eq_true, if_false]

theorem completes_stairWaitTimeout {ch : BitVec 3} (hch : (s.dev.hq h).chan = some (ch, 0)) (hw : (s.dev.hq h).waited = false)
    (hlim : s.dev.fld R.STAIR_CTRL_SWAIT ≠ 0) (ht : s.dev.transferWaits h = true) :
    s.Completes (.stairWaitTimeout h) (fun t => (t.hq h).waited = true ∧ t.flag (R.STAIR_CHSTAT_WTO ch.toNat) = true) := by
  refine ⟨_, run_eq_after (f := fun d => d.stairTimeout h) (stairTimeout_waits hch hw hlim ht), ?_, ?_⟩
  · have harr := arr_raise ((s.dev.modHq h (fun q => { q with waited := true })).setFlag (R.STAIR_CHSTAT_WTO ch.toNat) true) 0x37
    exact (congrArg (fun e : ArrayState => e.hallq[h].waited) harr).trans
      (congrArg HallQ.waited (hq_modHq_same s.dev h (fun q => { q with waited := true })))
  · exact (flag_congr (reg_raise _ 0x37 _)).trans (flag_setFlag_same _ (R.STAIR_CHSTAT_WTO ch.toNat) true (show 30 < 32 by decide) rfl)

end Stairs

section Banks

variable {d : Dev} {b i : Nat} {g : GalReq}

/-- A lone requester is granted, promoted or not (R185). -/
theorem galWinner_lone (d : Dev) (b : Nat) (q : Fin 7) : d.galWinner b [q.val] = some q.val := by
  have hin (p : Nat) : [q.val].contains p = true ↔ p = q.val := by simp
  unfold Dev.galWinner
  split
  next p hp =>
    have hp' := List.find?_some hp
    rw [Bool.and_eq_true, hin] at hp'
    rw [hp'.1]
  next =>
    have hmem : q.val ∈ (List.range 7).map (fun i => (bankGet (fun _ => 6) d.gal.last b + 1 + i) % 7) := by
      generalize bankGet (fun _ => 6) d.gal.last b = last
      refine List.mem_map.mpr ⟨(q.val + 6 * (last + 1)) % 7, List.mem_range.mpr (Nat.mod_lt _ (by decide)), ?_⟩
      have hq := q.isLt
      omega
    dsimp only
    obtain ⟨p, hp⟩ := Option.isSome_iff_exists.mp (List.find?_isSome.mpr ⟨q.val, hmem, (hin _).mpr rfl⟩)
    rw [hp, (hin p).mp (List.find?_some hp)]

/-- The part as an arbitration leaves it before the access: the winner's age and the last winner. -/
def Dev.granted (d : Dev) (b q : Nat) : Dev :=
  { d.setGalAge b q 0 with gal := { (d.setGalAge b q 0).gal with last := bankSet (fun _ => 6) (d.setGalAge b q 0).gal.last b q } }

theorem arbGrant_nil (d : Dev) (b : Nat) : d.arbGrant b [] = d := by
  have hnone : d.galWinner b [] = none := by
    have hnone : (List.range 7).find? (fun q => ([] : List Nat).contains q && d.galUrgent b q) = none :=
      List.find?_eq_none.mpr fun q _ => by simp
    unfold Dev.galWinner
    rw [hnone]
    exact List.find?_eq_none.mpr fun q _ => by simp
  unfold Dev.arbGrant
  rw [List.map_nil, hnone]

theorem arbGrant_lone (d : Dev) (b : Nat) (g : GalReq) : d.arbGrant b [g] =
    (d.granted b g.who.val).galAccess (g.word * 32 + b % 32) g := by
  unfold Dev.arbGrant
  rw [List.map_cons, List.map_nil, galWinner_lone]
  simp [Dev.granted]

/-- A read of a word that holds no error, outside the regions that are shut, answers the word (R186). -/
theorem galAccess_reads (hw : g.wr = none) (hm : d.underMarch (8 * i) 8 = false) (h3 : galRegion (8 * i) ≠ 3)
    (h2 : galRegion (8 * i) ≠ 2) (hgood : (d.galWord i).2 = .good) :
    d.galAccess i g = d.respond 0 (leBytes 8 (d.galWord i).1.toNat) := by
  have hclean : (EccFind.good == EccFind.uncorrectable) = false := by decide
  unfold Dev.galAccess
  simp only [h3, h2, hm, hw, hgood, hclean, decide_false, Bool.false_and, Bool.or_self, Bool.and_false, Bool.false_eq_true, if_false,
    Dev.galCount, ite_self]

/-- A bank with one request grants it, at its landing port or at its single-port part. -/
theorem bankGrant_lone {bank : Fin 32} (hm : d.underMarch (8 * (g.word * 32 + bank.val)) 8 = false) :
    ∃ e, d.bankGrant bank [g] = Dev.galAccess (d.granted e g.who.val) (g.word * 32 + bank.val) g := by
  have hstalls : d.marchStalls bank.val g = false := by rw [Dev.marchStalls, hm, Bool.and_false]
  have hws : [g].filter (fun r => !d.marchStalls bank.val r) = [g] := by simp [hstalls]
  unfold Dev.bankGrant
  rw [hws]
  cases hl : g.landing with
  | true =>
    refine ⟨32 + bank.val, ?_⟩
    simp only [List.filter_cons, hl, List.filter_nil, Bool.not_true, Bool.false_eq_true, if_true, if_false, arbGrant_lone, arbGrant_nil]
    rw [show (32 + bank.val) % 32 = bank.val by omega]
  | false =>
    refine ⟨bank.val, ?_⟩
    simp only [List.filter_cons, hl, List.filter_nil, Bool.not_false, Bool.false_eq_true, if_true, if_false, arbGrant_lone, arbGrant_nil]
    rw [Nat.mod_eq_of_lt bank.isLt]

theorem completes_galleryBankGrant {s : State} {bank : Fin 32} (hon : s.dev.domOn 0 = true) (hw : g.wr = none)
    (hm : s.dev.underMarch (8 * (g.word * 32 + bank.val)) 8 = false) (h3 : galRegion (8 * (g.word * 32 + bank.val)) ≠ 3)
    (h2 : galRegion (8 * (g.word * 32 + bank.val)) ≠ 2) (hgood : (s.dev.galWord (g.word * 32 + bank.val)).2 = .good) :
    s.Completes (.galleryBankGrant bank [g])
      (fun t => t.resp = ⟨0, leBytes 8 (s.dev.galWord (g.word * 32 + bank.val)).1.toNat⟩) := by
  obtain ⟨e, he⟩ := bankGrant_lone (d := s.dev) hm
  have hread := galAccess_reads (d := s.dev.granted e g.who.val) hw hm h3 h2 hgood
  exact ⟨_, run_eq_after (f := fun d => if d.domOn 0 then d.bankGrant bank [g] else d) ((if_pos hon).trans (he.trans hread)), rfl⟩

end Banks

end Sys2Proof.Machine
end


section
/-! Recovery completes: column retirement, failover and the fault record (R205, R215, R219, R225). -/

namespace Sys2Proof.Machine

section Retirement

variable {s : State} {k : HallId} {w : RetRec} {d : Dev}

theorem completes_upsetRecovery (s : State) (reps : List (HallId × UpsetRep)) :
    s.Completes (.upsetRecovery reps) (fun t => t.arr.reports = []) :=
  ⟨_, run_eq_after (f := fun d => d.upsetRecovery reps) rfl, rfl⟩

/-- The retirements with one of them moved to a stage. -/
def stagedRetire (l : List RetRec) (w : RetRec) (n : Nat) : List RetRec := l.map (fun q => if q = w then { q with stage := n } else q)

theorem beginRetire_waits (hf : d.arr.retire.find? (fun q => q.hall = k && q.stage = 0) = some w) (hcap : d.capture? (.hall k) = none)
    (hbar : d.barRetire w = none) (hone : d.arr.retire.any (fun q => q.hall = k && (q.stage = 1 || q.stage = 2)) = false)
    (hidle : ∀ z, (d.streamOfPhys k.val).bind d.stream? = some z → (d.st z).run = .idle) :
    d.beginRetire k = (d.stageRetire w 1).setFld (R.HALL_RSTAT_PCOL k.val) w.col := by
  have hany : ((d.streamOfPhys k.val).bind d.stream?).any (fun s => (d.st s).run ≠ .idle) = false := by
    cases hz : (d.streamOfPhys k.val).bind d.stream? with
    | none => rfl
    | some z => simp [hidle z hz]
  unfold Dev.beginRetire
  simp only [hf, hcap, hone, hany, hbar, Option.isSome_none, Bool.or_self, Bool.false_eq_true, if_false, Option.getD_none]

theorem completes_columnRetirement (hf : s.dev.arr.retire.find? (fun q => q.hall = k && q.stage = 0) = some w)
    (hcap : s.dev.capture? (.hall k) = none) (hbar : s.dev.barRetire w = none)
    (hone : s.dev.arr.retire.any (fun q => q.hall = k && (q.stage = 1 || q.stage = 2)) = false)
    (hidle : ∀ z, (s.dev.streamOfPhys k.val).bind s.dev.stream? = some z → (s.dev.st z).run = .idle) :
    s.Completes (.columnRetirement k) (fun t => t.arr.retire = stagedRetire s.dev.arr.retire w 1) :=
  ⟨_, run_eq_after (f := fun d => d.beginRetire k) (beginRetire_waits hf hcap hbar hone hidle), rfl⟩

theorem arr_checkEcol (d : Dev) (h : Nat) : (d.checkEcol h).arr = d.arr := by
  unfold Dev.checkEcol
  split <;> rfl

/-- The part with erasure mode set for a column of a hall (R215 step 3). -/
def Dev.erasing (d : Dev) (h col : Nat) : Dev :=
  ((d.setFlag (R.HALL_ECCCTL_ERAEN h) true).setFld (R.HALL_ECCCTL_ECOL h) col).checkEcol h

theorem arr_erasing (d : Dev) (h col : Nat) : (d.erasing h col).arr = d.arr := arr_checkEcol _ h

theorem startRefill_starts (hf : d.arr.retire.find? (fun q => q.hall = k && q.stage = 1) = some w)
    (hfree : ∀ l, d.logicalOf k.val = some l → d.stairBusy l = false) (hbar : d.barRetire w = none) :
    d.startRefill k = (((d.erasing k.val w.col).setFlag (R.HALL_RSTAT_RBUSY k.val) true).setFlag (R.HALL_RSTAT_RPEND k.val)
      ((d.erasing k.val w.col).arr.retire.any (fun q => q.hall = k && q.stage = 3))).stageRetire w 2 := by
  have hstair : ((d.logicalOf k.val).map d.stairBusy).getD false = false := by
    cases hl : d.logicalOf k.val with
    | none => rfl
    | some l => exact hfree l hl
  unfold Dev.startRefill
  simp only [hf, hstair, hbar, Bool.false_eq_true, if_false, Option.getD_none]
  rfl

theorem retire_stageRetire_setFlag (d : Dev) (f g : Fld) (b c : Bool) (w : RetRec) (n : Nat) :
    (((d.setFlag f b).setFlag g c).stageRetire w n).arr.retire = stagedRetire d.arr.retire w n := rfl

theorem flag_stageRetire (d : Dev) (f : Fld) (w : RetRec) (n : Nat) : (d.stageRetire w n).flag f = d.flag f := rfl

theorem completes_retireRefillStart (hf : s.dev.arr.retire.find? (fun q => q.hall = k && q.stage = 1) = some w)
    (hfree : ∀ l, s.dev.logicalOf k.val = some l → s.dev.stairBusy l = false) (hbar : s.dev.barRetire w = none) :
    s.Completes (.retireRefillStart k) (fun t => t.flag (R.HALL_RSTAT_RBUSY k.val) = true ∧
      t.arr.retire = stagedRetire s.dev.arr.retire w 2) := by
  refine ⟨_, run_eq_after (f := fun d => d.startRefill k) (startRefill_starts hf hfree hbar), ?_, ?_⟩
  · rw [flag_stageRetire]
    exact (flag_setFld_other _ (R.HALL_RSTAT_RPEND k.val) (R.HALL_RSTAT_RBUSY k.val) _ (show 30 < 32 by decide)
      (.inr (.inr (show 30 < 31 by decide)))).trans
        (flag_setFlag_same _ (R.HALL_RSTAT_RBUSY k.val) true (show 31 < 32 by decide) rfl)
  · rw [retire_stageRetire_setFlag, arr_erasing]

/-! The end of a refill. -/

/-- What recovery has due: the retirements and the streams that wait for their replay. -/
def Dev.dues (d : Dev) : List RetRec × List StreamId := (d.arr.retire, d.arr.replayDue)

theorem dues_eq_iff {d : Dev} {l : List RetRec} {m : List StreamId} : d.dues = (l, m) ↔ d.arr.retire = l ∧ d.arr.replayDue = m :=
  Prod.ext_iff

theorem dues_countFix (d : Dev) (h p : Nat) : (d.countFix h p).dues = d.dues := by
  unfold Dev.countFix
  split <;> rfl

theorem dues_setReg (d : Dev) (a : Nat) (v : Word) : (d.setReg a v).dues = d.dues := rfl

theorem dues_setLogCyc (d : Dev) (c : Vector Nat 17) : ({ d with arr := { d.arr with logCyc := c } } : Dev).dues = d.dues := rfl

theorem dues_logFix (d : Dev) (h row a : Nat) (port : Port) (p : Nat) : (d.logFix h row a port p).dues = d.dues := by
  unfold Dev.logFix
  split
  · dsimp only
    rw [apply_ite Dev.dues, dues_setLogCyc, dues_setReg, ite_self]
  · rfl

theorem dues_logDecode (d : Dev) (h row a : Nat) (port : Port) (r : Decoded) : (d.logDecode h row a port r).dues = d.dues := by
  unfold Dev.logDecode
  have hcounted := forEach_frame Dev.dues (r.fixed.map (physCol (d.retired h))) d (fun e p => dues_countFix e h p)
  split
  · rfl
  · dsimp only
    split
    next hnil => exact (congrArg Dev.dues (congrArg (forEach · d fun d p => d.countFix h p) hnil)).trans rfl
    next p l hcons => exact (dues_logFix _ h row a port p).trans hcounted

theorem dues_setPeRaw (d : Dev) (h row a : Nat) (v : BitVec 76) : (d.setPeRaw h row a v).dues = d.dues := by
  unfold Dev.setPeRaw
  split <;> rfl

theorem foldl_keeps {σ β : Type} {P : σ → Prop} (l : List β) {s : σ} {f : σ → β → σ} (h : ∀ s b, P s → P (f s b)) (hs : P s) :
    P (l.foldl f s) := forEach_keeps l h hs

theorem dues_refill (d : Dev) (h : Nat) (new : List Nat) : (d.refill h new).2.dues = d.dues := by
  unfold Dev.refill
  refine foldl_keeps (P := fun r : Bool × Dev => r.2.dues = d.dues) _ (fun r a hr => ?_) rfl
  refine foldl_keeps (P := fun r : Bool × Dev => r.2.dues = d.dues) _ (fun r k hr => ?_) hr
  dsimp only
  split
  · exact (dues_logDecode _ _ _ _ _ _).trans hr
  · exact (dues_setPeRaw _ _ _ _ _).trans ((dues_logDecode _ _ _ _ _ _).trans hr)

theorem regs_recordAs (d : Dev) (kind : Nat) (x : StreamId) (phys logical col : Nat) (up : Word) (maps : List (Fin 17)) :
    (d.recordAs kind x phys logical col up maps).regs = d.regs := rfl

theorem dues_recordAs (d : Dev) (kind : Nat) (x : StreamId) (phys logical col : Nat) (up : Word) (maps : List (Fin 17)) :
    (d.recordAs kind x phys logical col up maps).dues = d.dues := rfl

theorem regs_noteRecovery (d : Dev) (n : Nat) : (d.noteRecovery n).regs = d.regs := by
  unfold Dev.noteRecovery
  split <;> rfl

theorem dues_noteRecovery (d : Dev) (n : Nat) : (d.noteRecovery n).dues = d.dues := by
  unfold Dev.noteRecovery
  split <;> rfl

/-- A stream that waits for no replay goes on after its last retirement. -/
theorem afterRetire_frame {x : StreamId} (hx : x ∉ d.arr.replayDue) :
    (d.afterRetire x).regs = d.regs ∧ (d.afterRetire x).dues = d.dues := by
  have hout : d.arr.replayDue.contains x = false := by simpa using hx
  unfold Dev.afterRetire
  split
  · exact ⟨rfl, rfl⟩
  · rw [hout]
    exact ⟨regs_noteRecovery d x.val, dues_noteRecovery d x.val⟩

theorem dues_dropRetire (d : Dev) (p : RetRec → Bool) :
    (d.dropRetire p).dues = (d.arr.retire.filter (fun r => !p r), d.arr.replayDue) := by
  unfold Dev.dropRetire
  exact forEach_frame Dev.dues _ _ (fun _ _ => rfl)

/-- The part with a refilled hall's new map (R215 steps 5 and 6). -/
def Dev.remapped (d : Dev) (k : HallId) (new : List Nat) : Dev :=
  let d := (d.setReg (R.HALL_STEER k.val) (steerWord new)).preset (R.HALL_STEERSET k.val) (steerWord new)
  let d := d.setFlag (R.HALL_ECCCTL_ERAEN k.val) false
  (d.setFlag (R.HALL_RSTAT_RPEND k.val) (d.arr.retire.any (fun q => q.hall = k && q.stage = 3))).setFld (R.HALL_RSTAT_NRET k.val) new.length

theorem dues_remapped (d : Dev) (k : HallId) (new : List Nat) : (d.remapped k new).dues = d.dues := rfl

theorem reg_preset_ne (d : Dev) {a b : Nat} (v : Word) (h : b ≠ a) : (d.preset a v).reg b = d.reg b := reg_setReg_ne d v h

theorem steer_remapped (d : Dev) (k : HallId) (new : List Nat) : (d.remapped k new).reg (R.HALL_STEER k.val) = steerWord new := by
  have hset : R.HALL_STEER k.val ≠ R.HALL_STEERSET k.val := by simp only [R.HALL_STEER, R.HALL_STEERSET]; omega
  have hctl : R.HALL_STEER k.val ≠ R.HALL_ECCCTL k.val := by simp only [R.HALL_STEER, R.HALL_ECCCTL]; omega
  have hstat : R.HALL_STEER k.val ≠ R.HALL_RSTAT k.val := by simp only [R.HALL_STEER, R.HALL_RSTAT]; omega
  unfold Dev.remapped
  rw [reg_setFld_ne _ _ hstat, reg_setFlag_ne _ _ hstat, reg_setFlag_ne _ _ hctl, reg_preset_ne _ _ hset, reg_setReg_same]

theorem refillDone_remaps {y : StreamId} (hf : d.arr.retire.find? (fun q => q.hall = k && q.stage = 2) = some w)
    (hy : (d.streamOfPhys k.val).bind d.stream? = some y)
    (hgood : (d.refill k.val (addColumn (d.retired k.val) w.col)).1 = false) :
    d.refillDone k = ((((d.refill k.val (addColumn (d.retired k.val) w.col)).2.dropRetire (· = w)).remapped k
      (addColumn (d.retired k.val) w.col)).record 3 y k.val w.col w.word [k]).afterRetire y := by
  unfold Dev.refillDone
  simp only [hf, hy, hgood, Bool.false_eq_true, if_false]
  rfl

theorem completes_retireRefillDone {y : StreamId} (hf : s.dev.arr.retire.find? (fun q => q.hall = k && q.stage = 2) = some w)
    (hy : (s.dev.streamOfPhys k.val).bind s.dev.stream? = some y)
    (hgood : (s.dev.refill k.val (addColumn (s.dev.retired k.val) w.col)).1 = false) (hdue : y ∉ s.dev.arr.replayDue) :
    s.Completes (.retireRefillDone k) (fun t => t.reg (R.HALL_STEER k.val) = steerWord (addColumn (s.dev.retired k.val) w.col) ∧
      w ∉ t.arr.retire) := by
  generalize hnew : addColumn (s.dev.retired k.val) w.col = new at hgood
  generalize he : ((s.dev.refill k.val new).2.dropRetire (· = w)).remapped k new = e
  have hdone : s.dev.refillDone k = (e.record 3 y k.val w.col w.word [k]).afterRetire y := by
    rw [refillDone_remaps hf hy (hnew ▸ hgood), hnew, he]
  have hdues : e.dues = (s.dev.arr.retire.filter (fun r => !decide (r = w)), s.dev.arr.replayDue) := by
    obtain ⟨hretire, hreplay⟩ := dues_eq_iff.mp (dues_refill s.dev k.val new)
    rw [← he, dues_remapped, dues_dropRetire, hretire, hreplay]
  have hrecorded := dues_recordAs e 3 y k.val ((e.logicalOf k.val).getD 0xFF) w.col w.word [k]
  have hout : y ∉ (e.record 3 y k.val w.col w.word [k]).arr.replayDue :=
    (dues_eq_iff.mp (hrecorded.trans hdues)).2 ▸ hdue
  obtain ⟨hregs, hafter⟩ := afterRetire_frame hout
  refine ⟨_, run_eq_after (f := fun d => d.refillDone k) hdone, ?_, ?_⟩
  · rw [reg_of_regs (hregs.trans (regs_recordAs _ _ _ _ _ _ _ _)), ← he, steer_remapped]
  · rw [(dues_eq_iff.mp (hafter.trans (hrecorded.trans hdues))).1]
    simp

end Retirement

section Failover

variable {s : State} {f : FailOver} {d : Dev}

theorem imageLoaded_done (hf : d.arr.failover = some f) (hnew : f.imageDone = false)
    (hgood : (d.looseStaging.loadImage f.hall.val).1 = false)
    (hcarry : (d.looseStaging.loadImage f.hall.val).2.flag (R.SEQ_CARRY_CEN f.strm) = false) :
    d.imageLoaded true = { (d.looseStaging.loadImage f.hall.val).2 with
      arr := { (d.looseStaging.loadImage f.hall.val).2.arr with failover := some { f with imageDone := true } } } := by
  unfold Dev.imageLoaded
  rw [hf]
  show (if f.imageDone then _ else _) = _
  generalize d.looseStaging.loadImage f.hall.val = x at hgood hcarry ⊢
  obtain ⟨bad, e⟩ := x
  obtain rfl : bad = false := hgood
  have hplain : e.flag (R.SEQ_CARRY_CEN f.strm) = false := hcarry
  rw [if_neg (ne_true_of_eq_false hnew), if_neg (show ¬((!true) = true) by decide)]
  dsimp only
  rw [if_neg Bool.false_ne_true, if_neg (ne_true_of_eq_false hplain)]
  dsimp only
  rw [if_neg Bool.false_ne_true]

theorem completes_failoverImageLoaded (hf : s.dev.arr.failover = some f) (hnew : f.imageDone = false)
    (hgood : (s.dev.looseStaging.loadImage f.hall.val).1 = false)
    (hcarry : (s.dev.looseStaging.loadImage f.hall.val).2.flag (R.SEQ_CARRY_CEN f.strm) = false) :
    s.Completes (.failoverImageLoaded true) (fun t => t.arr.failover = some { f with imageDone := true }) :=
  ⟨_, run_eq_after (f := fun d => d.imageLoaded true) (imageLoaded_done hf hnew hgood hcarry), rfl⟩

/-- The part with a failover ended. -/
def Dev.failoverOver (d : Dev) : Dev :=
  ({ d with arr := { d.arr with failover := none } } : Dev).setFlag R.SEQ_RSTAT_FOBUSY false

theorem failoverResume_ends (hf : d.arr.failover = some f) (hdone : f.imageDone = true) (hret : d.retiring f.strm = false) :
    ∃ e : Dev, d.failoverResume true =
      e.failoverOver.recordAs 5 f.strm f.hall.val f.hall.val 127 f.rep [⟨f.hall.val, by omega⟩, 16] := by
  unfold Dev.failoverResume
  simp only [hf, hdone, hret, Bool.not_true, Bool.or_self, Bool.false_eq_true, if_false]
  exact ⟨_, rfl⟩

theorem failover_recordAs (d : Dev) (kind : Nat) (x : StreamId) (phys logical col : Nat) (up : Word) (maps : List (Fin 17)) :
    (d.recordAs kind x phys logical col up maps).arr.failover = d.arr.failover := rfl

theorem completes_failoverResume (hf : s.dev.arr.failover = some f) (hdone : f.imageDone = true)
    (hret : s.dev.retiring f.strm = false) :
    s.Completes (.failoverResume true) (fun t => t.arr.failover = none ∧ t.flag R.SEQ_RSTAT_FOBUSY = false) := by
  obtain ⟨e, he⟩ := failoverResume_ends hf hdone hret
  refine ⟨_, run_eq_after (f := fun d => d.failoverResume true) he, ?_, ?_⟩
  · rw [failover_recordAs]
    rfl
  · rw [flag_congr (reg_of_regs (regs_recordAs _ _ _ _ _ _ _ _) _)]
    exact flag_setFlag_same _ R.SEQ_RSTAT_FOBUSY false (by decide) rfl

/-- An entry without map records is written on its own (R225). -/
theorem frecs_writeRecord {w : FRec} {rest : List FRec} (hw : d.arr.frecs = w :: rest) (hm : w.maps = []) (hon : d.domOn 5 = true) :
    d.writeRecord.arr.frecs = rest := by
  unfold Dev.writeRecord
  simp only [hw, hm, hon, Bool.not_true, Bool.false_eq_true, if_false, forEach_nil, Dev.setWord64, arr_setBytes]

theorem completes_faultRecordWrite {w : FRec} {rest : List FRec} (hw : s.dev.arr.frecs = w :: rest) (hm : w.maps = [])
    (hon : s.dev.domOn 5 = true) : s.Completes .faultRecordWrite (fun t => t.arr.frecs = rest) :=
  ⟨_, run_eq_after (f := Dev.writeRecord) rfl, frecs_writeRecord hw hm hon⟩

end Failover

end Sys2Proof.Machine
end


section
/-! Packets and responses on the road complete (R317, R318). -/

namespace Sys2Proof.Machine

section Bytes

variable {d : Dev} {a : Nat}

theorem forEach_append {σ β : Type} (l m : List β) (s : σ) (f : σ → β → σ) : forEach (l ++ m) s f = forEach m (forEach l s f) f :=
  List.foldl_append

theorem forEach_setByte_zipIdx (l : List Byte) (k j : Nat) (d : Dev) :
    forEach (l.zipIdx (k + j)) d (fun d p => d.setByte (a + p.2) p.1) =
      forEach (l.zipIdx j) d (fun d p => d.setByte (a + k + p.2) p.1) := by
  induction l generalizing j d with
  | nil => rfl
  | cons x r ih => rw [List.zipIdx_cons, List.zipIdx_cons, forEach_cons, forEach_cons, Nat.add_assoc k j 1, ih, Nat.add_assoc a k j]

/-- A run of bytes is written by writing its two parts. -/
theorem setBytes_append (d : Dev) (a : Nat) (l m : List Byte) : d.setBytes a (l ++ m) = (d.setBytes a l).setBytes (a + l.length) m := by
  have hparts := forEach_setByte_zipIdx (a := a) m l.length 0 (d.setBytes a l)
  unfold Dev.setBytes at hparts ⊢
  rw [List.zipIdx_append, forEach_append, ← hparts, Nat.zero_add, Nat.add_zero]

theorem place_congr {e : Dev} (h : e.regs = d.regs) (a : Nat) : e.place a = d.place a := by
  have hchip : e.chipId = d.chipId := fld_congr (f := R.PWR_STRAP_CHIPID) (reg_of_regs h _)
  unfold Dev.place
  rw [hchip]

/-- The cores' memories lie below the registers (R23). -/
theorem lt_of_place_tcm {b : Nat} (h : d.place a = some (.tcm b)) : a < 0x10000000 := by
  by_contra hge
  have hrom : ¬a < 0x10000 := by omega
  have htcm : ¬(0x0C000000 ≤ a ∧ a < 0x10000000) := by omega
  simp only [Dev.place, hrom, Bool.and_eq_true, decide_eq_true_eq, htcm, if_false] at h
  split at h
  · obtain ⟨_, _, hne⟩ := Option.map_eq_some_iff.mp h
    cases hne
  · split_ifs at h <;> cases h

end Bytes

section Targets

variable {d : Dev} {a n : Nat}

theorem all_isSome_place (hp : ∀ i, i < n → d.place (a + i) = some (.tcm (a + i))) :
    (List.range n).all (fun i => (d.place (a + i)).isSome) = true :=
  List.all_eq_true.mpr fun i hi => by rw [hp i (List.mem_range.mp hi)]; rfl

theorem place_start (hp : ∀ i, i < n → d.place (a + i) = some (.tcm (a + i))) (hn : 0 < n) : d.place a = some (.tcm a) := hp 0 hn

theorem portRead_tcm (h : d.place a = some (.tcm a)) : d.portRead a n = d := by
  have hlt := lt_of_place_tcm h
  have hdata : a ≠ R.DBG_MDATA := by simp only [R.DBG_MDATA]; omega
  have hmirror : a ≠ R.DBG_MDATA + 0x8000 := by simp only [R.DBG_MDATA]; omega
  simp only [Dev.portRead, hdata, hmirror, if_false, ite_self]

theorem serveRead_tcm (w : Who) (hp : ∀ i, i < n → d.place (a + i) = some (.tcm (a + i))) (hn : 0 < n) :
    d.serveRead w a n = .done 0 (d.bytes a n) d := by
  unfold Dev.serveRead
  rw [place_start hp hn]
  exact if_pos (all_isSome_place hp)

theorem serveWrite_tcm (w : Who) {l : List Byte} (hp : ∀ i, i < l.length → d.place (a + i) = some (.tcm (a + i))) (hl : 0 < l.length) :
    d.serveWrite w a l = .done 0 () (d.setBytes a l) := by
  unfold Dev.serveWrite
  dsimp only
  rw [place_start hp hl]
  exact if_pos (all_isSome_place hp)

end Targets

section Requests

variable {d : Dev} {p : Packet} {k : PacketKind} {node : Nat}

theorem serveRd_tcm (hp : ∀ i, i < p.len.toNat + 1 → d.place (p.addr.toNat + i) = some (.tcm (p.addr.toNat + i))) :
    d.serveRd node k p = d.sendResp (openReq node k p 0 (d.bytes p.addr.toNat (p.len.toNat + 1))) := by
  unfold Dev.serveRd
  dsimp only
  rw [portRead_tcm (place_start hp (Nat.succ_pos _)), serveRead_tcm _ hp (Nat.succ_pos _)]

theorem serveWr_tcm (hp : ∀ i, i < p.data.length → d.place (p.addr.toNat + i) = some (.tcm (p.addr.toNat + i)))
    (hl : 0 < p.data.length) :
    d.serveWr node k p = (d.setBytes p.addr.toNat p.data).sendResp (openReq node k p 0 []) := by
  have hlt := lt_of_place_tcm (place_start hp hl)
  have hdata : p.addr.toNat ≠ R.DBG_MDATA := by simp only [R.DBG_MDATA]; omega
  unfold Dev.serveWr
  dsimp only
  rw [serveWrite_tcm _ hp hl, if_neg (by simp [hdata])]

/-- One piece of a posted write at its target. -/
def Dev.postPiece (d : Dev) (p : Packet) (x : Nat × List Byte) : Dev :=
  match d.serveWrite (packetWho p) x.1 x.2 with
  | .done st _ d => if st ≠ 0 && p.src = 0x08 then d.raise 0x61 else d
  | .away d => d

theorem servePosted_eq (d : Dev) (p : Packet) :
    d.servePosted p = forEach (packetPieces p.addr.toNat p.data) d (fun d x => d.postPiece p x) := rfl

theorem postPiece_tcm {a : Nat} {l : List Byte} (hp : ∀ i, i < l.length → d.place (a + i) = some (.tcm (a + i))) (hl : 0 < l.length) :
    d.postPiece p (a, l) = d.setBytes a l := by
  unfold Dev.postPiece
  rw [serveWrite_tcm _ hp hl]
  rfl

/-- The first pieces of a posted write to a core's memory write the first part of its data (R317). -/
theorem firstPieces_tcm (hp : ∀ i, i < p.data.length → d.place (p.addr.toNat + i) = some (.tcm (p.addr.toNat + i)))
    {m : Nat} (hm : m ≤ (p.data.length + 63) / 64) :
    forEach ((List.range m).map (fun i => (p.addr.toNat + 64 * i, (p.data.drop (64 * i)).take 64))) d (fun d x => d.postPiece p x) =
      d.setBytes p.addr.toNat (p.data.take (64 * m)) := by
  induction m with
  | zero => rfl
  | succ m ih =>
    have hlen : (p.data.take (64 * m)).length = 64 * m := by rw [List.length_take]; omega
    have hpiece : ((p.data.drop (64 * m)).take 64).length = min 64 (p.data.length - 64 * m) := by
      rw [List.length_take, List.length_drop]
    have hplaced : ∀ i, i < ((p.data.drop (64 * m)).take 64).length →
        (d.setBytes p.addr.toNat (p.data.take (64 * m))).place (p.addr.toNat + 64 * m + i) =
          some (.tcm (p.addr.toNat + 64 * m + i)) := by
      intro i hi
      rw [place_congr (regs_setBytes _ _ _), Nat.add_assoc]
      exact hp _ (by omega)
    rw [List.range_succ, List.map_append, forEach_append, ih (by omega), List.map_singleton, forEach_cons, forEach_nil,
      postPiece_tcm hplaced (by omega), show 64 * (m + 1) = 64 * m + 64 by omega, List.take_add, setBytes_append, hlen]

theorem servePosted_tcm (hp : ∀ i, i < p.data.length → d.place (p.addr.toNat + i) = some (.tcm (p.addr.toNat + i))) :
    d.servePosted p = d.setBytes p.addr.toNat p.data := by
  have hall : p.data.take (64 * ((p.data.length + 63) / 64)) = p.data := List.take_of_length_le (by omega)
  rw [servePosted_eq, packetPieces, firstPieces_tcm hp le_rfl, hall]

theorem reach_up (hdead : d.nodeDead node = false) (hbr : hasBridge node = true → d.brState node = 0) (b : Bool) :
    d.reach node b = (.ok, d) := by
  unfold Dev.reach
  rw [hdead]
  cases hb : hasBridge node with
  | false => rfl
  | true => rw [hbr hb]; rfl

/-- A well-formed request whose node is up and that no probe sees is served at once (R332). -/
theorem request_served (hnode : nodeOfAddr d.chipId p.addr.toNat = some node) (hdead : d.nodeDead node = false)
    (hbr : hasBridge node = true → d.brState node = 0) (hcan : d.canRequest p.src.toNat = true) (hsrc : p.src.toNat ≤ 0x20)
    (hoff : d.ProbesOff) (hok : packetOk k p = true) (htid : d.tidOk k p = true) : d.request k p = d.servePacket node k p := by
  have hgo : ¬((!d.canRequest p.src.toNat || !packetOk k p || !d.tidOk k p || decide (0x20 < p.src.toNat)) = true) := by
    simp [hcan, hok, htid, hsrc]
  unfold Dev.request Dev.inject
  rw [if_neg hgo, hnode]
  dsimp only
  rw [reach_up hdead hbr]
  dsimp only
  rw [probe_off hoff]

end Requests

end Sys2Proof.Machine
end


section
/-! Packets to a core's memory and responses complete (R317 to R319), and the obligation on services. -/

namespace Sys2Proof.Machine

section Requests

variable {s : State} {p : Packet}

/-- A request that its node serves at once, with all of its bytes in a core's memory. -/
structure Dev.ServesInTcm (d : Dev) (p : Packet) : Prop where
  served {k : PacketKind} (hok : packetOk k p = true) (htid : d.tidOk k p = true) : ∃ node, d.request k p = d.servePacket node k p
  placed {i : Nat} (hi : i < max (p.len.toNat + 1) p.data.length) : d.place (p.addr.toNat + i) = some (.tcm (p.addr.toNat + i))

theorem Dev.servesInTcm {d : Dev} {node : Nat} (hnode : nodeOfAddr d.chipId p.addr.toNat = some node) (hdead : d.nodeDead node = false)
    (hbr : hasBridge node = true → d.brState node = 0) (hcan : d.canRequest p.src.toNat = true) (hsrc : p.src.toNat ≤ 0x20)
    (hoff : d.ProbesOff)
    (hp : ∀ i, i < max (p.len.toNat + 1) p.data.length → d.place (p.addr.toNat + i) = some (.tcm (p.addr.toNat + i))) :
    d.ServesInTcm p :=
  ⟨fun hok htid => ⟨node, request_served hnode hdead hbr hcan hsrc hoff hok htid⟩, fun hi => hp _ hi⟩

/-- The responses on their way: their TIDs, the requesters and the statuses. -/
def Dev.answers (d : Dev) : List (BitVec 12 × BitVec 6 × BitVec 4) := d.road.resp.map (fun y => (y.tid, y.src, y.status))

theorem answers_sendResp (d : Dev) (node : Nat) (k : PacketKind) (p : Packet) (l : List Byte) :
    (d.sendResp (openReq node k p 0 l)).answers = d.answers ++ [(p.tid, p.src, 0)] := by
  rw [Dev.answers, road_sendResp, List.map_append]
  rfl

theorem answers_setBytes (d : Dev) (a : Nat) (l : List Byte) : (d.setBytes a l).answers = d.answers := by
  rw [Dev.answers, road_setBytes]
  rfl

theorem length_data_of_write {k : PacketKind} (hk : k = .wr ∨ k = .mwr) (hok : packetOk k p = true) : 0 < p.data.length := by
  have hlen : p.data.length = p.len.toNat + 1 := by
    rcases hk with rfl | rfl <;> exact of_decide_eq_true hok
  omega

variable (h : s.dev.ServesInTcm p)
include h

theorem completes_read {e : (Packet → Instr) × PacketKind} (he : e = (.rd, .rd) ∨ e = (.mrd, .mrd)) (hok : packetOk e.2 p = true)
    (htid : s.dev.tidOk e.2 p = true) : s.Completes (e.1 p) (fun t => t.answers = s.dev.answers ++ [(p.tid, p.src, 0)]) := by
  obtain ⟨node, hserved⟩ := h.served hok htid
  have hread := serveRd_tcm (d := s.dev) (p := p) (k := e.2) (node := node) (fun i hi => h.placed (lt_max_of_lt_left hi))
  refine ⟨s.dev.sendResp (openReq node e.2 p 0 (s.dev.bytes p.addr.toNat (p.len.toNat + 1))), ?_, ?_⟩
  · rcases he with rfl | rfl
    · exact run_eq_after (f := fun d => d.request .rd p) (hserved.trans hread)
    · exact run_eq_after (f := fun d => d.request .mrd p) (hserved.trans hread)
  · exact answers_sendResp _ _ _ _ _

theorem completes_write {e : (Packet → Instr) × PacketKind} (he : e = (.wr, .wr) ∨ e = (.mwr, .mwr)) (hok : packetOk e.2 p = true)
    (htid : s.dev.tidOk e.2 p = true) : s.Completes (e.1 p) (fun t => t.answers = s.dev.answers ++ [(p.tid, p.src, 0)]) := by
  obtain ⟨node, hserved⟩ := h.served hok htid
  have hdata : 0 < p.data.length := length_data_of_write (k := e.2) (by rcases he with rfl | rfl <;> simp) hok
  have hwrite := serveWr_tcm (d := s.dev) (p := p) (k := e.2) (node := node) (fun i hi => h.placed (lt_max_of_lt_right hi)) hdata
  refine ⟨(s.dev.setBytes p.addr.toNat p.data).sendResp (openReq node e.2 p 0 []), ?_, ?_⟩
  · rcases he with rfl | rfl
    · exact run_eq_after (f := fun d => d.request .wr p) (hserved.trans hwrite)
    · exact run_eq_after (f := fun d => d.request .mwr p) (hserved.trans hwrite)
  · exact (answers_sendResp _ _ _ _ _).trans (by rw [answers_setBytes])

theorem completes_posted {e : (Packet → Instr) × PacketKind} (he : e = (.pwr, .pwr) ∨ e = (.swr, .swr)) (hok : packetOk e.2 p = true)
    (htid : s.dev.tidOk e.2 p = true) : s.Completes (e.1 p) (fun t => t.road.resp = s.dev.road.resp ∧
      ∀ i, i < p.data.length → some (t.byte (p.addr.toNat + i)) = p.data[i]?) := by
  obtain ⟨node, hserved⟩ := h.served hok htid
  have hposted := servePosted_tcm (d := s.dev) (p := p) (fun i hi => h.placed (lt_max_of_lt_right hi))
  refine ⟨s.dev.setBytes p.addr.toNat p.data, ?_, ?_, fun i hi => ?_⟩
  · rcases he with rfl | rfl
    · exact run_eq_after (f := fun d => d.request .pwr p) (hserved.trans hposted)
    · exact run_eq_after (f := fun d => d.request .swr p) (hserved.trans hposted)
  · rw [road_setBytes]
  · rw [byte_setBytes_inside hi, List.getElem?_eq_getElem hi]

theorem completes_msg (hok : packetOk .msg p = true) (htid : s.dev.tidOk .msg p = true) :
    s.Completes (.msg p) (fun t => t = s.dev) := by
  obtain ⟨node, hserved⟩ := h.served hok htid
  exact ⟨_, run_eq_after (f := fun d => d.request .msg p) hserved, rfl⟩

end Requests

section Responses

variable {d : Dev} {m : Bool} {y : OpenReq}

/-- The part with a response off the road. -/
def Dev.respTaken (d : Dev) (y : OpenReq) : Dev := { d with road := { d.road with resp := d.road.resp.erase y } }

/-- The part with a response at a requester that is no core. -/
def Dev.respArrived (d : Dev) (y : OpenReq) : Dev :=
  let e := ((d.respTaken y).answerAsked y).respond y.status y.data
  if y.src = 0x0B then e.modByw (fun b => { b with req := b.req.erase y.tid }) else e

theorem probesOff_respTaken (h : d.ProbesOff) (y : OpenReq) : (d.respTaken y).ProbesOff := h

theorem resp_respArrived (d : Dev) (y : OpenReq) :
    (d.respArrived y).resp = ⟨y.status, y.data⟩ ∧ (d.respArrived y).road.resp = d.road.resp.erase y := by
  unfold Dev.respArrived
  dsimp only
  split <;> exact ⟨rfl, rfl⟩

theorem lateBusError_other {w : Who} (hw : 4 ≤ w.node) (d : Dev) (st : BitVec 4) (a : Word) : d.lateBusError w st a = d := by
  unfold Dev.lateBusError
  exact if_pos (by simp [hw])

theorem response_arrives (hoff : d.ProbesOff)
    (hy : d.road.resp.find? (fun z => z.tid = y.tid && z.mgmt = m && d.firstResp z) = some y)
    (hsunk : d.road.sunk.contains y.tid = false) (hdead : d.nodeDead y.src.toNat = false) (hsrc : 4 ≤ y.src.toNat) :
    d.response m y.tid = d.respArrived y := by
  have hprobe (t : Nat) (hdr : BitVec 64) (n : Nat) :
      (if y.node.toNat ≤ 0x20 then (d.respTaken y).probe t y.node.toNat y.src.toNat hdr n else d.respTaken y) = d.respTaken y := by
    rw [probe_off (probesOff_respTaken hoff y), ite_self]
  have hsunk' : ¬((d.respTaken y).road.sunk.contains y.tid = true) := ne_true_of_eq_false hsunk
  have hdead' : ¬((d.respTaken y).nodeDead y.src.toNat = true) := ne_true_of_eq_false hdead
  unfold Dev.response
  rw [hy]
  dsimp only
  rw [show ({ d with road := { d.road with resp := d.road.resp.erase y } } : Dev) = d.respTaken y from rfl, hprobe, if_neg hsunk',
    if_neg hdead', if_neg hsrc.not_gt, lateBusError_other hsrc]
  rfl

theorem completes_response {s : State} (hoff : s.dev.ProbesOff)
    (hy : s.dev.road.resp.find? (fun z => z.tid = y.tid && z.mgmt = m && s.dev.firstResp z) = some y)
    (hsunk : s.dev.road.sunk.contains y.tid = false) (hdead : s.dev.nodeDead y.src.toNat = false) (hsrc : 4 ≤ y.src.toNat) :
    s.Completes (if m then .mrsp y.tid else .rsp y.tid)
      (fun t => t.resp = ⟨y.status, y.data⟩ ∧ t.road.resp = s.dev.road.resp.erase y) := by
  have harrives := response_arrives hoff hy hsunk hdead hsrc
  refine ⟨_, ?_, resp_respArrived s.dev y⟩
  cases m with
  | true => exact run_eq_after (f := fun d => d.response true y.tid) harrives
  | false => exact run_eq_after (f := fun d => d.response false y.tid) harrives

end Responses

/-- Settles O37: each command's own effect, by the branch of its definition that the conditions choose. -/
theorem servicesComplete : Obligations.ServicesComplete := by
  unfold Obligations.ServicesComplete
  intro s r h x p
  refine ⟨?load, ?staging, ?verify, ?images, ?imagesEnd, ?transfer, ?wait, ?grant, ?recovery, ?retirement, ?failover, ?records, ?packets,
    ?responses⟩
  case load => exact fun hw hb hp => completes_patchLoad hw hb hp
  case staging =>
    exact fun a hb hs ha hr hn hread hp hpos hle hlen hin => completes_patchStagingDone hb hs ha hr rfl rfl hn hread hp hpos hle hlen hin
  case verify => exact fun ws hs hv hsig hk => completes_patchVerifyDone hs hv hsig hk
  case images => exact fun hb hm hd hroom e he hw => completes_himgCommand hb hm hd hroom he hw
  case imagesEnd => exact fun o hf ho => completes_himgDone hf ho
  case transfer => exact fun j moved rep ch hx hrun hch hflow hmarch => completes_stairTransferStart hx hrun hch hflow hmarch
  case wait => exact fun ch hch hw hlim ht => completes_stairWaitTimeout hch hw hlim ht
  case grant => exact fun bank g hon hw hm h3 h2 hgood => completes_galleryBankGrant hon hw hm h3 h2 hgood
  case recovery => exact completes_upsetRecovery s
  case retirement =>
    intro k w y
    refine ⟨fun hf hcap hbar hone hidle => ?_, fun hf hfree hbar => ?_, fun hf hy hgood hdue => ?_⟩
    · exact completes_columnRetirement hf hcap hbar hone hidle
    · exact completes_retireRefillStart hf hfree hbar
    · exact completes_retireRefillDone hf hy hgood hdue
  case failover =>
    intro f hf
    refine ⟨fun hnew hgood hcarry => ?_, fun hdone hret => ?_⟩
    · exact completes_failoverImageLoaded hf hnew hgood hcarry
    · exact completes_failoverResume hf hdone hret
  case records => exact fun w rest hw hm hon => completes_faultRecordWrite hw hm hon
  case packets =>
    intro node hnode hdead hbr hcan hsrc hoff hp
    have hserved := Dev.servesInTcm hnode hdead hbr hcan hsrc hoff hp
    refine ⟨fun e he hok htid => ?_, fun e he hok htid => ?_, completes_msg hserved⟩
    · simp only [List.mem_cons, List.not_mem_nil, or_false] at he
      rcases he with he | he | he | he
      · exact completes_read hserved (.inl he) hok htid
      · exact completes_read hserved (.inr he) hok htid
      · exact completes_write hserved (.inl he) hok htid
      · exact completes_write hserved (.inr he) hok htid
    · simp only [List.mem_cons, List.not_mem_nil, or_false] at he
      exact completes_posted hserved he hok htid
  case responses => exact fun m y hoff hy hsunk hdead hsrc => completes_response hoff hy hsunk hdead hsrc

end Sys2Proof.Machine
end


section
/-! A hall's flight (R159 to R163): a microword's arrival, the credit's return, the start of an entry, the end of a stall. -/

namespace Sys2Proof.Machine

variable {d : Dev} {h : LHall}

/-- Which physical hall serves a logical one goes by SEQ_HSUB alone (R472). -/
theorem phys_congr {e : Dev} (hsub : e.reg R.SEQ_HSUB = d.reg R.SEQ_HSUB) (k : Nat) : e.phys k = d.phys k := by
  rw [Dev.phys, Dev.phys, flag_congr (f := R.SEQ_HSUB_V) hsub, fld_congr (f := R.SEQ_HSUB_HALL) hsub]

theorem phys_countStall (d : Dev) (h : LHall) (c n k : Nat) : (d.countStall h c n).phys k = d.phys k :=
  phys_congr (reg_countStall d h c n (by decide)) k

theorem arriveWord_enters {e : BitVec 90} {r : List (BitVec 90)} (htransit : (d.hq h).transit = e :: r)
    (hroom : (d.hq h).flight.length < 64) :
    d.arriveWord h =
      let t := d.modHq h (fun q => { q with transit := r, flight := q.flight ++ [e] })
      if d.fld (R.HALL_FLSTAT_MAXOCC (d.phys h.val)) < (d.hq h).flight.length + 1
        then t.setFld (R.HALL_FLSTAT_MAXOCC (d.phys h.val)) ((d.hq h).flight.length + 1) else t := by
  unfold Dev.arriveWord
  simp only [htransit, if_neg hroom.not_ge, hq_modHq_same, List.length_append, List.length_singleton]
  rfl

theorem returnCredit_due (hdue : 0 < (d.hq h).returning) :
    d.returnCredit h = d.modHq h (fun q => { q with returning := q.returning - 1, credit := min 64 (q.credit + 1) }) :=
  if_neg hdue.ne'

section Entry

variable {x : StreamId}

/-- The count of the wait at an empty flight moves no hall, so that a parity report names the hall that took the entry (R161, R163). -/
theorem startEntry_head {e : BitVec 90} {r : List (BitVec 90)} (hflight : (d.hq h).flight = e :: r) (hrun : (d.hq h).run = none)
    (hrep : (d.hq h).repDue = false) :
    d.startEntry x h =
      let w : BitVec 80 := e.setWidth 80
      let t := d.countStall h 0 0
      let t := if parityOk e then t else t.tick.upset (d.phys h.val) ⟨4, false, 0, 0, 0⟩
      Dev.runCycles x h (feCnt w + 1) (t.modHq h (fun q => { q with
        flight := r, returning := q.returning + 1,
        run := some ⟨w, feCnt w + 1, feAadr w, feBadr w, feWadr w, feXarg w, 5, false⟩ })) := by
  unfold Dev.startEntry
  simp only [hflight, hrun, hrep, Bool.false_eq_true, if_false, phys_countStall]

variable {r : HRun} (hrun : (d.hq h).run = some r)
include hrun

theorem endStall_goesOn (hstall : r.stall ≠ 5) (hfree : d.cycleStall x h (feOp r.e) r.pushed = none) :
    d.endStall x h = Dev.runCycles x h r.left
      ((d.countStall h r.stall 1).modHq h (fun q => { q with run := some { r with stall := 5 } })) := by
  have hends : ¬(decide (r.stall = 5) || (d.cycleStall x h (feOp r.e) r.pushed).isSome) = true := by simp [hstall, hfree]
  unfold Dev.endStall
  rw [hrun]
  exact if_neg hends

/-- A cycle that still stalls can at most push its token (R164). -/
theorem endStall_stays (hheld : d.cycleStall x h (feOp r.e) r.pushed ≠ none) : d.endStall x h = d.pushFor x h r := by
  have hstays : (decide (r.stall = 5) || (d.cycleStall x h (feOp r.e) r.pushed).isSome) = true := by
    rw [Option.isSome_iff_ne_none.mpr hheld, Bool.or_true]
  unfold Dev.endStall
  rw [hrun]
  exact if_pos hstays

end Entry

end Sys2Proof.Machine
end


section
/-! Token time-outs (R165), and the obligation on a hall's flight. -/

namespace Sys2Proof.Machine

section Timeout

variable {d : Dev} {h f : LHall} {edge : BitVec 2}

/-- The record of a time-out in HALLn_FLSTAT: the first since TKTO was cleared stays (R162). -/
def Dev.recordTimeout (d : Dev) (ph : Nat) (edge : BitVec 2) : Dev :=
  if d.flag (R.HALL_FLSTAT_TKTO ph) then d else
    (d.setFlag (R.HALL_FLSTAT_TKTO ph) true).setFld (R.HALL_FLSTAT_TKEDGE ph) edge.toNat

/-- The recovery logic gets a hall that does not answer. -/
def Dev.reportDead (d : Dev) (p : HallId) : Dev := { d with arr := { d.arr with reports := d.arr.reports ++ [.dead p] } }

theorem reg_recordTimeout_ne (d : Dev) {ph a : Nat} (edge : BitVec 2) (ha : a ≠ R.HALL_FLSTAT ph) :
    (d.recordTimeout ph edge).reg a = d.reg a := by
  unfold Dev.recordTimeout
  split
  · rfl
  · exact (reg_setFld_ne _ (f := R.HALL_FLSTAT_TKEDGE ph) _ ha).trans (reg_setFlag_ne d (f := R.HALL_FLSTAT_TKTO ph) true ha)

/-- The record moves no hall, so that the report names the hall that served before it. -/
theorem phys_recordTimeout (d : Dev) (ph : Nat) (edge : BitVec 2) (k : Nat) : (d.recordTimeout ph edge).phys k = d.phys k := by
  have hne : R.SEQ_HSUB ≠ R.HALL_FLSTAT ph := by
    simp only [R.SEQ_HSUB, R.HALL_FLSTAT]
    omega
  exact phys_congr (reg_recordTimeout_ne d edge hne) k

theorem tokenTimeout_reports {x : StreamId} {p : HallId} (hx : d.stream? (d.streamOf h.val) = some x)
    (hwdog : d.fld R.SEQ_CTRL_WDOG ≠ 0) (hend : d.edgeEnd x h.val (edge.getLsbD 0) = .hall f.val)
    (hwaits : d.waitsOn x h edge = true) (hruns : d.signalsStall f = false) (hp : d.phys f.val = p.val) :
    d.tokenTimeout h edge f = (d.recordTimeout (d.phys h.val) edge).reportDead p := by
  have hfaulty : (d.recordTimeout (d.phys h.val) edge).phys f.val = p.val := (phys_recordTimeout d _ edge _).trans hp
  have hlt : (d.recordTimeout (d.phys h.val) edge).phys f.val < 17 := hfaulty ▸ p.isLt
  unfold Dev.tokenTimeout
  simp only [hx, hwdog, hend, hwaits, hruns, ne_eq, not_true_eq_false, decide_false, Bool.not_true, Bool.or_self, Bool.false_eq_true,
    if_false]
  exact (dif_pos hlt).trans (congrArg (Dev.reportDead _) (Fin.ext hfaulty))

end Timeout

variable {s : State} {h : LHall} {e : Dev}

theorem exec_microwordArrive_eq (he : s.dev.arriveWord h = e) : exec (.microwordArrive h) s = s.after e :=
  run_eq_after (f := fun d => d.arriveWord h) he

theorem exec_creditReturn_eq (he : s.dev.returnCredit h = e) : exec (.creditReturn h) s = s.after e :=
  run_eq_after (f := fun d => d.returnCredit h) he

theorem exec_tokenTimeout_eq {edge : BitVec 2} {f : LHall} (he : s.dev.tokenTimeout h edge f = e) :
    exec (.tokenTimeout h edge f) s = s.after e :=
  run_eq_after (f := fun d => d.tokenTimeout h edge f) he

section Stream

variable {x : StreamId} (hx : s.dev.stream? (s.dev.streamOf h.val) = some x)
include hx

theorem exec_hallEntryStart_eq (he : s.dev.startEntry x h = e) : exec (.hallEntryStart h) s = s.after e :=
  run_eq_after (f := fun d => d.hallStream h (fun x => d.startEntry x h)) ((hallStream_eq hx).trans he)

theorem exec_stallEnd_eq (he : s.dev.endStall x h = e) : exec (.stallEnd h) s = s.after e :=
  run_eq_after (f := fun d => d.hallStream h (fun x => d.endStall x h)) ((hallStream_eq hx).trans he)

end Stream

/-- Settles O29: each clause is one command of the hall, by what the flight, the entry in progress and the waited-for neighbour are. -/
theorem hallsRunTheirFlights : Obligations.HallsRunTheirFlights := by
  unfold Obligations.HallsRunTheirFlights
  intro s h
  refine ⟨?arrive, ?credit, fun x hx => ⟨?start, ?stall, ?timeout⟩⟩
  case arrive => exact fun e r htransit hroom => exec_microwordArrive_eq (arriveWord_enters htransit hroom)
  case credit => exact fun hdue => exec_creditReturn_eq (returnCredit_due hdue)
  case start => exact fun e r hflight hrun hrep => exec_hallEntryStart_eq hx (startEntry_head hflight hrun hrep)
  case stall =>
    intro r hrun
    refine ⟨fun hstall hfree => ?_, fun hheld => ?_⟩
    · exact exec_stallEnd_eq hx (endStall_goesOn hrun hstall hfree)
    · exact exec_stallEnd_eq hx (endStall_stays hrun hheld)
  case timeout =>
    exact fun edge f hwdog hend hwaits hruns p hp => exec_tokenTimeout_eq (tokenTimeout_reports hx hwdog hend hwaits hruns hp)

end Sys2Proof.Machine
end


section
/-! Stair transfers: what a hall's start leaves of the part, in a transfer of the stream and in a routine's microwords (R176, R180). -/

namespace Sys2Proof.Machine

variable {d e : Dev} {s : State} {h : LHall} {x : StreamId} {ch : BitVec 3}

/-- The part as a hall's start leaves it before the data move: the wait is counted as a stall, and the channel is taken. -/
def Dev.stairTaken (d : Dev) (h : LHall) (ch : BitVec 3) : Dev :=
  (d.countStall h 3 (bn (d.hq h).waited)).modHq h (fun q => { q with chan := some (ch, 1) })

theorem run_stairTaken (d : Dev) (h : LHall) (ch : BitVec 3) (x : StreamId) : ((d.stairTaken h ch).st x).run = (d.st x).run :=
  run_countStall d h 3 _ _ x

/-- A start whose flow condition holds takes the channel; what moves depends on what the stream runs. -/
theorem startTransfer_takes {j : Job} (hx : d.stream? (d.streamOf h.val) = some x) (hj : d.chanJob x = some j)
    (hch : (d.hq h).chan = some (ch, 0)) (hflow : d.flowOk j = true) (hmarch : d.chanMarched ch.toNat = false) :
    d.startTransfer h = match (d.st x).run with
      | .xfer _ moved rep =>
        (if j.opc = 0x6C then (d.stairTaken h ch).strinHall j h.val else (d.stairTaken h ch).stroutHall j h.val).modSt x
          (fun y => { y with run := .xfer j (setBit moved h.val true) rep })
      | _ =>
        if j.opc = 0x6C then (d.stairTaken h ch).chanCount ch.toNat h.val ((d.stairTaken h ch).fld (R.STAIR_CHWPOS_POS ch.toNat))
          ((d.stairTaken h ch).chanUnits ch.toNat (descWidth j.dD.1))
        else d.stairTaken h ch := by
  have hgo : (!d.flowOk j || d.chanMarched ch.toNat) = false := by rw [hflow, hmarch]; rfl
  rw [← run_stairTaken d h ch x]
  unfold Dev.startTransfer
  simp only [hx, hj, hch, hgo, Bool.false_eq_true, if_false]
  rfl

section Transfer

variable {j : Job} {moved rep : BitVec 16} (hx : d.stream? (d.streamOf h.val) = some x) (hrun : (d.st x).run = .xfer j moved rep)
  (hch : (d.hq h).chan = some (ch, 0)) (hflow : d.flowOk j = true) (hmarch : d.chanMarched ch.toNat = false)
include hx hrun hch hflow hmarch

/-- A transfer moves the hall's share in its direction, and the routine notes the hall. -/
theorem startTransfer_xfer : d.startTransfer h =
    (if j.opc = 0x6C then (d.stairTaken h ch).strinHall j h.val else (d.stairTaken h ch).stroutHall j h.val).modSt x
      (fun y => { y with run := .xfer j (setBit moved h.val true) rep }) := by
  have hj : d.chanJob x = some j := by rw [Dev.chanJob, hrun]
  rw [startTransfer_takes hx hj hch hflow hmarch, hrun]

theorem startTransfer_in (ho : j.opc = 0x6C) : d.startTransfer h =
    ((d.stairTaken h ch).strinHall j h.val).modSt x (fun y => { y with run := .xfer j (setBit moved h.val true) rep }) := by
  rw [startTransfer_xfer hx hrun hch hflow hmarch, if_pos ho]

theorem startTransfer_out (ho : j.opc = 0x6D) : d.startTransfer h =
    ((d.stairTaken h ch).stroutHall j h.val).modSt x (fun y => { y with run := .xfer j (setBit moved h.val true) rep }) := by
  have hne : j.opc ≠ 0x6C := by rw [ho]; decide
  rw [startTransfer_xfer hx hrun hch hflow hmarch, if_neg hne]

end Transfer

/-- A routine's transfer decodes the words that it reads; its units move in its microwords. -/
theorem startTransfer_micro {j j' : Job} (hx : d.stream? (d.streamOf h.val) = some x) (hrun : (d.st x).run = .micro j)
    (hj : d.chanJob x = some j') (hch : (d.hq h).chan = some (ch, 0)) (hflow : d.flowOk j' = true)
    (hmarch : d.chanMarched ch.toNat = false) : d.startTransfer h =
      if j'.opc = 0x6C then (d.stairTaken h ch).chanCount ch.toNat h.val ((d.stairTaken h ch).fld (R.STAIR_CHWPOS_POS ch.toNat))
        ((d.stairTaken h ch).chanUnits ch.toNat (descWidth j'.dD.1))
      else d.stairTaken h ch := by
  rw [startTransfer_takes hx hj hch hflow hmarch, hrun]

theorem exec_stairTransferStart_eq (he : s.dev.startTransfer h = e) : exec (.stairTransferStart h) s = s.after e :=
  run_eq_after (f := fun d => d.startTransfer h) he

theorem exec_stairWaitTimeout_eq (he : s.dev.stairTimeout h = e) : exec (.stairWaitTimeout h) s = s.after e :=
  run_eq_after (f := fun d => d.stairTimeout h) he

end Sys2Proof.Machine
end

section
/-! A gallery bank with one request: the grant, and the access that it admits (R185, R186, R192, R195). -/

namespace Sys2Proof.Machine

variable {d e : Dev} {s : State} {i : Nat} {g : GalReq} {bank : Fin 32}

/-- A request may reach its word: the word lies in the gallery, and the secure region answers the road's secure requests alone, while it
is open (R192). -/
def Dev.mayReach (d : Dev) (i : Nat) (g : GalReq) : Prop :=
  galRegion (8 * i) ≠ 3 ∧ (galRegion (8 * i) = 2 → g.who = 4 ∧ g.sec = true ∧ d.secureShut = false)

theorem not_mayReach_iff (d : Dev) (i : Nat) (g : GalReq) : ¬d.mayReach i g ↔
    (galRegion (8 * i) = 3 || (galRegion (8 * i) = 2 && (g.who ≠ 4 || !g.sec || d.secureShut))) = true := by
  unfold Dev.mayReach
  simp only [Bool.or_eq_true, Bool.and_eq_true, decide_eq_true_eq, Bool.not_eq_true', ← Bool.not_eq_true, ne_eq]
  tauto

theorem mayReach_granted (d : Dev) (b q i : Nat) (g : GalReq) : (d.granted b q).mayReach i g ↔ d.mayReach i g := Iff.rfl

theorem underMarch_granted (d : Dev) (b q a n : Nat) : (d.granted b q).underMarch a n = d.underMarch a n := rfl

theorem galWord_granted (d : Dev) (b q i : Nat) : (d.granted b q).galWord i = d.galWord i := rfl

/-- A request that may not reach its word is answered with a refusal. -/
theorem galAccess_refused (hr : ¬d.mayReach i g) : d.galAccess i g = d.respond 1 [] := by
  unfold Dev.galAccess
  exact if_pos ((not_mayReach_iff d i g).mp hr)

/-- A region under a destructive test answers every requester but the march engine with a slave error. -/
theorem galAccess_underMarch (hr : d.mayReach i g) (hg : g.who ≠ 6) (hm : d.underMarch (8 * i) 8 = true) :
    d.galAccess i g = d.respond 2 [] := by
  have hopen := mt (not_mayReach_iff d i g).mpr (not_not_intro hr)
  unfold Dev.galAccess
  dsimp only
  rw [if_neg hopen, if_pos (by rw [hm, Bool.and_true]; exact decide_eq_true hg)]

/-- Elsewhere the access is performed on the word as its read finds it. -/
theorem galAccess_writes {v : BitVec 64} (hr : d.mayReach i g) (hm : d.underMarch (8 * i) 8 = false) (hw : g.wr = some (0xFF, v)) :
    d.galAccess i g = (d.galPut i v).respond 0 [] := by
  have hopen := mt (not_mayReach_iff d i g).mpr (not_not_intro hr)
  unfold Dev.galAccess
  dsimp only
  rw [if_neg hopen, if_neg (by rw [hm, Bool.and_false]; decide), hw]
  exact if_pos rfl

theorem galAccess_answers (hr : d.mayReach i g) (hm : d.underMarch (8 * i) 8 = false) (hw : g.wr = none)
    (hgood : (d.galWord i).2 = .good) : d.galAccess i g = d.respond 0 (leBytes 8 (d.galWord i).1.toNat) := by
  have hopen := mt (not_mayReach_iff d i g).mpr (not_not_intro hr)
  have hclean : (EccFind.good == EccFind.uncorrectable) = false := by decide
  unfold Dev.galAccess
  dsimp only
  rw [if_neg hopen, if_neg (by rw [hm, Bool.and_false]; decide), hw, hgood]
  simp only [hclean, Bool.false_and, Bool.false_eq_true, if_false, Dev.galCount, ite_self]

/-- The arbiter of a request at a bank: that of the landing's port A, or that of the single-port part. -/
def arbiterOf (g : GalReq) (bank : Fin 32) : Nat := if g.landing then 32 + bank.val else bank.val

/-- A bank grants its only request at the request's arbiter. -/
theorem bankGrant_grants (hs : d.marchStalls bank.val g = false) : d.bankGrant bank [g] =
    (d.granted (arbiterOf g bank) g.who.val).galAccess (g.word * 32 + bank.val) g := by
  have hws : [g].filter (fun r => !d.marchStalls bank.val r) = [g] := by simp [hs]
  have hlanding : (32 + bank.val) % 32 = bank.val := by omega
  unfold Dev.bankGrant arbiterOf
  rw [hws]
  cases hl : g.landing with
  | true => simp [hl, arbGrant_lone, arbGrant_nil, hlanding]
  | false => simp [hl, arbGrant_lone, arbGrant_nil, Nat.mod_eq_of_lt bank.isLt]

/-- A stair port's request into a region under a destructive test waits. -/
theorem bankGrant_waits (hs : d.marchStalls bank.val g = true) : d.bankGrant bank [g] = d := by
  have hws : [g].filter (fun r => !d.marchStalls bank.val r) = [] := by simp [hs]
  unfold Dev.bankGrant
  rw [hws]
  exact (arbGrant_nil _ _).trans (arbGrant_nil _ _)

theorem marchStalls_idle (hm : d.underMarch (8 * (g.word * 32 + bank.val)) 8 = false) : d.marchStalls bank.val g = false := by
  rw [Dev.marchStalls, hm, Bool.and_false]

section Lone

variable (hr : d.mayReach (g.word * 32 + bank.val) g)
include hr

theorem bankGrant_writes {v : BitVec 64} (hm : d.underMarch (8 * (g.word * 32 + bank.val)) 8 = false) (hw : g.wr = some (0xFF, v)) :
    d.bankGrant bank [g] = ((d.granted (arbiterOf g bank) g.who.val).galPut (g.word * 32 + bank.val) v).respond 0 [] := by
  rw [bankGrant_grants (marchStalls_idle hm)]
  exact galAccess_writes ((mayReach_granted ..).mpr hr) ((underMarch_granted ..).trans hm) hw

theorem bankGrant_answers (hm : d.underMarch (8 * (g.word * 32 + bank.val)) 8 = false) (hw : g.wr = none)
    (hgood : (d.galWord (g.word * 32 + bank.val)).2 = .good) : d.bankGrant bank [g] =
      (d.granted (arbiterOf g bank) g.who.val).respond 0 (leBytes 8 (d.galWord (g.word * 32 + bank.val)).1.toNat) := by
  rw [bankGrant_grants (marchStalls_idle hm), ← galWord_granted d (arbiterOf g bank) g.who.val]
  exact galAccess_answers ((mayReach_granted ..).mpr hr) ((underMarch_granted ..).trans hm) hw
    ((congrArg Prod.snd (galWord_granted ..)).trans hgood)

theorem bankGrant_underMarch (hm : d.underMarch (8 * (g.word * 32 + bank.val)) 8 = true) (hg : g.who = 4 ∨ g.who = 5) :
    d.bankGrant bank [g] = (d.granted (arbiterOf g bank) g.who.val).respond 2 [] := by
  have hother : ¬g.who < 4 ∧ g.who ≠ 6 := by rcases hg with h | h <;> rw [h] <;> decide
  have hgoes : d.marchStalls bank.val g = false := by
    rw [Dev.marchStalls, hm, Bool.and_true]
    exact decide_eq_false hother.1
  rw [bankGrant_grants hgoes]
  exact galAccess_underMarch ((mayReach_granted ..).mpr hr) hother.2 ((underMarch_granted ..).trans hm)

end Lone

theorem bankGrant_refused (hr : ¬d.mayReach (g.word * 32 + bank.val) g)
    (hm : d.underMarch (8 * (g.word * 32 + bank.val)) 8 = false) :
    d.bankGrant bank [g] = (d.granted (arbiterOf g bank) g.who.val).respond 1 [] := by
  rw [bankGrant_grants (marchStalls_idle hm)]
  exact galAccess_refused (mt (mayReach_granted ..).mp hr)

theorem exec_galleryBankGrant_eq {ws : List GalReq} (hon : s.dev.domOn 0 = true) (he : s.dev.bankGrant bank ws = e) :
    exec (.galleryBankGrant bank ws) s = s.after e :=
  run_eq_after (f := fun d => if d.domOn 0 then d.bankGrant bank ws else d) ((if_pos hon).trans he)

/-- Settles O32: a stair's start by what the stream runs, the wait that is too long, and a bank's only request by what it may reach and
by the march. -/
theorem stairsAndBanksServe : Obligations.StairsAndBanksServe := by
  unfold Obligations.StairsAndBanksServe
  intro s h x
  refine ⟨?transfer, ?routine, ?wait, ?bank⟩
  case transfer =>
    intro j moved rep ch hx hrun hch hflow hmarch
    refine ⟨fun ho => ?_, fun ho => ?_⟩
    · exact exec_stairTransferStart_eq (startTransfer_in hx hrun hch hflow hmarch ho)
    · exact exec_stairTransferStart_eq (startTransfer_out hx hrun hch hflow hmarch ho)
  case routine =>
    intro j j' ch hx hrun hj hch hflow hmarch
    exact exec_stairTransferStart_eq (startTransfer_micro hx hrun hj hch hflow hmarch)
  case wait => exact fun ch hch hw hlim ht => exec_stairWaitTimeout_eq (stairTimeout_waits hch hw hlim ht)
  case bank =>
    intro bank r hon _
    refine ⟨fun hreach hm => ⟨fun v hw => ?_, fun hw hgood => ?_⟩, fun hreach hm => ?_, fun hreach hm => ⟨fun hport => ?_, fun hroad => ?_⟩⟩
    · exact exec_galleryBankGrant_eq hon (bankGrant_writes hreach hm hw)
    · exact exec_galleryBankGrant_eq hon (bankGrant_answers hreach hm hw hgood)
    · exact exec_galleryBankGrant_eq hon (bankGrant_refused hreach hm)
    · refine exec_galleryBankGrant_eq hon (bankGrant_waits ?_)
      rw [Dev.marchStalls, hm, Bool.and_true]
      exact decide_eq_true hport
    · exact exec_galleryBankGrant_eq hon (bankGrant_underMarch hreach hm hroad)

end Sys2Proof.Machine
end


section
/-! The line timer's inputs: the encoder's edges, the leader's pulses, a stream's gate (R233, R234, R237). -/

namespace Sys2Proof.Machine

variable {d e : Dev} {s : State} {a b : Bool}

/-- An edge of one input goes one place on in the encoder's cycle of four, or one place back. -/
theorem quadrature_step : ∀ a b p q : Bool, (a != p) ≠ (b != q) →
    (quadrature a b + 4 - quadrature p q) % 4 = if (a != p) == (p == q) then 1 else 3 := by decide

/-- The part with the encoder's inputs as sampled. -/
def Dev.encoderSeen (d : Dev) (a b : Bool) : Dev := { d with line := { d.line with a := a, b := b } }

/-- The direction of an edge of one input: A leading B counts up unless DIRINV is set. -/
def Dev.edgeStep (d : Dev) (a b : Bool) : Int :=
  let up := (quadrature a b + 4 - quadrature d.line.a d.line.b) % 4
  if up = 0 then 0 else if (up = 1) != d.flag R.LINE_CTRL_DIRINV then 1 else -1

theorem edgeStep_one (h : (a != d.line.a) ≠ (b != d.line.b)) :
    d.edgeStep a b = if ((a != d.line.a) == (d.line.a == d.line.b)) != d.flag R.LINE_CTRL_DIRINV then 1 else -1 := by
  unfold Dev.edgeStep
  rw [quadrature_step a b _ _ h]
  cases (a != d.line.a) == (d.line.a == d.line.b) <;> rfl

/-- POS after a step, the highest position, and REV while POS lies below it. -/
def Dev.stepPos (d : Dev) (step : Int) : Dev :=
  let pos := (d.reg R.LINE_POS).toInt + step
  let top := max d.line.top pos
  (({ d with line := { d.line with top := top } } : Dev).setReg R.LINE_POS (BitVec.ofInt 32 pos)).setFlag R.LINE_STAT_REV (pos < top)

/-- An encoder's edge in a timer that runs on its encoder. -/
theorem encoderEdge_runs (hm : d.mode = 8) (hen : d.flag R.LINE_CTRL_EN = true) (hsrc : d.fld R.LINE_CTRL_SRC = 0) :
    d.encoderEdge a b = if a ≠ d.line.a ∧ b ≠ d.line.b then ((d.encoderSeen a b).setFlag R.LINE_STAT_QERR true).raise 0x35
      else (d.encoderSeen a b).stepPos (d.edgeStep a b) := by
  have hmode : (d.encoderSeen a b).mode = 8 := hm
  have hrun : (d.encoderSeen a b).flag R.LINE_CTRL_EN = true := hen
  have hquad : (d.encoderSeen a b).fld R.LINE_CTRL_SRC = 0 := hsrc
  have hgo : ((d.encoderSeen a b).mode ≠ 8 || !(d.encoderSeen a b).flag R.LINE_CTRL_EN ||
      (d.encoderSeen a b).fld R.LINE_CTRL_SRC ≠ 0) = false := by rw [hmode, hrun, hquad]; rfl
  have hboth : (a ≠ d.line.a && b ≠ d.line.b) = decide (a ≠ d.line.a ∧ b ≠ d.line.b) := by rw [Bool.decide_and]
  unfold Dev.encoderEdge
  dsimp only
  rw [← Dev.encoderSeen, hgo, hboth]
  simp only [Bool.false_eq_true, if_false, decide_eq_true_eq]
  rfl

theorem lsyncPulse_runs {low high : Nat} (hm : d.mode = 8) (hen : d.flag R.LINE_CTRL_EN = true) (hsrc : d.fld R.LINE_CTRL_SRC = 2)
    (hmaster : d.flag R.LINE_CTRL_MASTER = false) :
    d.lsyncPulse low high = if low < 16 ∨ high < 16 then (d.setFlag R.LINE_STAT_SYNCERR true).raise 0x35
      else { d with line := { d.line with follow := true } } := by
  unfold Dev.lsyncPulse
  simp only [hm, hen, hsrc, hmaster, ne_eq, not_true_eq_false, decide_false, Bool.not_true, Bool.or_self, Bool.false_eq_true, if_false,
    Bool.or_eq_true, decide_eq_true_eq]

/-- A difference of two counts modulo 2^16. -/
theorem toNat_sub_ofNat {m g : Nat} (hg : g ≤ 2 ^ 32) : (BitVec.ofNat 16 m - BitVec.ofNat 16 g).toNat = (m + 2 ^ 32 - g) % 2 ^ 16 := by
  rw [BitVec.toNat_sub, BitVec.toNat_ofNat, BitVec.toNat_ofNat]
  omega

theorem toNat_of_toInt_pos {v : BitVec 16} (h : 0 < v.toInt) : 0 < v.toNat ∧ v.toNat < 2 ^ 15 := by
  rw [BitVec.toInt_eq_toNat_cond] at h
  omega

/-- A stream's gate is open while the strobes, with AHEAD, are ahead of its lines. -/
theorem gateOpen_of_ahead {x : StreamId}
    (hl : ((d.st x).openMilestones.filter (fun j => j.sd.getLsbD 0)).length < 2 ^ 16)
    (ha : 0 < (BitVec.ofNat 16 ((if d.mode = 8 then d.fld R.LINE_STAT_SCNT else 0) + d.fld (R.LINE_GATE_AHEAD x)) - BitVec.ofNat 16
      (d.fld (R.LINE_GSTAT_GLINE x) + ((d.st x).openMilestones.filter (fun j => j.sd.getLsbD 0)).length)).toInt) :
    d.gateOpen x = true := by
  have hline : d.fld (R.LINE_GSTAT_GLINE x) < 2 ^ 16 := fld_lt d _
  obtain ⟨hpos, hlt⟩ := toNat_of_toInt_pos ha
  rw [toNat_sub_ofNat (by omega)] at hpos hlt
  unfold Dev.gateOpen
  simp only [Bool.and_eq_true, decide_eq_true_eq]
  exact ⟨hpos, hlt⟩

theorem gateAdmit_open {x : StreamId} (hw : d.flag (R.LINE_GSTAT_WAIT x) = true) (ho : d.gateOpen x = true) :
    d.gateAdmit x = d.setFlag (R.LINE_GSTAT_WAIT x) false := by
  rw [Dev.gateAdmit, hw, ho]
  rfl

theorem exec_encoderEdge_eq (he : s.dev.encoderEdge a b = e) : exec (.encoderEdge a b) s = s.after e :=
  run_eq_after (f := fun d => d.encoderEdge a b) he

theorem exec_lsyncPulse_eq {low high : Nat} (he : s.dev.lsyncPulse low high = e) : exec (.lsyncPulse low high) s = s.after e :=
  run_eq_after (f := fun d => d.lsyncPulse low high) he

theorem exec_lineGateAdmit_eq {x : StreamId} (he : s.dev.gateAdmit x = e) : exec (.lineGateAdmit x) s = s.after e :=
  run_eq_after (f := fun d => d.gateAdmit x) he

end Sys2Proof.Machine
end

section
/-! The line strobe: its count and time, its spacing, its line's lateness (R190, R191, R232 to R235, R351, R353, R438). -/

namespace Sys2Proof.Machine

variable {d e : Dev} {s : State} {t : Nat}

/-- The timer's own state after the strobe at time t; a master drives LSYNC. -/
def Dev.strobeTaken (d : Dev) (t : Nat) : Dev := { d with line := { d.line with
  strobes := d.line.strobes + 1, follow := false, last := t, lsyncOut := d.line.lsyncOut + bn (d.flag R.LINE_CTRL_MASTER) } }

/-- The strobe at time t counted, with its time and its event. -/
def Dev.strobeCounted (d : Dev) (t : Nat) : Dev :=
  (((d.strobeTaken t).setFld R.LINE_STAT_SCNT ((d.line.strobes + 1) % 2 ^ 24)).setReg R.LINE_TLAST
    (BitVec.ofInt 32 (d.roadNs t))).raise 0x34

/-- The same with a strobe that comes too soon reported, and the strobe in the fabric's regions. -/
def Dev.strobeSpread (d : Dev) (t : Nat) : Dev :=
  (if d.line.strobes ≠ 0 ∧ d.roadNs ((t : Int) - d.line.last) < d.fld R.LINE_MINP_MINP
    then ((d.strobeCounted t).setFlag R.LINE_STAT_OVSP true).raise 0x35 else d.strobeCounted t).strobeRegions d.line.strobes

theorem lead_raise (d : Dev) (n : Nat) : (d.raise n).lead = d.lead := (congrArg Dev.lead (raise_evcOnly d n)).trans rfl

theorem lead_strobeRegions (d : Dev) (k : Nat) : (d.strobeRegions k).lead = d.lead := by
  unfold Dev.strobeRegions
  split <;> rfl

theorem lead_strobeCounted (d : Dev) (t : Nat) : (d.strobeCounted t).lead = d.lead := by
  unfold Dev.strobeCounted
  rw [lead_raise, lead_setReg, lead_setFld]
  rfl

theorem lead_strobeSpread (d : Dev) (t : Nat) : (d.strobeSpread t).lead = d.lead := by
  unfold Dev.strobeSpread
  rw [lead_strobeRegions, apply_ite Dev.lead, lead_raise, lead_setFlag, lead_strobeCounted, ite_self]

/-- A strobe is due when the timer runs and its source has earned it. -/
theorem strobeDue_of (hm : d.mode = 8) (hen : d.flag R.LINE_CTRL_EN = true)
    (hsrc : d.fld R.LINE_CTRL_SRC = 0 ∧ d.strobeAt d.line.strobes ≤ d.line.top ∨
      d.fld R.LINE_CTRL_SRC = 1 ∧ t = d.internalAt d.line.strobes ∨ d.fld R.LINE_CTRL_SRC = 2 ∧ d.line.follow = true) :
    d.strobeDue t = true := by
  unfold Dev.strobeDue
  rw [hm, hen]
  rcases hsrc with ⟨hs, hdue⟩ | ⟨hs, hdue⟩ | ⟨hs, hdue⟩
  · rw [hs]; exact decide_eq_true hdue
  · rw [hs]; exact decide_eq_true hdue
  · rw [hs]; exact hdue

/-- A strobe that is due, on its line. -/
theorem lineStrobe_due (hdue : d.strobeDue t = true) :
    d.lineStrobe t = ((if d.lead.copied ≤ d.line.strobes then ((d.strobeSpread t).lateStrobe d.line.strobes).queuesLate d.line.strobes
      else (d.strobeSpread t).lateStrobe d.line.strobes).marginStrobe d.line.strobes t).wayStrobe := by
  rw [← lead_strobeSpread d t]
  unfold Dev.lineStrobe
  simp only [hdue, Bool.not_true, Bool.false_eq_true, if_false, Bool.and_eq_true, decide_eq_true_eq]
  rfl

theorem lineStrobe_onTime (hdue : d.strobeDue t = true) (hl : d.line.strobes < d.lead.copied) :
    d.lineStrobe t = ((d.strobeSpread t).marginStrobe d.line.strobes t).wayStrobe := by
  have hline : (d.strobeSpread t).lateStrobe d.line.strobes = d.strobeSpread t :=
    if_pos (by rw [lead_strobeSpread]; exact hl)
  rw [lineStrobe_due hdue, if_neg (Nat.not_le.mpr hl), hline]

theorem lineStrobe_late (hdue : d.strobeDue t = true) (hl : d.lead.copied ≤ d.line.strobes) :
    d.lineStrobe t = (((({ d.strobeSpread t with lead := { (d.strobeSpread t).lead with
      late := (d.strobeSpread t).lead.late ++ [d.line.strobes] } } : Dev).addFld R.GAL_LSTAT_LATE 1).raise 0x36).queuesLate
        d.line.strobes |>.marginStrobe d.line.strobes t).wayStrobe := by
  have hline : (d.strobeSpread t).lateStrobe d.line.strobes = _ :=
    if_neg (by rw [lead_strobeSpread]; exact Nat.not_lt.mpr hl)
  rw [lineStrobe_due hdue, if_pos hl, hline]

theorem exec_lineStrobe_eq (he : s.dev.lineStrobe t = e) : exec (.lineStrobe t) s = s.after e :=
  run_eq_after (f := fun d => d.lineStrobe t) he

/-- Settles O38: the encoder and the leader by their edges, a strobe that is due by its line's copy, a gate by its stream's lead. -/
theorem lineTimerRuns : Obligations.LineTimerRuns := by
  unfold Obligations.LineTimerRuns
  intro s
  refine ⟨?encoder, ?leader, ?strobe, ?gate⟩
  case encoder =>
    intro a b hm hen hsrc
    refine ⟨fun ha hb => ?_, fun hone => ?_⟩
    · exact exec_encoderEdge_eq ((encoderEdge_runs hm hen hsrc).trans (if_pos ⟨bne_iff_ne.mp ha, bne_iff_ne.mp hb⟩))
    · have hnot : ¬(a ≠ s.dev.line.a ∧ b ≠ s.dev.line.b) := fun ⟨ha, hb⟩ =>
        hone ((bne_iff_ne.mpr ha).trans (bne_iff_ne.mpr hb).symm)
      refine exec_encoderEdge_eq ((encoderEdge_runs hm hen hsrc).trans ((if_neg hnot).trans ?_))
      rw [edgeStep_one hone]
      rfl
  case leader =>
    intro low high hm hen hsrc hmaster
    refine ⟨fun ⟨hlow, hhigh⟩ => ?_, fun hshort => ?_⟩
    · exact exec_lsyncPulse_eq ((lsyncPulse_runs hm hen hsrc hmaster).trans (if_neg (by omega)))
    · exact exec_lsyncPulse_eq ((lsyncPulse_runs hm hen hsrc hmaster).trans (if_pos hshort))
  case strobe =>
    intro t hm hen hsrc
    have hdue := strobeDue_of hm hen hsrc
    exact ⟨fun hl => exec_lineStrobe_eq (lineStrobe_onTime hdue hl), fun hl => exec_lineStrobe_eq (lineStrobe_late hdue hl)⟩
  case gate => exact fun x hw hl ha => exec_lineGateAdmit_eq (gateAdmit_open hw (gateOpen_of_ahead hl ha))

end Sys2Proof.Machine
end


section
/-! The lead mover: the start of a line's copy, and its end (R189). -/

namespace Sys2Proof.Machine

variable {d e : Dev} {s : State}

theorem leadStart_starts (hen : d.flag R.GAL_LCFG_LEN = true) (hidle : d.lead.copying = false) (hrel : d.lead.copied < d.lead.released)
    (hslot : d.lead.copied < d.lead.done + (d.fld R.GAL_LCFG_NSM1 + 1)) :
    d.leadStart = { d with lead := { d.lead with copying := true } } := by
  have hroom : d.lead.copied < d.lead.done + d.landingSlots := hslot
  unfold Dev.leadStart
  simp only [hen, hidle, hrel, hroom, Bool.not_false, Bool.and_self, decide_true, Bool.or_true, if_true]

/-- The limits of the ring's channels once n lines are copied, with the units of a line as they stand. -/
theorem forEach_setLimit {c : Nat} (l : List Nat) (n : Nat) (hc : d.fld R.GAL_LCFG_LPU = c) :
    forEach l d (fun d ch => d.setFld (R.STAIR_CHLIMIT_POS ch) (n * d.fld R.GAL_LCFG_LPU % 2 ^ 24)) =
      forEach l d (fun d ch => d.setFld (R.STAIR_CHLIMIT_POS ch) (n * c % 2 ^ 24)) := by
  induction l generalizing d with
  | nil => rfl
  | cons ch l ih =>
    have hne : R.GAL_LCFG_LPU.addr ≠ (R.STAIR_CHLIMIT_POS ch).addr := by
      simp only [R.GAL_LCFG_LPU, R.GAL_LCFG, R.STAIR_CHLIMIT_POS, R.STAIR_CHLIMIT]
      omega
    have hkept : (d.setFld (R.STAIR_CHLIMIT_POS ch) (n * c % 2 ^ 24)).fld R.GAL_LCFG_LPU = c :=
      (fld_setFld_other d _ _ _ (show 23 < 32 by decide) (.inl hne)).trans hc
    rw [forEach_cons, forEach_cons, hc, ih hkept]

/-- The halls' shares of line k. -/
def Dev.leadShares (d : Dev) (k : Nat) : Dev := forEach (List.range 16) d (fun d h => d.leadHall k h)

/-- The limits of the ring's channels at n lines of c units each. -/
def Dev.setLimits (d : Dev) (n c : Nat) : Dev :=
  forEach d.leadChannels d (fun e ch => e.setFld (R.STAIR_CHLIMIT_POS ch) (n * c % 2 ^ 24))

/-- The copy of line k over. -/
def Dev.lineCopied (d : Dev) (k : Nat) : Dev := { d with lead := { d.lead with copied := k + 1, copying := false } }

theorem leadDone_copies (hc : d.lead.copying = true) : d.leadDone =
    ((d.leadShares d.lead.copied).setLimits (d.lead.copied + 1) ((d.leadShares d.lead.copied).fld R.GAL_LCFG_LPU)).lineCopied
      d.lead.copied := by
  unfold Dev.leadDone
  rw [hc, Dev.setLimits, ← forEach_setLimit _ _ rfl]
  rfl

theorem exec_leadCopyStart_eq (he : s.dev.leadStart = e) : exec .leadCopyStart s = s.after e := run_eq_after (f := Dev.leadStart) he

theorem exec_leadCopyDone_eq (he : s.dev.leadDone.reportLines = e) : exec .leadCopyDone s = s.after e :=
  run_eq_after (f := fun d => d.leadDone.reportLines) he

end Sys2Proof.Machine
end

section
/-! The wipe of the secure region: the region's bytes, the phases, and what GAL_SEC shows (R192, R193). -/

namespace Sys2Proof.Machine

variable {d e : Dev} {s : State}

/-- A range cleared reads as the defaults, and every other key as before. -/
theorem bankGet_bankClear {α : Type} {dflt : Nat → α} (m : List (Nat × α)) (lo hi k : Nat) :
    bankGet dflt (bankClear m lo hi) k = if lo ≤ k ∧ k < hi then dflt k else bankGet dflt m k := by
  induction m with
  | nil => simp [bankClear, bankGet]
  | cons p r ih =>
    obtain ⟨a, v⟩ := p
    unfold bankClear at ih ⊢
    by_cases ha : a < lo ∨ hi ≤ a
    · rw [List.filter_cons_of_pos (by simpa using ha), bankGet, bankGet, ih]
      by_cases hk : a = k
      · rw [if_pos hk, if_pos hk, if_neg (by omega)]
      · rw [if_neg hk, if_neg hk]
    · rw [List.filter_cons_of_neg (by simpa using ha), ih, bankGet]
      by_cases hk : a = k
      · rw [if_pos (by omega), if_pos (by omega)]
      · rw [if_neg hk]

theorem gal_syncSec (d : Dev) : d.syncSec.gal = d.gal := rfl

theorem reg_withGal (d : Dev) (g : GalState) (x : Nat) : ({ d with gal := g } : Dev).reg x = d.reg x := rfl

theorem reg_syncSec_ne (d : Dev) {x : Nat} (hx : x ≠ R.GAL_SEC) : d.syncSec.reg x = d.reg x := by
  unfold Dev.syncSec
  rw [reg_setFld_ne _ _ hx, reg_setFlag_ne _ _ hx, reg_setFlag_ne _ _ hx]

theorem startWipe_idle (hw : d.gal.wipe = .idle) (c : BitVec 4) :
    d.startWipe c = ({ d with gal := { d.gal with wipe := .clearing, wcause := c } } : Dev).syncSec := by
  unfold Dev.startWipe
  rw [if_pos hw]

/-- The part after the clearing: every cell of the region clear, and the read-back begun or waiting for CORE. -/
def Dev.wiped (d : Dev) : Dev :=
  { d with
    mem := bankClear d.mem 0x41700000 0x41800000,
    galErr := bankClear d.galErr (0x1700000 / 8) (0x1800000 / 8),
    gal := { d.gal with wipe := if d.domOn 0 then .readback else .deferred } }

theorem wipeCleared_clearing (hw : d.gal.wipe = .clearing) : d.wipeCleared = d.wiped.syncSec := by
  unfold Dev.wipeCleared
  rw [if_neg (not_not_intro hw)]
  rfl

theorem byte_wiped (d : Dev) (a : Nat) :
    d.wiped.byte a = if 0x41700000 ≤ a ∧ a < 0x41800000 then byteReset a else d.byte a := bankGet_bankClear _ _ _ _

theorem wipe_wiped (d : Dev) : d.wiped.gal.wipe = if d.domOn 0 then .readback else .deferred := rfl

theorem secureShut_of_wipe (hw : d.gal.wipe ≠ .idle) : d.secureShut = true := by
  unfold Dev.secureShut
  rw [decide_eq_true hw, Bool.true_or]

theorem secureShut_wiped (d : Dev) : d.wiped.syncSec.secureShut = true := by
  refine secureShut_of_wipe ?_
  rw [gal_syncSec, wipe_wiped]
  split
  · exact nofun
  · exact nofun

/-- The part with the wipe over and its finding recorded. -/
def Dev.wipeOver (d : Dev) (bad : Bool) : Dev := ({ d with gal := { d.gal with wipe := .idle, verr := bad } } : Dev).syncSec

theorem wipeRead_clean (hw : d.gal.wipe = .readback) : d.wipeRead false = (d.wipeOver false).setFlag R.GAL_SEC_DONE true := by
  unfold Dev.wipeRead
  rw [if_neg (not_not_intro hw)]
  rw [if_neg Bool.false_ne_true, Dev.wipeOver]

theorem wipeRead_nonzero (hw : d.gal.wipe = .readback) : d.wipeRead true = (d.wipeOver true).raise 0x39 := by
  unfold Dev.wipeRead
  rw [if_neg (not_not_intro hw)]
  rw [if_pos rfl, Dev.wipeOver]

theorem exec_wipeClearDone_eq (he : s.dev.wipeCleared = e) : exec .wipeClearDone s = s.after e := run_eq_after (f := Dev.wipeCleared) he

theorem exec_wipeReadbackDone_eq {bad : Bool} (hw : s.dev.gal.wipe = .readback) (he : s.dev.wipeRead bad = e) :
    exec (.wipeReadbackDone bad) s = s.after (e.lifeWiped bad) :=
  run_eq_after (f := fun d => if d.gal.wipe = WipePhase.readback then (d.wipeRead bad).lifeWiped bad else d)
    ((if_pos hw).trans (congrArg (Dev.lifeWiped · bad) he))

end Sys2Proof.Machine
end

section
/-! The march engine: the start of a run, and the end of one that found no failing word (R194 to R196). -/

namespace Sys2Proof.Machine

variable {d e : Dev} {s : State}

/-- A run may start in the part's mode: one that keeps the contents outside mode 8, another in two modes alone (R195). -/
def Dev.marchModeOk (d : Dev) : Prop := if d.flag R.GAL_MCTL_PRES then d.mode ≠ 8 else d.mode = 2 ∨ d.mode = 9

/-- The engine's registers at the start of a run. -/
def Dev.marchCleared (d : Dev) : Dev := ((d.setFlag R.GAL_MCTL_BUSY true).setFld R.GAL_MCTL_NFAIL 0).setReg R.GAL_MLOG 0

/-- The part with a run started, as MCTL names it. -/
def Dev.marchStarted (d : Dev) : Dev :=
  { d.marchCleared with gal := { d.gal with
      march := some (BitVec.ofNat 2 (d.fld R.GAL_MCTL_ALG), d.flag R.GAL_MCTL_PRES, BitVec.ofNat 2 (d.fld R.GAL_MCTL_RGN)) } }

theorem marchStarted_of_gal {g : GalState} (hg : d.gal = g) :
    d.marchStarted = { d.marchCleared with gal := { g with
      march := some (BitVec.ofNat 2 (d.fld R.GAL_MCTL_ALG), d.flag R.GAL_MCTL_PRES, BitVec.ofNat 2 (d.fld R.GAL_MCTL_RGN)) } } := by
  subst hg
  rfl

theorem marchGo_starts (hidle : d.gal.march = none) (halg : d.fld R.GAL_MCTL_ALG ≠ 3) (hrgn : d.fld R.GAL_MCTL_RGN ≠ 0)
    (hmode : d.marchModeOk) : d.marchGo = d.marchStarted := by
  unfold Dev.marchModeOk at hmode
  unfold Dev.marchGo
  simp only [hidle, halg, hrgn, hmode, Option.isSome_none, Bool.or_eq_true, decide_eq_true_eq, decide_true, Bool.not_true, Bool.false_eq_true,
    or_self, if_false]
  rfl

theorem reg_marchStarted_ne (d : Dev) {x : Nat} (hctl : x ≠ R.GAL_MCTL) (hlog : x ≠ R.GAL_MLOG) : d.marchStarted.reg x = d.reg x := by
  rw [Dev.marchStarted, reg_withGal, Dev.marchCleared, reg_setReg_ne _ _ hlog, reg_setFld_ne _ _ hctl, reg_setFlag_ne _ _ hctl]

/-- The words of a tested range left 0. -/
def Dev.clearRange (d : Dev) (p : Nat × Nat) : Dev :=
  { d with mem := bankClear d.mem (galBase + p.1) (galBase + p.2), galErr := bankClear d.galErr (p.1 / 8) (p.2 / 8) }

def inRange (a : Nat) (p : Nat × Nat) : Bool := decide (galBase + p.1 ≤ a) && decide (a < galBase + p.2)

theorem byte_clearRange (d : Dev) (p : Nat × Nat) (a : Nat) :
    (d.clearRange p).byte a = if inRange a p = true then byteReset a else d.byte a := by
  simp only [inRange, Bool.and_eq_true, decide_eq_true_eq]
  exact bankGet_bankClear _ _ _ _

theorem byte_forEach_clearRange (l : List (Nat × Nat)) (d : Dev) (a : Nat) :
    (forEach l d Dev.clearRange).byte a = if l.any (inRange a) = true then byteReset a else d.byte a := by
  induction l generalizing d with
  | nil => rfl
  | cons p l ih =>
    rw [forEach_cons, ih, byte_clearRange, List.any_cons]
    cases inRange a p with
    | true => exact ite_self _
    | false => rfl

/-- The part with no run. -/
def Dev.marchOver (d : Dev) : Dev := { d with gal := { d.gal with march := none } }

/-- The part with no run, and what a run that did not keep the contents tested left 0. -/
def Dev.marchSwept (d : Dev) (pres : Bool) (rgn : BitVec 2) : Dev :=
  if pres then d.marchOver else forEach (marchRanges rgn) d.marchOver Dev.clearRange

theorem regs_marchSwept (d : Dev) (pres : Bool) (rgn : BitVec 2) : (d.marchSwept pres rgn).regs = d.regs := by
  cases pres with
  | true => rfl
  | false => exact forEach_frame Dev.regs _ _ (fun _ _ => rfl)

theorem march_marchSwept (d : Dev) (pres : Bool) (rgn : BitVec 2) : (d.marchSwept pres rgn).gal.march = none := by
  cases pres with
  | true => rfl
  | false => exact forEach_frame (fun e : Dev => e.gal.march) _ _ (fun _ _ => rfl)

theorem byte_marchSwept (d : Dev) (pres : Bool) (rgn : BitVec 2) (a : Nat) : (d.marchSwept pres rgn).byte a =
    if pres = false ∧ (marchRanges rgn).any (inRange a) = true then byteReset a else d.byte a := by
  cases pres with
  | true => rfl
  | false => exact (byte_forEach_clearRange (marchRanges rgn) d.marchOver a).trans (if_congr (and_iff_right rfl).symm rfl rfl)

/-- The engine's registers at the end of a run without a failing word. -/
def Dev.marchReported (d : Dev) : Dev :=
  ((d.setFlag R.GAL_MCTL_BUSY false).setFlag R.GAL_MCTL_DONE true).setFld R.GAL_MCTL_NFAIL 0

theorem marchEnd_clean {alg : BitVec 2} {pres : Bool} {rgn : BitVec 2} (hm : d.gal.march = some (alg, pres, rgn)) :
    d.marchEnd [] = (d.marchSwept pres rgn).marchReported := by
  unfold Dev.marchEnd
  rw [hm]
  rfl

theorem nfail_marchReported (d : Dev) : d.marchReported.fld R.GAL_MCTL_NFAIL = 0 := fld_setFld_same _ R.GAL_MCTL_NFAIL 0 (by decide)

theorem done_marchReported (d : Dev) : d.marchReported.flag R.GAL_MCTL_DONE = true :=
  (flag_setFld_other _ R.GAL_MCTL_NFAIL _ _ (by decide) (by decide)).trans (flag_setFlag_same _ _ true (by decide) rfl)

theorem busy_marchReported (d : Dev) : d.marchReported.flag R.GAL_MCTL_BUSY = false :=
  (flag_setFld_other _ R.GAL_MCTL_NFAIL _ _ (by decide) (by decide)).trans
    ((flag_setFld_other _ R.GAL_MCTL_DONE _ _ (by decide) (by decide)).trans (flag_setFlag_same _ _ false (by decide) rfl))

theorem fail_marchReported (d : Dev) : d.marchReported.flag R.GAL_MCTL_FAIL = d.flag R.GAL_MCTL_FAIL :=
  (flag_setFld_other _ R.GAL_MCTL_NFAIL _ _ (by decide) (by decide)).trans
    ((flag_setFld_other _ R.GAL_MCTL_DONE _ _ (by decide) (by decide)).trans
      (flag_setFld_other _ R.GAL_MCTL_BUSY _ _ (by decide) (by decide)))

theorem exec_marchDone_eq {fails : List MarchFail} (he : s.dev.marchEnd fails = e) : exec (.marchDone fails) s = s.after e :=
  run_eq_after (f := fun d => d.marchEnd fails) he

end Sys2Proof.Machine
end

section
/-! Writes of the gallery's registers that start a wipe or a march, or set an entry of row repair (R192, R196, R197). -/

namespace Sys2Proof.Machine

variable {d : Dev} {s : State} {r : Requester} {v : Word} {x : Nat}

theorem startWrite_wipe (d : Dev) (w : Who) (hv : v.getLsbD 31 = true) :
    d.startWrite w .gal R.GAL_SEC v = (d.plainWrite w .gal R.GAL_SEC v).startWipe 4 := by
  simp only [Dev.startWrite, hv, if_true]

theorem startWrite_march (d : Dev) (w : Who) (hv : v.getLsbD 31 = true) :
    d.startWrite w .gal R.GAL_MCTL v = (d.plainWrite w .gal R.GAL_MCTL v).marchGo := by
  have hne : R.GAL_MCTL ≠ R.GAL_SEC := by decide
  simp only [Dev.startWrite, hne, hv, if_false, if_true]

theorem startWrite_rpr (d : Dev) (w : Who) (n : Fin 320) (v : Word) (hl : d.locked .gal = false) :
    d.startWrite w .gal (R.GAL_RPR n.val) v = d.writeRpr n.val v := by
  have hsec : R.GAL_RPR n.val ≠ R.GAL_SEC := by simp only [R.GAL_RPR, R.GAL_SEC]; omega
  have hctl : R.GAL_RPR n.val ≠ R.GAL_MCTL := by simp only [R.GAL_RPR, R.GAL_MCTL]; omega
  have hidx : arrIdx (R.GAL_RPR 0) 4 320 (R.GAL_RPR n.val) = some n.val := by
    simp [arrIdx, R.GAL_RPR]
  simp only [Dev.startWrite, hsec, hctl, hidx, hl, if_false, Bool.false_eq_true]

/-- The registers by which the response goes are none of the gallery's. -/
theorem reg_fielded_gal {a : Nat} (d : Dev) (r : Requester) (v : Word) (hx : x ∈ responseRegs) (ha : 0x10060000 ≤ a)
    (hc : a ≠ blockBase .gal + 0x7FF0) : (d.fielded r .gal a v).reg x = d.reg x :=
  reg_plainWrite_noCommit d.drawn _ v hc (ne_of_responseRegs hx ha) (ne_of_responseRegs hx (by decide))

theorem gal_fielded {a : Nat} (d : Dev) (r : Requester) (v : Word) (hc : a ≠ blockBase .gal + 0x7FF0) :
    (d.fielded r .gal a v).gal = d.gal := by
  obtain ⟨g, t, hwrite⟩ := plainWrite_eq (d := d.drawn) (d.who r) v hc
  have hgal := congrArg Dev.gal hwrite
  exact hgal

theorem mode_fielded_mctl (d : Dev) (r : Requester) (v : Word) : (d.fielded r .gal R.GAL_MCTL v).mode = d.mode :=
  fld_congr (reg_plainWrite_noCommit d.drawn _ v (by decide) (by decide) (by decide))

theorem exec_secureWipe_writes (hw : s.dev.Writes r .gal R.GAL_SEC 0x80000000) (hidle : s.dev.gal.wipe = .idle) :
    exec (.secureWipe r) s = s.wrote ({ s.dev.fielded r .gal R.GAL_SEC 0x80000000 with
      gal := { s.dev.gal with wipe := .clearing, wcause := 4 } } : Dev).syncSec := by
  have hgal := gal_fielded s.dev r 0x80000000 (a := R.GAL_SEC) (by decide)
  have hgo : (0x80000000 : Word).getLsbD 31 = true := by decide
  have hwipe : (s.dev.fielded r .gal R.GAL_SEC 0x80000000).gal.wipe = .idle := (congrArg GalState.wipe hgal).trans hidle
  refine run_commandWord hw ((startWrite_wipe _ _ hgo).trans ((startWipe_idle hwipe 4).trans ?_)) (fun x hx => ?_)
  · rw [hgal]
  · rw [reg_syncSec_ne _ (ne_of_responseRegs hx (by decide)), reg_withGal]
    exact reg_fielded_gal s.dev r _ hx (by decide) (by decide)

theorem exec_marchStart_writes (hw : s.dev.Writes r .gal R.GAL_MCTL (v ||| 0x80000000)) (hidle : s.dev.gal.march = none)
    (halg : (s.dev.fielded r .gal R.GAL_MCTL (v ||| 0x80000000)).fld R.GAL_MCTL_ALG ≠ 3)
    (hrgn : (s.dev.fielded r .gal R.GAL_MCTL (v ||| 0x80000000)).fld R.GAL_MCTL_RGN ≠ 0)
    (hmode : (s.dev.fielded r .gal R.GAL_MCTL (v ||| 0x80000000)).marchModeOk) :
    exec (.marchStart r v) s = s.wrote (s.dev.fielded r .gal R.GAL_MCTL (v ||| 0x80000000)).marchStarted := by
  have hgal := gal_fielded s.dev r (v ||| 0x80000000) (a := R.GAL_MCTL) (by decide)
  have hgo : (v ||| 0x80000000).getLsbD 31 = true := by
    rw [BitVec.getLsbD_or, show (0x80000000 : Word).getLsbD 31 = true from by decide, Bool.or_true]
  refine run_commandWord hw ((startWrite_march _ _ hgo).trans (marchGo_starts (hgal ▸ hidle) halg hrgn hmode)) (fun x hx => ?_)
  exact (reg_marchStarted_ne _ (ne_of_responseRegs hx (by decide)) (ne_of_responseRegs hx (by decide))).trans
    (reg_fielded_gal s.dev r _ hx (by decide) (by decide))

theorem regs_looseRow (d : Dev) (b row : Nat) : (d.looseRow b row).regs = d.regs := by
  unfold Dev.looseRow
  split
  · rfl
  · exact forEach_frame Dev.regs _ _ (fun d _ => regs_setBytes _ _ _)

theorem reg_writeRpr_ne (d : Dev) {n : Nat} (v : Word) (hx : x ≠ R.GAL_RPR n) : (d.writeRpr n v).reg x = d.reg x := by
  have hloose (p : Prop) [Decidable p] (e : Dev) (b row : Nat) : (if p then e else e.looseRow b row).reg x = e.reg x := by
    split
    · rfl
    · exact reg_of_regs (regs_looseRow e b row) x
  unfold Dev.writeRpr
  split
  · rfl
  · refine (hloose _ _ _ _).trans ((hloose _ _ _ _).trans ?_)
    rw [reg_setFlag_ne _ _ hx, reg_setFld_ne _ _ hx, reg_setFlag_ne _ _ hx]

theorem exec_rprWrite_writes {n : Fin 320} (hw : s.dev.Writes r .gal (R.GAL_RPR n.val) v) (hl : s.dev.locked .gal = false) :
    exec (.rprWrite r n v) s = s.wrote (s.dev.drawn.writeRpr n.val v) := by
  have hlo : 0x10060000 ≤ R.GAL_RPR n.val := by simp only [R.GAL_RPR]; omega
  exact run_commandWord hw (startWrite_rpr s.dev.drawn _ n v hl) (fun x hx => reg_writeRpr_ne s.dev.drawn v (ne_of_responseRegs hx hlo))

theorem writeRpr_fused {n : Nat} (hf : d.flag (R.GAL_RPR_FUSE n) = true) : d.writeRpr n v = d := by
  unfold Dev.writeRpr
  exact if_pos hf

/-- Settles O33: the copy by its start and its end, the wipe and the march by their phases, row repair by the entry's fuse. -/
theorem galleryEnginesRun : Obligations.GalleryEnginesRun := by
  unfold Obligations.GalleryEnginesRun
  intro s r v
  refine ⟨?copyStart, ?copyDone, ?wipe, ?cleared, ?readback, ?march, ?marchEnd, ?repair⟩
  case copyStart => exact fun hen hidle hrel hslot => exec_leadCopyStart_eq (leadStart_starts hen hidle hrel hslot)
  case copyDone => exact fun hc => exec_leadCopyDone_eq (congrArg Dev.reportLines (leadDone_copies hc))
  case wipe => exact fun hw hidle => exec_secureWipe_writes hw hidle
  case cleared =>
    intro hw
    refine ⟨s.dev.wiped.syncSec, exec_wipeClearDone_eq (wipeCleared_clearing hw), secureShut_wiped _, fun a hlo hhi => ?_,
      fun a hout => ?_, rfl⟩
    · exact (byte_wiped s.dev a).trans (if_pos ⟨hlo, hhi⟩)
    · exact (byte_wiped s.dev a).trans (if_neg (by omega))
  case readback => exact fun hw => ⟨exec_wipeReadbackDone_eq hw (wipeRead_clean hw), exec_wipeReadbackDone_eq hw (wipeRead_nonzero hw)⟩
  case march =>
    intro w t hw hidle halg hrgn hmode
    have hok : (s.dev.fielded r .gal R.GAL_MCTL (v ||| 0x80000000)).marchModeOk := by
      rw [Dev.marchModeOk, mode_fielded_mctl]
      exact hmode
    have hgal := gal_fielded s.dev r (v ||| 0x80000000) (a := R.GAL_MCTL) (by decide)
    exact (exec_marchStart_writes hw hidle halg hrgn hok).trans (congrArg s.wrote (marchStarted_of_gal hgal))
  case marchEnd =>
    intro alg pres rgn hm
    refine ⟨(s.dev.marchSwept pres rgn).marchReported, exec_marchDone_eq (marchEnd_clean hm), march_marchSwept .., nfail_marchReported _,
      busy_marchReported _, done_marchReported _, ?_, fun a => byte_marchSwept s.dev pres rgn a⟩
    exact (fail_marchReported _).trans (flag_congr (reg_of_regs (regs_marchSwept ..) _))
  case repair =>
    intro n hw hl
    refine ⟨fun hf => ?_, fun _ => exec_rprWrite_writes hw hl⟩
    rw [exec_rprWrite_writes hw hl, writeRpr_fused (d := s.dev.drawn) hf]

end Sys2Proof.Machine
end

section
/-! Recovery's exact steps: column retirement at each of its stages, the failover's image and its resume (R213, R215, R219). -/

namespace Sys2Proof.Machine

section Retirement

variable {d e : Dev} {k : HallId} {w : RetRec}

theorem beginRetire_bars (hf : d.arr.retire.find? (fun q => q.hall = k && q.stage = 0) = some w) (hcap : d.capture? (.hall k) = none)
    (hone : d.arr.retire.any (fun q => q.hall = k && (q.stage = 1 || q.stage = 2)) = false)
    (hidle : ∀ z, (d.streamOfPhys k.val).bind d.stream? = some z → (d.st z).run = .idle) (hbar : d.barRetire w = some e) :
    d.beginRetire k = e := by
  have hany : ((d.streamOfPhys k.val).bind d.stream?).any (fun s => (d.st s).run ≠ .idle) = false :=
    (Option.any_eq_false _ _).mpr (fun z hz => by simp [hidle z hz])
  unfold Dev.beginRetire
  simp only [hf, hcap, hone, hany, hbar, Option.isSome_none, Bool.or_self, Bool.false_eq_true, if_false, Option.getD_some]

theorem startRefill_bars (hf : d.arr.retire.find? (fun q => q.hall = k && q.stage = 1) = some w)
    (hfree : ∀ l, d.logicalOf k.val = some l → d.stairBusy l = false) (hbar : d.barRetire w = some e) : d.startRefill k = e := by
  have hstair : ((d.logicalOf k.val).map d.stairBusy).getD false = false := by
    cases hl : d.logicalOf k.val with
    | none => rfl
    | some l => exact hfree l hl
  unfold Dev.startRefill
  simp only [hf, hstair, hbar, Bool.false_eq_true, if_false, Option.getD_some]

theorem refillDone_uncorrectable {y : StreamId} (hf : d.arr.retire.find? (fun q => q.hall = k && q.stage = 2) = some w)
    (hy : (d.streamOfPhys k.val).bind d.stream? = some y) (hbad : (d.refill k.val (addColumn (d.retired k.val) w.col)).1 = true) :
    d.refillDone k =
      ((((((d.refill k.val (addColumn (d.retired k.val) w.col)).2.dropRetire (fun q => q.hall = k)).addFld R.SEQ_RSTAT_NPERM 1).record 4 y
        k.val 127 w.word []).record 7 y k.val w.col w.word []).stopStream y).hallOutcome y k.val w.word := by
  unfold Dev.refillDone
  simp only [hf, hy, hbad, if_true]

end Retirement

section Failover

variable {d : Dev} {f : FailOver}

/-- The carries of a stream's halls written from their slots (R219 step 4), where the stream keeps carries; whether a word of them could
not be corrected. -/
def Dev.carriesRestored (d : Dev) (x : StreamId) : Bool × Dev :=
  if d.flag (R.SEQ_CARRY_CEN x) then
    (d.streamHalls x.val).foldl (fun (r : Bool × Dev) h =>
      let t := r.2.restoreCarry x h
      (r.1 || t.1, t.2)) (false, d)
  else (false, d)

theorem imageLoaded_failed (hf : d.arr.failover = some f) (hnew : f.imageDone = false) :
    d.imageLoaded false = d.failoverFails f := by
  unfold Dev.imageLoaded
  rw [hf]
  exact (if_neg (ne_true_of_eq_false hnew)).trans (if_pos rfl)

/-- An image that has arrived: the load, then the carries, and a word of either that cannot be corrected is the failover's fault. -/
theorem imageLoaded_arrived (hf : d.arr.failover = some f) (hnew : f.imageDone = false) {x y : Bool × Dev}
    (hx : d.looseStaging.loadImage f.hall.val = x) (hy : x.2.carriesRestored f.strm = y) :
    d.imageLoaded true =
      if x.1 then x.2.failoverFails f
      else if y.1 then y.2.failoverFails f
      else { y.2 with arr := { y.2.arr with failover := some { f with imageDone := true } } } := by
  unfold Dev.imageLoaded
  rw [hf]
  show (if f.imageDone then _ else _) = _
  rw [hx, if_neg (ne_true_of_eq_false hnew), if_neg (show ¬((!true) = true) by decide)]
  obtain ⟨bad, e⟩ := x
  show (if bad then _ else _) = _
  rw [show (if e.flag (R.SEQ_CARRY_CEN f.strm) = true then _ else _) = y from hy]

theorem failoverResume_failed (hf : d.arr.failover = some f) (hdone : f.imageDone = true) (hret : d.retiring f.strm = false) :
    d.failoverResume false = d.failoverFails f := by
  simp only [Dev.failoverResume, hf, hdone, hret, Bool.not_true, Bool.not_false, Bool.or_self, Bool.false_eq_true, if_false, if_true]

/-- A stream back at the start of its line (R219 step 5): its channels at the line's positions, its milestone at the line's entry. -/
def Dev.atLineStart (d : Dev) (x : StreamId) : Dev :=
  let d := forEach (List.range 8) d (fun d ch =>
    if d.chanBound x ch then d.setFld (R.STAIR_CHCPOS_POS ch) (d.fld (R.STAIR_CHLPOS_POS ch)) else d)
  let d := ((d.modSt x (fun y => { y with ctRp := y.ctLp })).rewindEdges x).restart x
  (d.setFlag (R.SEQ_SPSTAT_PH x) (d.flag (R.SEQ_LPT_LPH x))).setReg (R.SEQ_RADR x) (d.reg (R.SEQ_LADR x))

theorem failoverResume_restarts (hf : d.arr.failover = some f) (hdone : f.imageDone = true) (hret : d.retiring f.strm = false) :
    d.failoverResume true =
      (d.atLineStart f.strm).failoverOver.recordAs 5 f.strm f.hall.val f.hall.val 127 f.rep [⟨f.hall.val, by omega⟩, 16] := by
  simp only [Dev.failoverResume, hf, hdone, hret, Bool.not_true, Bool.or_self, Bool.false_eq_true, if_false]
  rfl

end Failover

end Sys2Proof.Machine
end

section
/-! The fault record's oldest entry without map records (R225): where it goes, what its bytes are, what it leaves alone. -/

namespace Sys2Proof.Machine

variable {d : Dev} {r : FRec} {rest : List FRec}

/-- A part of the bytes written reads back. -/
theorem bytes_setBytes_part (d : Dev) (a : Nat) (l m n : List Byte) :
    (d.setBytes a (l ++ m ++ n)).bytes (a + l.length) m.length = m := by
  refine List.ext_getElem (by simp [Dev.bytes]) (fun i _ hi => ?_)
  have hin : l.length + i < (l ++ m ++ n).length := by simp only [List.length_append]; omega
  have hget := byte_setBytes_inside (d := d) (a := a) hin
  simp only [Dev.bytes, List.getElem_map, List.getElem_range, Nat.add_assoc, hget]
  rw [List.getElem_append_left (by simp only [List.length_append]; omega), List.getElem_append_right (Nat.le_add_right ..)]
  simp only [Nat.add_sub_cancel_left]

theorem word64_setWord64_same (d : Dev) (a : Nat) (v : BitVec 64) : (d.setWord64 a v).word64 a = v := by
  have hback := bytes_setBytes_same (d := d) (a := a) (l := leBytes 8 v.toNat)
  rw [length_leBytes] at hback
  have hlt : v.toNat < 256 ^ 8 := v.isLt
  rw [Dev.word64, Dev.setWord64, hback, leNat_leBytes, Nat.mod_eq_of_lt hlt, BitVec.ofNat_toNat, BitVec.setWidth_eq]

/-- The entries written so far, which the record's header counts from its first writing on. -/
def Dev.recordCount (d : Dev) : Nat :=
  if bits (d.word64 frBase).toNat 15 0 = 1 then bits (d.word64 frBase).toNat 63 32 else 0

/-- The place of the next entry among the 992. -/
def Dev.recordPlace (d : Dev) : Nat :=
  if d.recordCount = 0 then 0 else (bits (d.word64 frBase).toNat 31 16 + 1) % 992

/-- The bytes of an entry behind its number and its site. -/
def FRec.tail (r : FRec) : List Byte :=
  leBytes 4 r.upset.toNat ++ (leBytes 4 r.ms.toNat ++ (leBytes 2 r.lline.toNat ++ (leBytes 2 r.strm.toNat ++ (leBytes 8 r.time.toNat ++
    (leBytes 4 r.ns.toNat ++ List.replicate 32 0)))))

/-- The 64 bytes of an entry with its number. -/
def FRec.bytes (r : FRec) (n : Nat) : List Byte := leBytes 4 n ++ [r.kind, r.phys, r.log, r.col] ++ r.tail

theorem length_frec_bytes (r : FRec) (n : Nat) : (r.bytes n).length = 64 := by
  simp only [FRec.bytes, FRec.tail, List.length_append, length_leBytes, List.length_replicate, List.length_cons, List.length_nil]

/-- The part with an entry written at its place and counted in the header. -/
def Dev.recordWritten (d : Dev) (r : FRec) : Dev :=
  (d.setBytes (frBase + 0x800 + 64 * d.recordPlace) (r.bytes (d.recordCount + 1))).setWord64 frBase
    (BitVec.ofNat 64 (1 + d.recordPlace * 2 ^ 16 + (d.recordCount + 1) % 2 ^ 32 * 2 ^ 32))

theorem writeRecord_entry (hr : d.arr.frecs = r :: rest) (hm : r.maps = []) (hon : d.domOn 5 = true) :
    d.writeRecord = ({ d with arr := { d.arr with frecs := rest } } : Dev).recordWritten r := by
  simp only [Dev.writeRecord, hr, hm, hon, Bool.not_true, Bool.false_eq_true, if_false, forEach_nil]
  rw [List.append_assoc, List.append_assoc, List.append_assoc, List.append_assoc, List.append_assoc]
  rfl

theorem header_recordWritten (d : Dev) (r : FRec) : (d.recordWritten r).word64 frBase =
    BitVec.ofNat 64 (1 + d.recordPlace * 2 ^ 16 + (d.recordCount + 1) % 2 ^ 32 * 2 ^ 32) :=
  word64_setWord64_same _ _ _

/-- The header lies below every entry. -/
theorem bytes_recordWritten (d : Dev) (r : FRec) {a : Nat} (n : Nat) (ha : frBase + 8 ≤ a) : (d.recordWritten r).bytes a n =
    (d.setBytes (frBase + 0x800 + 64 * d.recordPlace) (r.bytes (d.recordCount + 1))).bytes a n :=
  bytes_setBytes_outside (.inr (by rw [length_leBytes]; exact ha))

theorem number_recordWritten (d : Dev) (r : FRec) :
    ((d.recordWritten r).word32 (frBase + 0x800 + 64 * d.recordPlace)).toNat = (d.recordCount + 1) % 2 ^ 32 := by
  have hpart := bytes_setBytes_part d (frBase + 0x800 + 64 * d.recordPlace) [] (leBytes 4 (d.recordCount + 1))
    ([r.kind, r.phys, r.log, r.col] ++ r.tail)
  rw [List.nil_append, length_leBytes, List.length_nil, Nat.add_zero (frBase + 0x800 + 64 * d.recordPlace), ← List.append_assoc] at hpart
  rw [Dev.word32, bytes_recordWritten d r 4 (by omega), FRec.bytes, hpart, leNat_leBytes, BitVec.toNat_ofNat]
  exact Nat.mod_mod _ _

theorem site_recordWritten (d : Dev) (r : FRec) :
    (d.recordWritten r).bytes (frBase + 0x800 + 64 * d.recordPlace + 4) 4 = [r.kind, r.phys, r.log, r.col] := by
  have hpart := bytes_setBytes_part d (frBase + 0x800 + 64 * d.recordPlace) (leBytes 4 (d.recordCount + 1))
    [r.kind, r.phys, r.log, r.col] r.tail
  rw [length_leBytes] at hpart
  exact (bytes_recordWritten d r 4 (by omega)).trans hpart

theorem byte_recordWritten_outside (d : Dev) (r : FRec) {a : Nat} (hhead : a < frBase ∨ frBase + 8 ≤ a)
    (hentry : a < frBase + 0x800 + 64 * d.recordPlace ∨ frBase + 0x840 + 64 * d.recordPlace ≤ a) :
    (d.recordWritten r).byte a = d.byte a := by
  have hend : frBase + 0x800 + 64 * d.recordPlace + 64 = frBase + 0x840 + 64 * d.recordPlace := Nat.add_right_comm (frBase + 0x800) _ 64
  refine (byte_setBytes_outside ?_).trans (byte_setBytes_outside ?_)
  · rw [length_leBytes]
    exact hhead
  · rw [length_frec_bytes, hend]
    exact hentry

theorem frecs_recordWritten (d : Dev) (r : FRec) : (d.recordWritten r).arr.frecs = d.arr.frecs := by
  simp only [Dev.recordWritten, Dev.setWord64, arr_setBytes]

/-- Settles O35: the reports' recovery, a retirement's three stages, the failover's image and resume, and the record's entry. -/
theorem recoveryProceeds : Obligations.RecoveryProceeds := by
  unfold Obligations.RecoveryProceeds
  intro s
  refine ⟨?reports, ?retirement, ?failover, ?record⟩
  case reports => exact fun reps => run_eq_after (f := fun d => d.upsetRecovery reps) rfl
  case retirement =>
    intro h r
    refine ⟨fun hf hcap hone hidle => ⟨fun hbar => ?waits, fun t hbar => ?bars⟩, fun hf hfree hbar => ?refills,
      fun hf hfree t hbar => ?full, fun x hf hx hgood => ?remaps, fun x hf hx hbad => ?uncorrectable⟩
    case waits => exact run_eq_after (f := fun d => d.beginRetire h) (beginRetire_waits hf hcap hbar hone hidle)
    case bars => exact run_eq_after (f := fun d => d.beginRetire h) (beginRetire_bars hf hcap hone hidle hbar)
    case refills =>
      have hstart := startRefill_starts hf hfree hbar
      rw [arr_erasing] at hstart
      exact run_eq_after (f := fun d => d.startRefill h) hstart
    case full => exact run_eq_after (f := fun d => d.startRefill h) (startRefill_bars hf hfree hbar)
    case remaps => exact run_eq_after (f := fun d => d.refillDone h) (refillDone_remaps hf hx hgood)
    case uncorrectable => exact run_eq_after (f := fun d => d.refillDone h) (refillDone_uncorrectable hf hx hbad)
  case failover =>
    intro f hf
    refine ⟨fun hnew => ⟨?lost, ?loadFails, ?carryFails, ?loaded⟩, fun hdone hret => ⟨?dead, ?resumes⟩⟩
    case lost => exact run_eq_after (f := fun d => d.imageLoaded false) (imageLoaded_failed hf hnew)
    case loadFails =>
      exact fun hbad => run_eq_after (f := fun d => d.imageLoaded true) ((imageLoaded_arrived hf hnew rfl rfl).trans (if_pos hbad))
    case carryFails =>
      exact fun hgood hbad => run_eq_after (f := fun d => d.imageLoaded true)
        ((imageLoaded_arrived hf hnew rfl rfl).trans ((if_neg (ne_true_of_eq_false hgood)).trans (if_pos hbad)))
    case loaded =>
      exact fun hgood hcarry => run_eq_after (f := fun d => d.imageLoaded true)
        ((imageLoaded_arrived hf hnew rfl rfl).trans ((if_neg (ne_true_of_eq_false hgood)).trans (if_neg (ne_true_of_eq_false hcarry))))
    case dead => exact run_eq_after (f := fun d => d.failoverResume false) (failoverResume_failed hf hdone hret)
    case resumes => exact run_eq_after (f := fun d => d.failoverResume true) (failoverResume_restarts hf hdone hret)
  case record =>
    intro r rest hr hm hon
    exact ⟨_, run_eq_after (f := Dev.writeRecord) (writeRecord_entry hr hm hon), frecs_recordWritten _ r, header_recordWritten _ r,
      number_recordWritten _ r, site_recordWritten _ r, fun a hhead hentry => byte_recordWritten_outside _ r hhead hentry⟩

end Sys2Proof.Machine
end

section
/-! Firmware's commands: the command in a queue, its register writes, and how each ends (R223, R231, R366, R401, R419, R423). -/

namespace Sys2Proof.Machine

variable {d w : Dev} {q : Fin 16} {e : Sqe}

theorem firmware_runs {c : HostCmd} (hc : (d.hostQ q).cmd = some c) (hfw : c.fw = true) {o : Byte} (ho : c.e.opc = o) (g : Sqe → Dev) :
    d.firmware q o.toNat g = g c.e := by
  subst ho
  simp only [Dev.firmware, hc, hfw, Bool.true_and, decide_true, if_true]

/-- A write of a register that is answered OK goes on. -/
theorem fwWrite_answered {a n : Nat} {l : List Byte} (hn : n < 2 ^ 32) (hw : d.write fwWho a (leBytes 4 n) = .answered 0 l w)
    (g : Dev → Dev) : d.fwWrite q a (BitVec.ofNat 32 n) g = g w := by
  have hword : (BitVec.ofNat 32 n).toNat = n := (BitVec.toNat_ofNat n 32).trans (Nat.mod_eq_of_lt hn)
  simp only [Dev.fwWrite, hword, hw, if_true]

/-! PLAN. -/

section Plan

variable {p : PlanData}

/-- The lines that a failover's 96 µs take, rounded up (R223). -/
def planLines (p : PlanData) : Nat := (96000000 + p.period - 1) / p.period

/-- A hall holds positions, but so few that R227 refuses the plan. -/
def planHallShort (p : PlanData) : Bool :=
  (List.range 16).any (fun h => 1 ≤ blockPositions p h && blockPositions p h ≤ 4096 * ((p.perHall + 4095) / 4096 - 1))

/-- The margin loop is enabled with a guard below two spans, or with a target too near to its guard (R231). -/
def planGovBad (p : PlanData) : Bool :=
  p.govEn && (decide (p.guard16 * 16000 < 2 * p.spanTime) || decide (((p.target16 : Int) - p.guard16) * 16000 * 32 < p.period))

/-- The checks of R223 and R231 in the order of their codes. -/
theorem planCause_eq (d : Dev) (p : PlanData) : d.planCause p = firstCause
    [(1, p.foen && decide (p.lead < planLines p + 2)), (2, p.foen && decide ((p.period : Int) - p.work < 2 * p.spanTime)),
     (3, p.foen && decide (1000 * ((p.period : Int) - p.work) < ((planLines p + 1) * p.work : Nat))),
     (4, p.foen && decide (p.halls &&& ~~~d.arr.verified ≠ 0)), (5, headsBad p), (6, planHallShort p), (7, planGovBad p),
     (8, p.foen && d.flag R.SEQ_RSTAT_LNKF)] := rfl

theorem planCause_lead (hfo : p.foen = true) (hlead : p.lead < planLines p + 2) : d.planCause p = some 1 := by
  rw [planCause_eq, hfo, decide_eq_true hlead]
  rfl

theorem planCause_span (hfo : p.foen = true) (hlead : planLines p + 2 ≤ p.lead) (hspan : (p.period : Int) - p.work < 2 * p.spanTime) :
    d.planCause p = some 2 := by
  rw [planCause_eq, hfo, decide_eq_false hlead.not_gt, decide_eq_true hspan]
  rfl

section Timely

variable (hfo : p.foen = true) (hlead : planLines p + 2 ≤ p.lead) (hspan : 2 * (p.spanTime : Int) ≤ p.period - p.work)
  (hcatch : (planLines p + 1 : Int) * p.work ≤ 1000 * ((p.period : Int) - p.work))
include hfo hlead hspan hcatch

/-- A plan whose lead, slack and catching up suffice for a failover: its other checks decide. -/
theorem planCause_timely : d.planCause p = firstCause
    [(4, decide (p.halls &&& ~~~d.arr.verified ≠ 0)), (5, headsBad p), (6, planHallShort p), (7, planGovBad p),
      (8, d.flag R.SEQ_RSTAT_LNKF)] := by
  have hcatch' : ¬1000 * ((p.period : Int) - p.work) < ((planLines p + 1) * p.work : Nat) := by
    push_cast
    exact hcatch.not_gt
  rw [planCause_eq, hfo, decide_eq_false hlead.not_gt, decide_eq_false hspan.not_gt, decide_eq_false hcatch']
  rfl

theorem planCause_unverified (hver : p.halls &&& ~~~d.arr.verified ≠ 0) : d.planCause p = some 4 := by
  rw [planCause_timely hfo hlead hspan hcatch, decide_eq_true hver]
  rfl

theorem planCause_linkFault (hver : p.halls &&& ~~~d.arr.verified = 0) (hheads : headsBad p = false) (hhalls : planHallShort p = false)
    (hgov : planGovBad p = false) : d.planCause p = if d.flag R.SEQ_RSTAT_LNKF then some 8 else none := by
  rw [planCause_timely hfo hlead hspan hcatch, decide_eq_false (not_not.mpr hver), hheads, hhalls, hgov]
  cases d.flag R.SEQ_RSTAT_LNKF <;> rfl

end Timely

section Fixed

variable (hfo : p.foen = false)
include hfo

theorem planCause_heads (hheads : headsBad p = true) : d.planCause p = some 5 := by
  rw [planCause_eq, hfo, hheads]
  rfl

theorem planCause_governor (hheads : headsBad p = false) (hhalls : planHallShort p = false) (hgov : planGovBad p = true) :
    d.planCause p = some 7 := by
  rw [planCause_eq, hfo, hheads, hhalls, hgov]
  rfl

theorem planCause_passes (hheads : headsBad p = false) (hhalls : planHallShort p = false) (hgov : planGovBad p = false) :
    d.planCause p = none := by
  rw [planCause_eq, hfo, hheads, hhalls, hgov]
  rfl

end Fixed

end Plan

/-! MODE and NVSWR. -/

theorem hostMode_refused
    (href : ((d.setFlag R.PWR_MSTAT_REF false).modeRequest 0 ((e.params.getD 0 0).toNat % 16)).flag R.PWR_MSTAT_REF = true) :
    d.hostMode q e = ((d.setFlag R.PWR_MSTAT_REF false).modeRequest 0 ((e.params.getD 0 0).toNat % 16)).fwDone q 5
      (((d.setFlag R.PWR_MSTAT_REF false).modeRequest 0 ((e.params.getD 0 0).toNat % 16)).fld R.PWR_MSTAT_RCAUSE) :=
  if_pos href

theorem hostMode_starts
    (href : ((d.setFlag R.PWR_MSTAT_REF false).modeRequest 0 ((e.params.getD 0 0).toNat % 16)).flag R.PWR_MSTAT_REF = false) :
    d.hostMode q e = (if d.flag R.PWR_MSTAT_REF
      then ((d.setFlag R.PWR_MSTAT_REF false).modeRequest 0 ((e.params.getD 0 0).toNat % 16)).setFlag R.PWR_MSTAT_REF true
      else (d.setFlag R.PWR_MSTAT_REF false).modeRequest 0 ((e.params.getD 0 0).toNat % 16)).fwDone q 0 0 :=
  if_neg (ne_true_of_eq_false href)

section Nvs

variable {off : Nat} {x y : Sweep × Dev} (hx : d.sweepRead fwWho e.raddr.toNat e.len.toNat = x) (hread : x.1.stuck = false)
include hx hread

theorem nvsWrite_readFails (hst : x.1.st ≠ 0) : d.nvsWrite q e off = x.2.fwDone q 3 x.1.st.toNat := by
  simp only [Dev.nvsWrite, hx, hread, hst, Bool.false_eq_true, if_false, ne_eq, not_false_eq_true, if_true]

theorem nvsWrite_ends (hst : x.1.st = 0) (hy : x.2.sweepWrite fwWho (0x20000000 + off) x.1.data = y) (hwrite : y.1.stuck = false) :
    d.nvsWrite q e off = if y.1.st = 0 then y.2.fwDone q 0 0 else y.2.fwDone q 3 y.1.st.toNat := by
  simp only [Dev.nvsWrite, hx, hread, hst, hy, hwrite, Bool.false_eq_true, if_false, ne_eq, not_true_eq_false, ite_not]

end Nvs

/-! ATTEST. -/

theorem attest_short (sig : List Byte) (hlen : e.len.toNat < 3392) : d.attest q e sig = d.fwFinish q 2 0 3392 := if_pos hlen

theorem attest_asks (sig : List Byte) (hlen : 3392 ≤ e.len.toNat) (hq : q ∉ d.sec.sign) : d.attest q e sig = d.startSign q := by
  have hout : d.sec.sign.contains q = false := by simpa using hq
  unfold Dev.attest
  rw [if_neg hlen.not_gt, hout]
  rfl

theorem startSign_joins (hq : q ∉ d.sec.sign) : d.startSign q = ({ d with sec := { d.sec with
      sign := d.sec.sign ++ [q], serve := if d.sec.sign = [] then !d.sec.verifs.isEmpty else d.sec.serve } } : Dev).setFlag
    R.SEC_STAT_BUSY true := by
  have hout : d.sec.sign.contains q = false := by simpa using hq
  simp only [Dev.startSign, hout, Dev.modSec, List.isEmpty_iff, Bool.false_eq_true, if_false]

/-- The part with the timekeeping count read. -/
def Dev.timeRead (d : Dev) : Dev :=
  { d with free := d.free + 1, pow := { d.pow with aonTime := d.pow.aonTime + Config.freeWord d.free } }

/-- Reading the time changes nothing that a report says. -/
theorem reportBody_timeRead (d : Dev) (e : Sqe) (t : BitVec 64) : d.timeRead.reportBody e t = d.reportBody e t := rfl

theorem attest_reports (sig : List Byte) (hlen : 3392 ≤ e.len.toNat) (hq : d.sec.sign.head? = some q)
    (hstep : d.fld R.SEC_STAT_SSTEP = 120) : d.attest q e sig =
      ((d.timeRead.respond 0 (d.reportBody e d.timeRead.pow.aonTime ++ (reportBlock sig).bytes)).endSign).fwDone q 0 0 := by
  have hin : d.sec.sign.contains q = true := List.contains_iff_mem.mpr (List.mem_of_head? hq)
  rw [← reportBody_timeRead]
  unfold Dev.attest
  simp only [hlen.not_gt, hin, hq, hstep, Bool.not_true, decide_true, Bool.and_self, Bool.false_eq_true, if_false, if_true]
  rfl

/-! HIMG, FABLOAD and PATCH. -/

theorem hostHimg_written {l : List Byte} (hw : (d.setFlag R.SEQ_HIMGCMD_ERR false).write fwWho R.SEQ_HIMGCMD
      (leBytes 4 (2 ^ 31 + (e.params.getD 0 0).toNat % 4 * 2 ^ 8 + (e.params.getD 1 0).toNat % 16)) = .answered 0 l w) :
    d.hostHimg q e = if w.flag R.SEQ_HIMGCMD_ERR then w.fwDone q 5 (w.fld R.SEQ_HIMGCMD_ECAUSE) else w :=
  fwWrite_answered (by omega) hw _

section Source

variable {u : Dev} {l l' : List Byte} (hlow : e.raddr.toNat < 2 ^ 32) (halign : e.raddr.toNat % 8 = 0)
include hlow halign

theorem sourceOk_of_aligned : sourceOk e = true := by
  simp only [sourceOk, hlow, halign, decide_true, Bool.and_self]

theorem hostFabload_written (hu : d.write fwWho R.BYW_CFGSRC (leBytes 4 e.raddr.toNat) = .answered 0 l' u)
    (hw : (u.setFlag R.BYW_CFGSTAT_ERR false).write fwWho R.BYW_CFGCMD
      (leBytes 4 (if e.params.getD 0 0 = 1 then 3 + (e.params.getD 1 0).toNat % 8 * 8 else 1)) = .answered 0 l w) :
    d.hostFabload q e = if w.flag R.BYW_CFGSTAT_ERR then w.fwDone q 5 (w.fld R.BYW_CFGSTAT_ECAUSE) else w := by
  have hword : (if e.params.getD 0 0 = 1 then 3 + (e.params.getD 1 0).toNat % 8 * 8 else 1) < 2 ^ 32 := by split <;> omega
  unfold Dev.hostFabload
  rw [sourceOk_of_aligned hlow halign]
  exact (fwWrite_answered hlow hu _).trans (fwWrite_answered hword hw _)

theorem hostPatch_written (hu : d.write fwWho R.SEQ_PLDSRC (leBytes 4 e.raddr.toNat) = .answered 0 l' u)
    (hw : (u.setFlag R.SEQ_PLDSTAT_ERR false).write fwWho R.SEQ_PLDCMD (leBytes 4 (1 + (e.params.getD 0 0).toNat % 2 * 2)) =
      .answered 0 l w) :
    d.hostPatch q e = if w.flag R.SEQ_PLDSTAT_ERR then w.fwDone q 5 (w.fld R.SEQ_PLDSTAT_ECAUSE) else w := by
  unfold Dev.hostPatch
  rw [sourceOk_of_aligned hlow halign]
  exact (fwWrite_answered hlow hu _).trans (fwWrite_answered (by omega) hw _)

end Source

/-! The commands' steps. -/

section Commands

variable {s : State} {c : HostCmd} (hc : (s.dev.hostQ q).cmd = some c) (hfw : c.fw = true)
include hc hfw

theorem run_firmware {o : Byte} (ho : c.e.opc = o) (g : Dev → Sqe → Dev) {t : Dev} (hg : g s.dev c.e = t) :
    s.run (fun d => d.firmware q o.toNat (g d)) = s.after t :=
  run_eq_after ((firmware_runs hc hfw ho _).trans hg)

/-- How firmware ends PLAN. -/
def Dev.planEnd (d : Dev) (q : Fin 16) (cause : Option Nat) : Dev :=
  match cause with
  | some c => d.fwDone q 5 c
  | none => d.fwDone q 0 0

theorem exec_plan_ends {p : PlanData} (ho : c.e.opc = 0x10) {cause : Option Nat} (hcause : s.dev.planCause p = cause) :
    exec (.plan q p) s = s.after (s.dev.planEnd q cause) :=
  run_firmware hc hfw ho (fun d _ => d.planEnd q (d.planCause p)) (congrArg (s.dev.planEnd q) hcause)

end Commands

/-- Settles O47: each command by its check, its request, its copy, its signature or its registers' writes. -/
theorem firmwareCommandsRun : Obligations.FirmwareCommandsRun := by
  unfold Obligations.FirmwareCommandsRun
  intro s q c d e ends hc hfw
  refine ⟨fun ho p => ?plan, fun ho => ?mode, fun ho off => ?nvswr, fun ho sig => ?attest, fun w l l' => ?registers⟩
  case plan =>
    intro lines bad gov
    refine ⟨fun hfo hlead => ?lead, fun hfo hlead hspan => ?span, fun hfo hlead hspan hcatch => ⟨fun hver => ?unverified,
      fun hver hbad hgov => ?lateChecks⟩, fun hfo => ⟨fun hheads => ?heads, fun hbad hgov => ?governor, fun hbad hgov => ?passes⟩⟩
    case lead => exact exec_plan_ends hc hfw ho (planCause_lead hfo hlead)
    case span => exact exec_plan_ends hc hfw ho (planCause_span hfo hlead hspan)
    case unverified => exact exec_plan_ends hc hfw ho (planCause_unverified hfo hlead hspan hcatch hver)
    case lateChecks =>
      obtain ⟨hheads, hhalls⟩ := Bool.or_eq_false_iff.mp hbad
      have hcause := planCause_linkFault hfo hlead hspan hcatch hver hheads hhalls hgov
      refine (exec_plan_ends hc hfw ho hcause).trans ?_
      cases d.flag R.SEQ_RSTAT_LNKF <;> rfl
    case heads => exact exec_plan_ends hc hfw ho (planCause_heads hfo hheads)
    case governor =>
      obtain ⟨hheads, hhalls⟩ := Bool.or_eq_false_iff.mp hbad
      exact exec_plan_ends hc hfw ho (planCause_governor hfo hheads hhalls hgov)
    case passes =>
      obtain ⟨hheads, hhalls⟩ := Bool.or_eq_false_iff.mp hbad
      exact exec_plan_ends hc hfw ho (planCause_passes hfo hheads hhalls hgov)
  case mode =>
    exact ⟨fun href => run_firmware hc hfw ho (fun d e => d.hostMode q e) (hostMode_refused href),
      fun href => run_firmware hc hfw ho (fun d e => d.hostMode q e) (hostMode_starts href)⟩
  case nvswr =>
    exact fun hread => ⟨fun hst => run_firmware hc hfw ho (fun d e => d.nvsWrite q e off.toNat) (nvsWrite_readFails rfl hread hst),
      fun hst hwrite => run_firmware hc hfw ho (fun d e => d.nvsWrite q e off.toNat) (nvsWrite_ends rfl hread hst rfl hwrite)⟩
  case attest =>
    refine ⟨fun hlen => ?short, fun hlen hq => ?asks, fun hlen hq hstep => ?reports⟩
    case short => exact run_firmware hc hfw ho (fun d e => d.attest q e sig) (attest_short sig hlen)
    case asks => exact run_firmware hc hfw ho (fun d e => d.attest q e sig) ((attest_asks sig hlen hq).trans (startSign_joins hq))
    case reports => exact run_firmware hc hfw ho (fun d e => d.attest q e sig) (attest_reports sig hlen hq hstep)
  case registers =>
    refine ⟨fun ho hw => ?himg, fun ho hlow halign u hu hw => ?fabload, fun ho hlow halign u hu hw => ?patch⟩
    case himg => exact run_firmware hc hfw ho (fun d e => d.hostHimg q e) (hostHimg_written hw)
    case fabload => exact run_firmware hc hfw ho (fun d e => d.hostFabload q e) (hostFabload_written hlow halign hu hw)
    case patch => exact run_firmware hc hfw ho (fun d e => d.hostPatch q e) (hostPatch_written hlow halign hu hw)

end Sys2Proof.Machine
end

section
/-! DRAM's training and rails (R371, R465), and the Ramufin ports: what training, each kind of frame, a retry and the wait limit leave
(R241, R372 to R375, R390). -/

namespace Sys2Proof.Machine

variable {d : Dev}

/-! The DRAM controller. -/

theorem ddrTrained_pass (ht : d.ddr = .training) (h3 : d.domOn 3 = true) : d.ddrTrained true =
    (({ d with ddr := .ready } : Dev).setFlag R.DDR_STAT_READY true).setFld R.DDR_CFG_USIZE
      (2 * [2, 4, 8].getD (d.fld R.DDR_CFG_DENS) 2 * 4 * 7 / 8) := by
  rw [Dev.ddrTrained, ht, h3]
  rfl

theorem ddrTrained_fail (ht : d.ddr = .training) (h3 : d.domOn 3 = true) : d.ddrTrained false = d.ddrFail := by
  rw [Dev.ddrTrained, ht, h3]
  rfl

theorem ddrPgTimeout_waitPg (h : d.ddr = .waitPg) : d.ddrPgTimeout = d.ddrFail := by
  rw [Dev.ddrPgTimeout, h]

theorem ddrPgTimeout_waitFall (h : d.ddr = .waitFall) : d.ddrPgTimeout = { d with ddr := .off } := by
  rw [Dev.ddrPgTimeout, h]

/-- VDD2L has risen: the sequence of the rails goes on to training where EN asks for it (R371, R465). -/
theorem ddrPg_rises (h : d.ddr = .waitPg) : d.ddrPg true = { d with
    pow := { d.pow with ddrPg := true }, ddr := if d.flag R.DDR_CFG_EN then .training else .powered } := by
  simp only [Dev.ddrPg, ddr_modPow, h]
  rfl

theorem ddrPg_falls (h : d.ddr = .waitFall) : d.ddrPg false = { d with pow := { d.pow with ddrPg := false }, ddr := .off } := by
  simp only [Dev.ddrPg, ddr_modPow, h]
  rfl

/-! A port's training (R373, R390). -/

variable {p : Fin 4}

theorem linkTrained_xtb (hx : d.xtbRef = true) (chip : BitVec 3) (edge : Bool) : d.linkTrained p chip edge = d := by
  rw [Dev.linkTrained, hx, Bool.or_true]
  rfl

/-- The port is up with what its partner tells of itself. -/
theorem linkTrained_comesUp (ht : d.portTrains p = true) (hx : d.xtbRef = false) (chip : BitVec 3) (edge : Bool) :
    d.linkTrained p chip edge =
      (((d.setFlag (R.LINK_PSTAT_UP p.val) true).setFld (R.LINK_PSTAT_PCHIP p.val) chip.toNat).setFlag (R.LINK_PSTAT_PEDGE p.val)
        edge).modLink (fun l => { l with training := setBit l.training p.val false, fails := l.fails.set p 0 }) := by
  rw [Dev.linkTrained, ht, hx]
  rfl

theorem linkRetry_trains (ht : d.portTrains p = true) : d.linkRetry p = d.setFlag (R.LINK_PSTAT_TFAIL p.val) true := if_pos ht

/-! Tokens (R241, R373). -/

/-- A token in sequence joins a buffer with room; any other one only counts as received. -/
theorem tokenFrame_open (ho : d.edgeOpen p = true) (express : Bool) (n : BitVec 16) (x : BitVec 512) :
    d.tokenFrame express p n x =
      (let good := d.goodFrames p (if express then 2 else 1)
       let e := d.edgePort express p
       if (n - e.base).toNat = e.buf.length ∧ e.buf.length < (if express then 512 else 4096) then
         good.setEdgePort express p { e with buf := e.buf ++ [x] }
       else good) := by
  simp only [Dev.tokenFrame, ho, Bool.not_true, Bool.false_eq_true, if_false, Bool.and_eq_true, decide_eq_true_eq]
  rfl

/-! Road frames (R372, R374). -/

section Up

variable (hup : d.portUp p = true)
include hup

theorem linkRequest_up (w : Bool) (pk : Packet) : d.linkRequest p w pk =
    (let a := pk.addr.toNat
     let n := (a - 0x2000000000) / 0x100000000
     if ¬(0x2000000000 ≤ a ∧ a < 0x2800000000) then (d.goodFrame p).respond 1 []
     else if n = d.chipId then
       (d.goodFrame p).request (if w then .wr else .rd) { pk with src := 0x0A, sys := false, sec := false }
     else if (d.devicePort n).isSome then d.goodFrame p else (d.goodFrame p).respond 1 []) := by
  simp only [Dev.linkRequest, hup, Bool.not_true, Bool.false_eq_true, if_false, Bool.not_eq_true', Bool.and_eq_false_iff,
    decide_eq_false_iff_not, not_and_or]
  rfl

/-- No device's window holds the address: DECODE. -/
theorem linkRequest_outside {w : Bool} {pk : Packet} (h : ¬(0x2000000000 ≤ pk.addr.toNat ∧ pk.addr.toNat < 0x2800000000)) :
    d.linkRequest p w pk = (d.goodFrame p).respond 1 [] :=
  (linkRequest_up hup w pk).trans (if_pos h)

theorem linkRequest_inside {w : Bool} {pk : Packet} (hlo : 0x2000000000 ≤ pk.addr.toNat) (hhi : pk.addr.toNat < 0x2800000000) :
    d.linkRequest p w pk =
      if (pk.addr.toNat - 0x2000000000) / 0x100000000 = d.chipId then
        (d.goodFrame p).request (if w then .wr else .rd) { pk with src := 0x0A, sys := false, sec := false }
      else if (d.devicePort ((pk.addr.toNat - 0x2000000000) / 0x100000000)).isSome then d.goodFrame p
      else (d.goodFrame p).respond 1 [] :=
  (linkRequest_up hup w pk).trans (if_neg (not_not.mpr ⟨hlo, hhi⟩))

/-- The response goes on to the requester that waits for it at node 0x0A. -/
theorem linkResponse_awaited {tid : BitVec 12} {x : OpenReq}
    (hx : d.road.waiting.find? (fun x => x.node = 0x0A && x.tid = tid) = some x) (st : BitVec 4) (l : List Byte) :
    d.linkResponse p tid st l =
      ({ d.goodFrame p with road := { d.road with waiting := d.road.waiting.erase x } } : Dev).sendResp
        { x with status := st, data := l } := by
  have hroad : (d.goodFrame p).road = d.road := road_modLink d _
  simp only [Dev.linkResponse, hup, Bool.not_true, Bool.false_eq_true, if_false, hroad, hx]

/-! Retries (R372). -/

theorem badFrame_retries (h8 : d.link.fails[p] ≠ 8) : d.badFrame p =
    (d.modLink (fun l => { l with fails := l.fails.set p (l.fails[p] + 1) })).addFld (R.LINK_PSTAT_RETRY p.val) 1 := by
  rw [Dev.badFrame, hup, if_neg h8]
  rfl

theorem badFrame_goesDown (h8 : d.link.fails[p] = 8) : d.badFrame p =
    ((d.setFlag (R.LINK_PSTAT_UP p.val) false).setFlag (R.LINK_PSTAT_PEDGE p.val) false).modLink
      (fun l => { l with fails := l.fails.set p 0, training := setBit l.training p.val true }) := by
  rw [Dev.badFrame, hup, if_pos h8]
  rfl

end Up

/-! The wait limit (R375). -/

theorem edgeTimeout_waits {x : StreamId} (h4 : d.domOn 4 = true) (hlim : d.fld R.LINK_EWAIT_LIM ≠ 0) (hw : d.waitsAt p x = true) :
    d.edgeTimeout p x =
      ((d.setFlag (R.LINK_PSTAT_ETO p.val) true).raise (0xD8 + p.val)).unrecovered x (d.phys (d.portHall p x).val) 127 0 := by
  refine if_pos ?_
  rw [h4, decide_eq_true hlim, hw]
  rfl

/-- Settles O48: the DRAM controller's commands by its phase, a port's by its training, its edge channel or its service, and the wait
that has passed its limit. That DQS_RETRAIN leaves the part as it was, and that an express token counts as two frames, are the model's
choices (log entries 63 and 72). -/
theorem linksAndDramRun : Obligations.LinksAndDramRun := by
  unfold Obligations.LinksAndDramRun
  intro s p d frames good failed
  refine ⟨fun ht h3 => ⟨?passes, ?fails⟩, fun _ => ?dqs, fun hw => ⟨?railLate, ?railUp⟩, fun hw => ⟨?fallLate, ?railDown⟩,
    fun ht => ⟨fun hx chip edge => ?xtb, fun hx chip edge => ?comesUp, ?retrains⟩,
    fun ho => ⟨fun n x => ?news, fun n x => ?express⟩,
    fun hup => ⟨fun w pk => ⟨fun hout => ?outside, fun hlo hhi hown => ?own, fun hlo hhi hother => ?other⟩,
      fun tid st l x hx => ?response, fun n cred => ?credit, fun chip edge => ?control, fun h8 => ?retries, fun h8 => ?goesDown⟩,
    fun x h4 hlim hwait => ?timeout⟩
  case passes => exact run_eq_after (f := fun d => d.ddrTrained true) (ddrTrained_pass ht h3)
  case fails => exact run_eq_after (f := fun d => d.ddrTrained false) (ddrTrained_fail ht h3)
  case dqs => exact run_eq_after (f := id) rfl
  case railLate => exact run_eq_after (f := Dev.ddrPgTimeout) (ddrPgTimeout_waitPg hw)
  case railUp => exact run_eq_after (f := fun d => d.ddrPg true) (ddrPg_rises hw)
  case fallLate => exact run_eq_after (f := Dev.ddrPgTimeout) (ddrPgTimeout_waitFall hw)
  case railDown => exact run_eq_after (f := fun d => d.ddrPg false) (ddrPg_falls hw)
  case xtb => exact run_eq_after (f := fun d => d.linkTrained p chip edge) (linkTrained_xtb hx chip edge)
  case comesUp => exact run_eq_after (f := fun d => d.linkTrained p chip edge) (linkTrained_comesUp ht hx chip edge)
  case retrains => exact run_eq_after (f := fun d => d.linkRetry p) (linkRetry_trains ht)
  case news => exact run_eq_after (f := fun d => d.tokenFrame false p n (x.setWidth 512)) (tokenFrame_open ho false n _)
  case express => exact run_eq_after (f := fun d => d.tokenFrame true p n x) (tokenFrame_open ho true n x)
  case outside => exact run_eq_after (f := fun d => d.linkRequest p w pk) (linkRequest_outside hup hout)
  case own => exact run_eq_after (f := fun d => d.linkRequest p w pk) ((linkRequest_inside hup hlo hhi).trans (if_pos hown))
  case other => exact run_eq_after (f := fun d => d.linkRequest p w pk) ((linkRequest_inside hup hlo hhi).trans (if_neg hother))
  case response => exact run_eq_after (f := fun d => d.linkResponse p tid st l) (linkResponse_awaited hup hx st l)
  case credit => exact run_eq_after (if_pos hup)
  case control => exact run_eq_after (if_pos hup)
  case retries => exact run_eq_after (f := fun d => d.badFrame p) (badFrame_retries hup h8)
  case goesDown => exact run_eq_after (f := fun d => d.badFrame p) (badFrame_goesDown hup h8)
  case timeout => exact run_eq_after (f := fun d => d.edgeTimeout p x) (edgeTimeout_waits h4 hlim hwait)

end Sys2Proof.Machine
end

section
/-! A core's instructions as commands: one that runs leaves the part with its effect, one that is not executed with its trap (R245,
R251, R253, R255, R257). -/

namespace Sys2Proof.Machine

variable {s : State} {d : Dev} {c : CoreId} {p : Pred} {ps qs : List PReg} {ds es : List DReg} {n : Names} {f : Dev → Dev}

/-- Setting a bit leaves the others alone. -/
theorem getLsbD_setBit_ne {w : Nat} (v : BitVec w) {i j : Nat} (b : Bool) (h : j ≠ i) :
    (setBit v i b).getLsbD j = v.getLsbD j := by
  have hbit : (BitVec.ofNat w (2 ^ i)).getLsbD j = false := by
    rw [BitVec.getLsbD_ofNat, Nat.testBit_two_pow_of_ne h.symm, Bool.and_false]
  by_cases hj : j < w
  · unfold setBit
    cases b
    · rw [if_neg Bool.false_ne_true, BitVec.getLsbD_and, BitVec.getLsbD_not, hbit, decide_eq_true hj, Bool.not_false, Bool.and_true,
        Bool.and_true]
    · rw [if_pos rfl, BitVec.getLsbD_or, hbit, Bool.or_false]
  · rw [BitVec.getLsbD_of_ge _ _ (not_lt.mp hj), BitVec.getLsbD_of_ge _ _ (not_lt.mp hj)]

/-! The registers that an instruction names. -/

theorem pends_mono {k : CoreState} (hps : ps ⊆ qs) (hds : ds ⊆ es) (h : k.pends qs es = false) : k.pends ps ds = false := by
  simp only [CoreState.pends, Bool.or_eq_false_iff, List.any_eq_false] at h ⊢
  obtain ⟨hp, hd⟩ := h
  exact ⟨fun x hx => hp x (hps hx), fun x hx => hd x (hds hx)⟩

theorem Dev.Meets32.mono (h : d.Meets32 c p qs es) (hps : ps ⊆ qs) (hds : ds ⊆ es) : d.Meets32 c p ps ds := by
  obtain ⟨hready, hlow, hhigh, hpend⟩ := h
  exact ⟨hready, hlow, hhigh, pends_mono (List.cons_subset_cons _ hps) hds hpend⟩

theorem Dev.Runs32.mono (h : d.Runs32 c p qs es) (hps : ps ⊆ qs) (hds : ds ⊆ es) : d.Runs32 c p ps ds :=
  ⟨h.1.mono hps hds, h.2⟩

/-! An instruction that executes. -/

theorem run_op16 {e : Dev} (h : s.dev.Runs16 c ps ds) (hf : f s.dev = e) :
    s.run (fun v => v.op16 c { ps := ps, ds := ds } f) = s.after e :=
  run_eq_after ((op16_runs h).trans hf)

theorem run_op32 {e : Dev} (h : s.dev.Runs32 c p n.ps n.ds) (hf : f s.dev = e) (hlegal : n.legal = true := by rfl)
    (huser : n.sysOnly = false := by rfl) : s.run (fun v => v.op32 c p n f) = s.after e :=
  run_eq_after ((op32_runs h hlegal (fun hs => absurd hs (by simp [huser]))).trans hf)

theorem run_short {g : CoreState → CoreState} (h : s.dev.Runs16 c [] ds) :
    s.run (fun v => v.short c { ds := ds } g) = s.after (s.dev.setCo c ((g (s.dev.co c)).advance 2 1)) :=
  run_op16 h rfl

theorem run_long {g : CoreState → CoreState} {cycles : Nat} (h : s.dev.Runs32 c p n.ps n.ds) (hlegal : n.legal = true := by rfl)
    (huser : n.sysOnly = false := by rfl) :
    s.run (fun v => v.long c p n cycles g) = s.after (s.dev.setCo c ((g (s.dev.co c)).advance 4 cycles)) :=
  run_op32 h rfl hlegal huser

end Sys2Proof.Machine
end

section
/-! The register instructions of the cores: ALU, moves and address arithmetic, compares and predicates (R249, R252, R253, R256). -/

namespace Sys2Proof.Machine

/-- The register operations of two forms, with what they compute. -/
def aluSamples : List ((CoreId → AluForm → Instr) × (Word → Word → Word)) :=
  [(Instr.coreAdd, fun a b => a + b), (Instr.coreSub, fun a b => a - b), (Instr.coreAnd, fun a b => a &&& b),
    (Instr.coreOr, fun a b => a ||| b), (Instr.coreXor, fun a b => a ^^^ b), (Instr.coreShl, fun a b => a <<< (b.toNat % 64)),
    (Instr.coreShru, fun a b => a >>> (b.toNat % 64)), (Instr.coreShrs, fun a b => a.sshiftRight (b.toNat % 64))]

theorem exec_aluSample {e : (CoreId → AluForm → Instr) × (Word → Word → Word)} (he : e ∈ aluSamples) (c : CoreId) (f : AluForm)
    (s : State) : exec (e.1 c f) s = s.run (fun d => d.alu c f e.2) := by
  fin_cases he <;> rfl

/-- Settles O1: each operation is the shared ALU instruction, whose two forms change Dd alone. -/
theorem coreAluComputes : Obligations.CoreAluComputes := by
  unfold Obligations.CoreAluComputes
  intro e he s c
  refine ⟨fun rd rs h => ?_, fun p rd rs rt h => ?_⟩
  · rw [exec_aluSample he]
    exact run_short h
  · rw [exec_aluSample he]
    exact run_long h

/-- The register operations that have a 32-bit form alone. -/
def aluLongSamples : List ((CoreId → Pred → DReg → DReg → DReg → Instr) × (Word → Word → Word)) :=
  [(Instr.coreAndn, fun a b => a &&& ~~~b), (Instr.coreRol, fun a b => a.rotateLeft (b.toNat % 32)),
    (Instr.coreMins, fun a b => if a.toInt ≤ b.toInt then a else b), (Instr.coreMaxs, fun a b => if a.toInt ≤ b.toInt then b else a),
    (Instr.coreMinu, fun a b => if a.toNat ≤ b.toNat then a else b), (Instr.coreMaxu, fun a b => if a.toNat ≤ b.toNat then b else a)]

/-- The rotate takes bits [5:0] of its operand modulo 32 (log entry 4). -/
theorem opRol_eq (a b : Word) : opRol a b = a.rotateLeft (b.toNat % 32) := by
  unfold opRol shiftBy
  congr 1
  omega

theorem exec_aluLongSample {e : (CoreId → Pred → DReg → DReg → DReg → Instr) × (Word → Word → Word)} (he : e ∈ aluLongSamples)
    (c : CoreId) (p : Pred) (rd rs rt : DReg) (s : State) :
    exec (e.1 c p rd rs rt) s = s.run (fun d => d.alu3 c p rd rs rt e.2) := by
  have hrol : opRol = fun a b => a.rotateLeft (b.toNat % 32) := funext₂ opRol_eq
  fin_cases he
  · rfl
  · exact congrArg (fun op => s.run (fun d => d.alu3 c p rd rs rt op)) hrol
  · rfl
  · rfl
  · rfl
  · rfl

/-- Settles O2: each operation is the shared three-register instruction. -/
theorem coreAluLongComputes : Obligations.CoreAluLongComputes := by
  unfold Obligations.CoreAluLongComputes
  intro e he s c p rd rs rt h
  rw [exec_aluLongSample he]
  exact run_long h

/-- Settles O3: each instruction works in the registers of its core alone. -/
theorem coreMovesAndImmediates : Obligations.CoreMovesAndImmediates := by
  unfold Obligations.CoreMovesAndImmediates
  intro s c k to16 to32
  refine ⟨fun d r h => ⟨?mov, ?not, ?neg⟩, fun a r h => ⟨?aset, ?aadd⟩, fun d a h => ?aget, fun d imm h => ⟨?movi, ?addi⟩,
    fun p d imm h => ⟨?moviLong, ?addiLong, ?movhi⟩, fun p d a imm h => ?lea⟩
  case mov => exact run_short h
  case not => exact run_short h
  case neg => exact run_short h
  case aset => exact run_short h
  case aadd => exact run_short h
  case aget => exact run_short h
  case movi => exact run_short h
  case addi => exact run_short h
  case moviLong => exact run_long h
  case addiLong => exact run_long h
  case movhi => exact run_long h
  case lea => exact run_long h

/-! Compares and predicates. -/

/-- The compares, with what they decide. -/
def compareSamples : List ((CoreId → Pred → PReg → DReg → CmpOp → Instr) × (Word → Word → Bool)) :=
  [(Instr.cmpEq, fun a b => decide (a = b)), (Instr.cmpNe, fun a b => decide (a ≠ b)), (Instr.cmpLts, fun a b => a.slt b),
    (Instr.cmpGes, fun a b => b.sle a), (Instr.cmpLtu, fun a b => a.ult b), (Instr.cmpGeu, fun a b => b.ule a)]

theorem exec_compareSample {e : (CoreId → Pred → PReg → DReg → CmpOp → Instr) × (Word → Word → Bool)} (he : e ∈ compareSamples)
    (c : CoreId) (p : Pred) (pd : PReg) (rs : DReg) (o : CmpOp) (s : State) :
    exec (e.1 c p pd rs o) s = s.run (fun d => d.compare c p pd rs o e.2) := by
  fin_cases he <;> rfl

/-- The predicate operations, with what they compute. -/
def predSamples : List ((CoreId → Pred → PReg → PReg → PReg → Instr) × (Bool → Bool → Bool)) :=
  [(Instr.predAnd, fun a b => a && b), (Instr.predOr, fun a b => a || b), (Instr.predXor, fun a b => a != b),
    (Instr.predAndn, fun a b => a && !b)]

theorem exec_predSample {e : (CoreId → Pred → PReg → PReg → PReg → Instr) × (Bool → Bool → Bool)} (he : e ∈ predSamples)
    (c : CoreId) (p : Pred) (pd a b : PReg) (s : State) :
    exec (e.1 c p pd a b) s = s.run (fun d => d.predLogic c p pd a b e.2) := by
  fin_cases he <;> rfl

section Predicates

variable (k : CoreState) {n m : PReg} (b : Bool)

theorem rp_zero : k.rp 0 = true := rfl

theorem wrp_zero : k.wrp 0 b = k := if_pos rfl

theorem rp_wrp_same (h : n ≠ 0) : (k.wrp n b).rp n = b := by
  unfold CoreState.wrp CoreState.rp
  rw [if_neg h, decide_eq_false h, Bool.false_or]
  exact getLsbD_setBit_same _ _ n.isLt

theorem rp_wrp_ne (h : m ≠ n) : (k.wrp n b).rp m = k.rp m := by
  have hne : m.toNat ≠ n.toNat := fun heq => h (BitVec.eq_of_toNat_eq heq)
  by_cases hn : n = 0
  · rw [hn, wrp_zero]
  · unfold CoreState.wrp CoreState.rp
    rw [if_neg hn]
    exact congrArg (decide (m = 0) || ·) (getLsbD_setBit_ne _ _ hne)

end Predicates

/-- Settles O4: compares and predicate operations by their shared instruction, predicates by their bit of the core's P. -/
theorem coreComparesAndPredicates : Obligations.CoreComparesAndPredicates := by
  unfold Obligations.CoreComparesAndPredicates
  refine ⟨⟨fun e he s c p pd rs hpd => ⟨fun rt h => ?_, fun imm h => ?_⟩, fun e he s c p pd a b hpd h => ?_⟩, fun k n m b => ?_⟩
  · rw [exec_compareSample he]
    exact run_long h (decide_eq_true hpd)
  · rw [exec_compareSample he]
    exact run_long h (decide_eq_true hpd)
  · rw [exec_predSample he]
    exact run_long h (decide_eq_true hpd)
  · exact ⟨rp_zero k, wrp_zero k b, rp_wrp_same k b, rp_wrp_ne k b⟩

end Sys2Proof.Machine
end

section
/-! What keeps a core's instruction from its work: the false condition (R257), and the traps that are taken at it (R255, R275). -/

namespace Sys2Proof.Machine

variable {s : State} {d e : Dev} {c : CoreId} {p : Pred} {ps qs : List PReg} {ds es : List DReg} {n : Names} {f : Dev → Dev} {ra : Nat}

/-- A 16-bit form is fetched by a core that takes instructions. -/
theorem instr_runs16 (h : d.Runs16 c ps ds) (f : Dev → Dev) : d.instr c 2 [] [] f = f d := by
  obtain ⟨hready, hfetch, -⟩ := h
  have hnone : (d.co c).pends [] [] = false := rfl
  unfold Dev.instr
  simp [hready, hfetch, hnone]

/-- So is a 32-bit form. -/
theorem instr_meets32 (h : d.Meets32 c p ps ds) (f : Dev → Dev) : d.instr c 4 [] [] f = f d :=
  arrayIssue_meets (a := ⟨c, p, 0, 0, 0⟩) (h.mono (List.nil_subset _) (List.nil_subset _)) f

/-- An address that cannot be fetched takes the fetch-error trap, whatever the instruction (R245). -/
theorem instr_unfetchable {len : Nat} (hready : d.coreReady c = true) (hf : (d.co c).fetchable (d.co c).pc = false) :
    d.instr c len ps ds f = d.trap c .fetch (d.co c).pc (d.co c).pc false := by
  unfold Dev.instr
  simp [hready, hf]

theorem op32_illegal (h : d.Meets32 c p ps ds) (hl : n.legal = false) : d.op32 c p n f = d.trapHere c .illegal := by
  unfold Dev.op32 Dev.lawful
  rw [instr_meets32 h, hl]
  rfl

theorem op32_privileged (h : d.Meets32 c p ps ds) (hl : n.legal = true) (hs : n.sysOnly = true) (hu : (d.co c).sys = false) :
    d.op32 c p n f = d.trapHere c .privilege := by
  unfold Dev.op32 Dev.lawful
  rw [instr_meets32 h, hl, hs, hu]
  rfl

/-! The same as commands. -/

/-- A false condition (R257). -/
theorem run_skipped (h : s.dev.Meets32 c p qs es) (hc : (s.dev.co c).holds p = false) (hps : n.ps ⊆ qs) (hds : n.ds ⊆ es)
    (hlegal : n.legal = true) (huser : n.sysOnly = false) :
    s.run (fun v => v.op32 c p n f) = s.after (s.dev.setCo c ((s.dev.co c).advance 4 1)) :=
  run_eq_after (op32_skips (h.mono hps hds) hlegal (fun hs => absurd hs (by simp [huser])) hc)

/-- An instruction whose work is a trap. -/
theorem run_trap {t : Trap} {ret taddr : Word} (hf : f s.dev = s.dev.trap c t ret taddr false)
    (he : (s.dev.co c).EntersAt c (trapNo t).toNat ra) (hl : (s.dev.co c).loads = []) :
    s.run f = s.after (s.dev.trapTaken c ra t ret taddr false) :=
  run_eq_after (hf.trans (trap_succeeds he hl))

theorem run_op16_trap {t : Trap} {ret taddr : Word} (h : s.dev.Runs16 c ps ds) (hf : f s.dev = s.dev.trap c t ret taddr false)
    (he : (s.dev.co c).EntersAt c (trapNo t).toNat ra) (hl : (s.dev.co c).loads = []) :
    s.run (fun v => v.op16 c { ps := ps, ds := ds } f) = s.after (s.dev.trapTaken c ra t ret taddr false) :=
  run_op16 h (hf.trans (trap_succeeds he hl))

theorem run_op32_trap {t : Trap} {ret taddr : Word} (h : s.dev.Runs32 c p n.ps n.ds)
    (hf : f s.dev = s.dev.trap c t ret taddr false) (he : (s.dev.co c).EntersAt c (trapNo t).toNat ra)
    (hl : (s.dev.co c).loads = []) (hlegal : n.legal = true := by rfl) (huser : n.sysOnly = false := by rfl) :
    s.run (fun v => v.op32 c p n f) = s.after (s.dev.trapTaken c ra t ret taddr false) :=
  run_op32 h (hf.trans (trap_succeeds he hl)) hlegal huser

end Sys2Proof.Machine
end

section
/-! Branches, calls and the return stack (R251, R252, R265, R266). -/

namespace Sys2Proof.Machine

variable {d : Dev} {c : CoreId} {k : CoreState} {v : Word}

theorem branchTarget_eq (pc : Word) {w : Nat} (off : BitVec w) : branchTarget pc off = pc + 2 * off.signExtend 32 := by
  unfold branchTarget
  rw [BitVec.mul_comm]

/-- A push that is performed keeps the newest sixteen entries. -/
theorem push_fits (h : k.rs.length < 16 ∨ k.cfg.getLsbD 0 = false) (v : Word) :
    k.push v = some { k with rs := (v :: k.rs).take 16 } := by
  unfold CoreState.push
  by_cases hlt : k.rs.length < 16
  · rw [if_pos hlt, List.take_of_length_le (by rw [List.length_cons]; omega)]
  · rw [if_neg hlt, h.resolve_left hlt]
    rfl

/-- With RSTRAP a push on a full stack is not performed. -/
theorem push_full (h : 16 ≤ k.rs.length) (hcfg : k.cfg.getLsbD 0 = true) (v : Word) : k.push v = none := by
  unfold CoreState.push
  rw [if_neg (not_lt.mpr h), if_pos hcfg]

theorem callTo_fits (h : (d.co c).rs.length < 16 ∨ (d.co c).cfg.getLsbD 0 = false) (len : Nat) (target : Word) :
    d.callTo c len target = d.setCo c
      ({ d.co c with rs := (((d.co c).pc + BitVec.ofNat 32 len) :: (d.co c).rs).take 16 }.jump target 2) := by
  simp only [Dev.callTo, push_fits h]

theorem callTo_full (h : 16 ≤ (d.co c).rs.length) (hcfg : (d.co c).cfg.getLsbD 0 = true) (len : Nat) (target : Word) :
    d.callTo c len target = d.trapHere c .rsOver := by
  simp only [Dev.callTo, push_full h hcfg]

variable {s : State} {p : Pred} {ra : Nat}

section Pops

variable {a : Word} {r : List Word}

theorem exec_ret_pops (h : s.dev.Runs16 c [] []) (hrs : (s.dev.co c).rs = a :: r) :
    exec (.ret c) s = s.after (s.dev.setCo c ({ s.dev.co c with rs := r }.jump a 2)) := by
  refine run_op16 h ?_
  simp only [hrs]
  rfl

theorem exec_rspop_pops {n : DReg} (h : s.dev.Runs32 c p [] [n]) (hrs : (s.dev.co c).rs = a :: r) :
    exec (.rspop c p n) s = s.after (s.dev.setCo c (({ s.dev.co c with rs := r }.wrd n a).advance 4 1)) := by
  refine run_op32 h ?_
  simp only [hrs]
  rfl

theorem exec_rspopb_pops {n : DReg} (h : s.dev.Runs32 c p [] [n]) (hrs : (s.dev.co c).rs = r ++ [a]) :
    exec (.rspopb c p n) s = s.after (s.dev.setCo c (({ s.dev.co c with rs := r }.wrd n a).advance 4 1)) := by
  refine run_op32 h ?_
  simp only [hrs, List.getLast?_concat, Dev.modCo, List.dropLast_concat]

end Pops

section Underflow

variable (hrs : (s.dev.co c).rs = []) (hent : (s.dev.co c).EntersAt c 8 ra) (hl : (s.dev.co c).loads = [])
include hrs hent hl

theorem exec_ret_underflow (h : s.dev.Runs16 c [] []) :
    exec (.ret c) s = s.after (s.dev.trapTaken c ra .rsUnder (s.dev.co c).pc 0 false) := by
  refine run_op16_trap (t := .rsUnder) h ?_ hent hl
  simp only [hrs]
  rfl

theorem exec_rspop_underflow {n : DReg} (h : s.dev.Runs32 c p [] [n]) :
    exec (.rspop c p n) s = s.after (s.dev.trapTaken c ra .rsUnder (s.dev.co c).pc 0 false) := by
  refine run_op32_trap (t := .rsUnder) h ?_ hent hl
  simp only [hrs]
  rfl

theorem exec_rspopb_underflow {n : DReg} (h : s.dev.Runs32 c p [] [n]) :
    exec (.rspopb c p n) s = s.after (s.dev.trapTaken c ra .rsUnder (s.dev.co c).pc 0 false) := by
  refine run_op32_trap (t := .rsUnder) h ?_ hent hl
  simp only [hrs]
  rfl

end Underflow

theorem exec_rspush_fits {n : DReg} (h : s.dev.Runs32 c p [] [n])
    (hfit : (s.dev.co c).rs.length < 16 ∨ (s.dev.co c).cfg.getLsbD 0 = false) :
    exec (.rspush c p n) s = s.after (s.dev.setCo c
      ({ s.dev.co c with rs := ((s.dev.co c).rd n :: (s.dev.co c).rs).take 16 }.advance 4 1)) := by
  refine run_op32 h ?_
  simp only [push_fits hfit]

theorem exec_rspush_overflow {n : DReg} (hfull : 16 ≤ (s.dev.co c).rs.length) (hcfg : (s.dev.co c).cfg.getLsbD 0 = true)
    (hent : (s.dev.co c).EntersAt c 7 ra) (hl : (s.dev.co c).loads = []) (h : s.dev.Runs32 c p [] [n]) :
    exec (.rspush c p n) s = s.after (s.dev.trapTaken c ra .rsOver (s.dev.co c).pc 0 false) := by
  refine run_op32_trap (t := .rsOver) h ?_ hent hl
  simp only [push_full hfull hcfg]
  rfl

/-- Settles O7: a branch by its jump, a push by whether it is performed, a pop by the stack's newest or oldest entry. -/
theorem coreBranchesAndReturnStack : Obligations.CoreBranchesAndReturnStack := by
  unfold Obligations.CoreBranchesAndReturnStack
  constructor
  · intro s c p k goes fits pushed
    refine ⟨fun off h => ?brShort, fun off h => ?brLong, fun off h hc => ?brpTaken, fun off h hc => ?brpNot, fun a h => ?jmp,
      fun hfit => ⟨fun off h => ?callShort, fun off h => ?callLong, fun a h => ?calla, fun r h => exec_rspush_fits h hfit⟩,
      fun a r hrs h => exec_ret_pops h hrs, fun a r n hrs h => exec_rspop_pops h hrs, fun n hlt h => ?rspushb,
      fun a r n hrs h => exec_rspopb_pops h hrs⟩
    case brShort => rw [← branchTarget_eq]; exact run_op16 h rfl
    case brLong => rw [← branchTarget_eq]; exact run_op32 h rfl
    case brpTaken => rw [← branchTarget_eq]; exact run_op16 h (congrArg (s.dev.setCo c) (if_pos hc))
    case brpNot => exact run_op16 h (congrArg (s.dev.setCo c) (if_neg (Bool.eq_false_iff.mp hc)))
    case jmp => exact run_op32 h rfl
    case callShort => rw [← branchTarget_eq]; exact run_op16 h (callTo_fits hfit 2 _)
    case callLong => rw [← branchTarget_eq]; exact run_op32 h (callTo_fits hfit 4 _)
    case calla => exact run_op32 h (callTo_fits hfit 4 _)
    case rspushb => exact run_op32 h (if_neg (not_le.mpr hlt))
  · intro s c p ra k taken hl
    refine ⟨fun hent hrs => ⟨fun h => exec_ret_underflow hrs hent hl h,
        fun n h => ⟨exec_rspop_underflow hrs hent hl h, exec_rspopb_underflow hrs hent hl h⟩⟩,
      fun hent hfull => ⟨fun n h => ?rspushb, fun hcfg => ⟨fun off h => ?callShort, fun off h => ?callLong, fun a h => ?calla,
        fun n h => ?rspush⟩⟩⟩
    case rspushb => exact run_op32_trap h (if_pos hfull) hent hl
    case callShort => exact run_op16_trap h (callTo_full hfull hcfg 2 _) hent hl
    case callLong => exact run_op32_trap h (callTo_full hfull hcfg 4 _) hent hl
    case calla => exact run_op32_trap h (callTo_full hfull hcfg 4 _) hent hl
    case rspush => exact exec_rspush_overflow hfull hcfg hent hl h

end Sys2Proof.Machine
end

section
/-! Waiting: NOP, FENCE, ISYNC, WAIT and WAIT_WAKE, and the instructions whose condition is 0 (R252, R257, R261, R310). -/

namespace Sys2Proof.Machine

/-! What the end of an instruction leaves of its core. -/

/-- A load that completes writes data registers alone. -/
theorem foldl_land (l : List PendingLoad) (k : CoreState) : ∃ v, l.foldl CoreState.land k = { k with d := v } := by
  induction l generalizing k with
  | nil => exact ⟨k.d, rfl⟩
  | cons x l ih =>
    obtain ⟨v, hv⟩ : ∃ v, k.land x = { k with d := v } := by
      unfold CoreState.land
      split <;> exact ⟨_, rfl⟩
    obtain ⟨w, hw⟩ := ih (k.land x)
    exact ⟨w, by rw [List.foldl_cons, hw, hv]⟩

/-- The end of an instruction writes data registers, and changes nothing else but the loads, the cycle count and the entry. -/
theorem retire_eq (k : CoreState) (n : Nat) :
    ∃ v l, k.retire n = { k with d := v, loads := l, cyc := k.cyc + BitVec.ofNat 64 n, entering := none } := by
  unfold CoreState.retire
  obtain ⟨v, hv⟩ := foldl_land (k.loads.filter (fun l => decide (l.slots ≤ 1) && l.tid.isNone)) k
  simp only [hv]
  exact ⟨v, _, rfl⟩

section Retire

variable (k : CoreState) (n : Nat)

@[simp] theorem sr_retire : (k.retire n).sr = k.sr := by
  obtain ⟨v, l, h⟩ := retire_eq k n
  rw [h]

end Retire

theorem lvl_advance (k : CoreState) (len n : Nat) : (k.advance len n).lvl = k.lvl :=
  congrArg (fun v : Word => bits v.toNat 27 24) (sr_retire k n)

/-! The instructions. -/

variable {s : State} {d : Dev} {c : CoreId}

theorem co_releaseHeld (d : Dev) (c e : CoreId) : (d.releaseHeld c).co e = d.co e :=
  congrArg (·[e]) (forEach_frame Dev.core (d.evc.held.map Prod.fst) d (fun _ _ => rfl))

/-- WAIT is past before the offer is judged; moderation has given the core what it holds from it (R306, R310). -/
theorem waitFor_eq (d : Dev) (c : CoreId) : d.waitFor c =
    (let e := (d.setCo c ((d.co c).advance 2 1)).releaseHeld c
     if (e.offerAbove c (d.co c).lvl).isSome then e else e.setCo c { (d.co c).advance 2 1 with mode := .wait }) := by
  have hco : ((d.setCo c ((d.co c).advance 2 1)).releaseHeld c).co c = (d.co c).advance 2 1 :=
    (co_releaseHeld _ _ _).trans (co_setCo_same d c _)
  simp only [Dev.waitFor, Dev.modCo, hco, lvl_advance]

/-- An instruction that is a 32-bit form for everyone and names no other registers than the given ones. -/
def Conditional (i : Instr) (c : CoreId) (p : Pred) (ps : List PReg) (ds : List DReg) : Prop :=
  ∃ (n : Names) (f : Dev → Dev), (∀ s, exec i s = s.run (fun v => v.op32 c p n f)) ∧ n.ps ⊆ ps ∧ n.ds ⊆ ds ∧ n.legal = true ∧
    n.sysOnly = false

/-- The conditional instructions that the statement of false conditions speaks of. -/
def conditionalSamples (c : CoreId) (p : Pred) (rd rs rt : DReg) (a : AReg) (n : BitVec 2) : List Instr :=
  [.coreAdd c (.long p rd rs rt), .coreAndn c p rd rs rt, .addi c (.long p rd 1), .movhi c p rd 1, .lea c p a a 1,
    .cmpEq c p 1 rs (.reg rt), .predAnd c p 1 0 0, .br c (.long p 1), .jmp c p a, .call c (.long p 1), .calla c p a,
    .mul c p rd rs rt false, .macs c p n rs rt true, .macH2 c p n 0 0, .acmov c p rd n 0, .acclr c p n, .rspush c p rd,
    .rspop c p rd, .rspushb c p rd, .rspopb c p rd, .fadd c p false rd rs rt, .fcvtW c p false rd rs,
    .load c (.long p 2 rd a 0 false 0), .store c (.long p 2 rd a 0 false 0), .sysc c p 0]

theorem conditional_sample {p : Pred} {rd rs rt : DReg} {a : AReg} {n : BitVec 2} {i : Instr}
    (hi : i ∈ conditionalSamples c p rd rs rt a n) : Conditional i c p [1, 0] [rd, rs, rt] := by
  fin_cases hi <;> exact ⟨_, _, fun _ => rfl, by simp, by simp [fpRegs], rfl, rfl⟩

/-- Settles O8: a conditional instruction by its false condition, the others by what they wait for. -/
theorem waitsBarriersAndFalsePredicates : Obligations.WaitsBarriersAndFalsePredicates := by
  unfold Obligations.WaitsBarriersAndFalsePredicates
  constructor
  · intro s c p rd rs rt a n hc i hi h
    obtain ⟨m, f, hrun, hps, hds, hlegal, huser⟩ := conditional_sample hi
    rw [hrun]
    exact run_skipped h hc hps hds hlegal huser
  · intro s c k
    refine ⟨fun h => ⟨?nop, fun hf => ?fence, fun hs => ?isync, fun hf => ?fenceOwed, fun hs => ?isyncOwed, ?wait⟩,
      fun hmode hhalt ho => ?wake⟩
    case nop => exact run_short h
    case fence => rw [exec_fence, execFence]; exact run_eq_after ((if_neg (Bool.eq_false_iff.mp hf)).trans (short_runs h))
    case isync => rw [exec_isync, execIsync]; exact run_eq_after ((if_neg (Bool.eq_false_iff.mp hs)).trans (short_runs h))
    case fenceOwed => rw [exec_fence, execFence]; exact run_eq_after (if_pos hf)
    case isyncOwed => rw [exec_isync, execIsync]; exact run_eq_after (if_pos hs)
    case wait => exact run_op16 h (waitFor_eq s.dev c)
    case wake =>
      refine run_eq_after (if_pos ?_)
      rw [Bool.and_eq_true, Bool.and_eq_true, decide_eq_true_eq, hhalt]
      exact ⟨⟨hmode, rfl⟩, ho⟩

end Sys2Proof.Machine
end

section
/-! The accumulators and the division step (R268, R269, R281, R284). -/

namespace Sys2Proof.Machine

/-! Values. -/

theorem accSum_eq (sat : Bool) (a : BitVec 72) (x : Int) :
    accSum sat a x = BitVec.ofInt 72 (if sat then max (-(2 ^ 71)) (min (2 ^ 71 - 1) (a.toInt + x)) else a.toInt + x) := by
  unfold accSum
  split <;> rfl

/-- The half of a word at bit 0 or 16, as a signed number (R268). -/
def halfAt (w : Word) (i : Nat) : Int := ((w >>> (16 * i)).setWidth 16 : BitVec 16).toInt

theorem dot2_eq (u v : Word) : dot2 u v = halfAt u 0 * halfAt v 0 + halfAt u 1 * halfAt v 1 := by
  simp only [dot2, halfS, halfAt, Nat.mul_zero, BitVec.ushiftRight_zero, Bool.false_eq_true, if_false, if_true, Nat.mul_one]

theorem accPart_low (a : BitVec 72) : accPart a 0 = a.extractLsb' 0 32 := rfl

theorem accPart_mid (a : BitVec 72) : accPart a 1 = a.extractLsb' 32 32 := rfl

theorem accPart_high (a : BitVec 72) : accPart a 2 = (a.extractLsb' 64 8).signExtend 32 := rfl

/-- A merge under a mask of k bits at lo takes those bits from the second operand. -/
theorem getLsbD_merge_field {w : Nat} (lo k : Nat) (a b : BitVec w) {i : Nat} (hi : i < w) :
    (merge (BitVec.ofNat w ((2 ^ k - 1) * 2 ^ lo)) a b).getLsbD i = if lo ≤ i ∧ i < lo + k then b.getLsbD i else a.getLsbD i := by
  have hmask : (BitVec.ofNat w ((2 ^ k - 1) * 2 ^ lo)).getLsbD i = decide (lo ≤ i ∧ i < lo + k) := by
    rw [BitVec.getLsbD_ofNat, Nat.testBit_mul_two_pow, Nat.testBit_two_pow_sub_one, decide_eq_true hi, Bool.true_and, ← Bool.decide_and]
    exact decide_eq_decide.mpr (by omega)
  rw [merge, BitVec.getLsbD_or, BitVec.getLsbD_and, BitVec.getLsbD_and, BitVec.getLsbD_not, hmask, decide_eq_true hi]
  split_ifs with h
  · simp [h]
  · simp [h]

theorem accPut_low (a : BitVec 72) (v : Word) : accPut a 0 v = (a.extractLsb' 32 40).append v := by
  refine BitVec.eq_of_getLsbD_eq fun i hi => ?_
  refine (getLsbD_merge_field 0 32 a _ hi).trans (Eq.trans ?_ (BitVec.getLsbD_append ..).symm)
  by_cases h : i < 32
  · simp [h, hi]
  · simp [h, show i - 32 < 40 by omega, show 32 + (i - 32) = i by omega]

theorem accPut_mid (a : BitVec 72) (v : Word) :
    accPut a 1 v = ((a.extractLsb' 64 8).append v).append (a.extractLsb' 0 32) := by
  refine BitVec.eq_of_getLsbD_eq fun i hi => ?_
  refine (getLsbD_merge_field 32 32 a _ hi).trans (Eq.trans ?_ (BitVec.getLsbD_append ..).symm)
  by_cases hlow : i < 32
  · simp [hlow, show ¬32 ≤ i by omega]
  · rw [if_neg hlow]
    refine Eq.trans ?_ (BitVec.getLsbD_append ..).symm
    by_cases hmid : i < 64
    · simp [hlow, hmid, hi, show 32 ≤ i by omega, show i - 32 < 32 by omega]
    · simp [hmid, show ¬i - 32 < 32 by omega, show i - 32 - 32 < 8 by omega, show 64 + (i - 32 - 32) = i by omega]

theorem accPut_high (a : BitVec 72) (v : Word) : accPut a 2 v = (v.extractLsb' 0 8).append (a.extractLsb' 0 64) := by
  refine BitVec.eq_of_getLsbD_eq fun i hi => ?_
  refine (getLsbD_merge_field 64 8 a _ hi).trans (Eq.trans ?_ (BitVec.getLsbD_append ..).symm)
  by_cases h : i < 64
  · simp [h, show ¬64 ≤ i by omega]
  · simp [h, hi, show 64 ≤ i by omega, show i - 64 < 8 by omega]

/-- One restoring step subtracts the divisor when it fits (R284). -/
theorem divStep_eq (r q v : Word) : divStep r q v =
    (if v.toNat ≤ 2 * r.toNat + bn (q.getLsbD 31) then BitVec.ofNat 32 (2 * r.toNat + bn (q.getLsbD 31) - v.toNat)
      else BitVec.ofNat 32 (2 * r.toNat + bn (q.getLsbD 31)),
      (q <<< 1) ||| (if v.toNat ≤ 2 * r.toNat + bn (q.getLsbD 31) then 1 else 0)) := by
  unfold divStep
  dsimp only
  split_ifs
  · rfl
  · exact congrArg (Prod.mk _) BitVec.or_zero.symm

/-! The data TCMs that MAC.H2 reads (R244, R268). -/

theorem wordIn_of {lo : Nat} {a : Word} (halign : a.toNat % 4 = 0) (hlo : lo ≤ a.toNat) (hhi : a.toNat < lo + 0x10000) :
    wordIn lo a = true := by
  simp [wordIn, halign, hlo, hhi]

/-- The road address of a word that a core names at its own local addresses (R23). -/
theorem localRoad_eq (c : CoreId) {a : Nat} (hlo : 0x08000000 ≤ a) (hhi : a < 0x09000000) :
    0x0C000000 + c.val * 0x01000000 + a % 0x01000000 = 0x04000000 + c.val * 0x01000000 + a := by
  omega

/-- The second address register of MAC.H2 is one of A4 to A7. -/
theorem upperReg_eq (y : BitVec 2) : (y.setWidth 3 ||| 4 : AReg) = y.setWidth 3 + 4 := by
  revert y
  decide

variable {s : State} {c : CoreId} {p : Pred} {n : BitVec 2}

/-- MAC.H2 at two words of the data TCMs. -/
theorem exec_macH2_inside {x y : BitVec 2} {ax ay : AReg} (h : s.dev.Runs32 c p [] []) (hax : ax = x.setWidth 3)
    (hay : ay = y.setWidth 3 + 4) (hx : ((s.dev.co c).ra ax).toNat % 4 = 0) (hxlo : 0x08010000 ≤ ((s.dev.co c).ra ax).toNat)
    (hxhi : ((s.dev.co c).ra ax).toNat < 0x08020000) (hy : ((s.dev.co c).ra ay).toNat % 4 = 0)
    (hylo : 0x08020000 ≤ ((s.dev.co c).ra ay).toNat) (hyhi : ((s.dev.co c).ra ay).toNat < 0x08030000) :
    exec (.macH2 c p n x y) s = s.after (s.dev.setCo c
      (((((s.dev.co c).wac n (accSum (s.dev.co c).acsat ((s.dev.co c).rac n)
        (dot2 (s.dev.word32 (0x04000000 + c.val * 0x01000000 + ((s.dev.co c).ra ax).toNat))
          (s.dev.word32 (0x04000000 + c.val * 0x01000000 + ((s.dev.co c).ra ay).toNat))))).wra ax ((s.dev.co c).ra ax + 4)).wra ay
            ((s.dev.co c).ra ay + 4)).advance 4 1)) := by
  refine run_op32 h ?_
  simp only [upperReg_eq, ← hax, ← hay, wordIn_of hx hxlo hxhi, wordIn_of hy hylo hyhi, Bool.not_true, Bool.false_eq_true, if_false,
    localRoad_eq c (show 0x08000000 ≤ ((s.dev.co c).ra ax).toNat by omega) (by omega),
    localRoad_eq c (show 0x08000000 ≤ ((s.dev.co c).ra ay).toNat by omega) (by omega)]
  rfl

/-- Settles O6: each accumulator instruction by its sum, the part that it moves, or its step of the division. -/
theorem coreAccumulatorsCompute : Obligations.CoreAccumulatorsCompute := by
  unfold Obligations.CoreAccumulatorsCompute
  intro s c p k clamp goes
  have hsum (n : BitVec 2) (x : Int) : accSum k.acsat (k.rac n) x = BitVec.ofInt 72 (clamp ((k.rac n).toInt + x)) := accSum_eq _ _ _
  refine ⟨fun n rs rt ct h => ⟨?macs, ?macu, ?msus⟩, fun n x y h hx hxlo hxhi hy hylo hyhi => ?macH2, fun rd n sh h => ?acmov,
    fun n h => ?acclr, fun rd n h => ⟨?acrdLow, ?acrdMid, ?acrdHigh⟩, fun n rs h => ⟨?acwrLow, ?acwrMid, ?acwrHigh⟩,
    fun rr rq rv hne h => ?dstep⟩
  case macs => rw [← hsum]; exact run_op32 h rfl
  case macu => rw [← hsum, ← Nat.cast_mul]; exact run_op32 h rfl
  case msus => rw [sub_eq_add_neg, ← hsum]; exact run_op32 h rfl
  case macH2 =>
    have hmac := exec_macH2_inside (n := n) h rfl rfl hx hxlo hxhi hy hylo hyhi
    rw [dot2_eq, accSum_eq] at hmac
    exact hmac
  case acmov => exact run_long h
  case acclr => exact run_long h
  case acrdLow => rw [← accPart_low]; exact run_long h
  case acrdMid => rw [← accPart_mid]; exact run_long h
  case acrdHigh => rw [← accPart_high]; exact run_long h
  case acwrLow => rw [← accPut_low]; exact run_long h
  case acwrMid => rw [← accPut_mid]; exact run_long h
  case acwrHigh => rw [← accPut_high]; exact run_long h
  case dstep =>
    have hstep : exec (.coreDstep c p rr rq rv) s = goes ((k.wrd rr (divStep (k.rd rr) (k.rd rq) (k.rd rv)).1).wrd rq
      (divStep (k.rd rr) (k.rd rq) (k.rd rv)).2) := run_long h (decide_eq_true hne)
    rw [divStep_eq] at hstep
    exact hstep

end Sys2Proof.Machine
end

section
/-! Little-endian bytes and words: the value of a byte list, of a word's first byte or half (R2). -/

namespace Sys2Proof.Machine

theorem leNat_append (l m : List Byte) : leNat (l ++ m) = leNat l + 256 ^ l.length * leNat m := by
  induction l with
  | nil => rw [List.nil_append, leNat, List.length_nil, pow_zero, one_mul, zero_add]
  | cons b l ih => rw [List.cons_append, leNat, leNat, ih, List.length_cons, pow_succ', mul_add, mul_assoc, add_assoc]

theorem leNat_lt (l : List Byte) : leNat l < 256 ^ l.length := by
  induction l with
  | nil => exact Nat.one_pos
  | cons b l ih =>
    have hb : b.toNat < 256 := b.isLt
    rw [leNat, List.length_cons, pow_succ']
    omega

@[simp] theorem length_bytes (d : Dev) (a n : Nat) : (d.bytes a n).length = n := by
  simp [Dev.bytes]

theorem bytes_add (d : Dev) (a m n : Nat) : d.bytes a (m + n) = d.bytes a m ++ d.bytes (a + m) n := by
  simp only [Dev.bytes, List.range_add, List.map_append, List.map_map, Function.comp_def, Nat.add_assoc]

/-- The value of n bytes of memory, as a load takes it. -/
def Dev.value (d : Dev) (a n : Nat) : BitVec (8 * n) := BitVec.ofNat (8 * n) (leNat (d.bytes a n))

variable (d : Dev) (a : Nat)

theorem leNat_bytes_lt (n : Nat) : leNat (d.bytes a n) < 256 ^ n := by
  simpa using leNat_lt (d.bytes a n)

theorem setWidth_value_byte : (d.value a 1).setWidth 32 = BitVec.ofNat 32 (leNat (d.bytes a 1)) := by
  have hlt : leNat (d.bytes a 1) < 256 ^ 1 := leNat_bytes_lt d a 1
  apply BitVec.eq_of_toNat_eq
  simp only [Dev.value, BitVec.toNat_setWidth, BitVec.toNat_ofNat]
  omega

theorem setWidth_value_half : (d.value a 2).setWidth 32 = BitVec.ofNat 32 (leNat (d.bytes a 2)) := by
  have hlt : leNat (d.bytes a 2) < 256 ^ 2 := leNat_bytes_lt d a 2
  apply BitVec.eq_of_toNat_eq
  simp only [Dev.value, BitVec.toNat_setWidth, BitVec.toNat_ofNat]
  omega

/-- A doubleword's low half is the word at its address. -/
theorem setWidth_value_double : (d.value a 8).setWidth 32 = BitVec.ofNat 32 (leNat (d.bytes a 8)) :=
  BitVec.setWidth_ofNat_of_le (by decide) _

theorem ofNat_bytes_double : BitVec.ofNat 32 (leNat (d.bytes a 8)) = BitVec.ofNat 32 (leNat (d.bytes a 4)) := by
  have hsplit : leNat (d.bytes a 8) = leNat (d.bytes a 4) + 256 ^ 4 * leNat (d.bytes (a + 4) 4) := by
    rw [show 8 = 4 + 4 from rfl, bytes_add, leNat_append, length_bytes]
  apply BitVec.eq_of_toNat_eq
  rw [hsplit, BitVec.toNat_ofNat, BitVec.toNat_ofNat]
  omega

theorem extract_value_double : (d.value a 8).extractLsb' 32 32 = BitVec.ofNat 32 (leNat (d.bytes a 8) / 2 ^ 32) := by
  apply BitVec.eq_of_toNat_eq
  simp only [Dev.value, BitVec.extractLsb'_toNat, BitVec.toNat_ofNat, Nat.shiftRight_eq_div_pow]
  omega

theorem twoBits_cases (x : BitVec 2) : x = 0 ∨ x = 1 ∨ x = 2 ∨ x = 3 := by
  revert x
  decide

/-- What a load of each size delivers (R252, R254). -/
theorem loadWords_bytes (size : BitVec 2) (sx : Bool) : loadWords (2 ^ size.toNat) sx (d.bytes a (2 ^ size.toNat)) =
    (if size = 0 then (if sx then (d.value a 1).signExtend 32 else (d.value a 1).setWidth 32)
      else if size = 1 then (if sx then (d.value a 2).signExtend 32 else (d.value a 2).setWidth 32) else (d.value a 8).setWidth 32,
      if size = 3 then some ((d.value a 8).extractLsb' 32 32) else none) := by
  rw [setWidth_value_byte, setWidth_value_half, setWidth_value_double, extract_value_double]
  rcases twoBits_cases size with rfl | rfl | rfl | rfl
  · rfl
  · rfl
  · exact congrArg (·, none) (ofNat_bytes_double d a).symm
  · rfl

/-- A byte of a word's little-endian bytes. -/
theorem getElem_leBytes (n v : Nat) {i : Nat} (h : i < (leBytes n v).length) : (leBytes n v)[i] = BitVec.ofNat 8 (v / 256 ^ i) := by
  simp [leBytes]

/-- The first four bytes of a pair are those of its low register (R248). -/
theorem byte_rpair (k : CoreState) (r : DReg) {i : Nat} (h : i < 4) :
    BitVec.ofNat 8 ((k.rpair r).toNat / 256 ^ i) = BitVec.ofNat 8 ((k.rd r).toNat / 256 ^ i) := by
  have hpair : (k.rpair r).toNat = (k.rd r).toNat + (k.rd (r ||| 1)).toNat * 2 ^ 32 := by
    refine (BitVec.toNat_append _ _).trans ?_
    rw [Nat.shiftLeft_eq, Nat.or_comm, ← Nat.shiftLeft_eq, Nat.or_comm, ← Nat.shiftLeft_add_eq_or_of_lt (k.rd r).isLt, Nat.shiftLeft_eq,
      Nat.add_comm]
  apply BitVec.eq_of_toNat_eq
  rw [hpair, BitVec.toNat_ofNat, BitVec.toNat_ofNat]
  interval_cases i <;> omega

end Sys2Proof.Machine
end

section
/-! Loads and stores in a core's own memories (R252, R254, R260, R262). -/

namespace Sys2Proof.Machine

/-! The access that a form spells. -/

/-- The address of a 32-bit form for n bytes (R254). -/
def CoreState.memAddr (k : CoreState) (n : Nat) (a : AReg) (mode : BitVec 3) (opd : BitVec 9) : Word :=
  if mode = 0 then k.ra a + opd.signExtend 32 * BitVec.ofNat 32 n else if mode = 2 then k.ra a - BitVec.ofNat 32 n
    else if mode = 4 then k.ra a + (k.rd (opd.extractLsb' 5 4) <<< (opd.extractLsb' 3 2).toNat) else k.ra a

/-- The address register after a 32-bit form for n bytes (R254). -/
def CoreState.memUpd (k : CoreState) (n : Nat) (a : AReg) (mode : BitVec 3) (opd : BitVec 9) : Word :=
  if mode = 1 then k.ra a + BitVec.ofNat 32 n else if mode = 2 then k.ra a - BitVec.ofNat 32 n
    else if mode = 3 then k.ra a + opd.signExtend 32 * BitVec.ofNat 32 n else k.ra a

/-- The address of a 16-bit form (R252). -/
def CoreState.shortAddr (k : CoreState) (a : AReg) (mode : BitVec 2) (x : BitVec 3) : Word :=
  if mode = 2 then k.ra a - 4 else if mode = 3 then k.ra a + BitVec.ofNat 32 (4 * x.toNat) else k.ra a

/-- The address register after a 16-bit form (R252). -/
def CoreState.shortUpd (k : CoreState) (a : AReg) (mode : BitVec 2) : Word :=
  if mode = 1 then k.ra a + 4 else if mode = 2 then k.ra a - 4 else k.ra a

theorem mode_cases {mode : BitVec 3} (h : mode.toNat ≤ 4) : mode = 0 ∨ mode = 1 ∨ mode = 2 ∨ mode = 3 ∨ mode = 4 := by
  revert mode
  decide

theorem access_eq (k : CoreState) (size : BitVec 2) (r : DReg) (a : AReg) {mode : BitVec 3} (sx : Bool) (opd : BitVec 9)
    (h : mode.toNat ≤ 4) : k.access size r a mode sx opd =
      ⟨2 ^ size.toNat, r, k.memAddr (2 ^ size.toNat) a mode opd, a, k.memUpd (2 ^ size.toNat) a mode opd, sx⟩ := by
  have hshift : bits opd.toNat 4 3 = (opd.extractLsb' 3 2).toNat := by
    rw [BitVec.extractLsb'_toNat, Nat.shiftRight_eq_div_pow]
    rfl
  rcases mode_cases h with rfl | rfl | rfl | rfl | rfl
  · rfl
  · rfl
  · rfl
  · rfl
  · rw [CoreState.memAddr, ← hshift]
    rfl

theorem accessShort_eq (k : CoreState) (r : DReg) (a : AReg) (mode : BitVec 2) (x : BitVec 3) :
    k.accessShort r a mode x = ⟨4, r, k.shortAddr a mode x, a, k.shortUpd a mode, false⟩ := by
  rcases twoBits_cases mode with rfl | rfl | rfl | rfl <;> rfl

theorem memLegal_of {store sx : Bool} {size : BitVec 2} {r : DReg} {mode : BitVec 3} {opd : BitVec 9} (hmode : mode.toNat ≤ 4)
    (hopd : mode = 1 ∨ mode = 2 → opd = 0) (hindex : mode = 4 → opd.extractLsb' 0 3 = 0) (hpair : size = 3 → r.getLsbD 0 = false)
    (hsx : sx = true → store = false ∧ size.toNat < 2) : memLegal store size r mode sx opd = true := by
  have heven : (decide (size ≠ 3) || !r.getLsbD 0) = true := by
    by_cases h : size = 3
    · rw [hpair h, Bool.not_false, Bool.or_true]
    · rw [decide_eq_true h, Bool.true_or]
  have hext : (!sx || (!store && decide (size.toNat < 2))) = true := by
    cases sx
    · rfl
    · simp [hsx rfl]
  unfold memLegal
  rw [heven, hext, decide_eq_true hmode]
  rcases mode_cases hmode with rfl | rfl | rfl | rfl | rfl
  · rfl
  · exact decide_eq_true (hopd (.inl rfl))
  · exact decide_eq_true (hopd (.inr rfl))
  · rfl
  · exact decide_eq_true (hindex rfl)

theorem memLegal_mode {store sx : Bool} {size : BitVec 2} {r : DReg} {mode : BitVec 3} {opd : BitVec 9}
    (h : memLegal store size r mode sx opd = true) : mode.toNat ≤ 4 := by
  simp only [memLegal, Bool.and_eq_true, decide_eq_true_eq] at h
  obtain ⟨⟨⟨hmode, -⟩, -⟩, -⟩ := h
  exact hmode

/-! The commands. -/

variable {s : State} {d : Dev} {c : CoreId} {p : Pred} {size : BitVec 2} {r : DReg} {a : AReg} {mode : BitVec 3} {sx : Bool}
  {opd : BitVec 9} {store : Bool} {len ra : Nat} {x : Access}

/-- A legal 32-bit form that runs makes its access. -/
theorem run_memLong {g : Dev → Nat → Access → Dev} {e : Dev} (h : s.dev.Runs32 c p [] [r, r ||| 1, indexReg opd])
    (hlegal : memLegal store size r mode sx opd = true) (hg : g s.dev 4 ((s.dev.co c).access size r a mode sx opd) = e) :
    s.run (fun v => v.memOp c store (.long p size r a mode sx opd) g) = s.after e := by
  have hnames : (if size = 3 then [r, r ||| 1] else [r]) ++ (if mode = 4 then [indexReg opd] else []) ⊆ [r, r ||| 1, indexReg opd] := by
    split_ifs <;> simp
  exact run_op32 (h.mono (List.Subset.refl _) hnames) hg hlegal

/-- So does a 16-bit form. -/
theorem run_memShort {g : Dev → Nat → Access → Dev} {e : Dev} {mode : BitVec 2} {x : BitVec 3} (h : s.dev.Runs16 c [] [r])
    (hx : mode = 3 ∨ x = 0) (hg : g s.dev 2 ((s.dev.co c).accessShort r a mode x) = e) :
    s.run (fun v => v.memOp c store (.short r a mode x) g) = s.after e := by
  have hlegal : (decide (mode = 3) || decide (x = 0)) = true := by simpa using hx
  exact run_eq_after ((op16_runs_legal h hlegal).trans hg)

section Own

variable (halign : x.addr.toNat % x.size = 0) (hlocal : x.addr.toNat / 0x01000000 = 8) (hra : ownTcm c x.addr.toNat = some ra)
include halign hlocal hra

theorem loadAt_own : d.loadAt c len x = d.setCo c (((d.co c).accessed len x).loading x (d.bytes ra x.size)) := by
  simp [Dev.loadAt, localAlias, halign, hlocal, hra]

theorem storeAt_own : d.storeAt c len x = (d.setCo c ((d.co c).accessed len x)).setBytes ra ((d.co c).storeBytes x) := by
  simp [Dev.storeAt, localAlias, halign, hlocal, hra]

end Own

/-- What a load of a size from road address ra puts in flight (R252, R254, R262). -/
def Dev.fetchedLoad (d : Dev) (ra : Nat) (size : BitVec 2) (sx : Bool) (r : DReg) : PendingLoad where
  dst := r
  lo := if size = 0 then (if sx then (d.value ra 1).signExtend 32 else (d.value ra 1).setWidth 32)
    else if size = 1 then (if sx then (d.value ra 2).signExtend 32 else (d.value ra 2).setWidth 32) else (d.value ra 8).setWidth 32
  hi := if size = 3 then some ((d.value ra 8).extractLsb' 32 32) else none
  slots := 2

theorem loading_bytes (k : CoreState) (d : Dev) (ra : Nat) (h : x.size = 2 ^ size.toNat) :
    k.loading x (d.bytes ra x.size) = { k with loads := k.loads ++ [d.fetchedLoad ra size x.sx x.reg] } := by
  rw [CoreState.loading, h, loadWords_bytes]
  rfl

theorem storeBytes_eq (k : CoreState) (h : x.size = 2 ^ size.toNat) :
    k.storeBytes x = leBytes (2 ^ size.toNat) (if size = 3 then (k.rpair x.reg).toNat else (k.rd x.reg).toNat) := by
  unfold CoreState.storeBytes
  rw [h]
  rcases twoBits_cases size with rfl | rfl | rfl | rfl <;> rfl

theorem exec_loadShort_own {mode : BitVec 2} {y : BitVec 3} (h : s.dev.Runs16 c [] [r]) (hy : mode = 3 ∨ y = 0)
    (halign : ((s.dev.co c).shortAddr a mode y).toNat % 4 = 0) (hlocal : ((s.dev.co c).shortAddr a mode y).toNat / 0x01000000 = 8)
    (hra : ownTcm c ((s.dev.co c).shortAddr a mode y).toNat = some ra) :
    exec (.load c (.short r a mode y)) s = s.after (s.dev.setCo c
      { ((s.dev.co c).wra a ((s.dev.co c).shortUpd a mode)).advance 2 1 with
        loads := (((s.dev.co c).wra a ((s.dev.co c).shortUpd a mode)).advance 2 1).loads ++
          [{ dst := r, lo := s.dev.value ra 4, hi := none, slots := 2 }] }) := by
  refine run_memShort h hy ?_
  rw [accessShort_eq]
  exact loadAt_own halign hlocal hra

theorem exec_storeShort_own {mode : BitVec 2} {y : BitVec 3} (h : s.dev.Runs16 c [] [r]) (hy : mode = 3 ∨ y = 0)
    (halign : ((s.dev.co c).shortAddr a mode y).toNat % 4 = 0) (hlocal : ((s.dev.co c).shortAddr a mode y).toNat / 0x01000000 = 8)
    (hra : ownTcm c ((s.dev.co c).shortAddr a mode y).toNat = some ra) :
    exec (.store c (.short r a mode y)) s = s.after ((s.dev.setCo c
      (((s.dev.co c).wra a ((s.dev.co c).shortUpd a mode)).advance 2 1)).setBytes ra (leBytes 4 ((s.dev.co c).rd r).toNat)) := by
  refine run_memShort h hy ?_
  rw [accessShort_eq]
  exact storeAt_own halign hlocal hra

section Long

variable (h : s.dev.Runs32 c p [] [r, r ||| 1, indexReg opd])
  (halign : ((s.dev.co c).access size r a mode sx opd).addr.toNat % 2 ^ size.toNat = 0)
  (hlocal : ((s.dev.co c).access size r a mode sx opd).addr.toNat / 0x01000000 = 8)
  (hra : ownTcm c ((s.dev.co c).access size r a mode sx opd).addr.toNat = some ra)
include h halign hlocal hra

theorem exec_loadLong_own (hlegal : memLegal false size r mode sx opd = true) :
    exec (.load c (.long p size r a mode sx opd)) s = s.after (s.dev.setCo c
      { (s.dev.co c).accessed 4 ((s.dev.co c).access size r a mode sx opd) with
        loads := ((s.dev.co c).accessed 4 ((s.dev.co c).access size r a mode sx opd)).loads ++ [s.dev.fetchedLoad ra size sx r] }) := by
  have hmode := memLegal_mode hlegal
  rw [access_eq _ _ _ _ _ _ hmode] at halign hlocal hra ⊢
  refine run_memLong h hlegal ?_
  rw [access_eq _ _ _ _ _ _ hmode, loadAt_own halign hlocal hra, loading_bytes (size := size) _ _ _ rfl]

theorem exec_storeLong_own (hlegal : memLegal true size r mode sx opd = true) :
    exec (.store c (.long p size r a mode sx opd)) s = s.after ((s.dev.setCo c
      ((s.dev.co c).accessed 4 ((s.dev.co c).access size r a mode sx opd))).setBytes ra
        (leBytes (2 ^ size.toNat) (if size = 3 then ((s.dev.co c).rpair r).toNat else ((s.dev.co c).rd r).toNat))) := by
  have hmode := memLegal_mode hlegal
  rw [access_eq _ _ _ _ _ _ hmode] at halign hlocal hra ⊢
  refine run_memLong h hlegal ?_
  rw [access_eq _ _ _ _ _ _ hmode, storeAt_own halign hlocal hra, storeBytes_eq (size := size) _ rfl]

end Long

end Sys2Proof.Machine
end

section
/-! The obligation on loads and stores: values and addresses, the bytes that a store leaves alone, the delay slots (R254, R260, R262). -/

namespace Sys2Proof.Machine

/-! Registers and delay slots. -/

theorem rd_wrd_same (k : CoreState) (r : DReg) (v : Word) : (k.wrd r v).rd r = v :=
  Vector.getElem_set_self r.isLt

theorem rd_wrd_ne (k : CoreState) {q r : DReg} (v : Word) (h : q ≠ r) : (k.wrd r v).rd q = k.rd q :=
  Vector.getElem_set_ne r.isLt q.isLt (fun heq => h (BitVec.eq_of_toNat_eq heq.symm))

section Slots

variable {k : CoreState} {r : DReg} {w : Word} (n : Nat)

/-- In the first delay slot a load's value is still on its way. -/
theorem retire_firstSlot (h : k.loads = [{ dst := r, lo := w, hi := none, slots := 2 }]) : k.retire n =
    { k with loads := [{ dst := r, lo := w, hi := none, slots := 1 }], cyc := k.cyc + BitVec.ofNat 64 n, entering := none } := by
  unfold CoreState.retire
  rw [h]
  rfl

/-- At the end of the second it is written, over what the instruction wrote there itself. -/
theorem retire_secondSlot (h : k.loads = [{ dst := r, lo := w, hi := none, slots := 1 }]) :
    k.retire n = { k.wrd r w with loads := [], cyc := k.cyc + BitVec.ofNat 64 n, entering := none } := by
  unfold CoreState.retire
  rw [h]
  rfl

end Slots

/-! A store's bytes. -/

theorem settle_setBytes {d : Dev} (h : d.Quiet) (c : CoreId) (k : CoreState) (ra : Nat) (l : List Byte) :
    ((d.setCo c k).setBytes ra l).settle = (d.setCo c k).setBytes ra l := by
  obtain ⟨hhold, hfatal⟩ := h
  exact settle_of_quiet ⟨by rw [road_setBytes]; exact hhold, by rw [fatal_setBytes]; exact hfatal⟩

variable {s t : State} {c : CoreId} {p : Pred} {size : BitVec 2} {r : DReg} {a : AReg} {mode : BitVec 3} {opd : BitVec 9} {ra : Nat}

/-- A store to the core's own memories leaves every byte outside the bytes it names as it was (R260). -/
theorem store_frame (hquiet : s.dev.Quiet) (hlocal : ((s.dev.co c).access size r a mode false opd).addr.toNat / 0x01000000 = 8)
    (hra : ownTcm c ((s.dev.co c).access size r a mode false opd).addr.toNat = some ra)
    (hstep : exec (.store c (.long p size r a mode false opd)) s = .next t)
    (hruns : s.dev.Runs32 c p [] [r, r ||| 1, indexReg opd]) (hlegal : memLegal true size r mode false opd = true)
    (halign : ((s.dev.co c).access size r a mode false opd).addr.toNat % 2 ^ size.toNat = 0) :
    (∀ b, b < ra ∨ ra + 2 ^ size.toNat ≤ b → t.dev.byte b = s.dev.byte b) ∧
      (∀ i, i < 2 ^ size.toNat → i < 4 → t.dev.byte (ra + i) = BitVec.ofNat 8 (((s.dev.co c).rd r).toNat / 256 ^ i)) ∧
      t.dev.regs = s.dev.regs ∧ t.pending = s.pending := by
  rw [exec_storeLong_own hruns halign hlocal hra hlegal, State.after, settle_setBytes hquiet] at hstep
  cases hstep
  refine ⟨fun b hb => ?outside, fun i hi h4 => ?inside, regs_setBytes _ _ _, rfl⟩
  case outside =>
    exact byte_setBytes_outside (by rwa [length_leBytes])
  case inside =>
    refine (byte_setBytes_inside (by rwa [length_leBytes])).trans ?_
    rw [getElem_leBytes]
    split_ifs
    · exact byte_rpair _ _ h4
    · rfl

/-- Settles O12: each access by its address, its bytes and the address register; a load's value by its delay slots. -/
theorem coreLoadsAndStores : Obligations.CoreLoadsAndStores := by
  unfold Obligations.CoreLoadsAndStores
  refine ⟨fun s c ra => ⟨?short, ?long⟩, ?frame, fun k r w v n m h => ?slots⟩
  case short =>
    intro mode x r a hx h addr upd hreach
    obtain ⟨hlocal, halign, hra⟩ := hreach
    exact ⟨exec_loadShort_own h hx halign hlocal hra, exec_storeShort_own h hx halign hlocal hra⟩
  case long =>
    intro p size r a mode opd n x off addr upd hmode hopd hindex hpair h hreach
    obtain ⟨hlocal, halign, hra⟩ := hreach
    have hacc (sx : Bool) := access_eq (s.dev.co c) size r a sx opd hmode
    refine ⟨fun sx hsx => ?load, ?store⟩
    case load =>
      have hlegal : memLegal false size r mode sx opd = true := memLegal_of hmode hopd hindex hpair (fun hs => ⟨rfl, hsx hs⟩)
      have hload := exec_loadLong_own (a := a) h (by rw [hacc]; exact halign) (by rw [hacc]; exact hlocal) (by rw [hacc]; exact hra) hlegal
      rw [hacc] at hload
      exact hload
    case store =>
      have hlegal : memLegal true size r mode false opd = true := memLegal_of hmode hopd hindex hpair nofun
      have hstore := exec_storeLong_own (a := a) h (by rw [hacc]; exact halign) (by rw [hacc]; exact hlocal) (by rw [hacc]; exact hra) hlegal
      rw [hacc] at hstore
      exact hstore
  case frame =>
    intro s c p size r a mode opd ra t x hquiet hlocal hra hstep hruns hlegal halign
    exact store_frame hquiet hlocal hra hstep hruns hlegal halign
  case slots =>
    have hfirst := retire_firstSlot n h
    have hsecond : (k.retire n).retire m = { k.wrd r w with loads := [], cyc := (k.retire n).cyc + BitVec.ofNat 64 m, entering := none } := by
      rw [retire_secondSlot m (by rw [hfirst]), hfirst]
      rfl
    have hover := retire_secondSlot (k := (k.retire n).wrd r v) (r := r) (w := w) m (by rw [hfirst]; rfl)
    refine ⟨by rw [hfirst]; rfl, by rw [hfirst], ?_, by rw [hover], fun q hq => ?_⟩
    · rw [hover]
      exact rd_wrd_same _ r w
    · rw [hsecond]
      exact rd_wrd_ne k w hq

end Sys2Proof.Machine
end

section
/-! The synchronous traps and the double fault (R245, R255, R274 to R276, R278). -/

namespace Sys2Proof.Machine

variable {s : State} {d : Dev} {c : CoreId} {p : Pred} {ra : Nat}

/-! Instructions that no core may execute as they stand. -/

theorem run_illegal {n : Names} {f : Dev → Dev} {ps : List PReg} {ds : List DReg} (h : s.dev.Meets32 c p ps ds)
    (he : (s.dev.co c).EntersAt c 1 ra) (hl : (s.dev.co c).loads = []) (hn : n.legal = false) :
    s.run (fun v => v.op32 c p n f) = s.after (s.dev.trapTaken c ra .illegal (s.dev.co c).pc 0 false) :=
  run_trap (t := .illegal) (op32_illegal h hn) he hl

theorem run_privileged {n : Names} {f : Dev → Dev} {ps : List PReg} {ds : List DReg} (h : s.dev.Meets32 c p ps ds)
    (he : (s.dev.co c).EntersAt c 2 ra) (hl : (s.dev.co c).loads = []) (hu : (s.dev.co c).sys = false)
    (hn : n.legal = true) (hs : n.sysOnly = true) :
    s.run (fun v => v.op32 c p n f) = s.after (s.dev.trapTaken c ra .privilege (s.dev.co c).pc 0 false) :=
  run_trap (t := .privilege) (op32_privileged h hn hs hu) he hl

theorem sysListed_of_le {n : Nat} (h : n ≤ 9) : sysListed n = true := decide_eq_true h

theorem sysListed_of_lt {n : Nat} (h : 9 < n) : sysListed n = false := decide_eq_false (not_le.mpr h)

theorem sysRead_of {n : Nat} (h1 : 1 ≤ n) (h5 : n ≤ 5) : sysRead n = true := by
  simp [sysRead, h1, h5]

theorem sysWrite_of_lt {n : Nat} (h : n < 8) : sysWrite n = true := decide_eq_true h

/-- The instructions that the statement of the fetch-error trap speaks of. -/
def fetchSamples (c : CoreId) (p : Pred) : List Instr :=
  [.nop c, .wait c, .ret c, .coreMov c 0 1, .acclr c p 0, .rete c p, .illegalInstruction c]

/-- Each of them is fetched before anything else. -/
theorem exec_fetchSample {i : Instr} (hi : i ∈ fetchSamples c p) :
    ∃ (len : Nat) (f : Dev → Dev), ∀ s, exec i s = s.run (fun v => v.instr c len [] [] f) := by
  fin_cases hi <;> exact ⟨_, _, fun _ => rfl⟩

/-! Accesses that are not made (R254, R275). -/

section Access

variable {len : Nat} {x : Access}

theorem loadAt_misaligned (h : x.addr.toNat % x.size ≠ 0) : d.loadAt c len x = d.trap c .misaligned (d.co c).pc x.addr false :=
  if_pos h

theorem storeAt_misaligned (h : x.addr.toNat % x.size ≠ 0) : d.storeAt c len x = d.trap c .misaligned (d.co c).pc x.addr false :=
  if_pos h

variable (halign : x.addr.toNat % x.size = 0) (hlocal : x.addr.toNat / 0x01000000 = 8) (hnone : ownTcm c x.addr.toNat = none)
include halign hlocal hnone

theorem loadAt_unmapped : d.loadAt c len x = d.trap c .bus (d.co c).pc x.addr false := by
  simp [Dev.loadAt, localAlias, halign, hlocal, hnone]

theorem storeAt_unmapped : d.storeAt c len x = d.trap c .bus (d.co c).pc x.addr false := by
  simp [Dev.storeAt, localAlias, halign, hlocal, hnone]

end Access

theorem size_access (k : CoreState) (size : BitVec 2) (r : DReg) (a : AReg) (mode : BitVec 3) (sx : Bool) (opd : BitVec 9) :
    (k.access size r a mode sx opd).size = 2 ^ size.toNat := by
  unfold CoreState.access
  split <;> rfl

/-- MAC.H2 at a first address that is no word's (R268). -/
theorem exec_macH2_misaligned {n x y : BitVec 2} (h : s.dev.Runs32 c p [] []) (he : (s.dev.co c).EntersAt c 6 ra)
    (hl : (s.dev.co c).loads = []) (hx : ((s.dev.co c).ra (x.setWidth 3)).toNat % 4 ≠ 0) :
    exec (.macH2 c p n x y) s =
      s.after (s.dev.trapTaken c ra .mac (s.dev.co c).pc ((s.dev.co c).ra (x.setWidth 3)) false) := by
  have hword : wordIn 0x08010000 ((s.dev.co c).ra (x.setWidth 3)) = false := by
    simp [wordIn, hx]
  refine run_op32_trap (t := .mac) h ?_ he hl
  simp only [hword, Bool.not_false, if_true]

/-! The double fault. -/

/-- With no load in flight there is nothing to complete. -/
theorem modCo_drain {d : Dev} (hl : (d.co c).loads = []) : d.modCo c CoreState.drain = d := by
  unfold Dev.modCo
  rw [drain_nil hl]
  cases d
  simp [Dev.setCo, Dev.co]

/-- An entry whose frame has no place stops the core (R278). -/
theorem trap_doubleFault {t : Trap} {ret taddr : Word} {impr : Bool} (hl : (d.co c).loads = [])
    (hf : ownTcm c ((d.co c).tsp - 8).toNat = none ∨ ((d.co c).tsp - 8).toNat % 8 ≠ 0) :
    d.trap c t ret taddr impr = d.doubleFault c := by
  have hwait : (d.co c).awaits = false := by simp [CoreState.awaits, hl]
  unfold Dev.trap Dev.takeTrap Dev.enter
  rw [hwait, modCo_drain hl, if_neg Bool.false_ne_true]
  dsimp only
  split
  · rfl
  · next hsome =>
    rw [hsome] at hf
    exact if_pos (hf.resolve_left (fun h => nomatch h))

/-- Settles O13: each trap by what the instruction meets first; an entry without a place for its frame by the double fault. -/
theorem coreTrapsEnter : Obligations.CoreTrapsEnter := by
  unfold Obligations.CoreTrapsEnter
  constructor
  · intro s c p ra k taken hl
    refine ⟨fun code he h => ?sysc, fun he h hb => ?bkpt, fun he h => ?illegal, fun he h => ⟨fun rs o => ?compare, fun r v => ?dstep,
        fun rd rs rt ct hodd => ?mulds, fun rd n hn => ⟨?mfsrNone, ?mtsrNone⟩⟩,
      fun he hu h => ⟨?rete, fun rd n h1 h5 => ?mfsrUser, fun rd n h8 => ?mtsrUser⟩, fun he hready hf i hi => ?fetch,
      fun size r a mode opd h => ⟨fun he hmis => ⟨fun hlegal => ?loadMis, fun hlegal => ?storeMis⟩,
        fun he halign hlocal hnone => ⟨fun hlegal => ?loadBus, fun hlegal => ?storeBus⟩⟩,
      fun n x y he h hx => exec_macH2_misaligned h he hl hx⟩
    case sysc => exact run_op32_trap (t := .sysc) h rfl he hl
    case bkpt => exact run_op16_trap (t := .bkpt) h (if_neg (Bool.eq_false_iff.mp hb)) he hl
    case illegal =>
      rw [exec_illegalInstruction, execIllegalInstruction]
      exact run_trap (t := .illegal) (instr_runs16 h _) he hl
    case compare => cases o <;> exact run_illegal h he hl rfl
    case dstep => exact run_illegal h he hl (decide_eq_false (not_not.mpr rfl))
    case mulds => exact run_illegal h he hl (congrArg (!·) hodd)
    case mfsrNone => exact run_illegal h he hl (sysListed_of_lt hn)
    case mtsrNone => exact run_illegal h he hl (sysListed_of_lt hn)
    case rete => exact run_privileged h he hl hu rfl rfl
    case mfsrUser => exact run_privileged h he hl hu (sysListed_of_le (by omega)) (sysRead_of h1 h5)
    case mtsrUser => exact run_privileged h he hl hu (sysListed_of_le (by omega)) (sysWrite_of_lt h8)
    case fetch =>
      obtain ⟨len, f, hrun⟩ := exec_fetchSample hi
      rw [hrun]
      exact run_trap (t := .fetch) (instr_unfetchable hready hf) he hl
    case loadMis =>
      exact run_memLong h hlegal ((loadAt_misaligned (by rwa [size_access])).trans (trap_succeeds (t := .misaligned) he hl))
    case storeMis =>
      exact run_memLong h hlegal ((storeAt_misaligned (by rwa [size_access])).trans (trap_succeeds (t := .misaligned) he hl))
    case loadBus =>
      exact run_memLong h hlegal ((loadAt_unmapped (by rwa [size_access]) hlocal hnone).trans (trap_succeeds (t := .bus) he hl))
    case storeBus =>
      exact run_memLong h hlegal ((storeAt_unmapped (by rwa [size_access]) hlocal hnone).trans (trap_succeeds (t := .bus) he hl))
  · intro s c h hl hf d
    exact run_op32 h (trap_doubleFault hl hf)

end Sys2Proof.Machine
end

section
/-! System registers: MFSR and MTSR (R245, R272, R287). -/

namespace Sys2Proof.Machine

variable {s : State} {c : CoreId} {p : Pred} {r : DReg} {n : BitVec 8}

/-- A 1 written to SEC clears it, and the bits that are no field of SR stay (R272). -/
theorem srWrite_eq (old v : Word) :
    srWrite old v = (old &&& 0x50FFFFFF ||| v &&& 0xAF000000) &&& ~~~(v &&& 0x40000000) := by
  rw [srWrite, merge, show ~~~(0xAF000000 : Word) = 0x50FFFFFF from rfl]

theorem exec_mfsr_reads (h : s.dev.Runs32 c p [] [r]) (hlegal : sysListed n.toNat = true)
    (hsys : sysRead n.toNat = true → (s.dev.co c).sys = true) (hn : n ≠ 6) :
    exec (.mfsr c p r n) s = s.after (s.dev.setCo c (((s.dev.co c).wrd r ((s.dev.co c).sysReg n.toNat)).advance 4 1)) := by
  rw [exec_mfsr, execMfsr]
  refine run_eq_after ((op32_runs h hlegal hsys).trans ?_)
  rw [if_neg hn]
  rfl

/-- A read of CYCL adds a free amount to the cycle count, and captures its upper half (R272, log entry 7). -/
theorem exec_mfsr_cycles (h : s.dev.Runs32 c p [] [r]) :
    exec (.mfsr c p r 6) s =
      s.after ({ s.dev with free := s.dev.free + 1 }.setCo c
        (({ s.dev.co c with
            cyc := (s.dev.co c).cyc + Config.freeWord s.dev.free,
            cych := (((s.dev.co c).cyc + Config.freeWord s.dev.free) >>> 32).setWidth 32 }.wrd r
          (((s.dev.co c).cyc + Config.freeWord s.dev.free).setWidth 32)).advance 4 1)) := by
  rw [exec_mfsr, execMfsr]
  refine run_eq_after ((op32_runs (n := { ds := [r], legal := sysListed 6, sysOnly := sysRead 6 }) h rfl nofun).trans ?_)
  simp only [if_true, Dev.readCycles, Dev.fresh, Dev.modCo, co_setCo_same, setCo_setCo]
  rfl

theorem exec_mtsr_writes (h : s.dev.Runs32 c p [] [r]) (hlegal : sysListed n.toNat = true)
    (hsys : sysWrite n.toNat = true → (s.dev.co c).sys = true) :
    exec (.mtsr c p r n) s = s.after (s.dev.setCo c (((s.dev.co c).setSysReg n.toNat ((s.dev.co c).rd r)).advance 4 1)) := by
  rw [exec_mtsr, execMtsr]
  exact run_eq_after (long_runs h hlegal hsys)

/-- Settles O14: each register by its number, read or written where the core's mode admits it. -/
theorem systemRegisters : Obligations.SystemRegisters := by
  unfold Obligations.SystemRegisters
  intro s c p r h k v read written
  refine ⟨fun hsys => ⟨?cfg, ?vtb, ?tcause, ?taddr, ?tsp, ?srWritten, ?cfgWritten, ?vtbWritten, fun n hn => ?readOnly, ?tspWritten⟩,
    ?sr, ?cych, ?fpcr, ?fpsr, ?cycl, ?fpcrWritten, ?fpsrWritten⟩
  case cfg => exact exec_mfsr_reads h rfl (fun _ => hsys) (by decide)
  case vtb => exact exec_mfsr_reads h rfl (fun _ => hsys) (by decide)
  case tcause => exact exec_mfsr_reads h rfl (fun _ => hsys) (by decide)
  case taddr => exact exec_mfsr_reads h rfl (fun _ => hsys) (by decide)
  case tsp => exact exec_mfsr_reads h rfl (fun _ => hsys) (by decide)
  case srWritten =>
    rw [← srWrite_eq]
    exact exec_mtsr_writes h rfl (fun _ => hsys)
  case cfgWritten => exact exec_mtsr_writes h rfl (fun _ => hsys)
  case vtbWritten => exact exec_mtsr_writes h rfl (fun _ => hsys)
  case readOnly => fin_cases hn <;> exact exec_mtsr_writes h rfl (fun _ => hsys)
  case tspWritten => exact exec_mtsr_writes h rfl (fun _ => hsys)
  case sr => exact exec_mfsr_reads h rfl nofun (by decide)
  case cych => exact exec_mfsr_reads h rfl nofun (by decide)
  case fpcr => exact exec_mfsr_reads h rfl nofun (by decide)
  case fpsr => exact exec_mfsr_reads h rfl nofun (by decide)
  case cycl => exact exec_mfsr_cycles h
  case fpcrWritten => exact exec_mtsr_writes h rfl nofun
  case fpsrWritten => exact exec_mtsr_writes h rfl nofun

end Sys2Proof.Machine
end

section
/-! Event entry, its take-over, the imprecise trap, and RETE (R275, R277, R303 to R305). -/

namespace Sys2Proof.Machine

variable {d : Dev} {c : CoreId} {n ra : Nat}

/-! What an entry leaves of SR. -/

theorem sys_setLvl (k : CoreState) (x : Nat) : (k.setLvl x).sys = k.sys := by
  simp only [CoreState.sys, CoreState.setLvl]
  rw [getLsbD_setBits _ _ _ _ _ (by decide)]
  rfl

theorem sys_setIe (k : CoreState) (b : Bool) : (k.setIe b).sys = k.sys := getLsbD_setBit_ne _ _ (by decide)

theorem sys_retire (k : CoreState) (n : Nat) : (k.retire n).sys = k.sys := congrArg (BitVec.getLsbD · 31) (sr_retire k n)

/-- LVL and IE are different bits of SR. -/
theorem setLvl_setIe (k : CoreState) (b : Bool) (x : Nat) : (k.setIe b).setLvl x = (k.setLvl x).setIe b := by
  have hsr : setBits (setBit k.sr 29 b) 27 24 x = setBit (setBits k.sr 27 24 x) 29 b := by
    refine BitVec.eq_of_getLsbD_eq fun i _ => ?_
    rw [getLsbD_setBits _ _ _ _ _ (by decide)]
    by_cases hi : i = 29
    · subst hi
      rw [getLsbD_setBit_same _ _ (by decide), getLsbD_setBit_same _ _ (by decide)]
      rfl
    · rw [getLsbD_setBit_ne _ _ hi, getLsbD_setBit_ne _ _ hi, getLsbD_setBits _ _ _ _ _ (by decide)]
  simp only [CoreState.setLvl, CoreState.setIe, hsr]

/-- What a core can fetch turns on its mode alone (R245). -/
theorem fetchable_congr {k j : CoreState} (h : j.sys = k.sys) (a : Word) : j.fetchable a = k.fetchable a := by
  unfold CoreState.fetchable
  rw [h]

/-! Claims and preemption. -/

theorem offerAbove_some {lvl : Nat} (ho : d.offer c.val = some n) (hl : lvl < d.fld (R.EVC_SRC_PRIO n)) :
    d.offerAbove c lvl = some n := by
  unfold Dev.offerAbove
  rw [ho]
  exact Option.filter_some_pos (decide_eq_true hl)

theorem fld_of_regs {e : Dev} (h : e.regs = d.regs) (f : Fld) : e.fld f = d.fld f := fld_congr (reg_of_regs h f.addr)

theorem preEnabled_of_regs {e : Dev} (h : e.regs = d.regs) (x : StreamId) : e.preEnabled x = d.preEnabled x :=
  congrArg (Nat.testBit · x.val) (fld_of_regs h _)

/-- A core whose preemption is not enabled stops no stream when it enters a handler (R152). -/
theorem handler_disabled (h : d.preEnabled c = false) (prio : Nat) : d.handler c prio = d := by
  unfold Dev.handler Dev.preRequest
  rw [h, Bool.false_and, if_neg Bool.false_ne_true, ite_self]

/-- A part whose source n core c has claimed (R301). -/
def Dev.claimedBy (d : Dev) (c : CoreId) (n : Nat) : Dev := ((d.setPend n false).setAct n true).setOwner n c.val

theorem claimedBy_evcOnly (d : Dev) (c : CoreId) (n : Nat) : d.EvcOnly (d.claimedBy c n) := rfl

theorem claim_offer (h : d.offer c.val = some n) : (d.claim c.val).2 = d.claimedBy c n := congrArg Prod.snd (claim_some h)

theorem giveBack_evcOnly (d : Dev) (n : Nat) : d.EvcOnly (d.giveBack n) :=
  Dev.EvcOnly.trans (e := ((d.setAct n false).setOwner n 5).setPend n true) rfl (askHost_evcOnly _ n)

/-- The core goes on at a vector that it can fetch, with the source's priority as its level. -/
theorem toVector_succeeds {f : CoreState → CoreState} (hf : (f (d.co c)).fetchable ((d.co c).vector (32 + n)) = true)
    (hp : d.preEnabled c = false) : d.toVector c n f =
      d.setCo c { (f (d.co c)).setLvl (d.fld (R.EVC_SRC_PRIO n)) with pc := (d.co c).vector (32 + n) } := by
  have hfetch : ({ (f (d.co c)).setLvl (d.fld (R.EVC_SRC_PRIO n)) with pc := (d.co c).vector (32 + n) } : CoreState).fetchable
      ((d.co c).vector (32 + n)) = true :=
    (fetchable_congr (k := f (d.co c)) (sys_setLvl _ _) _).trans hf
  unfold Dev.toVector
  simp only [Dev.modCo, co_setCo_same]
  refine (congrArg (fun e : Dev => e.handler c (d.fld (R.EVC_SRC_PRIO n))) (if_pos hfetch)).trans ?_
  exact handler_disabled ((preEnabled_of_regs (regs_setCo _ _ _) c).trans hp) _

/-! Event entry. -/

section Entry

variable (hready : d.coreReady c = true) (hie : (d.co c).ie = true) (ho : d.offer c.val = some n)
  (hlvl : (d.co c).lvl < d.fld (R.EVC_SRC_PRIO n)) (hp : d.preEnabled c = false)
include hready hie ho hlvl hp

/-- The entry of R303. -/
theorem eventEntry_enters (hl : (d.co c).loads = []) (hnone : (d.co c).entering = none) (he : (d.co c).EntersAt c (32 + n) ra) :
    d.eventEntry c = (((d.claimedBy c n).setWord32 ra (d.co c).pc).setWord32 (ra + 4) (d.co c).srWord).setCo c { d.co c with
      tsp := (d.co c).tsp - 8, sr := setBit (setBits (d.co c).sr 27 24 (d.fld (R.EVC_SRC_PRIO n))) 31 true,
      pc := (d.co c).vector (32 + n), cyc := (d.co c).cyc + 6, entering := some n } := by
  have hevc := claimedBy_evcOnly d c n
  have hco := hevc.co c
  have hslots : (d.co c).inSlots = false := by simp [CoreState.inSlots, hl]
  unfold Dev.eventEntry
  simp only [hready, hie, hslots, Bool.not_true, Bool.or_self, Bool.false_eq_true, if_false, offerAbove_some ho hlvl, claim_offer ho,
    hnone]
  rw [handler_disabled ((preEnabled_of_regs ((regs_enter _ _ _ _ _).trans hevc.regs) c).trans hp),
    enter_succeeds (by rw [hco]; exact he), hco]
  rfl

/-- A higher offer takes over an entry whose handler has not begun (R304). -/
theorem eventEntry_takesOver {old : Nat} (hslots : (d.co c).inSlots = false) (hold : (d.co c).entering = some old)
    (hf : (d.co c).fetchable ((d.co c).vector (32 + n)) = true) :
    d.eventEntry c = ((d.claimedBy c n).giveBack old).setCo c
      { ({ d.co c with entering := some n }.setLvl (d.fld (R.EVC_SRC_PRIO n))) with pc := (d.co c).vector (32 + n) } := by
  have hevc : d.EvcOnly ((d.claimedBy c n).giveBack old) := (claimedBy_evcOnly d c n).trans (giveBack_evcOnly _ _)
  have hco := hevc.co c
  have hregs : (((d.claimedBy c n).giveBack old).modCo c (fun k => { k with entering := some n })).regs = d.regs := hevc.regs
  unfold Dev.eventEntry
  simp only [hready, hie, hslots, Bool.not_true, Bool.or_self, Bool.false_eq_true, if_false, offerAbove_some ho hlvl, claim_offer ho,
    hold]
  rw [toVector_succeeds (by rw [co_modCo_same, hco]; exact hf) ((preEnabled_of_regs hregs c).trans hp), fld_of_regs hregs,
    co_modCo_same, hco, Dev.modCo, setCo_setCo]
  rfl

end Entry

/-! The imprecise trap (R275). -/

theorem trapNo_trapOf {n : BitVec 5} (h : n = 9 ∨ n = 10 ∨ n = 4) : trapNo (trapOf n) = n := by
  rcases h with rfl | rfl | rfl <;> rfl

theorem takeImprecise_enters {n : BitVec 5} {a : Word} {r : List (BitVec 5 × Word)} (himpr : (d.co c).impr = (n, a) :: r)
    (hn : n = 9 ∨ n = 10 ∨ n = 4) (hdue : (d.co c).due = none) (hhalt : (d.co c).halted = false)
    (hmode : (d.co c).mode = .run ∨ (d.co c).mode = .wait) (hl : (d.co c).loads = []) (he : (d.co c).EntersAt c n.toNat ra) :
    d.takeImprecise c =
      (d.setCo c { d.co c with impr := r, mode := .run }).trapTaken c ra (trapOf n) (d.co c).pc a true := by
  have hruns : (decide ((d.co c).mode = .run) || decide ((d.co c).mode = .wait)) = true := by simpa using hmode
  unfold Dev.takeImprecise
  simp only [himpr, hdue, hhalt, hruns, Option.isSome_none, Bool.not_true, Bool.or_self, Bool.false_eq_true, if_false]
  refine trap_succeeds ?_ (by rw [co_setCo_same]; exact hl)
  rw [trapNo_trapOf hn, co_setCo_same]
  exact he

/-! RETE (R277, R305). -/

/-- The second word of an aligned frame lies with the first. -/
theorem ownTcm_frame {a : Word} (halign : a.toNat % 8 = 0) (h : ownTcm c a.toNat = some ra) : ownTcm c (a + 4).toNat = some (ra + 4) := by
  have hadd : (a + 4).toNat = a.toNat + 4 := by
    rw [BitVec.toNat_add]
    have hlt := a.isLt
    change (a.toNat + 4) % 2 ^ 32 = _
    omega
  have hdiv : (a.toNat + 4) / 0x01000000 = a.toNat / 0x01000000 := by omega
  have hmod : (a.toNat + 4) % 0x01000000 = a.toNat % 0x01000000 + 4 := by omega
  unfold ownTcm at h ⊢
  rw [hadd]
  simp only [hdiv, hmod, Bool.or_eq_true, Bool.and_eq_true, decide_eq_true_eq] at h ⊢
  split_ifs at h with hrange hoff
  rw [if_pos hrange, if_pos (by omega)]
  cases h
  rfl

theorem frameWord_own {a : Word} (h : ownTcm c a.toNat = some ra) : d.frameWord c a = .answered 0 (d.word32 ra) d := by
  unfold Dev.frameWord
  rw [h]

/-- A frame in the core's own memories is read, and the return is made with it. -/
theorem returnFrom_own (halign : (d.co c).tsp.toNat % 8 = 0) (hra : ownTcm c (d.co c).tsp.toNat = some ra) :
    d.returnFrom c = d.returnTo c (d.word32 ra) (d.word32 (ra + 4)) := by
  unfold Dev.returnFrom
  simp only [halign, frameWord_own hra, frameWord_own (ownTcm_frame halign hra), ne_eq, not_true_eq_false, if_false]

/-- With no offer above the saved level, or in a load's delay slot, the core returns (R264, R277). -/
theorem returnTo_returns {pc sr : Word}
    (h : sr.getLsbD 29 = false ∨ ((d.co c).retire 4).inSlots = true ∨ d.offerAbove c (bits sr.toNat 27 24) = none) :
    d.returnTo c pc sr = d.setCo c ({ d.co c with
      sr := setBit (sr &&& 0xAF000000) 30 ((d.co c).sec && sr.getLsbD 30), tsp := (d.co c).tsp + 8 }.jump pc 4) := by
  have hnone : (if CoreState.ie { d.co c with sr := sr } && !((d.co c).retire 4).inSlots then
      d.offerAbove c (CoreState.lvl { d.co c with sr := sr }) else none) = none := by
    rcases h with h | h | h
    · rw [show CoreState.ie { d.co c with sr := sr } = false from h, Bool.false_and, if_neg Bool.false_ne_true]
    · rw [h, Bool.not_true, Bool.and_false, if_neg Bool.false_ne_true]
    · rw [show d.offerAbove c (CoreState.lvl { d.co c with sr := sr }) = none from h, ite_self]
  unfold Dev.returnTo
  simp only [hnone]
  rfl

/-- With an offer above the saved level it enters that source's handler in the same frame (R305). -/
theorem returnTo_chains {pc sr : Word} (hie : sr.getLsbD 29 = true) (hslots : ((d.co c).retire 4).inSlots = false)
    (ho : d.offer c.val = some n) (hlvl : bits sr.toNat 27 24 < d.fld (R.EVC_SRC_PRIO n))
    (hf : (d.co c).fetchable ((d.co c).vector (32 + n)) = true) (hp : d.preEnabled c = false) :
    d.returnTo c pc sr = (d.claimedBy c n).setCo c
      { (((d.co c).retire 4).setLvl (d.fld (R.EVC_SRC_PRIO n))).setIe true with pc := (d.co c).vector (32 + n) } := by
  have hevc := claimedBy_evcOnly d c n
  have hfetch : (((d.co c).retire 4).setIe true).fetchable ((d.co c).vector (32 + n)) = true :=
    (fetchable_congr ((sys_setIe _ _).trans (sys_retire _ _)) _).trans hf
  unfold Dev.returnTo
  simp only [CoreState.ie, CoreState.lvl, hie, hslots, Bool.not_false, Bool.and_self, if_true, offerAbove_some ho hlvl, claim_offer ho]
  rw [toVector_succeeds (by rw [hevc.co]; exact hfetch) ((preEnabled_of_regs hevc.regs c).trans hp), fld_of_regs hevc.regs, hevc.co,
    setLvl_setIe]

/-- Settles O15: the entry and its take-over by the core's offer, the trap by the first that waits, RETE by the frame's words. -/
theorem eventEntryAndReturn : Obligations.EventEntryAndReturn := by
  unfold Obligations.EventEntryAndReturn
  intro s c d k
  refine ⟨?entry, ?takeOver, ?imprecise, fun p ra h hsys halign hra => ⟨fun hback => ?returns, ?chains⟩⟩
  case entry =>
    intro n ra hready hie hl ho hlvl hnone he hp
    exact run_eq_after (f := fun d => d.eventEntry c) (eventEntry_enters hready hie ho hlvl hp hl hnone he)
  case takeOver =>
    intro n old hready hie hslots ho hlvl hold hf hp
    exact run_eq_after (f := fun d => d.eventEntry c) (eventEntry_takesOver hready hie ho hlvl hp hslots hold hf)
  case imprecise =>
    intro n a r ra himpr hn hdue hhalt hmode hl he
    exact run_eq_after (f := fun d => d.takeImprecise c) (takeImprecise_enters himpr hn hdue hhalt hmode hl he)
  case returns =>
    rw [exec_rete, execRete]
    exact run_eq_after ((op32_runs h rfl (fun _ => hsys)).trans ((returnFrom_own halign hra).trans (returnTo_returns hback)))
  case chains =>
    intro n hie hslots ho hlvl hf hp
    rw [exec_rete, execRete]
    exact run_eq_after ((op32_runs h rfl (fun _ => hsys)).trans
      ((returnFrom_own halign hra).trans (returnTo_chains hie hslots ho hlvl hf hp)))

end Sys2Proof.Machine
end

section
/-! The state after the first power-on (R271, R377, R400, R401, R409). -/

namespace Sys2Proof.Machine

/-- PWR_DSTAT has no domain on. -/
theorem dstat_reset : State.reset.dev.reg R.PWR_DSTAT = 0 := by decide +kernel

theorem domOn_reset (k : Nat) : State.reset.dev.domOn k = false := by
  rw [Dev.domOn, dstat_reset]
  exact BitVec.getLsbD_zero

theorem mode_co_reset (c : CoreId) : (State.reset.dev.co c).mode = .reset := by
  revert c
  decide

/-- Settles O58: registers and memory by their reset values, the rest by the empty state. -/
theorem resetState : Obligations.ResetState := by
  unfold Obligations.ResetState
  refine ⟨⟨?mode, fun k _ _ => domOn_reset k, mode_co_reset, rfl, rfl, fun a => rfl, ?lcs, rfl, rfl, fun a => rfl, rfl⟩,
    rfl, wf_reset⟩
  case mode => decide +kernel
  case lcs => decide +kernel

end Sys2Proof.Machine
end

section
/-! Division by DSTEP steps (R88, R113, R284, R285): remainder and quotient register as one number that a step doubles. A step whose
quotient bit is 1 also takes off the divisor, at the remainder's place, and adds that bit. -/

namespace Sys2Proof.Machine

/-- One DSTEP of a PE by the divisor v, on a remainder of wd bits and a quotient register of w bits. -/
def divideBy (wd wa w v : Nat) (p : Nat × Nat) : Nat × Nat := laneDstep ⟨wd, wa, w, v, p.2, p.1, false⟩

/-- The number that a remainder and a quotient register of w bits hold together (R113). -/
def joined (w : Nat) (p : Nat × Nat) : Nat := p.1 * 2 ^ w + p.2

/-- The remainder doubled, with the quotient register's top bit. -/
def shiftedIn (w : Nat) (p : Nat × Nat) : Nat := 2 * p.1 + bn (p.2.testBit (w - 1))

variable {wd wa w v : Nat} {p : Nat × Nat}

theorem bn_le_one (b : Bool) : bn b ≤ 1 := by
  cases b <;> decide

theorem bn_testBit (q i : Nat) : bn (q.testBit i) = q / 2 ^ i % 2 := by
  rw [← Nat.toNat_testBit]
  cases q.testBit i <;> rfl

/-- A register shifted left doubles what its lower bits hold. -/
theorem two_mul_mod_two_pow (hw : 0 < w) (q : Nat) : 2 * q % 2 ^ w = 2 * (q % 2 ^ (w - 1)) := by
  rw [← Nat.mul_mod_mul_left, mul_pow_sub_one hw.ne']

theorem two_mul_mod_two_pow_even (hw : 0 < w) (q : Nat) : 2 * q % 2 ^ w % 2 = 0 := by
  rw [two_mul_mod_two_pow hw, Nat.mul_mod_right]

/-- A register shifted left falls into its top bit and the rest. -/
theorem top_add_shifted (hw : 0 < w) {q : Nat} (hq : q < 2 ^ w) : bn (q.testBit (w - 1)) * 2 ^ w + 2 * q % 2 ^ w = 2 * q := by
  obtain ⟨n, rfl⟩ := Nat.exists_eq_succ_of_ne_zero hw.ne'
  have htop : q / 2 ^ n < 2 := Nat.div_lt_of_lt_mul (by rwa [← Nat.pow_succ])
  have hdiv := Nat.div_add_mod q (2 ^ n)
  rw [two_mul_mod_two_pow hw, bn_testBit, Nat.succ_sub_one, Nat.mod_eq_of_lt htop, Nat.pow_succ]
  linarith

theorem joined_shifted (hw : 0 < w) (hq : p.2 < 2 ^ w) : shiftedIn w p * 2 ^ w + 2 * p.2 % 2 ^ w = 2 * joined w p := by
  have htop := top_add_shifted hw hq
  unfold shiftedIn joined
  linarith

theorem divideBy_fits (hw : 0 < w) (hfit : v ≤ shiftedIn w p) :
    divideBy wd wa w v p = ((shiftedIn w p - v) % 2 ^ wd, 2 * p.2 % 2 ^ w + 1) := by
  refine (if_pos hfit).trans (congrArg (Prod.mk _) ?_)
  dsimp only
  rw [two_mul_mod_two_pow_even hw]

theorem divideBy_exceeds (hw : 0 < w) (hfit : ¬v ≤ shiftedIn w p) :
    divideBy wd wa w v p = (shiftedIn w p % 2 ^ wd, 2 * p.2 % 2 ^ w) := by
  refine (if_neg hfit).trans (congrArg (Prod.mk _) ?_)
  dsimp only
  rw [two_mul_mod_two_pow_even hw, Nat.sub_zero]

/-- A step keeps the quotient register's width. -/
theorem divideBy_snd_lt (hw : 0 < w) : (divideBy wd wa w v p).2 < 2 ^ w := by
  have hshift := two_mul_mod_two_pow hw p.2
  have hrest : p.2 % 2 ^ (w - 1) < 2 ^ (w - 1) := Nat.mod_lt _ (by positivity)
  have hdouble := Nat.two_pow_pred_add_two_pow_pred hw
  by_cases hfit : v ≤ shiftedIn w p
  · rw [divideBy_fits hw hfit]
    dsimp only
    omega
  · rw [divideBy_exceeds hw hfit]
    dsimp only
    omega

theorem shiftedIn_lt (hr : p.1 < v) : shiftedIn w p < 2 * v := by
  have hbit := bn_le_one (p.2.testBit (w - 1))
  unfold shiftedIn
  omega

/-- A step keeps the remainder below the divisor. -/
theorem divideBy_fst_lt (hw : 0 < w) (hr : p.1 < v) : (divideBy wd wa w v p).1 < v := by
  have hin : shiftedIn w p < 2 * v := shiftedIn_lt hr
  by_cases hfit : v ≤ shiftedIn w p
  · rw [divideBy_fits hw hfit]
    exact (Nat.mod_le _ _).trans_lt (by omega)
  · rw [divideBy_exceeds hw hfit]
    exact (Nat.mod_le _ _).trans_lt (not_le.mp hfit)

/-- A step below the divisor doubles the joined number and takes off the divisor with the quotient bit f. -/
theorem joined_divideBy (hw : 0 < w) (hv : v ≤ 2 ^ wd) (hr : p.1 < v) (hq : p.2 < 2 ^ w) :
    ∃ f ≤ 1, joined w (divideBy wd wa w v p) + f * (v * 2 ^ w) = 2 * joined w p + f := by
  have hshift := joined_shifted hw hq
  have hin : shiftedIn w p < 2 * v := shiftedIn_lt hr
  by_cases hfit : v ≤ shiftedIn w p
  · obtain ⟨t, ht⟩ := Nat.exists_eq_add_of_le hfit
    refine ⟨1, le_rfl, ?_⟩
    rw [divideBy_fits hw hfit, joined, Nat.mod_eq_of_lt (show shiftedIn w p - v < 2 ^ wd by omega)]
    rw [ht] at hshift ⊢
    rw [Nat.add_sub_cancel_left]
    linarith
  · refine ⟨0, Nat.zero_le 1, ?_⟩
    rw [divideBy_exceeds hw hfit, joined, Nat.mod_eq_of_lt (show shiftedIn w p < 2 ^ wd by omega)]
    linarith

theorem repeat_fst_lt (hw : 0 < w) (hr : p.1 < v) (k : Nat) : (Nat.repeat (divideBy wd wa w v) k p).1 < v := by
  induction k with
  | zero => exact hr
  | succ k ih => exact divideBy_fst_lt hw ih

theorem repeat_snd_lt (hw : 0 < w) (hq : p.2 < 2 ^ w) (k : Nat) : (Nat.repeat (divideBy wd wa w v) k p).2 < 2 ^ w := by
  cases k with
  | zero => exact hq
  | succ k => exact divideBy_snd_lt hw

/-- After k steps the k quotient bits say how often the divisor has been taken off. -/
theorem joined_repeat (hw : 0 < w) (hv : v ≤ 2 ^ wd) (hr : p.1 < v) (hq : p.2 < 2 ^ w) (k : Nat) :
    ∃ u < 2 ^ k, joined w (Nat.repeat (divideBy wd wa w v) k p) + u * (v * 2 ^ w) = 2 ^ k * joined w p + u := by
  induction k with
  | zero => exact ⟨0, Nat.one_pos, by rw [pow_zero, one_mul, zero_mul]; rfl⟩
  | succ k ih =>
    obtain ⟨u, hu, hk⟩ := ih
    obtain ⟨f, hf, hstep⟩ := joined_divideBy (wa := wa) hw hv (repeat_fst_lt hw hr k) (repeat_snd_lt hw hq k)
    refine ⟨2 * u + f, by rw [Nat.pow_succ]; omega, ?_⟩
    change joined w (divideBy wd wa w v _) + _ = _
    rw [Nat.pow_succ]
    linarith

/-- With the remainder below the divisor, as many steps as the quotient register has bits divide the joined number (R113). -/
theorem repeat_divideBy_divides (hw : 0 < w) (hv : v ≤ 2 ^ wd) (hr : p.1 < v) (hq : p.2 < 2 ^ w) :
    Nat.repeat (divideBy wd wa w v) w p = (joined w p % v, joined w p / v) ∧ joined w p / v < 2 ^ w := by
  obtain ⟨u, hu, hsteps⟩ := joined_repeat (wa := wa) hw hv hr hq w
  have hrem := repeat_fst_lt (wd := wd) (wa := wa) hw hr w
  have hquot := repeat_snd_lt (wd := wd) (wa := wa) (v := v) hw hq w
  generalize Nat.repeat (divideBy wd wa w v) w p = e at *
  have hpair : (e.1 + u * v) * 2 ^ w + e.2 = joined w p * 2 ^ w + u := by
    unfold joined at hsteps ⊢
    linarith
  have hu' : u = e.2 := by
    rw [← Nat.mul_add_mod_of_lt hu, ← hpair, Nat.mul_add_mod_of_lt hquot]
  have hsum : e.1 + v * u = joined w p := by
    rw [mul_comm, ← Nat.mul_right_cancel_iff (show 0 < 2 ^ w by positivity)]
    omega
  obtain ⟨hdiv, hmod⟩ := (Nat.div_mod_unique (Nat.zero_lt_of_lt hr)).mpr ⟨hsum, hrem⟩
  rw [hdiv, hmod, hu']
  exact ⟨rfl, hquot⟩

/-! A divisor of 0: every quotient bit is 1 (R113). -/

theorem joined_divideBy_zero (hw : 0 < w) (hq : p.2 < 2 ^ w) :
    joined w (divideBy wd wa w 0 p) + 1 ≡ 2 * (joined w p + 1) [MOD 2 ^ wd * 2 ^ w] := by
  have hshift := joined_shifted hw hq
  have hrem : shiftedIn w p % 2 ^ wd * 2 ^ w ≡ shiftedIn w p * 2 ^ w [MOD 2 ^ wd * 2 ^ w] :=
    Nat.ModEq.mul_right' _ (Nat.mod_modEq _ _)
  rw [divideBy_fits hw (Nat.zero_le _), joined, Nat.sub_zero, show 2 * (joined w p + 1) =
    shiftedIn w p * 2 ^ w + (2 * p.2 % 2 ^ w + 1 + 1) by omega, add_assoc]
  exact hrem.add_right _

theorem joined_repeat_zero (hw : 0 < w) (hq : p.2 < 2 ^ w) (k : Nat) :
    joined w (Nat.repeat (divideBy wd wa w 0) k p) + 1 ≡ 2 ^ k * (joined w p + 1) [MOD 2 ^ wd * 2 ^ w] := by
  induction k with
  | zero => rw [pow_zero, one_mul]; rfl
  | succ k ih =>
    rw [Nat.pow_succ', mul_assoc]
    exact (joined_divideBy_zero hw (repeat_snd_lt hw hq k)).trans (ih.mul_left 2)

/-- A step by 0 leaves a remainder of wd bits. -/
theorem divideBy_zero_fst_lt (hw : 0 < w) : (divideBy wd wa w 0 p).1 < 2 ^ wd := by
  rw [divideBy_fits hw (Nat.zero_le _)]
  exact Nat.mod_lt _ (by positivity)

/-- Dividing by 0 with a remainder of 0 leaves all ones, and as much of the dividend as the remainder holds (R113). -/
theorem repeat_divideBy_zero (hw : 0 < w) {b : Nat} (hb : b < 2 ^ w) :
    Nat.repeat (divideBy wd wa w 0) w (0, b) = (b % 2 ^ wd, 2 ^ w - 1) := by
  have hsteps := joined_repeat_zero (wd := wd) (wa := wa) (p := (0, b)) hw hb w
  have hquot := repeat_snd_lt (wd := wd) (wa := wa) (v := 0) (p := (0, b)) hw hb w
  have hrem : (Nat.repeat (divideBy wd wa w 0) w (0, b)).1 < 2 ^ wd := by
    obtain ⟨n, rfl⟩ := Nat.exists_eq_succ_of_ne_zero hw.ne'
    exact divideBy_zero_fst_lt hw
  generalize Nat.repeat (divideBy wd wa w 0) w (0, b) = e at *
  obtain ⟨x, y⟩ := e
  have hone : y = 2 ^ w - 1 := by
    have hmod : (x * 2 ^ w + (y + 1)) % 2 ^ w = 2 ^ w * (0 * 2 ^ w + b + 1) % 2 ^ w := hsteps.of_mul_left _
    rw [Nat.mul_add_mod', Nat.mul_mod_right] at hmod
    have hdvd := Nat.le_of_dvd (Nat.succ_pos y) (Nat.dvd_of_mod_eq_zero hmod)
    dsimp only at hquot
    omega
  have hpair : joined w (x, y) + 1 = (x + 1) * 2 ^ w := by
    have hpos := Nat.two_pow_pos w
    rw [hone, joined, add_assoc, Nat.sub_add_cancel hpos, Nat.succ_mul]
  have hshift : x + 1 ≡ b + 1 [MOD 2 ^ wd] := by
    rw [hpair, joined, zero_mul, zero_add, mul_comm (2 ^ w)] at hsteps
    exact Nat.ModEq.mul_right_cancel' (Nat.two_pow_pos w).ne' hsteps
  have hx : x = b % 2 ^ wd := (Nat.mod_eq_of_lt hrem).symm.trans (hshift.add_right_cancel' 1)
  rw [hx, hone]

/-! A core's step, and the obligation. -/

/-- A core's remainder and quotient register as numbers. -/
def wordPair (p : Word × Word) : Nat × Nat := (p.1.toNat, p.2.toNat)

theorem wordPair_divStep (v : Word) (p : Word × Word) : wordPair (divStep p.1 p.2 v) = divideBy 32 32 32 v.toNat (wordPair p) := by
  have hshl : (p.2 <<< 1).toNat = 2 * p.2.toNat % 2 ^ 32 := by
    rw [BitVec.toNat_shiftLeft, Nat.shiftLeft_eq, Nat.pow_one, mul_comm]
  have hor : (p.2 <<< 1 ||| 1).toNat = 2 * p.2.toNat % 2 ^ 32 + 1 := by
    rw [BitVec.toNat_or, hshl, two_mul_mod_two_pow (by decide)]
    exact (Nat.two_pow_add_eq_or_of_lt (i := 1) (by decide) _).symm
  by_cases hfit : v.toNat ≤ shiftedIn 32 (wordPair p)
  · have hstep : divStep p.1 p.2 v = (BitVec.ofNat 32 (shiftedIn 32 (wordPair p) - v.toNat), p.2 <<< 1 ||| 1) := if_pos hfit
    rw [divideBy_fits (by decide) hfit, hstep, wordPair, hor, BitVec.toNat_ofNat]
    rfl
  · have hstep : divStep p.1 p.2 v = (BitVec.ofNat 32 (shiftedIn 32 (wordPair p)), p.2 <<< 1) := if_neg hfit
    rw [divideBy_exceeds (by decide) hfit, hstep, wordPair, hshl, BitVec.toNat_ofNat]
    rfl

theorem wordPair_repeat (v : Word) (p : Word × Word) (k : Nat) :
    wordPair (Nat.repeat (fun p => divStep p.1 p.2 v) k p) = Nat.repeat (divideBy 32 32 32 v.toNat) k (wordPair p) := by
  induction k with
  | zero => rfl
  | succ k ih => exact (wordPair_divStep v _).trans (congrArg _ ih)

theorem eq_ofNat_of_wordPair {p : Word × Word} {x y : Nat} (h : wordPair p = (x, y)) : p = (BitVec.ofNat 32 x, BitVec.ofNat 32 y) := by
  obtain ⟨r, q⟩ := p
  obtain ⟨rfl, rfl⟩ := Prod.mk.inj h
  rw [BitVec.ofNat_toNat, BitVec.ofNat_toNat, BitVec.setWidth_eq, BitVec.setWidth_eq]

/-- Settles O23: steps by the number that remainder and quotient register join; a core's steps are a PE's at 32 bits. -/
theorem stepsDivide : Obligations.StepsDivide := by
  unfold Obligations.StepsDivide
  refine ⟨fun r q v => ⟨fun hr => ?core, ?coreZero⟩,
    fun wa wb a b r hwa hwb ha hb => ⟨fun hr => ⟨?lane, fun n => ?laneBelow⟩, ?laneZero⟩⟩
  case core =>
    have hw : 0 < 32 := by decide
    obtain ⟨hdiv, hquot⟩ := repeat_divideBy_divides (wa := 32) (p := wordPair (r, q)) hw v.isLt.le hr q.isLt
    refine ⟨eq_ofNat_of_wordPair ((wordPair_repeat v (r, q) 32).trans hdiv), hquot, fun k => ?_⟩
    have hbelow := repeat_fst_lt (wd := 32) (wa := 32) (p := wordPair (r, q)) hw hr k
    rw [← wordPair_repeat] at hbelow
    exact hbelow
  case coreZero =>
    rintro rfl rfl
    have hpair := (wordPair_repeat 0 (0, q) 32).trans (repeat_divideBy_zero (by decide) q.isLt)
    rw [Nat.mod_eq_of_lt q.isLt] at hpair
    refine (eq_ofNat_of_wordPair hpair).trans ?_
    rw [BitVec.ofNat_toNat, BitVec.setWidth_eq]
    rfl
  case lane =>
    have hv : a ≤ 2 ^ (wa + 1) := ha.le.trans (Nat.pow_le_pow_right (by decide) (Nat.le_succ wa))
    exact (repeat_divideBy_divides hwb hv hr hb).1
  case laneBelow => exact repeat_fst_lt hwb hr n
  case laneZero =>
    rintro rfl
    exact repeat_divideBy_zero hwb hb

end Sys2Proof.Machine
end

section
/-! The multiplies (R281) and the significances that their time depends on (R282). -/

namespace Sys2Proof.Machine

/-! Significances. -/

variable {t : Word}

theorem toNat_pos_of_ne_zero (h : t ≠ 0) : t.toNat ≠ 0 := fun hzero => h (BitVec.eq_of_toNat_eq hzero)

/-- The unsigned significance is the least number of bits that hold the operand. -/
theorem sigU_le_iff (t : Word) (n : Nat) : sigU t ≤ n ↔ t.toNat < 2 ^ n := by
  unfold sigU
  split_ifs with h
  · subst h
    simp
  · rw [← Nat.log2_lt (toNat_pos_of_ne_zero h)]
    exact Nat.succ_le_iff

theorem sigU_le_32 (t : Word) : sigU t ≤ 32 := (sigU_le_iff t 32).mpr t.isLt

theorem lt_two_pow_sigU (t : Word) : t.toNat < 2 ^ sigU t := (sigU_le_iff t _).mp le_rfl

theorem two_pow_pred_sigU_le (h : t ≠ 0) : 2 ^ (sigU t - 1) ≤ t.toNat := by
  rw [sigU, if_neg h, Nat.add_sub_cancel]
  exact Nat.log2_self_le (toNat_pos_of_ne_zero h)

/-- The number whose unsigned significance is, less the sign bit, the signed one: the operand, or its complement. -/
def magnitude (t : Word) : Word := if t.getLsbD 31 then ~~~t else t

theorem sigV_eq (h : t ≠ 0) : sigV t = 1 + sigU (magnitude t) := if_neg h

theorem msb_eq_getLsbD_31 (t : Word) : t.msb = t.getLsbD 31 := BitVec.msb_eq_getLsbD_last t

theorem magnitude_of_negative (h : t.getLsbD 31 = true) : ((magnitude t).toNat : Int) = -1 - t.toInt := by
  rw [magnitude, if_pos h, BitVec.toNat_not, BitVec.toInt_eq_msb_cond, if_pos ((msb_eq_getLsbD_31 t).trans h)]
  omega

theorem magnitude_of_nonneg (h : ¬t.getLsbD 31 = true) : ((magnitude t).toNat : Int) = t.toInt := by
  rw [magnitude, if_neg h, BitVec.toInt_eq_msb_cond, if_neg (msb_eq_getLsbD_31 t ▸ h)]

/-- The signed significance is the least number of bits, from 1 on, that hold the operand in two's complement. -/
theorem sigV_le_iff (h : t ≠ 0) {n : Nat} (hn : 1 ≤ n) : sigV t ≤ n ↔ -(2 ^ (n - 1)) ≤ t.toInt ∧ t.toInt < 2 ^ (n - 1) := by
  have hsig : sigV t ≤ n ↔ ((magnitude t).toNat : Int) < 2 ^ (n - 1) := by
    rw [sigV_eq h, show 1 + sigU (magnitude t) ≤ n ↔ sigU (magnitude t) ≤ n - 1 by omega, sigU_le_iff]
    norm_cast
  have hpos : (0 : Int) < 2 ^ (n - 1) := by positivity
  rw [hsig]
  by_cases hneg : t.getLsbD 31 = true
  · have hbelow : t.toInt < 0 := BitVec.toInt_neg_of_msb_true ((msb_eq_getLsbD_31 t).trans hneg)
    rw [magnitude_of_negative hneg]
    omega
  · have habove : 0 ≤ t.toInt := magnitude_of_nonneg hneg ▸ Int.natCast_nonneg _
    rw [magnitude_of_nonneg hneg]
    omega

theorem sigV_le_32 (h : t ≠ 0) : sigV t ≤ 32 :=
  (sigV_le_iff h (by decide)).mpr ⟨BitVec.le_toInt t, BitVec.toInt_lt⟩

theorem one_le_sigV (h : t ≠ 0) : 1 ≤ sigV t := sigV_eq h ▸ Nat.le_add_right 1 _

/-! The high half of a product. -/

theorem high_prodS (a b : Word) : (prodS a b >>> 32).setWidth 32 = BitVec.ofInt 32 (a.toInt * b.toInt / 2 ^ 32) := by
  unfold prodS
  generalize a.toInt * b.toInt = x
  refine BitVec.eq_of_toNat_eq ?_
  rw [BitVec.toNat_setWidth, BitVec.toNat_ushiftRight, Nat.shiftRight_eq_div_pow, BitVec.toNat_ofInt, BitVec.toNat_ofInt]
  omega

theorem high_prodU (a b : Word) : (prodU a b >>> 32).setWidth 32 = BitVec.ofNat 32 (a.toNat * b.toNat / 2 ^ 32) := by
  unfold prodU
  generalize a.toNat * b.toNat = x
  refine BitVec.eq_of_toNat_eq ?_
  rw [BitVec.toNat_setWidth, BitVec.toNat_ushiftRight, Nat.shiftRight_eq_div_pow, BitVec.toNat_ofNat, BitVec.toNat_ofNat]
  omega

/-- Settles O5: each multiply by its shared instruction and its product, each significance by the operands that its bits hold. -/
theorem coreMultipliesCompute : Obligations.CoreMultipliesCompute := by
  unfold Obligations.CoreMultipliesCompute
  refine ⟨fun s c p rd rs rt ct => ⟨fun h => ⟨?mul, ?mulhs, ?mulhu⟩, fun heven h => ⟨?mulds, ?muldu⟩⟩, rfl, rfl,
    fun t ht => ⟨two_pow_pred_sigU_le ht, lt_two_pow_sigU t, one_le_sigV ht, sigV_le_32 ht, fun n hn => sigV_le_iff ht hn⟩⟩
  case mul => exact run_op32 h rfl
  case mulhs => rw [← high_prodS]; exact run_op32 h rfl
  case mulhu => rw [← high_prodU]; exact run_op32 h rfl
  case mulds => exact run_op32 h rfl (congrArg (!·) heven)
  case muldu => exact run_op32 h rfl (congrArg (!·) heven)

end Sys2Proof.Machine
end

section
/-! The end of a floating-point instruction (R292), and the operations by their shared instructions (R286 to R291). -/

namespace Sys2Proof.Machine

variable {s : State} {d : Dev} {c : CoreId} {p : Pred} {pr : Bool} {fl : FFlags} {cycles : Nat}

/-- A core whose FPSR has an instruction's flags and, as the cause of a trap, the same flags (R292). -/
def CoreState.caused (k : CoreState) (fl : FFlags) : CoreState :=
  { k with fpsr := setBits (k.fpsr ||| flagWord fl) 12 8 (flagWord fl).toNat }

/-- Without an enabled exception the result and the flags are written. -/
theorem fpEnd_writes (h : (d.co c).NoFpTrap fl) (write : CoreState → CoreState) :
    d.fpEnd c fl cycles write = d.setCo c ((write ((d.co c).flagged fl)).advance 4 cycles) :=
  if_neg (not_not.mpr h)

/-- With one, FPSR has the flags and the cause, and the trap is taken at the instruction. -/
theorem fpEnd_traps (h : ¬(d.co c).NoFpTrap fl) (write : CoreState → CoreState) :
    d.fpEnd c fl cycles write = (d.setCo c ((d.co c).caused fl)).trapHere c .fp :=
  if_pos h

/-- FPSR does not touch the trap's entry. -/
theorem trapHere_caused {ra : Nat} (he : (d.co c).EntersAt c 11 ra) (hl : (d.co c).loads = []) (fl : FFlags) :
    (d.setCo c ((d.co c).caused fl)).trapHere c .fp =
      (d.setCo c ((d.co c).caused fl)).trapTaken c ra .fp (d.co c).pc 0 false := by
  have hco : (d.setCo c ((d.co c).caused fl)).co c = (d.co c).caused fl := co_setCo_same ..
  have hpc : ((d.setCo c ((d.co c).caused fl)).co c).pc = (d.co c).pc := (congrArg CoreState.pc hco).trans rfl
  rw [Dev.trapHere, hpc]
  exact trap_succeeds (t := .fp) (hco.symm ▸ he) (hco.symm ▸ hl)

theorem run_fpu {n : Names} {op : CoreState → Nat × FFlags} {write : CoreState → Nat → CoreState}
    (h : s.dev.Runs32 c p n.ps n.ds) (hlegal : n.legal = true) (hfl : (s.dev.co c).NoFpTrap (op (s.dev.co c)).2)
    (huser : n.sysOnly = false := by rfl) :
    s.run (fun v => v.fpu c p n cycles op write) =
      s.after (s.dev.setCo c ((write ((s.dev.co c).flagged (op (s.dev.co c)).2) (op (s.dev.co c)).1).advance 4 cycles)) :=
  run_op32 h (fpEnd_writes hfl _) hlegal huser

/-- An operation of two operands whose flags hold an enabled exception. -/
theorem run_fpTwo_trap {rd rs rt : DReg} {op : CoreState → Nat → Nat → Nat × FFlags} {ra : Nat}
    (h : s.dev.Runs32 c p [] (fpRegs pr [rd, rs, rt])) (heven : fpEven pr [rd, rs, rt] = true)
    (hfl : ¬(s.dev.co c).NoFpTrap (op (s.dev.co c) ((s.dev.co c).fpr pr rs) ((s.dev.co c).fpr pr rt)).2)
    (he : (s.dev.co c).EntersAt c 11 ra) (hl : (s.dev.co c).loads = []) :
    s.run (fun v => v.fpTwo c p pr rd rs rt cycles op) = s.after ((s.dev.setCo c ((s.dev.co c).caused
      (op (s.dev.co c) ((s.dev.co c).fpr pr rs) ((s.dev.co c).fpr pr rt)).2)).trapTaken c ra .fp (s.dev.co c).pc 0 false) :=
  run_op32 h ((fpEnd_traps hfl _).trans (trapHere_caused he hl _)) heven

/-- The arithmetic of two operands and, in the multiply-adds, the destination before, with the cycles of its two formats. -/
def fpArithSamples : List ((CoreId → Pred → Bool → DReg → DReg → DReg → Instr) × Nat × Nat ×
    (CoreState → Fmt → Nat → Nat → Nat → Nat × FFlags)) :=
  [(Instr.fadd, 3, 4, fun k f a b _ => withNans f k.dn [a, b] (fpAdd f k.rm false false a b)),
    (Instr.fsub, 3, 4, fun k f a b _ => withNans f k.dn [a, b] (fpSub f k.rm false false a b)),
    (Instr.fmul, 3, 6, fun k f a b _ => withNans f k.dn [a, b] (fpMul f k.rm false false a b)),
    (Instr.fma, 4, 7, fun k f a b x => coreFma f k.rm k.dn false a b x),
    (Instr.fnms, 4, 7, fun k f a b x => coreFma f k.rm k.dn true a b x),
    (Instr.fmin, 1, 1, fun k f a b _ => coreMinMax f k.dn false a b), (Instr.fmax, 1, 1, fun k f a b _ => coreMinMax f k.dn true a b)]

theorem exec_fpArithSample {e} (he : e ∈ fpArithSamples) (c : CoreId) (p : Pred) (pr : Bool) (rd rs rt : DReg) (s : State) :
    exec (e.1 c p pr rd rs rt) s = s.run (fun v => v.fpTwo c p pr rd rs rt (fpCycles pr e.2.1 e.2.2.1)
      (fun k a b => e.2.2.2 k (fpFmt pr) a b (k.fpr pr rd))) := by
  have hone : fpCycles pr 1 1 = 1 := ite_self 1
  fin_cases he
  · rfl
  · rfl
  · rfl
  · rfl
  · rfl
  · exact congrArg (fun n => s.run (fun v => v.fpTwo c p pr rd rs rt n _)) hone.symm
  · exact congrArg (fun n => s.run (fun v => v.fpTwo c p pr rd rs rt n _)) hone.symm

/-- The operations of one operand, with their cycles. -/
def fpUnarySamples : List ((CoreId → Pred → Bool → DReg → DReg → Instr) × Nat × (CoreState → Bool → Nat → Nat × FFlags)) :=
  [(Instr.fneg, 1, fun _ pr a => (fpFlip (fpFmt pr) a, {})), (Instr.fabs, 1, fun _ pr a => (a % 2 ^ ((fpFmt pr).width - 1), {})),
    (Instr.fmov, 1, fun _ _ a => (a, {})), (Instr.frece, 2, fun k pr a => coreRecip pr k.dn a),
    (Instr.frsqe, 2, fun k pr a => coreRsqrt pr k.dn a)]

theorem exec_fpUnarySample {e} (he : e ∈ fpUnarySamples) (c : CoreId) (p : Pred) (pr : Bool) (rd rs : DReg) (s : State) :
    exec (e.1 c p pr rd rs) s = s.run (fun v => v.fpOne c p pr rd rs e.2.1 (fun k a => e.2.2 k pr a)) := by
  fin_cases he <;> rfl

/-- Settles O9: each operation is a shared instruction, whose end writes result and flags. -/
theorem coreFloatComputes : Obligations.CoreFloatComputes := by
  unfold Obligations.CoreFloatComputes
  refine ⟨fun e he s c p pr rd rs rt heven h hfl => ?arith, fun e he s c p pr rd rs heven h hfl => ?unary⟩
  case arith =>
    rw [exec_fpArithSample he]
    exact run_fpu h heven hfl
  case unary =>
    rw [exec_fpUnarySample he]
    exact run_fpu h heven hfl

/-- The compares, with what they decide. -/
def fpCompareSamples : List ((CoreId → Pred → Bool → PReg → DReg → DReg → Instr) × (Fmt → Bool → Nat → Nat → Bool × FFlags)) :=
  [(Instr.fceq, fpEq), (Instr.fclt, fpLt), (Instr.fcle, fpLe)]

theorem exec_fpCompareSample {e} (he : e ∈ fpCompareSamples) (c : CoreId) (p : Pred) (pr : Bool) (pd : PReg) (rs rt : DReg)
    (s : State) : exec (e.1 c p pr pd rs rt) s = s.run (fun v => v.fpuCmp c p pr pd rs rt e.2) := by
  fin_cases he <;> rfl

/-- The conversions to an integer, with its range. -/
def fpToWordSamples : List ((CoreId → Pred → Bool → DReg → DReg → Instr) × Int × Int) :=
  [(Instr.fcvtW, -(2 ^ 31), 2 ^ 31 - 1), (Instr.fcvtWu, 0, 2 ^ 32 - 1)]

theorem exec_fpToWordSample {e} (he : e ∈ fpToWordSamples) (c : CoreId) (p : Pred) (pr : Bool) (rd rs : DReg) (s : State) :
    exec (e.1 c p pr rd rs) s = s.run (fun v => v.fpToWord c p pr rd rs e.2.1 e.2.2) := by
  fin_cases he <;> rfl

/-- The conversions from an integer, with the number that the word stands for. -/
def fpOfWordSamples : List ((CoreId → Pred → Bool → DReg → DReg → Instr) × (Word → Int)) :=
  [(Instr.fcvtFW, BitVec.toInt), (Instr.fcvtFWu, fun w => (w.toNat : Int))]

theorem exec_fpOfWordSample {e} (he : e ∈ fpOfWordSamples) (c : CoreId) (p : Pred) (pr : Bool) (rd rs : DReg) (s : State) :
    exec (e.1 c p pr rd rs) s = s.run (fun v => v.fpOfWord c p pr rd rs e.2) := by
  fin_cases he <;> rfl

/-- An integer's pattern of w bits as a bit vector. -/
theorem ofNat_wrapInt (w : Nat) (y : Int) : BitVec.ofNat w (wrapInt w y) = BitVec.ofInt w y := by
  refine BitVec.eq_of_toNat_eq ?_
  rw [BitVec.toNat_ofNat, Nat.mod_eq_of_lt (wrapInt_lt w y), BitVec.toNat_ofInt]
  rfl

/-- Settles O10: each compare and conversion is a shared instruction, whose end writes result and flags. -/
theorem coreFloatConverts : Obligations.CoreFloatConverts := by
  unfold Obligations.CoreFloatConverts
  intro s c p pr k f
  refine ⟨fun e he pd rs rt hpd heven h hfl => ?compare, fun rd rs hevenD hevenS h hfl => ?convert,
    fun e he rd rs heven h hfl => ?toWord, fun e he rd rs heven h hfl => ?ofWord⟩
  case compare =>
    rw [exec_fpCompareSample he]
    exact run_op32 h (fpEnd_writes hfl _) (Bool.and_eq_true_iff.mpr ⟨heven, decide_eq_true hpd⟩)
  case convert => exact run_fpu h (Bool.and_eq_true_iff.mpr ⟨hevenD, hevenS⟩) hfl
  case toWord =>
    rw [exec_fpToWordSample he, ← ofNat_wrapInt]
    exact run_fpu h heven hfl
  case ofWord =>
    rw [exec_fpOfWordSample he]
    exact run_fpu h heven hfl

/-- Settles O11: an enabled exception ends FMUL in the trap, whose entry the core with FPSR marked makes. -/
theorem coreFloatTraps : Obligations.CoreFloatTraps := by
  unfold Obligations.CoreFloatTraps
  intro s c p pr rd rs rt ra k r marked heven h hfl he hl
  exact run_fpTwo_trap h heven hfl he hl

end Sys2Proof.Machine
end

section
/-! The fatal fault that waits: the way to LOCKOUT and the fabric's clocks leave it alone (R406). -/

namespace Sys2Proof.Machine

set_option Elab.async false

variable (d : Dev)

@[simp] theorem fatal_ite {p : Prop} [Decidable p] (a b : Dev) : (if p then a else b).fatal = if p then a.fatal else b.fatal := by
  split <;> rfl

@[simp] theorem fatal_forEach {β : Type} (l : List β) {f : Dev → β → Dev} (h : ∀ d b, (f d b).fatal = d.fatal) :
    (forEach l d f).fatal = d.fatal :=
  forEach_frame Dev.fatal l d h

/-- The fatal fault that waits is the same in e as in d. -/
def Dev.SameFatal (d e : Dev) : Prop := e.fatal = d.fatal

@[simp] theorem fatal_resetWindow (b : Block) : (d.resetWindow b).fatal = d.fatal := by simp [Dev.resetWindow]
@[simp] theorem fatal_setHeld (n : Nat) (m : BitVec 5) : (d.setHeld n m).fatal = d.fatal := by simp [Dev.setHeld]
@[simp] theorem fatal_setHeldBy (n g : Nat) : (d.setHeldBy n g).fatal = d.fatal := by simp [Dev.setHeldBy]
@[simp] theorem fatal_setOwner (n o : Nat) : (d.setOwner n o).fatal = d.fatal := by simp [Dev.setOwner]
@[simp] theorem fatal_setCount (g c : Nat) : (d.setCount g c).fatal = d.fatal := by simp [Dev.setCount]
@[simp] theorem fatal_setPend (n : Nat) (b : Bool) : (d.setPend n b).fatal = d.fatal := by simp [Dev.setPend]
@[simp] theorem fatal_setAct (n : Nat) (b : Bool) : (d.setAct n b).fatal = d.fatal := by simp [Dev.setAct]
@[simp] theorem fatal_darkLines (k : Nat) : (d.darkLines k).fatal = d.fatal := by simp [Dev.darkLines]
@[simp] theorem fatal_toHost (n : Nat) : (d.toHost n).fatal = d.fatal := by simp [Dev.toHost]
@[simp] theorem fatal_askHost (n : Nat) : (d.askHost n).fatal = d.fatal := by simp [Dev.askHost]
@[simp] theorem fatal_scanFallback : d.scanFallback.fatal = d.fatal := by simp [Dev.scanFallback]
@[simp] theorem fatal_releaseGroup (g : Nat) : (d.releaseGroup g).fatal = d.fatal := by simp [Dev.releaseGroup]
@[simp] theorem fatal_pendSource (n : Nat) : (d.pendSource n).fatal = d.fatal := by simp [Dev.pendSource]
@[simp] theorem fatal_levelScan (n : Nat) : (d.levelScan n).fatal = d.fatal := by simp [Dev.levelScan]
@[simp] theorem fatal_sourceLine (n : Nat) (v : Bool) : (d.sourceLine n v).fatal = d.fatal := by simp [Dev.sourceLine]
@[simp] theorem fatal_raise (n : Nat) : (d.raise n).fatal = d.fatal := by simp [Dev.raise]
@[simp] theorem fatal_endSource (n : Nat) : (d.endSource n).fatal = d.fatal := by simp [Dev.endSource]
@[simp] theorem fatal_dropOwner (c : Nat) : (d.dropOwner c).fatal = d.fatal := by simp [Dev.dropOwner]
@[simp] theorem fatal_dropHost : d.dropHost.fatal = d.fatal := by simp [Dev.dropHost]
@[simp] theorem fatal_setHq (h : LHall) (x : HallQ) : (d.setHq h x).fatal = d.fatal := by simp [Dev.setHq]
@[simp] theorem fatal_syncVerify : d.syncVerify.fatal = d.fatal := by simp [Dev.syncVerify]
@[simp] theorem fatal_setVerifs (l : List VerifyKind) : (d.setVerifs l).fatal = d.fatal := by simp [Dev.setVerifs]
@[simp] theorem fatal_dropVerify (k : VerifyKind) : (d.dropVerify k).fatal = d.fatal := by simp [Dev.dropVerify]
@[simp] theorem fatal_preset (a : Nat) (v : Word) : (d.preset a v).fatal = d.fatal := by simp [Dev.preset]
@[simp] theorem fatal_presetRoad : d.presetRoad.fatal = d.fatal := by simp [Dev.presetRoad]
@[simp] theorem fatal_setBr (n st : Nat) : (d.setBr n st).fatal = d.fatal := by simp [Dev.setBr]
@[simp] theorem fatal_countHeld (n : Nat) : (d.countHeld n).fatal = d.fatal := by simp [Dev.countHeld]
@[simp] theorem fatal_answer (n : Nat) (k : PacketKind) (p : Packet) (st : BitVec 4) : (d.answer n k p st).fatal = d.fatal := by simp [Dev.answer]
@[simp] theorem fatal_answerWaiting (n : Nat) (st : BitVec 4) : (d.answerWaiting n st).fatal = d.fatal := by simp [Dev.answerWaiting]
@[simp] theorem fatal_sinkFor (n : Nat) : (d.sinkFor n).fatal = d.fatal := by simp [Dev.sinkFor]
@[simp] theorem fatal_answerHeld (n : Nat) (st : BitVec 4) (count : Fld) : (d.answerHeld n st count).fatal = d.fatal := by simp [Dev.answerHeld]
@[simp] theorem fatal_bridgeReset (n : Nat) : (d.bridgeReset n).fatal = d.fatal := by simp [Dev.bridgeReset]
@[simp] theorem fatal_setOn (k : Nat) (b : Bool) : (d.setOn k b).fatal = d.fatal := by simp [Dev.setOn]
@[simp] theorem fatal_startGroup : d.startGroup.fatal = d.fatal := by simp [Dev.startGroup]
@[simp] theorem fatal_startFirstGroup : d.startFirstGroup.fatal = d.fatal := by simp [Dev.startFirstGroup]
@[simp] theorem fatal_ddrPowerUp : d.ddrPowerUp.fatal = d.fatal := by simp [Dev.ddrPowerUp]
@[simp] theorem fatal_ddrPowerDown : d.ddrPowerDown.fatal = d.fatal := by simp [Dev.ddrPowerDown]
@[simp] theorem fatal_reconcileOne (k : Nat) : (d.reconcileOne k).fatal = d.fatal := by simp [Dev.reconcileOne]
@[simp] theorem fatal_reconcile : d.reconcile.fatal = d.fatal := by simp [Dev.reconcile]
@[simp] theorem fatal_followMode (mode k : Nat) : (d.followMode mode k).fatal = d.fatal := by
  unfold Dev.followMode
  split <;> simp
@[simp] theorem fatal_applyMode (mode : Nat) : (d.applyMode mode).fatal = d.fatal := by simp [Dev.applyMode]
@[simp] theorem fatal_dropMem (lo hi : Nat) : (d.dropMem lo hi).fatal = d.fatal := rfl
@[simp] theorem fatal_dropDram : d.dropDram.fatal = d.fatal := rfl
@[simp] theorem fatal_loseDomain (k : Nat) : (d.loseDomain k).fatal = d.fatal := by
  unfold Dev.loseDomain
  dsimp only
  split
  · simp
  · simp
  · split <;> simp
  · simp
  · simp
  · split
    · split
      · split <;> simp
      · simp
    · simp
@[simp] theorem fatal_cutDomain (k : Nat) : (d.cutDomain k).fatal = d.fatal := by simp [Dev.cutDomain]
@[simp] theorem fatal_bramCycle (blk : Nat) (a b : PortOp) : (d.bramCycle blk a b).fatal = d.fatal := by simp [Dev.bramCycle]
@[simp] theorem fatal_cellCycle (k i : Nat) (v : BitVec 64) : (d.cellCycle k i v).fatal = d.fatal := by simp [Dev.cellCycle]
@[simp] theorem fatal_regionCycle (k : Nat) : (d.regionCycle k).fatal = d.fatal := by simp [Dev.regionCycle]
@[simp] theorem fatal_fabricTick : d.fabricTick.fatal = d.fatal := by simp [Dev.fabricTick]
@[simp] theorem fatal_syncSec : d.syncSec.fatal = d.fatal := by simp [Dev.syncSec]
@[simp] theorem fatal_startWipe (cause : BitVec 4) : (d.startWipe cause).fatal = d.fatal := by simp [Dev.startWipe]
@[simp] theorem fatal_holdCore (c : CoreId) : (d.holdCore c).fatal = d.fatal := by simp [Dev.holdCore]
@[simp] theorem fatal_releaseCore (c : CoreId) (pc : Word) : (d.releaseCore c pc).fatal = d.fatal := by simp [Dev.releaseCore]
@[simp] theorem fatal_restartC0 : d.restartC0.fatal = d.fatal := by simp [Dev.restartC0]
@[simp] theorem fatal_presetCore : d.presetCore.fatal = d.fatal := by
  unfold Dev.presetCore
  dsimp only
  rw [fatal_syncSec]
  refine (fatal_forEach _ _ fun e n => ?_).trans ?_
  · split
    · split <;> simp
    · rfl
  · rw [fatal_presetRoad, fatal_setReg, fatal_setStaged, fatal_forEach, fatal_preset]
    exact fun e p => fatal_setReg _ _ _
@[simp] theorem fatal_coreOn : d.coreOn.fatal = d.fatal := by simp [Dev.coreOn]
@[simp] theorem fatal_setMode (m : Nat) : (d.setMode m).fatal = d.fatal := by simp [Dev.setMode]
@[simp] theorem fatal_setLevel (l how : Nat) : (d.setLevel l how).fatal = d.fatal := by simp [Dev.setLevel]
/-- The way to LOCKOUT leaves no further fatal fault. -/
@[simp] theorem fatal_lockout (cause : BitVec 4) : (d.lockout cause).fatal = d.fatal := by
  show d.SameFatal _
  unfold Dev.lockout
  split
  · exact Eq.refl d.fatal
  extract_lets e1 e2 e3 e4 e5 e6 e7 e8
  have h1 : e1.fatal = d.fatal := by simp -implicitDefEqProofs [e1]
  clear_value e1
  have h2 : e2.fatal = d.fatal := by simp -implicitDefEqProofs [e2, h1]
  clear_value e2
  have h3 : e3.fatal = d.fatal := by simp -implicitDefEqProofs [e3, h2]
  clear_value e3
  have h4 : e4.fatal = d.fatal := by simp -implicitDefEqProofs [e4, h3]
  clear_value e4
  have h5 : e5.fatal = d.fatal := by simp -implicitDefEqProofs [e5, h4]
  clear_value e5
  have h6 : e6.fatal = d.fatal := by simp -implicitDefEqProofs [e6, h5]
  clear_value e6
  have h8 : e8.fatal = d.fatal := by simp -implicitDefEqProofs [e8, e7, h6]
  clear_value e8
  show _ = d.fatal
  simp -implicitDefEqProofs [h8]

/-- What follows at once leaves no fatal fault waiting. -/
theorem fatal_settle : d.settle.fatal = none := by
  unfold Dev.settle Dev.settleFatal
  generalize (if d.road.hold.isEmpty then d else forEach (List.range 0x21) d Dev.settleBridge) = e
  cases h : e.fatal with
  | none => exact h
  | some c => exact fatal_lockout _ _

/-- Every command is an operation on the part, after which settles what follows at once. -/
theorem exec_eq_run (c : Instr) (s : State) : ∃ f : Dev → Dev, exec c s = s.run f := by
  cases c <;> unfold exec <;> exact ⟨_, rfl⟩

/-- Settles O57: by the equations of the step. -/
theorem stepRunsTheFrontCommand : Obligations.StepRunsTheFrontCommand :=
  fun _ _ _ => ⟨rfl, rfl⟩

/-- Settles O59: a command is an operation followed by what settles at once, and the fabric's clocks raise no fatal fault. -/
theorem everyStepGoesOn : Obligations.EveryStepGoesOn := by
  unfold Obligations.EveryStepGoesOn
  intro s h
  obtain ⟨d, q⟩ := s
  cases q with
  | nil => exact ⟨_, rfl, rfl, (fatal_fabricTick d).trans h⟩
  | cons c r =>
    obtain ⟨f, hf⟩ := exec_eq_run c ⟨d, r⟩
    exact ⟨_, hf, rfl, fatal_settle _⟩

end Sys2Proof.Machine
end

section
/-! Memory is the same after the operations of the other units: one lemma for each (R2, R183). -/

namespace Sys2Proof.Machine

set_option Elab.async false

variable (d : Dev)

@[simp] theorem mem_ite {p : Prop} [Decidable p] (a b : Dev) : (if p then a else b).mem = if p then a.mem else b.mem := by
  split <;> rfl

/-- A sequence of operations that leave memory alone leaves it alone. -/
@[simp] theorem mem_forEach {β : Type} (l : List β) {f : Dev → β → Dev} (h : ∀ d b, (f d b).mem = d.mem) : (forEach l d f).mem = d.mem :=
  forEach_frame Dev.mem l d h

/-- Memory is the same in e as in d. -/
def Dev.SameMem (d e : Dev) : Prop := e.mem = d.mem

namespace Dev.SameMem

variable {d} {e f : Dev}

theorem of (h : e.mem = d.mem) : d.SameMem e := h

@[refl] theorem refl (d : Dev) : d.SameMem d := Eq.refl d.mem

theorem trans (h : d.SameMem e) (k : e.SameMem f) : d.SameMem f := Eq.trans k h

theorem forEach {β : Type} (l : List β) {f : Dev → β → Dev} (h : ∀ (d : Dev) b, d.SameMem (f d b)) :
    d.SameMem (Machine.forEach l d f) :=
  mem_forEach d l h

theorem ite {p : Prop} [Decidable p] (h : d.SameMem e) (k : d.SameMem f) : d.SameMem (if p then e else f) := by
  split
  · exact h
  · exact k

end Dev.SameMem

/-- The same of the part that comes with a result. -/
def Dev.PairMem {α : Type} (d : Dev) (r : α × Dev) : Prop := r.2.mem = d.mem

theorem Dev.PairMem.foldl {α β : Type} {d : Dev} (l : List β) {f : α × Dev → β → α × Dev} {r : α × Dev}
    (h : ∀ r b, d.PairMem r → d.PairMem (f r b)) (hr : d.PairMem r) : d.PairMem (l.foldl f r) :=
  forEach_keeps l h hr

theorem mem_withArr (x : ArrayState) : ({ d with arr := x } : Dev).mem = d.mem := rfl
theorem mem_withEvc (x : EvcState) : ({ d with evc := x } : Dev).mem = d.mem := rfl
theorem mem_withHost (x : HostState) : ({ d with host := x } : Dev).mem = d.mem := rfl
theorem mem_withLine (x : LineState) : ({ d with line := x } : Dev).mem = d.mem := rfl

/-! RegOps -/

@[simp] theorem mem_setBoth (f : Fld) (x : Nat) : (d.setBoth f x).mem = d.mem := by simp [Dev.setBoth]
@[simp] theorem mem_setCapture (b : Block) (c : List (Nat × Word)) : (d.setCapture b c).mem = d.mem := by simp [Dev.setCapture]
@[simp] theorem mem_applySet (b : Block) (c : List (Nat × Word)) : (d.applySet b c).mem = d.mem := forEach_frame Dev.mem _ _ fun _ _ => rfl
@[simp] theorem mem_resetWindow (b : Block) : (d.resetWindow b).mem = d.mem := by simp [Dev.resetWindow]
@[simp] theorem mem_writeFields (b : Block) (a : Nat) (fs : List FieldDesc) (v : Word) :
    (d.writeFields b a fs v).mem = d.mem := by simp [Dev.writeFields]
@[simp] theorem mem_fresh : d.fresh.2.mem = d.mem := by simp [Dev.fresh]

/-! Events -/

@[simp] theorem mem_setHeld (n : Nat) (m : BitVec 5) : (d.setHeld n m).mem = d.mem := by simp [Dev.setHeld]
@[simp] theorem mem_setHeldBy (n g : Nat) : (d.setHeldBy n g).mem = d.mem := by simp [Dev.setHeldBy]
@[simp] theorem mem_setOwner (n o : Nat) : (d.setOwner n o).mem = d.mem := by simp [Dev.setOwner]
@[simp] theorem mem_setCount (g c : Nat) : (d.setCount g c).mem = d.mem := by simp [Dev.setCount]
@[simp] theorem mem_setPend (n : Nat) (b : Bool) : (d.setPend n b).mem = d.mem := by simp [Dev.setPend]
@[simp] theorem mem_setAct (n : Nat) (b : Bool) : (d.setAct n b).mem = d.mem := by simp [Dev.setAct]
@[simp] theorem mem_darkLines (k : Nat) : (d.darkLines k).mem = d.mem := by simp [Dev.darkLines]
@[simp] theorem mem_toHost (n : Nat) : (d.toHost n).mem = d.mem := by simp [Dev.toHost]
@[simp] theorem mem_askHost (n : Nat) : (d.askHost n).mem = d.mem := by simp [Dev.askHost]
@[simp] theorem mem_scanFallback : d.scanFallback.mem = d.mem := by simp [Dev.scanFallback]
@[simp] theorem mem_releaseGroup (g : Nat) : (d.releaseGroup g).mem = d.mem := by simp [Dev.releaseGroup]
@[simp] theorem mem_pendSource (n : Nat) : (d.pendSource n).mem = d.mem := by simp [Dev.pendSource]
@[simp] theorem mem_levelScan (n : Nat) : (d.levelScan n).mem = d.mem := by simp [Dev.levelScan]
@[simp] theorem mem_sourceLine (n : Nat) (v : Bool) : (d.sourceLine n v).mem = d.mem := by simp [Dev.sourceLine]
@[simp] theorem mem_raise (n : Nat) : (d.raise n).mem = d.mem := by simp [Dev.raise]
@[simp] theorem mem_claim (c : Nat) : (d.claim c).2.mem = d.mem := by
  unfold Dev.claim
  split <;> simp
@[simp] theorem mem_endSource (n : Nat) : (d.endSource n).mem = d.mem := by simp [Dev.endSource]
@[simp] theorem mem_doneSource (o n : Nat) : (d.doneSource o n).mem = d.mem := by simp [Dev.doneSource]
@[simp] theorem mem_dropOwner (c : Nat) : (d.dropOwner c).mem = d.mem := by simp [Dev.dropOwner]
@[simp] theorem mem_dropHost : d.dropHost.mem = d.mem := by simp [Dev.dropHost]
@[simp] theorem mem_refuseEvent (b : Block) : (d.refuseEvent b).mem = d.mem := by simp [Dev.refuseEvent]

/-! Pe -/

@[simp] theorem mem_setPeRaw (h row a : Nat) (v : BitVec 76) : (d.setPeRaw h row a v).mem = d.mem := by simp [Dev.setPeRaw]
@[simp] theorem mem_looseScratch (h : Nat) (level : Bool) : (d.looseScratch h level).mem = d.mem := by simp [Dev.looseScratch]
@[simp] theorem mem_looseScratchRaw (h : Nat) : (d.looseScratchRaw h).mem = d.mem := by simp [Dev.looseScratchRaw]
@[simp] theorem mem_setLatchNo (h copy row n : Nat) (v : BitVec 64) : (d.setLatchNo h copy row n v).mem = d.mem := by simp [Dev.setLatchNo]
@[simp] theorem mem_setLatch (h copy row : Nat) (p : Plane) (v : BitVec 64) :
    (d.setLatch h copy row p v).mem = d.mem := by simp [Dev.setLatch]
@[simp] theorem mem_setTwin (h row : Nat) (p : Plane) (v : BitVec 64) : (d.setTwin h row p v).mem = d.mem := by simp [Dev.setTwin]
@[simp] theorem mem_setXyGen (h g : Nat) : (d.setXyGen h g).mem = d.mem := by simp [Dev.setXyGen]
@[simp] theorem mem_looseXy (h : Nat) : (d.looseXy h).mem = d.mem := by simp [Dev.looseXy]
@[simp] theorem mem_clearHall (h : Nat) : (d.clearHall h).mem = d.mem := by simp [Dev.clearHall]
@[simp] theorem mem_looseRows (h : Nat) : (d.looseRows h).mem = d.mem := by simp [Dev.looseRows]
@[simp] theorem mem_checkEcol (h : Nat) : (d.checkEcol h).mem = d.mem := by simp [Dev.checkEcol]
@[simp] theorem mem_countFix (h p : Nat) : (d.countFix h p).mem = d.mem := by simp [Dev.countFix]
/-- A fix's entry in a hall's log, the word given: the word's arithmetic on large literals stays out of the frame's proof. -/
def Dev.logWord (d : Dev) (h : Nat) (hh : h < 17) (v : Word) : Dev :=
  let at_ := d.arr.logCyc[h]
  if at_ < d.arr.cyc || (at_ = d.arr.cyc && logRank v < logRank (d.reg (R.HALL_ECCLOG h))) then
    let d := d.setReg (R.HALL_ECCLOG h) v
    { d with arr := { d.arr with logCyc := d.arr.logCyc.set h d.arr.cyc } }
  else d
theorem mem_logWord (h : Nat) (hh : h < 17) (v : Word) : (d.logWord h hh v).mem = d.mem := by
  unfold Dev.logWord
  dsimp only
  split <;> rfl
@[simp] theorem mem_logFix (h row a : Nat) (port : Port) (p : Nat) : (d.logFix h row a port p).mem = d.mem := by
  unfold Dev.logFix
  split
  · next hh => exact mem_logWord d h hh _
  · rfl
@[simp] theorem mem_logDecode (h row a : Nat) (port : Port) (r : Decoded) : (d.logDecode h row a port r).mem = d.mem := by
  unfold Dev.logDecode
  split
  · rfl
  · have hf : ∀ l, (forEach l d (fun d p => d.countFix h p)).mem = d.mem := fun l => mem_forEach _ _ fun _ _ => mem_countFix _ _ _
    dsimp only
    split <;> simp
@[simp] theorem mem_takeUpset (h : HallId) (r : UpsetRep) : (d.takeUpset h r).mem = d.mem := by
  unfold Dev.takeUpset
  split
  · exact (mem_withArr _ _).trans (mem_setReg _ _ _)
  · rfl
@[simp] theorem mem_upset (h : Nat) (r : UpsetRep) (mirror : Option Nat) : (d.upset h r mirror).mem = d.mem := by
  unfold Dev.upset
  dsimp only
  repeat' split
  all_goals simp
@[simp] theorem mem_upsetWordRead (h row a : Nat) : (d.upsetWordRead h row a).mem = d.mem := by simp [Dev.upsetWordRead]
@[simp] theorem mem_account (h row a : Nat) (port : Port) (raises : Bool) :
    (d.account h row a port raises).mem = d.mem := by simp [Dev.account]
@[simp] theorem mem_peStore (raises : Bool) (h row a : Nat) (mask x : BitVec 64) :
    (d.peStore raises h row a mask x).mem = d.mem := by simp [Dev.peStore]
@[simp] theorem mem_peWrite (h row a : Nat) (mask x : BitVec 64) : (d.peWrite h row a mask x).mem = d.mem := by simp [Dev.peWrite]
@[simp] theorem mem_pePut (h row a : Nat) (x : BitVec 64) : (d.pePut h row a x).mem = d.mem := by simp [Dev.pePut]

/-! Gallery -/

@[simp] theorem mem_setGalErr (i : Nat) (e : BitVec 72) : (d.setGalErr i e).mem = d.mem := by simp [Dev.setGalErr]
@[simp] theorem mem_galCount (i : Nat) (r : EccFind) (reading : Bool) : (d.galCount i r reading).mem = d.mem := by
  unfold Dev.galCount
  split <;> simp
@[simp] theorem mem_galRead (a n : Nat) : (d.galRead a n).2.2.mem = d.mem := by simp [Dev.galRead]

/-! ArrayForms -/

@[simp] theorem mem_setHq (h : LHall) (x : HallQ) : (d.setHq h x).mem = d.mem := by simp [Dev.setHq]
@[simp] theorem mem_forHalls {s : Nat} {f : Dev → LHall → Dev} (h : ∀ d x, (f d x).mem = d.mem) :
    (d.forHalls s f).mem = d.mem := mem_forEach _ _ fun d x => by split <;> simp [h]

/-! ArrayExec -/

@[simp] theorem mem_writePlanes (h row : Nat) (addrs : List Nat) (mask : BitVec 64) (ps : List (BitVec 64)) :
    (d.writePlanes h row addrs mask ps).mem = d.mem := by simp [Dev.writePlanes]
@[simp] theorem mem_accountField (h row : Nat) (addrs : List Nat) (port : Port) :
    (d.accountField h row addrs port).mem = d.mem := by simp [Dev.accountField]
@[simp] theorem mem_setCarry (h row : Nat) (v : Nat → BitVec 64) : (d.setCarry h row v).mem = d.mem := by simp [Dev.setCarry]
@[simp] theorem mem_looseCarry (h row g : Nat) : (d.looseCarry h row g).mem = d.mem := by simp [Dev.looseCarry]
@[simp] theorem mem_forRows {s : Nat} {f : Dev → Nat → Nat → Nat → Dev} (h : ∀ d i j k, (f d i j k).mem = d.mem) :
    (d.forRows s f).mem = d.mem := (mem_forEach _ _ fun _ _ => mem_forEach _ _ fun _ _ => h _ _ _ _).trans rfl
@[simp] theorem mem_looseEnd (s : Nat) : (d.looseEnd s).mem = d.mem := by simp [Dev.looseEnd]
@[simp] theorem mem_twinCheck (d d0 : Dev) (ph : Nat) (wadr : BitVec 13) : (d.twinCheck d0 ph wadr).mem = d.mem := by
  unfold Dev.twinCheck
  split <;> simp
@[simp] theorem mem_twinStream (s : Nat) : (d.twinStream s).mem = d.mem := by simp [Dev.twinStream]
@[simp] theorem mem_rowInt (j : Job) (k g h row : Nat) : (d.rowInt j k g h row).mem = d.mem := by
  unfold Dev.rowInt
  dsimp only
  repeat' split
  all_goals simp
@[simp] theorem mem_rowDstep (j : Job) (g h row : Nat) : (d.rowDstep j g h row).mem = d.mem := by simp [Dev.rowDstep]
@[simp] theorem mem_rowGet (d d0 : Dev) (s : Nat) (j : Job) (toks : List (BitVec 512)) (h p row : Nat) :
    (d.rowGet d0 s j toks h p row).mem = d.mem := by simp [Dev.rowGet]
@[simp] theorem mem_pushAct (h copy row : Nat) : (d.pushAct h copy row).mem = d.mem := by simp [Dev.pushAct]
@[simp] theorem mem_popAct (h copy row : Nat) : (d.popAct h copy row).mem = d.mem := by simp [Dev.popAct]
@[simp] theorem mem_actOp (n h copy row : Nat) (a : BitVec 64) : (d.actOp n h copy row a).mem = d.mem := by
  unfold Dev.actOp
  split <;> simp
@[simp] theorem mem_rowAct (j : Job) (h row : Nat) : (d.rowAct j h row).mem = d.mem := by simp [Dev.rowAct]
@[simp] theorem mem_setIdx (h copy row : Nat) (mask : BitVec 64) (f : Nat → Nat) :
    (d.setIdx h copy row mask f).mem = d.mem := by simp [Dev.setIdx]
@[simp] theorem mem_rowLookup (j : Job) (g h row : Nat) : (d.rowLookup j g h row).mem = d.mem := by
  unfold Dev.rowLookup
  dsimp only
  rw [mem_looseCarry, mem_writePlanes, mem_atCyc, mem_forEach, mem_forEach, mem_accountField]
  · exact fun e k => (mem_setLatch _ _ _ _ _ _).trans (mem_setIdx _ _ _ _ _ _)
  · intro e p
    split
    · rfl
    · exact (mem_upset _ _ _ _).trans rfl
@[simp] theorem mem_rowFp (j : Job) (g h row : Nat) : (d.rowFp j g h row).mem = d.mem := by simp [Dev.rowFp]
@[simp] theorem mem_vendorEffect (s : Nat) (j : Job) (toks : List (BitVec 512)) :
    (d.vendorEffect s j toks).mem = d.mem := by simp [Dev.vendorEffect]

/-! CoreBase -/

@[simp] theorem mem_doubleFault (c : CoreId) : (d.doubleFault c).mem = d.mem := by simp [Dev.doubleFault]
@[simp] theorem mem_imprecise (c : CoreId) (t : Trap) (addr : Word) : (d.imprecise c t addr).mem = d.mem := by simp [Dev.imprecise]

/-! Seq -/

@[simp] theorem mem_arrayFault (s : StreamId) (opc code slot slotv : Nat) : (d.arrayFault s opc code slot slotv).mem = d.mem := by
  unfold Dev.arrayFault
  rw [mem_raise]
  split
  · rfl
  · rw [mem_setReg]
@[simp] theorem mem_enqueue (s : StreamId) (j : Job) : (d.enqueue s j).mem = d.mem := by simp [Dev.enqueue]
@[simp] theorem mem_loadDescriptor (s : StreamId) (n : BitVec 5) (w0 w1 : Word) :
    (d.loadDescriptor s n w0 w1).mem = d.mem := by simp [Dev.loadDescriptor]

/-! SeqRun -/

@[simp] theorem mem_setEdgePort (express : Bool) (p : Fin 4) (e : EdgePort) :
    (d.setEdgePort express p e).mem = d.mem := by simp [Dev.setEdgePort]
@[simp] theorem mem_sendToken (express : Bool) (p : Fin 4) (t : BitVec 512) :
    (d.sendToken express p t).mem = d.mem := by simp [Dev.sendToken]
@[simp] theorem mem_useTokens (s : StreamId) (x : Dir) (n : Nat) (own : List (BitVec 512)) : (d.useTokens s x n own).mem = d.mem := by
  unfold Dev.useTokens
  dsimp only
  repeat' split
  all_goals simp
@[simp] theorem mem_countMicro (s : StreamId) (a : Nat) : (d.countMicro s a).mem = d.mem := by simp [Dev.countMicro]
@[simp] theorem mem_looseMicro : d.looseMicro.2.mem = d.mem := by simp [Dev.looseMicro]
@[simp] theorem mem_vendorMicro (s : StreamId) (j : Job) : (d.vendorMicro s j).mem = d.mem := by simp [Dev.vendorMicro]
@[simp] theorem mem_runVendor (s : StreamId) (j : Job) : (d.runVendor s j).mem = d.mem := by simp [Dev.runVendor]
@[simp] theorem mem_openChan (s : StreamId) (ch : Nat) : (d.openChan s ch).mem = d.mem := by
  unfold Dev.openChan
  rw [mem_forHalls _ fun _ _ => mem_modHq _ _ _, mem_setFlag]
@[simp] theorem mem_closeChan (s : StreamId) (ch : Nat) : (d.closeChan s ch).mem = d.mem := by
  unfold Dev.closeChan
  rw [mem_forHalls _ fun _ _ => mem_modHq _ _ _, mem_setFlag]
@[simp] theorem mem_begin (s : StreamId) (j : Job) : (d.begin s j).mem = d.mem := by simp [Dev.begin]
@[simp] theorem mem_enterRoutine (s : StreamId) (j : Job) (entry : BitVec 13) :
    (d.enterRoutine s j entry).mem = d.mem := by simp [Dev.enterRoutine]
@[simp] theorem mem_startNext (s : StreamId) : (d.startNext s).mem = d.mem := by
  unfold Dev.startNext
  split <;> simp
@[simp] theorem mem_startQueued (s : StreamId) : (d.startQueued s).mem = d.mem := by
  unfold Dev.startQueued
  split <;> simp
@[simp] theorem mem_markPending (j : Job) : (d.markPending j).mem = d.mem := by simp [Dev.markPending]
@[simp] theorem mem_markHold (s : StreamId) (j : Job) : (d.markHold s j).mem = d.mem := by simp [Dev.markHold]
@[simp] theorem mem_deliver (s : StreamId) (m : Smp) : (d.deliver s m).mem = d.mem := by
  unfold Dev.deliver
  split <;> simp
@[simp] theorem mem_releaseOr (s : StreamId) (h : LHall) : (d.releaseOr s h).mem = d.mem := by simp [Dev.releaseOr]
@[simp] theorem mem_formOr (s : StreamId) : (d.formOr s).mem = d.mem := by
  unfold Dev.formOr
  split <;> simp

/-! Stair -/

@[simp] theorem mem_chanCount (ch h p t : Nat) : (d.chanCount ch h p t).mem = d.mem := by simp [Dev.chanCount]
@[simp] theorem mem_stairRows {w : Nat} {f : Dev → Nat → Dev} (h : ∀ d i, (f d i).mem = d.mem) :
    (d.stairRows w f).mem = d.mem := (mem_forEach _ _ fun _ _ => (h _ _).trans rfl)
@[simp] theorem mem_strinHall (j : Job) (h : Nat) : (d.strinHall j h).mem = d.mem := by simp [Dev.strinHall]
@[simp] theorem mem_advanceChan (j : Job) : (d.advanceChan j).mem = d.mem := by simp [Dev.advanceChan]
@[simp] theorem mem_writeUnit (ph a : Nat) (ws : List (BitVec 64)) : (d.writeUnit ph a ws).mem = d.mem := by simp [Dev.writeUnit]
@[simp] theorem mem_countUnit (ph a : Nat) (raises : Bool) : (d.countUnit ph a raises).mem = d.mem := by simp [Dev.countUnit]

/-! MicroHall -/

@[simp] theorem mem_setEdgeLatch (h lat : Nat) (l : List (BitVec 512 × BitVec 64)) :
    (d.setEdgeLatch h lat l).mem = d.mem := by simp [Dev.setEdgeLatch]
@[simp] theorem mem_pushToken (s : StreamId) (h ph : Nat) (x : Dir) : (d.pushToken s h ph x).mem = d.mem := by
  unfold Dev.pushToken
  split <;> simp
@[simp] theorem mem_pushFor (s : StreamId) (h : LHall) (r : HRun) : (d.pushFor s h r).mem = d.mem := by simp [Dev.pushFor]
@[simp] theorem mem_exchange (s : StreamId) (h ph : Nat) (x : Dir) : (d.exchange s h ph x).2.mem = d.mem := by
  unfold Dev.exchange
  dsimp only
  repeat' split
  all_goals simp
@[simp] theorem mem_setC (h copy row : Nat) (v : BitVec 64) : (d.setC h copy row v).mem = d.mem := by simp [Dev.setC]
@[simp] theorem mem_aluRow (op tt h row : Nat) (wadr : Nat) (a b0 : BitVec 64) :
    (d.aluRow op tt h row wadr a b0).mem = d.mem := by simp [Dev.aluRow]
@[simp] theorem mem_loadRow (op tt h row : Nat) (a b : BitVec 64) : (d.loadRow op tt h row a b).mem = d.mem := by simp [Dev.loadRow]
@[simp] theorem mem_indexRow (h row tb tl j : Nat) : (d.indexRow h row tb tl j).2.mem = d.mem := by
  unfold Dev.indexRow
  dsimp only
  repeat' split
  all_goals simp
@[simp] theorem mem_lastDone (s : StreamId) (h : LHall) : (d.lastDone s h).mem = d.mem := by simp [Dev.lastDone]
@[simp] theorem mem_stopStream (s : StreamId) : (d.stopStream s).mem = d.mem := by
  unfold Dev.stopStream
  dsimp only
  rw [mem_modSt]
  refine (mem_withArr _ _).trans ?_
  rw [mem_forHalls _ fun _ _ => mem_modHq _ _ _, mem_forEach _ _ fun _ _ => mem_forEach _ _ fun _ _ => mem_setEdgeLatch _ _ _ _, mem_forEach]
  intro e ch
  rw [mem_ite, mem_setFlag, ite_self]
@[simp] theorem mem_modPorts (ps : List (Fin 4)) (f : EdgePort → EdgePort) : (d.modPorts ps f).mem = d.mem := by simp [Dev.modPorts]
@[simp] theorem mem_clearLatches (s : StreamId) : (d.clearLatches s).mem = d.mem := by
  unfold Dev.clearLatches
  refine mem_forEach _ _ fun e i => ?_
  dsimp only
  rw [mem_forEach, mem_setXyGen]
  intro e row
  rw [mem_forEach _ _ fun _ _ => mem_setTwin _ _ _ _ _, mem_setTwin, mem_setTwin, mem_setTwin]
@[simp] theorem mem_resetPoint (s : StreamId) : (d.resetPoint s).mem = d.mem := by
  unfold Dev.resetPoint
  dsimp only
  rw [mem_modSt, mem_modPorts, mem_clearLatches, mem_forHalls _ fun _ _ => mem_modHq _ _ _, mem_forEach]
  intro e ch
  split
  · rw [mem_setFld]
  · rfl
@[simp] theorem mem_restart (s : StreamId) : (d.restart s).mem = d.mem := by simp [Dev.restart]
@[simp] theorem mem_restartDue (s : StreamId) : (d.restartDue s).mem = d.mem := by simp [Dev.restartDue]
@[simp] theorem mem_countStall (h : LHall) (c n : Nat) : (d.countStall h c n).mem = d.mem := by simp [Dev.countStall]

/-! MicroExec -/

@[simp] theorem mem_loosePending (c : CoreId) : (d.loosePending c).mem = d.mem := by simp [Dev.loosePending]
@[simp] theorem mem_restartEmpty (s : StreamId) : (d.restartEmpty s).mem = d.mem := by simp [Dev.restartEmpty]
@[simp] theorem mem_abandonStream (s : StreamId) : (d.abandonStream s).mem = d.mem := by simp [Dev.abandonStream]
@[simp] theorem mem_microcodeFault (s : StreamId) (cause upc : Nat) :
    (d.microcodeFault s cause upc).mem = d.mem := by simp [Dev.microcodeFault]
@[simp] theorem mem_useResult (s : StreamId) (j : Job) (use : SmpUse) : (d.useResult s j use).mem = d.mem := by
  unfold Dev.useResult
  split <;> simp
@[simp] theorem mem_endRoutine (s : StreamId) : (d.endRoutine s).mem = d.mem := by
  unfold Dev.endRoutine
  split <;> simp
@[simp] theorem mem_sendEntry (s : StreamId) (e : BitVec 90) (eff : Nat) : (d.sendEntry s e eff).mem = d.mem := by
  unfold Dev.sendEntry
  split
  · rfl
  · exact mem_forHalls _ fun _ _ => mem_modHq _ _ _
@[simp] theorem mem_takeSamples (s : StreamId) (j : Job) (w : BitVec 48) (eff : Nat) :
    (d.takeSamples s j w eff).mem = d.mem := by simp [Dev.takeSamples]
@[simp] theorem mem_op2Outside (s : StreamId) (j : Job) (o : Nat) : (d.op2Outside s j o).mem = d.mem := by simp [Dev.op2Outside]
@[simp] theorem mem_sendWord (s : StreamId) (j : Job) (w0 : BitVec 48) (eff : Nat) : (d.sendWord s j w0 eff).mem = d.mem := by
  show d.SameMem _
  unfold Dev.sendWord
  extract_lets fault w o m waits ends next e0 e1 e2 e3 e4
  have h2 : d.SameMem e2 :=
    (mem_op2Outside _ _ _ _).trans ((mem_takeSamples _ _ _ _ _).trans ((mem_modSt _ _ _).trans (mem_sendEntry _ _ _ _)))
  have h3 : d.SameMem e3 := by
    refine h2.trans ?_
    unfold e3
    cases fault with
    | none => rfl
    | some c => exact (mem_imprecise _ _ _ _).trans (mem_arrayFault _ _ _ _ _ _)
  have h4 : d.SameMem e4 := h3.trans (mem_modSt _ _ _)
  clear_value e3 e4
  exact .ite (.ite (h3.trans (mem_modSt _ _ _)) (h3.trans (mem_endRoutine _ _)))
    (.ite (h3.trans (mem_modSt _ _ _)) (.ite (h4.trans (mem_modSt _ _ _)) h4))
@[simp] theorem mem_edgeFault (s : StreamId) (j : Job) : (d.edgeFault s j).mem = d.mem := by simp [Dev.edgeFault]
@[simp] theorem mem_issueWord (s : StreamId) : (d.issueWord s).mem = d.mem := by
  show d.SameMem _
  unfold Dev.issueWord
  split
  · rfl
  split
  · extract_lets e m w eff e1
    have he : d.SameMem e := by
      unfold e
      split
      · exact mem_modSt _ _ _
      · rfl
    have h1 : d.SameMem e1 := he.trans (mem_countMicro _ _ _)
    clear_value e1 e
    split
    · exact he
    split
    · exact he.trans (mem_microcodeFault _ _ _ _)
    split
    · exact h1.trans (mem_microcodeFault _ _ _ _)
    · exact .ite he (.ite (h1.trans (mem_edgeFault _ _ _)) (h1.trans (mem_sendWord _ _ _ _ _)))
  · rfl
@[simp] theorem mem_arriveWord (h : LHall) : (d.arriveWord h).mem = d.mem := by
  unfold Dev.arriveWord
  split <;> simp
@[simp] theorem mem_returnCredit (h : LHall) : (d.returnCredit h).mem = d.mem := by simp [Dev.returnCredit]

/-! Image -/

@[simp] theorem mem_syncVerify : d.syncVerify.mem = d.mem := by simp [Dev.syncVerify]
@[simp] theorem mem_setVerifs (l : List VerifyKind) : (d.setVerifs l).mem = d.mem := by simp [Dev.setVerifs]
@[simp] theorem mem_verifyRequest (k : VerifyKind) : (d.verifyRequest k).mem = d.mem := by simp [Dev.verifyRequest]
@[simp] theorem mem_verifyEnd : d.verifyEnd.mem = d.mem := by simp [Dev.verifyEnd]
@[simp] theorem mem_dropVerify (k : VerifyKind) : (d.dropVerify k).mem = d.mem := by simp [Dev.dropVerify]

/-! Waymark -/

@[simp] theorem mem_modWay (w : Nat) (f : WayUnit → WayUnit) : (d.modWay w f).mem = d.mem := by
  unfold Dev.modWay
  split <;> simp
@[simp] theorem mem_wayTake (w : Nat) (s : Int) : (d.wayTake w s).mem = d.mem := by simp [Dev.wayTake]
@[simp] theorem mem_wayDeliver (src sel : Nat) (s : Int) : (d.wayDeliver src sel s).mem = d.mem := by simp [Dev.wayDeliver]
@[simp] theorem mem_wayStrobe : d.wayStrobe.mem = d.mem := by simp [Dev.wayStrobe]
@[simp] theorem mem_wayWindowEnd (w : Nat) : (d.wayWindowEnd w).mem = d.mem := by simp [Dev.wayWindowEnd]
@[simp] theorem mem_wayClear (w : Nat) : (d.wayClear w).mem = d.mem := by simp [Dev.wayClear]
@[simp] theorem mem_waySnap (w : Nat) : (d.waySnap w).mem = d.mem := by
  unfold Dev.waySnap
  split
  · rfl
  · dsimp only
    rw [mem_forEach]
    · split <;> rfl
    · intro e i
      rfl
@[simp] theorem mem_wayControl (w : Nat) (v : Word) : (d.wayControl w v).mem = d.mem := by simp [Dev.wayControl]

/-! Lead -/

@[simp] theorem mem_setCur (h c : Nat) : (d.setCur h c).mem = d.mem := by simp [Dev.setCur]
@[simp] theorem mem_noteRecovery (s : Nat) : (d.noteRecovery s).mem = d.mem := by simp [Dev.noteRecovery]
@[simp] theorem mem_govSample (m : Int) : (d.govSample m).mem = d.mem := by simp [Dev.govSample]
@[simp] theorem mem_marginSample (m : Int) : (d.marginSample m).mem = d.mem := by simp [Dev.marginSample]
@[simp] theorem mem_releaseLine (t : Int) : (d.releaseLine t).mem = d.mem := by
  unfold Dev.releaseLine
  dsimp only
  repeat' split
  all_goals simp
@[simp] theorem mem_noteReleases (t : Int) : (d.noteReleases t).mem = d.mem := by simp [Dev.noteReleases]
@[simp] theorem mem_marginStrobe (i : Nat) (t : Int) : (d.marginStrobe i t).mem = d.mem := by
  unfold Dev.marginStrobe
  dsimp only
  repeat' split
  all_goals simp
@[simp] theorem mem_lateStrobe (i : Nat) : (d.lateStrobe i).mem = d.mem := by simp [Dev.lateStrobe]
@[simp] theorem mem_leadStart : d.leadStart.mem = d.mem := by simp [Dev.leadStart]

/-! Road -/

@[simp] theorem mem_preset (a : Nat) (v : Word) : (d.preset a v).mem = d.mem := by simp [Dev.preset]
@[simp] theorem mem_presetRoad : d.presetRoad.mem = d.mem := by simp [Dev.presetRoad]
@[simp] theorem mem_setBr (n st : Nat) : (d.setBr n st).mem = d.mem := by simp [Dev.setBr]
@[simp] theorem mem_countHeld (n : Nat) : (d.countHeld n).mem = d.mem := by simp [Dev.countHeld]
@[simp] theorem mem_answer (n : Nat) (k : PacketKind) (p : Packet) (st : BitVec 4) : (d.answer n k p st).mem = d.mem := by simp [Dev.answer]
@[simp] theorem mem_answerWaiting (n : Nat) (st : BitVec 4) : (d.answerWaiting n st).mem = d.mem := by simp [Dev.answerWaiting]
@[simp] theorem mem_sinkFor (n : Nat) : (d.sinkFor n).mem = d.mem := by simp [Dev.sinkFor]
@[simp] theorem mem_answerHeld (n : Nat) (st : BitVec 4) (count : Fld) : (d.answerHeld n st count).mem = d.mem := by simp [Dev.answerHeld]
@[simp] theorem mem_bridgeReset (n : Nat) : (d.bridgeReset n).mem = d.mem := by simp [Dev.bridgeReset]
@[simp] theorem mem_declareDead (n : Nat) : (d.declareDead n).mem = d.mem := by simp [Dev.declareDead]

/-! Domains -/

@[simp] theorem mem_readTime : d.readTime.2.mem = d.mem := by simp [Dev.readTime]
@[simp] theorem mem_setOn (k : Nat) (b : Bool) : (d.setOn k b).mem = d.mem := by simp [Dev.setOn]
@[simp] theorem mem_startGroup : d.startGroup.mem = d.mem := by simp [Dev.startGroup]
@[simp] theorem mem_startFirstGroup : d.startFirstGroup.mem = d.mem := by simp [Dev.startFirstGroup]
@[simp] theorem mem_ddrPowerUp : d.ddrPowerUp.mem = d.mem := by simp [Dev.ddrPowerUp]
@[simp] theorem mem_ddrPowerDown : d.ddrPowerDown.mem = d.mem := by simp [Dev.ddrPowerDown]
@[simp] theorem mem_reconcileOne (k : Nat) : (d.reconcileOne k).mem = d.mem := by simp [Dev.reconcileOne]
@[simp] theorem mem_reconcile : d.reconcile.mem = d.mem := by simp [Dev.reconcile]
@[simp] theorem mem_followMode (mode k : Nat) : (d.followMode mode k).mem = d.mem := by
  unfold Dev.followMode
  split <;> simp
@[simp] theorem mem_applyMode (mode : Nat) : (d.applyMode mode).mem = d.mem := by simp [Dev.applyMode]
@[simp] theorem mem_requestDomains (v : Word) : (d.requestDomains v).mem = d.mem := by simp [Dev.requestDomains]
@[simp] theorem mem_wakeNode (n : Nat) : (d.wakeNode n).mem = d.mem := by
  unfold Dev.wakeNode
  split <;> simp
@[simp] theorem mem_riseDomain (k : Nat) : (d.riseDomain k).mem = d.mem := by simp [Dev.riseDomain]
@[simp] theorem mem_domainUp (k : Nat) : (d.domainUp k).mem = d.mem := by simp [Dev.domainUp]
@[simp] theorem mem_refuseDown (k : Nat) : (d.refuseDown k).mem = d.mem := by simp [Dev.refuseDown]
@[simp] theorem mem_fenceCore : d.fenceCore.mem = d.mem := by simp [Dev.fenceCore]
@[simp] theorem mem_refuseCore : d.refuseCore.mem = d.mem := by simp [Dev.refuseCore]
@[simp] theorem mem_abortDown (n : Nat) : (d.abortDown n).mem = d.mem := by
  unfold Dev.abortDown
  split <;> simp
@[simp] theorem mem_reach (n : Nat) (answered : Bool) : (d.reach n answered).2.mem = d.mem := by
  unfold Dev.reach
  split
  · exact mem_addFld _ _ _
  split
  · rfl
  split
  · rfl
  · dsimp only
    split <;> simp
  · dsimp only
    split_ifs <;> simp

/-! Dram -/

@[simp] theorem mem_dramCount (i : Nat) (r : EccFind) : (d.dramCount i r).mem = d.mem := by
  unfold Dev.dramCount
  split <;> simp
@[simp] theorem mem_touchImages (off : Nat) : (d.touchImages off).mem = d.mem := by
  show d.SameMem _
  unfold Dev.touchImages
  split
  · rfl
  · refine .forEach _ fun e i => ?_
    split
    · exact mem_withArr _ _
    · rfl
@[simp] theorem mem_dramRead (a n : Nat) : (d.dramRead a n).2.2.mem = d.mem := by simp [Dev.dramRead]

/-! SeqEvents -/

@[simp] theorem mem_looseField (s : StreamId) (addrs : List Nat) : (d.looseField s addrs).mem = d.mem := by simp [Dev.looseField]
@[simp] theorem mem_overrun (s : StreamId) (opc : Nat) : (d.overrun s opc).mem = d.mem := by simp [Dev.overrun]
@[simp] theorem mem_countWord (s : StreamId) : (d.countWord s).mem = d.mem := by
  unfold Dev.countWord
  split <;> simp
@[simp] theorem mem_tokenTimeout (h : LHall) (edge : BitVec 2) (f : LHall) : (d.tokenTimeout h edge f).mem = d.mem := by
  unfold Dev.tokenTimeout
  split
  · rfl
  · split
    · rfl
    · dsimp only
      split_ifs <;> rfl
@[simp] theorem mem_stairTimeout (h : LHall) : (d.stairTimeout h).mem = d.mem := by
  unfold Dev.stairTimeout
  split <;> simp
@[simp] theorem mem_patchError (c : Nat) : (d.patchError c).mem = d.mem := by simp [Dev.patchError]
@[simp] theorem mem_patchLoad : d.patchLoad.mem = d.mem := by
  unfold Dev.patchLoad
  dsimp only
  repeat' split
  all_goals simp
@[simp] theorem mem_patchStaged (ok : Bool) : (d.patchStaged ok).mem = d.mem := by
  unfold Dev.patchStaged
  split
  · rfl
  dsimp only
  split
  · exact mem_patchError _ _
  split
  · rw [mem_patchError, mem_galRead]
  split
  · rw [mem_patchError, mem_galRead]
  split_ifs
  · rw [mem_patchError, mem_galRead, mem_galRead]
  · rw [mem_patchError, mem_galRead, mem_galRead]
  · rw [mem_patchError, mem_galRead, mem_galRead]
  · rw [mem_verifyRequest]
    exact (mem_galRead _ _ _).trans (mem_galRead _ _ _)
@[simp] theorem mem_patchVerified (v : Verdict) : (d.patchVerified v).mem = d.mem := by
  unfold Dev.patchVerified
  split <;> simp
@[simp] theorem mem_stopRequest (s : StreamId) : (d.stopRequest s).mem = d.mem := by simp [Dev.stopRequest]
@[simp] theorem mem_preRequest (s : StreamId) (prio : Nat) : (d.preRequest s prio).mem = d.mem := by simp [Dev.preRequest]
@[simp] theorem mem_shadow (s : StreamId) (ps : List Plane) (save : Bool) : (d.shadow s ps save).mem = d.mem := by simp [Dev.shadow]
@[simp] theorem mem_stopLatches (s : StreamId) : (d.stopLatches s).mem = d.mem := by simp [Dev.stopLatches]
@[simp] theorem mem_preemptStop (s : StreamId) : (d.preemptStop s).mem = d.mem := by
  unfold Dev.preemptStop
  dsimp only
  repeat' split
  all_goals simp
@[simp] theorem mem_dropStack (s : StreamId) (n : Nat) : (d.dropStack s n).mem = d.mem := by simp [Dev.dropStack]
@[simp] theorem mem_preemptResume (s : StreamId) : (d.preemptResume s).mem = d.mem := by
  unfold Dev.preemptResume
  split <;> simp

/-! Recovery -/

@[simp] theorem mem_recordAs (kind : Nat) (s : StreamId) (phys logical : Nat) (col : Nat) (up : Word) (maps : List (Fin 17)) :
    (d.recordAs kind s phys logical col up maps).mem = d.mem := by simp [Dev.recordAs]
@[simp] theorem mem_record (kind : Nat) (s : StreamId) (phys : Nat) (col : Nat) (up : Word) (maps : List (Fin 17)) :
    (d.record kind s phys col up maps).mem = d.mem := by simp [Dev.record]
@[simp] theorem mem_expireHall (s : StreamId) (h : Nat) : (d.expireHall s h).mem = d.mem := by simp [Dev.expireHall]
@[simp] theorem mem_noteFault (s : StreamId) (h col : Nat) : (d.noteFault s h col).2.mem = d.mem := by
  unfold Dev.noteFault
  dsimp only
  split
  · rw [mem_addFld, mem_expireHall]
  · split
    · rw [mem_setReg, mem_expireHall]
    · rw [mem_setFlag, mem_setReg, mem_expireHall]
@[simp] theorem mem_rewriteWord (h row a : Nat) : (d.rewriteWord h row a).mem = d.mem := by simp [Dev.rewriteWord]
@[simp] theorem mem_rewriteIndexed (s : StreamId) (r : Report) : (d.rewriteIndexed s r).mem = d.mem := by
  unfold Dev.rewriteIndexed
  dsimp only
  repeat' split
  all_goals simp
@[simp] theorem mem_replayLog (s : StreamId) : (d.replayLog s).mem = d.mem := by simp [Dev.replayLog]
@[simp] theorem mem_dropRetire (p : RetRec → Bool) : (d.dropRetire p).mem = d.mem := by
  unfold Dev.dropRetire
  rw [mem_forEach]
  intro e r
  rw [mem_setFlag, mem_setFlag]
@[simp] theorem mem_faultAlone (s : StreamId) (code : Nat) : (d.faultAlone s code).mem = d.mem := by simp [Dev.faultAlone]
@[simp] theorem mem_unrecovered (s : StreamId) (phys col : Nat) (up : Word) :
    (d.unrecovered s phys col up).mem = d.mem := by simp [Dev.unrecovered]
@[simp] theorem mem_classify (s : StreamId) (fs : List Fault1) : (d.classify s fs).2.mem = d.mem := by
  unfold Dev.classify
  refine List.foldlRecOn (motive := fun r : Verdict212 × Dev => r.2.mem = d.mem) _ _ rfl fun r hr f _ => ?_
  have hn := (mem_noteFault r.2 s f.hall f.col).trans hr
  dsimp only
  split
  · rw [apply_ite Dev.mem, mem_checkEcol, mem_setFld, mem_setFlag, mem_ite, mem_record, mem_addFld, ite_self, ite_self, hn]
  · exact hn
@[simp] theorem mem_queueRetire (h : HallId) (col : Nat) (imm : Bool) (word : Word) :
    (d.queueRetire h col imm word).mem = d.mem := by simp [Dev.queueRetire]
@[simp] theorem mem_setReplayDue (l : List StreamId) : (d.setReplayDue l).mem = d.mem := by simp [Dev.setReplayDue]
@[simp] theorem mem_afterRetire (s : StreamId) : (d.afterRetire s).mem = d.mem := by simp [Dev.afterRetire]
@[simp] theorem mem_stageRetire (r : RetRec) (n : Nat) : (d.stageRetire r n).mem = d.mem := by simp [Dev.stageRetire]
@[simp] theorem mem_refill (h : Nat) (new : List Nat) : (d.refill h new).2.mem = d.mem := by
  show d.PairMem _
  unfold Dev.refill
  refine .foldl _ (fun r a hr => .foldl _ (fun r k hr => ?_) hr) rfl
  dsimp only
  split
  · exact (mem_logDecode (r.2.atCyc _) _ _ _ _ _).trans hr
  · exact ((mem_setPeRaw _ _ _ _ _).trans (mem_logDecode (r.2.atCyc _) _ _ _ _ _)).trans hr
@[simp] theorem mem_restoreCarry (s : StreamId) (h : Nat) : (d.restoreCarry s h).2.mem = d.mem := by
  show d.PairMem _
  unfold Dev.restoreCarry
  exact .foldl _ (fun r j hr => (mem_writeUnit _ _ _ _).trans ((mem_forEach _ _ fun _ _ => mem_galCount _ _ _ _).trans hr)) rfl
@[simp] theorem mem_loadImage (h : Nat) : (d.loadImage h).2.mem = d.mem := by
  show d.PairMem _
  unfold Dev.loadImage
  refine .foldl _ (fun r a hr => ?_) rfl
  split
  · exact hr
  · extract_lets e is bad ws e1
    have h1 : e.SameMem e1 := .forEach is fun e i => .ite (mem_dramCount _ _ _) (.refl e)
    have h2 : d.SameMem e1 := Dev.SameMem.trans hr h1
    clear_value e1
    split
    · exact h2
    · exact h2.trans (mem_writeUnit _ _ _ _)
@[simp] theorem mem_failoverFails (f : FailOver) : (d.failoverFails f).mem = d.mem := by simp [Dev.failoverFails]
@[simp] theorem mem_rewindEdges (s : StreamId) : (d.rewindEdges s).mem = d.mem := by simp [Dev.rewindEdges]
@[simp] theorem mem_failoverResume (ok : Bool) : (d.failoverResume ok).mem = d.mem := by
  unfold Dev.failoverResume
  split <;> simp
@[simp] theorem mem_himgRefuse (c : Nat) : (d.himgRefuse c).mem = d.mem := by simp [Dev.himgRefuse]
@[simp] theorem mem_himgGo (op : BitVec 2) (h : LHall) : (d.himgGo op h).mem = d.mem := by simp [Dev.himgGo]
@[simp] theorem mem_verifyImage (h : Nat) : (d.verifyImage h).2.2.2.mem = d.mem := by
  unfold Dev.verifyImage
  refine List.foldlRecOn (motive := fun r : Bool × Bool × Bool × Dev => r.2.2.2.mem = d.mem) _ _ rfl fun r hr a _ => ?_
  split
  · exact hr
  · dsimp only
    rw [mem_ite, mem_countUnit, ite_self, mem_forEach _ _ fun e i => mem_dramCount _ _ _, hr]
@[simp] theorem mem_himgEnd (cause : Nat) (mism : Bool) : (d.himgEnd cause mism).mem = d.mem := by simp [Dev.himgEnd]

/-! Fabric -/

@[simp] theorem mem_bramCycle (blk : Nat) (a b : PortOp) : (d.bramCycle blk a b).mem = d.mem := by simp [Dev.bramCycle]
@[simp] theorem mem_looseBram (blk : Nat) : (d.looseBram blk).mem = d.mem := by simp [Dev.looseBram]
@[simp] theorem mem_cellCycle (k i : Nat) (v : BitVec 64) : (d.cellCycle k i v).mem = d.mem := by simp [Dev.cellCycle]
@[simp] theorem mem_regionCycle (k : Nat) : (d.regionCycle k).mem = d.mem := by simp [Dev.regionCycle]
@[simp] theorem mem_fabricTick : d.fabricTick.mem = d.mem := by simp [Dev.fabricTick]
@[simp] theorem mem_strobeRegions (k : Nat) : (d.strobeRegions k).mem = d.mem := by simp [Dev.strobeRegions]
@[simp] theorem mem_clearCells (ks : List Nat) : (d.clearCells ks).mem = d.mem := by simp [Dev.clearCells]
@[simp] theorem mem_startCells (ks : List Nat) : (d.startCells ks).mem = d.mem := by
  unfold Dev.startCells
  rw [mem_forEach, mem_modByw]
  intro e i
  rfl
@[simp] theorem mem_setFlops (l : List Word) : (d.setFlops l).mem = d.mem := by simp [Dev.setFlops]

/-! Byway -/

@[simp] theorem mem_setBq (q : Fin 48) (x : BywQueue) : (d.setBq q x).mem = d.mem := by simp [Dev.setBq]
@[simp] theorem mem_reportDone (n : Nat) : (Dev.reportDone n d).mem = d.mem := by
  induction n generalizing d with
  | zero => rfl
  | succ n ih =>
    unfold Dev.reportDone
    split
    · exact ih _
    · rfl

@[simp] theorem mem_reportLines : d.reportLines.mem = d.mem := by
  unfold Dev.reportLines
  split
  · exact mem_reportDone _ _
  · rfl
@[simp] theorem mem_finishLine (q : Fin 48) (k : Nat) : (d.finishLine q k).mem = d.mem := by simp [Dev.finishLine]
@[simp] theorem mem_blankFill (q : Fin 48) : (d.blankFill q).mem = d.mem := by
  unfold Dev.blankFill
  dsimp only
  repeat' split
  all_goals simp
@[simp] theorem mem_queueBegin (q : Fin 48) : (d.queueBegin q).mem = d.mem := by simp [Dev.queueBegin]
@[simp] theorem mem_queuesLate (k : Nat) : (d.queuesLate k).mem = d.mem := by simp [Dev.queuesLate]
@[simp] theorem mem_gatherRead (q : Fin 48) : (d.gatherRead q).mem = d.mem := by
  show d.SameMem _
  fun_cases Dev.gatherRead d q
  case case5 _ k _ _ _ _ _ _ _ _ t _ _ _ e hr _ _ _ _ =>
    have hg : e.mem = d.mem := by simpa [hr] using mem_galRead d (d.slotOff k + t) 64
    exact Dev.SameMem.trans hg ((mem_finishLine _ _ _).trans (mem_setBq _ _ _))
  case case6 _ k _ _ _ _ _ _ _ _ t _ _ _ e hr _ _ _ _ =>
    have hg : e.mem = d.mem := by simpa [hr] using mem_galRead d (d.slotOff k + t) 64
    exact Dev.SameMem.trans hg (mem_setBq _ _ _)
  all_goals exact .refl _
@[simp] theorem mem_queuePop (q : Fin 48) : (d.queuePop q).mem = d.mem := by simp [Dev.queuePop]
@[simp] theorem mem_restartQueues (k : Nat) : (d.restartQueues k).mem = d.mem := by simp [Dev.restartQueues]
@[simp] theorem mem_cfgRefuse (c : Nat) : (d.cfgRefuse c).mem = d.mem := by simp [Dev.cfgRefuse]
@[simp] theorem mem_stopRegions (ks : List Nat) : (d.stopRegions ks).mem = d.mem := by simp [Dev.stopRegions]
@[simp] theorem mem_clearFrames (f : FabricLoad) : (d.clearFrames f).mem = d.mem := by simp [Dev.clearFrames]
@[simp] theorem mem_fabricGo (part : Bool) (rgn : BitVec 3) : (d.fabricGo part rgn).mem = d.mem := by simp [Dev.fabricGo]
@[simp] theorem mem_loadFails (f : FabricLoad) (c : Nat) : (d.loadFails f c).mem = d.mem := by simp [Dev.loadFails]
@[simp] theorem mem_readFrame (seen : List (List Byte)) (i addr : Nat) : (d.readFrame seen i addr).2.mem = d.mem := by
  unfold Dev.readFrame
  split
  · rfl
  · next a _ =>
    dsimp only
    have hg := mem_galRead d a 264
    split_ifs <;> simp [hg]
@[simp] theorem mem_readFrames (l : List (Nat × Nat)) : (d.readFrames l).2.mem = d.mem := by
  unfold Dev.readFrames
  refine List.foldlRecOn (motive := fun r : Except Nat (List (List Byte)) × Dev => r.2.mem = d.mem) _ _ rfl fun r hr p _ => ?_
  split
  · exact hr
  · exact (mem_readFrame _ _ _ _).trans hr
@[simp] theorem mem_framesRead (ok : Bool) : (d.framesRead ok).mem = d.mem := by
  unfold Dev.framesRead
  split
  · rfl
  split
  · rfl
  split
  · exact mem_loadFails _ _ _
  dsimp only
  split
  · rw [mem_loadFails, mem_galRead]
  split
  · rw [mem_loadFails, mem_galRead]
  next f _ _ _ a _ _ _ =>
  have hr := (mem_readFrames (d.galRead a 64).2.2 (f.addrs.mapIdx fun i a => (i, a))).trans (mem_galRead d a 64)
  split
  · next heq =>
    rw [heq] at hr
    rw [mem_loadFails, hr]
  · next heq =>
    rw [heq] at hr
    split
    · rw [mem_loadFails, hr]
    · rw [mem_ite, mem_loadFails, mem_verifyRequest, mem_modByw, ite_self, mem_galRead, hr]
@[simp] theorem mem_fabricVerified (v : Verdict) : (d.fabricVerified v).mem = d.mem := by
  unfold Dev.fabricVerified
  split <;> simp
@[simp] theorem mem_fabricStart : d.fabricStart.mem = d.mem := by
  unfold Dev.fabricStart
  split <;> simp
@[simp] theorem mem_releaseFlops : d.releaseFlops.mem = d.mem := by simp [Dev.releaseFlops]
@[simp] theorem mem_captureArm : d.captureArm.mem = d.mem := by simp [Dev.captureArm]
@[simp] theorem mem_captureTake (ffs : List Word) : (d.captureTake ffs).mem = d.mem := by simp [Dev.captureTake]
@[simp] theorem mem_captureResume : d.captureResume.mem = d.mem := by simp [Dev.captureResume]
@[simp] theorem mem_captureRead : d.captureRead.2.mem = d.mem := by
  unfold Dev.captureRead
  dsimp only
  repeat' split
  all_goals simp

/-! Line -/

@[simp] theorem mem_encoderEdge (a b : Bool) : (d.encoderEdge a b).mem = d.mem := by simp [Dev.encoderEdge]
@[simp] theorem mem_lsyncPulse (low high : Nat) : (d.lsyncPulse low high).mem = d.mem := by simp [Dev.lsyncPulse]
@[simp] theorem mem_lineStrobe (t : Nat) : (d.lineStrobe t).mem = d.mem := by simp [Dev.lineStrobe]
@[simp] theorem mem_gateAdmit (s : StreamId) : (d.gateAdmit s).mem = d.mem := by simp [Dev.gateAdmit]

/-! Milestone -/

@[simp] theorem mem_milestoneLatches (s : StreamId) : (d.milestoneLatches s).mem = d.mem := by simp [Dev.milestoneLatches]
@[simp] theorem mem_commitEdges (s : StreamId) (lend : Bool) : (d.commitEdges s lend).mem = d.mem := by simp [Dev.commitEdges]
@[simp] theorem mem_commitSpan (s : StreamId) (j : Job) : (d.commitSpan s j).mem = d.mem := by simp [Dev.commitSpan]
@[simp] theorem mem_commitLine (s : StreamId) : (d.commitLine s).mem = d.mem := by
  unfold Dev.commitLine
  dsimp only
  rw [mem_modSt, mem_setFld, mem_forEach, mem_setReg, mem_setReg]
  intro e i
  rw [mem_ite, mem_setFld]
  exact ite_self _

/-! GalleryOps -/

@[simp] theorem mem_setGalAge (b q n : Nat) : (d.setGalAge b q n).mem = d.mem := by simp [Dev.setGalAge]
@[simp] theorem mem_syncSec : d.syncSec.mem = d.mem := by simp [Dev.syncSec]
@[simp] theorem mem_startWipe (cause : BitVec 4) : (d.startWipe cause).mem = d.mem := by simp [Dev.startWipe]
@[simp] theorem mem_wipeRead (nonzero : Bool) : (d.wipeRead nonzero).mem = d.mem := by
  unfold Dev.wipeRead
  split
  · rfl
  · dsimp only
    split
    · exact (mem_raise _ _).trans rfl
    · rfl
@[simp] theorem mem_marchGo : d.marchGo.mem = d.mem := by simp [Dev.marchGo]

/-! Reset -/

@[simp] theorem mem_holdCore (c : CoreId) : (d.holdCore c).mem = d.mem := by simp [Dev.holdCore]
@[simp] theorem mem_releaseCore (c : CoreId) (pc : Word) : (d.releaseCore c pc).mem = d.mem := by simp [Dev.releaseCore]
@[simp] theorem mem_restartC0 : d.restartC0.mem = d.mem := by simp [Dev.restartC0]
@[simp] theorem mem_presetCore : d.presetCore.mem = d.mem := by
  unfold Dev.presetCore
  dsimp only
  rw [mem_syncSec]
  refine (mem_forEach _ _ fun e n => ?_).trans ?_
  · split
    · split <;> simp
    · rfl
  · rw [mem_presetRoad, mem_setReg, mem_setStaged, mem_forEach, mem_preset]
    exact fun e p => mem_setReg _ _ _
@[simp] theorem mem_enablePlls : d.enablePlls.mem = d.mem := by simp [Dev.enablePlls]
@[simp] theorem mem_coreOn : d.coreOn.mem = d.mem := by simp [Dev.coreOn]
@[simp] theorem mem_setMode (m : Nat) : (d.setMode m).mem = d.mem := by simp [Dev.setMode]
@[simp] theorem mem_presetPwr : d.presetPwr.mem = d.mem := by simp [Dev.presetPwr]
@[simp] theorem mem_setLevel (l how : Nat) : (d.setLevel l how).mem = d.mem := by simp [Dev.setLevel]

/-! Modes -/

@[simp] theorem mem_quarantine : d.quarantine.mem = d.mem := by simp [Dev.quarantine]
@[simp] theorem mem_bootImages : d.bootImages.mem = d.mem := by
  unfold Dev.bootImages
  split
  · rfl
  · rw [mem_modPow, mem_verifyRequest]
@[simp] theorem mem_bootRevocation : d.bootRevocation.mem = d.mem := by
  unfold Dev.bootRevocation
  split_ifs
  · rw [mem_modPow, mem_verifyRequest]
  · rw [mem_bootImages, mem_setFlag]
  · exact mem_bootImages d
@[simp] theorem mem_tryBoot : d.tryBoot.mem = d.mem := by
  unfold Dev.tryBoot
  dsimp only
  repeat' split
  all_goals simp
@[simp] theorem mem_aonPowerGood (st : Straps) : (d.aonPowerGood st).mem = d.mem := by simp [Dev.aonPowerGood]
@[simp] theorem mem_vmidUp : d.vmidUp.mem = d.mem := by simp [Dev.vmidUp]
@[simp] theorem mem_xtaCheck (khz : Nat) (st : Straps) : (d.xtaCheck khz st).mem = d.mem := by simp [Dev.xtaCheck]
@[simp] theorem mem_xtbCheck (hz : Nat) : (d.xtbCheck hz).mem = d.mem := by simp [Dev.xtbCheck]
@[simp] theorem mem_crystalStop (xtb : Bool) : (d.crystalStop xtb).mem = d.mem := by simp [Dev.crystalStop]
@[simp] theorem mem_pllLost (n : Fin 4) : (d.pllLost n).mem = d.mem := by simp [Dev.pllLost]
@[simp] theorem mem_startBurn (m : Nat) : (d.startBurn m).mem = d.mem := by simp [Dev.startBurn]
@[simp] theorem mem_burnDone : d.burnDone.mem = d.mem := by
  unfold Dev.burnDone
  dsimp only
  repeat' split
  all_goals simp
@[simp] theorem mem_bootFailed (b : BootItem) : (d.bootFailed b).mem = d.mem := by
  unfold Dev.bootFailed
  split
  · split_ifs
    · rw [mem_modPow, mem_verifyRequest]
    · rfl
    · exact mem_quarantine d
  · rfl
@[simp] theorem mem_revokeVerified (v : Verdict) : (d.revokeVerified v).mem = d.mem := by simp [Dev.revokeVerified]
@[simp] theorem mem_bootOffer : d.bootOffer.mem = d.mem := by
  unfold Dev.bootOffer
  split
  · rw [mem_modPow, mem_verifyRequest]
  · rfl
@[simp] theorem mem_modeRefuse (c : Nat) : (d.modeRefuse c).mem = d.mem := by simp [Dev.modeRefuse]
@[simp] theorem mem_modeRequest (c : CoreId) (t : Nat) : (d.modeRequest c t).mem = d.mem := by simp [Dev.modeRequest]
@[simp] theorem mem_enterPrint : d.enterPrint.mem = d.mem := by simp [Dev.enterPrint]
@[simp] theorem mem_leavePrint : d.leavePrint.mem = d.mem := by
  unfold Dev.leavePrint
  dsimp only
  rw [mem_modPow]
  refine (mem_withLine _ _).trans ?_
  rw [mem_setFlag, mem_forEach]
  exact fun _ _ => mem_setCur _ _ _
@[simp] theorem mem_haltCores (m : BitVec 4) : (d.haltCores m).mem = d.mem := by simp [Dev.haltCores]
@[simp] theorem mem_enterHalt : d.enterHalt.mem = d.mem := by simp [Dev.enterHalt]
@[simp] theorem mem_tryHalt : d.tryHalt.mem = d.mem := by simp [Dev.tryHalt]
@[simp] theorem mem_wakeSleep : d.wakeSleep.mem = d.mem := by simp [Dev.wakeSleep]
@[simp] theorem mem_wakeStandby : d.wakeStandby.mem = d.mem := by simp [Dev.wakeStandby]
@[simp] theorem mem_wake (standby : Bool) : (d.wake standby).mem = d.mem := by simp [Dev.wake]
@[simp] theorem mem_watchdogKick (key : Nat) : (d.watchdogKick key).mem = d.mem := by simp [Dev.watchdogKick]
@[simp] theorem mem_rampRestart : d.rampRestart.mem = d.mem := by simp [Dev.rampRestart]
@[simp] theorem mem_hallTrip (h : HallId) : (d.hallTrip h).mem = d.mem := by simp [Dev.hallTrip]
@[simp] theorem mem_hallClockFail (h : HallId) : (d.hallClockFail h).mem = d.mem := by simp [Dev.hallClockFail]
@[simp] theorem mem_hallTrim (h : HallId) (slower : Bool) : (d.hallTrim h slower).mem = d.mem := by simp [Dev.hallTrim]
@[simp] theorem mem_fmeterDone (count : Nat) : (d.fmeterDone count).mem = d.mem := by simp [Dev.fmeterDone]
@[simp] theorem mem_ddrFail : d.ddrFail.mem = d.mem := by simp [Dev.ddrFail]
@[simp] theorem mem_ddrTrained (pass : Bool) : (d.ddrTrained pass).mem = d.mem := by simp [Dev.ddrTrained]
@[simp] theorem mem_ddrPg (high : Bool) : (d.ddrPg high).mem = d.mem := by
  unfold Dev.ddrPg
  dsimp only
  repeat' split
  all_goals simp
@[simp] theorem mem_ddrPgTimeout : d.ddrPgTimeout.mem = d.mem := by
  unfold Dev.ddrPgTimeout
  split <;> simp

/-! Security -/

@[simp] theorem mem_secStep : d.secStep.mem = d.mem := by simp [Dev.secStep]
@[simp] theorem mem_startSign (q : Fin 16) : (d.startSign q).mem = d.mem := by simp [Dev.startSign]
@[simp] theorem mem_endSign : d.endSign.mem = d.mem := by simp [Dev.endSign]
@[simp] theorem mem_newChallenge (nonce : List Word) : (d.newChallenge nonce).mem = d.mem := by
  unfold Dev.newChallenge
  split <;> rfl
@[simp] theorem mem_tokenGo : d.tokenGo.mem = d.mem := by simp [Dev.tokenGo]
@[simp] theorem mem_tokenDone (v : Verdict) : (d.tokenDone v).mem = d.mem := by
  unfold Dev.tokenDone
  split <;> simp
@[simp] theorem mem_unblock : d.unblock.mem = d.mem := by simp [Dev.unblock]
@[simp] theorem mem_haltRequest (m : BitVec 4) : (d.haltRequest m).mem = d.mem := by simp [Dev.haltRequest]
@[simp] theorem mem_resume : d.resume.mem = d.mem := by
  unfold Dev.resume
  split
  · rfl
  · exact (mem_setMode _ _).trans (mem_forEach _ _ fun _ _ => rfl)
@[simp] theorem mem_lowerLevel (l : Nat) : (d.lowerLevel l).mem = d.mem := by simp [Dev.lowerLevel]

/-! Commit -/

@[simp] theorem mem_refuseCommit (b : Block) (cause : Nat) : (d.refuseCommit b cause).mem = d.mem := by simp [Dev.refuseCommit]
@[simp] theorem mem_commitGo (b : Block) (sec : Bool) : (d.commitGo b sec).mem = d.mem := by
  unfold Dev.commitGo
  dsimp only
  repeat' split
  all_goals simp
@[simp] theorem mem_applied (b : Block) : (d.applied b).mem = d.mem := by simp [Dev.applied]
@[simp] theorem mem_applyHall (h : HallId) (c : CapSet) : (d.applyHall h c).mem = d.mem := by simp [Dev.applyHall]
@[simp] theorem mem_applySeq (c : CapSet) : (d.applySeq c).mem = d.mem := by
  unfold Dev.applySeq
  split <;> simp
@[simp] theorem mem_applyStair (c : CapSet) : (d.applyStair c).mem = d.mem := by
  unfold Dev.applyStair
  rw [mem_forEach, mem_applySet]
  intro e i
  rw [mem_setFld, mem_setFld, mem_setFld, mem_setFld]
@[simp] theorem mem_applyGal (c : CapSet) : (d.applyGal c).mem = d.mem := by
  unfold Dev.applyGal
  dsimp only
  split
  · exact mem_applySet _ _ _
  · rw [mem_modPow, mem_restartQueues, mem_setFld, mem_forEach]
    · exact mem_applySet _ _ _
    · intro e i
      rw [mem_setFld]
@[simp] theorem mem_applyPwr (c : CapSet) : (d.applyPwr c).mem = d.mem := by simp [Dev.applyPwr]
@[simp] theorem mem_applyClk (c : CapSet) : (d.applyClk c).mem = d.mem := by simp [Dev.applyClk]
@[simp] theorem mem_applyLine (c : CapSet) : (d.applyLine c).mem = d.mem := by simp [Dev.applyLine]
@[simp] theorem mem_applyHost (c : CapSet) : (d.applyHost c).mem = d.mem := by simp [Dev.applyHost]
@[simp] theorem mem_applyLink (c : CapSet) : (d.applyLink c).mem = d.mem := by simp [Dev.applyLink]
@[simp] theorem mem_applyWay (c : CapSet) : (d.applyWay c).mem = d.mem := by simp [Dev.applyWay]
@[simp] theorem mem_partSet (b : Block) (c : CapSet) (p : Nat → Bool) :
    (d.partSet b c p).mem = d.mem := forEach_frame Dev.mem _ _ fun _ _ => rfl
@[simp] theorem mem_applyByw (c : CapSet) : (d.applyByw c).mem = d.mem := by simp [Dev.applyByw]
@[simp] theorem mem_applyRoad (c : CapSet) : (d.applyRoad c).mem = d.mem := by simp [Dev.applyRoad]
@[simp] theorem mem_newStream (old : Dev) (s : StreamId) : (d.newStream old s).mem = d.mem := by simp [Dev.newStream]
@[simp] theorem mem_splitQuiesced : d.splitQuiesced.mem = d.mem := by
  unfold Dev.splitQuiesced
  split
  · rfl
  split
  · rfl
  dsimp only
  split
  · rw [mem_refuseCommit, mem_applied]
  · rw [mem_forEach, mem_modPorts, mem_forEach, mem_forEach, mem_applied, mem_applySeq]
    · intro e x
      split <;> simp
    · exact fun e i => mem_forEach _ _ fun e k => mem_setReg _ _ _
    · exact fun e i => mem_modHq _ _ _

/-! HostOps -/

@[simp] theorem mem_complete (q : Fin 16) (st detail : Nat) (result : BitVec 64) : (d.complete q st detail result).mem = d.mem := by
  unfold Dev.complete
  dsimp only
  repeat' split
  all_goals simp
@[simp] theorem mem_doorbell (q : Fin 16) (f : Fld) (v : Nat) : (d.doorbell q f v).mem = d.mem := by simp [Dev.doorbell]
@[simp] theorem mem_fwGo (q : Fin 16) : (d.fwGo q).mem = d.mem := by
  unfold Dev.fwGo
  split <;> simp
@[simp] theorem mem_abortQueues : d.abortQueues.mem = d.mem := by
  unfold Dev.abortQueues
  rw [mem_forEach]
  intro e q
  rw [mem_setHostQ]
@[simp] theorem mem_linkState (up : Bool) (speed width : Nat) (l1 : Bool) :
    (d.linkState up speed width l1).mem = d.mem := by simp [Dev.linkState]
@[simp] theorem mem_hostReset : d.hostReset.mem = d.mem := by simp [Dev.hostReset]
@[simp] theorem mem_functionReset : d.functionReset.mem = d.mem := by
  show d.SameMem _
  unfold Dev.functionReset
  split
  · rfl
  extract_lets e0 v e1 e2
  have h0 : d.SameMem e0 := Dev.SameMem.trans (mem_dropHost d) (mem_abortQueues _)
  clear_value e0
  have h1 : d.SameMem e1 := h0.trans rfl
  clear_value e1
  have h2 : d.SameMem e2 := h1.trans (.forEach _ fun _ _ => .forEach _ fun _ _ => (mem_setStaged _ _ _).trans (mem_setReg _ _ _))
  clear_value e2
  exact h2.trans ((mem_raise _ _).trans (mem_setFlag _ _ _))
@[simp] theorem mem_discardQueued : d.discardQueued.mem = d.mem := rfl
@[simp] theorem mem_enterD3hot : d.enterD3hot.mem = d.mem := by simp [Dev.enterD3hot]

/-! TestOps -/

@[simp] theorem mem_testGo : d.testGo.mem = d.mem := by
  unfold Dev.testGo
  dsimp only
  repeat' split
  all_goals simp
@[simp] theorem mem_testDone (res : BistRes) : (d.testDone res).mem = d.mem := by
  show d.SameMem _
  unfold Dev.testDone
  split
  · rfl
  split
  · rfl
  extract_lets e0 hs off colsOf e1 bad e2 e3 e4
  have h1 : d.SameMem e1 := by
    unfold e1
    split
    · rfl
    · exact mem_setFld _ _ _
    · refine Dev.SameMem.trans (e := e0) rfl (.forEach _ fun e h => ?_)
      exact mem_setFld _ _ _
    · exact mem_setReg _ _ _
  have h2 : d.SameMem e2 := by
    refine h1.trans (.ite (.forEach _ fun e h => ?_) (.refl _))
    extract_lets e'
    have he : e.SameMem e' := .ite (mem_clearHall _ _) (.refl e)
    clear_value e'
    split
    · exact he.trans ((mem_forHalls _ fun _ _ => mem_modHq _ _ _).trans (mem_setSt _ _ _))
    · exact he
  have h3 : d.SameMem e3 := h2.trans ((mem_setFlag _ _ _).trans (mem_setFlag _ _ _))
  have h4 : d.SameMem e4 := h3.trans (.ite (mem_setFlag _ _ _) (.refl _))
  clear_value e4
  split
  · exact h4.trans ((mem_modeRequest _ _ _).trans (mem_modPow _ _))
  · exact h4
@[simp] theorem mem_repairBurn : d.repairBurn.mem = d.mem := by simp [Dev.repairBurn]
@[simp] theorem mem_repairBurned (bad : List (Fin 320)) : (d.repairBurned bad).mem = d.mem := by simp [Dev.repairBurned]

/-! Probe -/

@[simp] theorem mem_traceHeader (k vc : Nat) (hdr : BitVec 64) : (d.traceHeader k vc hdr).mem = d.mem := by simp [Dev.traceHeader]
@[simp] theorem mem_probeAlong (t vc inj : Nat) (links : List (Nat × Bool)) (injected : Bool) (hdr : BitVec 64) (flits : Nat) :
    (d.probeAlong t vc inj links injected hdr flits).mem = d.mem := by simp [Dev.probeAlong]
@[simp] theorem mem_routedBy (inj vc : Nat) : (d.routedBy inj vc).mem = d.mem := by
  unfold Dev.routedBy
  split
  · split
    · exact mem_applySet _ _ _
    · rfl
  · rfl
@[simp] theorem mem_probe (t inj dst : Nat) (hdr : BitVec 64) (flits : Nat) :
    (d.probe t inj dst hdr flits).mem = d.mem := by simp [Dev.probe]
@[simp] theorem mem_drawTid (n : Nat) : (d.drawTid n).2.mem = d.mem := by simp [Dev.drawTid]

/-! RegWrite -/

@[simp] theorem mem_plainWrite (w : Who) (b : Block) (a : Nat) (v : Word) : (d.plainWrite w b a v).mem = d.mem := by
  unfold Dev.plainWrite
  split <;> simp
@[simp] theorem mem_eventSet (w : Nat) (v : Word) : (d.eventSet w v).mem = d.mem := by simp [Dev.eventSet]
@[simp] theorem mem_eventClear (w : Nat) (v : Word) : (d.eventClear w v).mem = d.mem := by simp [Dev.eventClear]
@[simp] theorem mem_modWrite (w : Who) (g : Nat) (v : Word) : (d.modWrite w g v).mem = d.mem := by simp [Dev.modWrite]
@[simp] theorem mem_deadRevive (i : Nat) (v : Word) : (d.deadRevive i v).mem = d.mem := by simp [Dev.deadRevive]
@[simp] theorem mem_dmaWrite (w : Who) (e : Nat) (v : Word) : (d.dmaWrite w e v).mem = d.mem := by
  unfold Dev.dmaWrite
  dsimp only
  split_ifs
  · exact mem_plainWrite _ _ _ _ _
  · rw [mem_setFld, mem_setFlag, mem_plainWrite]
  · rw [mem_setFlag, mem_plainWrite]
@[simp] theorem mem_tokenWrite (w : Who) (v : Word) (nonce : List Word) : (d.tokenWrite w v nonce).mem = d.mem := by simp [Dev.tokenWrite]
@[simp] theorem mem_haltWrite (v : Word) : (d.haltWrite v).mem = d.mem := by simp [Dev.haltWrite]
@[simp] theorem mem_freeWords : d.freeWords.2.mem = d.mem := by simp [Dev.freeWords]
@[simp] theorem mem_addFree (f : Fld) : (d.addFree f).mem = d.mem := by simp [Dev.addFree]
@[simp] theorem mem_regRead (w : Who) (b : Block) (off : Nat) : (d.regRead w b off).2.2.mem = d.mem := by
  unfold Dev.regRead
  dsimp only
  repeat' split
  all_goals simp

/-! Bus -/

@[simp] theorem mem_probePair (w : Who) (n : Nat) (wr mgmt : Bool) (tid a len st bytes : Nat) :
    (d.probePair w n wr mgmt tid a len st bytes).mem = d.mem := by simp [Dev.probePair]
@[simp] theorem mem_freeBytes (n : Nat) : (d.freeBytes n).2.mem = d.mem := by simp [Dev.freeBytes]
@[simp] theorem mem_probeRequest (node : Nat) (k : PacketKind) (p : Packet) :
    (d.probeRequest node k p).mem = d.mem := by simp [Dev.probeRequest]
@[simp] theorem mem_debugWrite (p : Config.DebugPlace) (v : Word) : (d.debugWrite p v).mem = d.mem := by
  unfold Dev.debugWrite
  split <;> simp
@[simp] theorem mem_lateBusError (w : Who) (st : BitVec 4) (flivin : Word) :
    (d.lateBusError w st flivin).mem = d.mem := by simp [Dev.lateBusError]

/-! Packets -/

@[simp] theorem mem_answerAsked (x : OpenReq) : (d.answerAsked x).mem = d.mem := by simp [Dev.answerAsked]

/-! CmdEvents -/

@[simp] theorem mem_modExpire (g : Nat) : (d.modExpire g).mem = d.mem := by simp [Dev.modExpire]
@[simp] theorem mem_msixSend (v : BitVec 6) : (d.msixSend v).mem = d.mem := by simp [Dev.msixSend]

/-! CmdHost -/

@[simp] theorem mem_setBar4Word (i : Nat) (v : Word) : (d.setBar4Word i v).mem = d.mem := by simp [Dev.setBar4Word]
@[simp] theorem mem_hostAnswer (tid : BitVec 12) (st : BitVec 4) (l : List Byte) : (d.hostAnswer tid st l).mem = d.mem := by
  unfold Dev.hostAnswer
  split <;> simp
@[simp] theorem mem_configWrite (w : CfgWrite) : (d.configWrite w).mem = d.mem := by
  unfold Dev.configWrite
  dsimp only
  repeat' split
  all_goals simp
@[simp] theorem mem_finish (q : Fin 16) (st detail : Nat) : (d.finish q st detail).mem = d.mem := by simp [Dev.finish]
@[simp] theorem mem_takeEntry (q : Fin 16) (e : Sqe) (fw : Bool) : (d.takeEntry q e fw).mem = d.mem := by simp [Dev.takeEntry]
@[simp] theorem mem_moved (q : Fin 16) (c : HostCmd) (n : Nat) : (d.moved q c n).mem = d.mem := by simp [Dev.moved]
@[simp] theorem mem_fwFinish (q : Fin 16) (st detail : Nat) (result : BitVec 64) :
    (d.fwFinish q st detail result).mem = d.mem := by simp [Dev.fwFinish]
@[simp] theorem mem_fwDone (q : Fin 16) (st detail : Nat) : (d.fwDone q st detail).mem = d.mem := by simp [Dev.fwDone]
@[simp] theorem mem_hostMode (q : Fin 16) (e : Sqe) : (d.hostMode q e).mem = d.mem := by simp [Dev.hostMode]
@[simp] theorem mem_attest (q : Fin 16) (e : Sqe) (sig : List Byte) : (d.attest q e sig).mem = d.mem := by simp [Dev.attest]

/-! CmdLinks -/

@[simp] theorem mem_linkTrained (p : Fin 4) (chip : BitVec 3) (pedge : Bool) :
    (d.linkTrained p chip pedge).mem = d.mem := by simp [Dev.linkTrained]
@[simp] theorem mem_linkRetry (p : Fin 4) : (d.linkRetry p).mem = d.mem := by simp [Dev.linkRetry]
@[simp] theorem mem_goodFrames (p : Fin 4) (n : BitVec 12) : (d.goodFrames p n).mem = d.mem := by simp [Dev.goodFrames]
@[simp] theorem mem_goodFrame (p : Fin 4) : (d.goodFrame p).mem = d.mem := by simp [Dev.goodFrame]
@[simp] theorem mem_badFrame (p : Fin 4) : (d.badFrame p).mem = d.mem := by simp [Dev.badFrame]
@[simp] theorem mem_tokenFrame (express : Bool) (p : Fin 4) (tseq : BitVec 16) (x : BitVec 512) :
    (d.tokenFrame express p tseq x).mem = d.mem := by simp [Dev.tokenFrame]
@[simp] theorem mem_linkResponse (p : Fin 4) (tid : BitVec 12) (st : BitVec 4) (l : List Byte) :
    (d.linkResponse p tid st l).mem = d.mem := by
  unfold Dev.linkResponse
  dsimp only
  repeat' split
  all_goals simp
@[simp] theorem mem_edgeTimeout (p : Fin 4) (s : StreamId) : (d.edgeTimeout p s).mem = d.mem := by simp [Dev.edgeTimeout]

/-! CmdRoad -/

@[simp] theorem mem_noteLinkPath : d.noteLinkPath.mem = d.mem := by simp [Dev.noteLinkPath]
@[simp] theorem mem_linkFail (k : Nat) : (d.linkFail k).mem = d.mem := by simp [Dev.linkFail]
@[simp] theorem mem_setRetries (i n : Nat) : (d.setRetries i n).mem = d.mem := by simp [Dev.setRetries]
@[simp] theorem mem_flitReceive (k : Nat) (up ok : Bool) : (d.flitReceive k up ok).mem = d.mem := by simp [Dev.flitReceive]
@[simp] theorem mem_endEpoch : d.endEpoch.mem = d.mem := by
  unfold Dev.endEpoch
  split <;> simp
@[simp] theorem mem_probeMarker (r p vc : Nat) : (d.probeMarker r p vc).mem = d.mem := by
  unfold Dev.probeMarker
  dsimp only
  repeat' split
  all_goals simp
@[simp] theorem mem_marker (x : EpochAt) : (d.marker x).mem = d.mem := by
  unfold Dev.marker
  dsimp only
  repeat' split
  all_goals simp
@[simp] theorem mem_drainEnd (n : Nat) : (d.drainEnd n).mem = d.mem := by simp [Dev.drainEnd]
@[simp] theorem mem_drainTimeout (n : Nat) : (d.drainTimeout n).mem = d.mem := by simp [Dev.drainTimeout]
@[simp] theorem mem_resetExchange (n : Nat) : (d.resetExchange n).mem = d.mem := by simp [Dev.resetExchange]
@[simp] theorem mem_targetTimeout (n : Nat) : (d.targetTimeout n).mem = d.mem := by simp [Dev.targetTimeout]

/-! CmdSecurity -/

@[simp] theorem mem_drawNonce (r : Requester) (nonce : List Word) : (d.drawNonce r nonce).mem = d.mem := by simp [Dev.drawNonce]

/-! CmdSeq -/


/-! CmdTest -/

@[simp] theorem mem_captureAccess : d.captureAccess.mem = d.mem := by simp [Dev.captureAccess]

/-! CoreSys -/

@[simp] theorem mem_readCycles (c : CoreId) : (d.readCycles c).mem = d.mem := by simp [Dev.readCycles]
@[simp] theorem mem_handler (c : CoreId) (prio : Nat) : (d.handler c prio).mem = d.mem := by simp [Dev.handler]
@[simp] theorem mem_giveBack (n : Nat) : (d.giveBack n).mem = d.mem := by simp [Dev.giveBack]
@[simp] theorem mem_toVector (c : CoreId) (n : Nat) (f : CoreState → CoreState) : (d.toVector c n f).mem = d.mem := by simp [Dev.toVector]
@[simp] theorem mem_returnTo (c : CoreId) (pc sr : Word) : (d.returnTo c pc sr).mem = d.mem := by
  unfold Dev.returnTo
  dsimp only
  repeat' split
  all_goals simp
@[simp] theorem mem_releaseHeld (c : CoreId) : (d.releaseHeld c).mem = d.mem := by simp [Dev.releaseHeld]
@[simp] theorem mem_waitFor (c : CoreId) : (d.waitFor c).mem = d.mem := by simp [Dev.waitFor]
@[simp] theorem mem_wakeCore (c : CoreId) : (d.wakeCore c).mem = d.mem := by simp [Dev.wakeCore]

end Sys2Proof.Machine
end

section
/-! Memory stays in its canonical form through every operation that writes it, and so through every step (the model's own form:
notes/assumptions/3). -/

namespace Sys2Proof.Machine

set_option Elab.async false

/-- The canonical form, as a property that only the lemmas below take apart. -/
def Canon (m : List Host.Cell) : Prop := Memory.wf m

@[simp] theorem canon_ite {p : Prop} [Decidable p] {m n : List Host.Cell} (h : Canon m) (k : Canon n) : Canon (if p then m else n) := by
  split
  · exact h
  · exact k

theorem canon_iteDev {p : Prop} [Decidable p] {d e : Dev} (h : Canon d.mem) (k : Canon e.mem) : Canon (if p then d else e).mem := by
  split
  · exact h
  · exact k

/-- A sequence of operations that keep the canonical form keeps it. -/
theorem canon_forEach {β : Type} (l : List β) {d : Dev} {f : Dev → β → Dev} (hf : ∀ (e : Dev) b, Canon e.mem → Canon (f e b).mem)
    (h : Canon d.mem) : Canon (forEach l d f).mem :=
  forEach_keeps (P := fun e : Dev => Canon e.mem) l hf h

theorem canon_foldl {β : Type} (l : List β) {d : Dev} {f : Dev → β → Dev} (hf : ∀ (e : Dev) b, Canon e.mem → Canon (f e b).mem)
    (h : Canon d.mem) : Canon (l.foldl f d).mem :=
  canon_forEach l hf h

/-- The same with a result that goes along. -/
theorem canon_foldl_pair {α β : Type} (l : List β) {r : α × Dev} {f : α × Dev → β → α × Dev}
    (hf : ∀ (r : α × Dev) b, Canon r.2.mem → Canon (f r b).2.mem) (h : Canon r.2.mem) : Canon (l.foldl f r).2.mem :=
  forEach_keeps (P := fun r : α × Dev => Canon r.2.mem) l hf h

/-- Memory is canonical in whatever a target does with a request. -/
def Served.Canon {α : Type} : Served α → Prop
  | .done _ _ d => Machine.Canon d.mem
  | .away d => Machine.Canon d.mem

/-- The same of a transaction. -/
def Issued.Canon {α : Type} : Issued α → Prop
  | .answered _ _ d => Machine.Canon d.mem
  | .sent _ d => Machine.Canon d.mem
  | .wait d => Machine.Canon d.mem

def Done.Canon {α : Type} : Done α → Prop
  | .answered _ _ d => Machine.Canon d.mem
  | .wait d => Machine.Canon d.mem

theorem canon_of_eq {d e : Dev} (h : e.mem = d.mem) (k : Canon d.mem) : Canon e.mem := h ▸ k

section
variable {α : Type} {st : BitVec 4} {x : α} {tid : BitVec 12} {d : Dev}

theorem Served.Canon.of_done {r : Served α} (h : r.Canon) (e : r = .done st x d) : Machine.Canon d.mem := by
  subst e
  exact h

theorem Served.Canon.of_away {r : Served α} (h : r.Canon) (e : r = .away d) : Machine.Canon d.mem := by
  subst e
  exact h

theorem Issued.Canon.of_answered {r : Issued α} (h : r.Canon) (e : r = .answered st x d) : Machine.Canon d.mem := by
  subst e
  exact h

theorem Issued.Canon.of_sent {r : Issued α} (h : r.Canon) (e : r = .sent tid d) : Machine.Canon d.mem := by
  subst e
  exact h

theorem Issued.Canon.of_wait {r : Issued α} (h : r.Canon) (e : r = .wait d) : Machine.Canon d.mem := by
  subst e
  exact h

theorem Done.Canon.of_answered {r : Done α} (h : r.Canon) (e : r = .answered st x d) : Machine.Canon d.mem := by
  subst e
  exact h

theorem Done.Canon.of_wait {r : Done α} (h : r.Canon) (e : r = .wait d) : Machine.Canon d.mem := by
  subst e
  exact h

end

@[simp] theorem canon_setByte {d : Dev} {a : Nat} {v : Byte} (h : Canon d.mem) : Canon (d.setByte a v).mem := wf_setByte h

@[simp] theorem canon_setBytes {d : Dev} {a : Nat} {l : List Byte} (h : Canon d.mem) : Canon (d.setBytes a l).mem := wf_setBytes h

@[simp] theorem canon_setWord32 {d : Dev} {a : Nat} {v : Word} (h : Canon d.mem) : Canon (d.setWord32 a v).mem := by
  unfold Dev.setWord32
  simp -implicitDefEqProofs [h]

@[simp] theorem canon_setWord64 {d : Dev} {a : Nat} {v : BitVec 64} (h : Canon d.mem) : Canon (d.setWord64 a v).mem := by
  unfold Dev.setWord64
  simp -implicitDefEqProofs [h]

@[simp] theorem canon_galPut {d : Dev} {i : Nat} {x : BitVec 64} (h : Canon d.mem) : Canon (d.galPut i x).mem := by
  unfold Dev.galPut
  simp -implicitDefEqProofs [h]

@[simp] theorem canon_galWrite {d : Dev} {strict : Bool} {a : Nat} {l : List Byte} (h : Canon d.mem) :
    Canon (d.galWrite strict a l).2.mem := by
  refine canon_foldl_pair _ (fun r i hr => ?_) h
  dsimp only
  split
  · simp -implicitDefEqProofs [hr]
  · split <;> simp -implicitDefEqProofs [hr]

@[simp] theorem canon_enter {d : Dev} {c : CoreId} {ret : Word} {entry : Nat} {f : CoreState → CoreState} (h : Canon d.mem) :
    Canon (d.enter c ret entry f).mem := by
  unfold Dev.enter
  dsimp only
  repeat' split
  all_goals simp -implicitDefEqProofs [h]

@[simp] theorem canon_takeTrap {d : Dev} {c : CoreId} {n : BitVec 5} {ret taddr : Word} {impr : Bool} (h : Canon d.mem) :
    Canon (d.takeTrap c n ret taddr impr).mem := by
  unfold Dev.takeTrap
  simp -implicitDefEqProofs [h]

@[simp] theorem canon_trap {d : Dev} {c : CoreId} {t : Trap} {ret taddr : Word} {impr : Bool} (h : Canon d.mem) :
    Canon (d.trap c t ret taddr impr).mem := by
  unfold Dev.trap
  simp -implicitDefEqProofs [h]

@[simp] theorem canon_trapDue {d : Dev} {c : CoreId} (h : Canon d.mem) : Canon (d.trapDue c).mem := by
  unfold Dev.trapDue
  split <;> simp -implicitDefEqProofs [h]

@[simp] theorem canon_loadAnswer {d : Dev} {c : CoreId} {tid : BitVec 12} {st : BitVec 4} {l : List Byte} (h : Canon d.mem) :
    Canon (d.loadAnswer c tid st l).mem := by
  unfold Dev.loadAnswer
  simp -implicitDefEqProofs [h]

@[simp] theorem canon_trapHere {d : Dev} {c : CoreId} {t : Trap} (h : Canon d.mem) : Canon (d.trapHere c t).mem := by
  unfold Dev.trapHere
  simp -implicitDefEqProofs [h]

@[simp] theorem canon_instr {d : Dev} {c : CoreId} {len : Nat} {ps : List PReg} {ds : List DReg} {f : Dev → Dev}
    (hf : ∀ e : Dev, Canon e.mem → Canon (f e).mem)
    (hd : Canon d.mem) : Canon (d.instr c len ps ds f).mem := by
  unfold Dev.instr
  dsimp only
  repeat' split
  all_goals simp -implicitDefEqProofs [hd, hf]

@[simp] theorem canon_pred {d : Dev} {c : CoreId} {p : Pred} {f : Dev → Dev} (hf : ∀ e : Dev, Canon e.mem → Canon (f e).mem)
    (hd : Canon d.mem) : Canon (d.pred c p f).mem := by
  unfold Dev.pred
  split
  · exact hf d hd
  · exact hd

@[simp] theorem canon_lawful {d : Dev} {c : CoreId} {n : Names} {f : Dev → Dev} (hf : ∀ e : Dev, Canon e.mem → Canon (f e).mem)
    (hd : Canon d.mem) : Canon (d.lawful c n f).mem := by
  unfold Dev.lawful
  split <;> simp -implicitDefEqProofs [hd, hf]

@[simp] theorem canon_op16 {d : Dev} {c : CoreId} {n : Names} {f : Dev → Dev} (hf : ∀ e : Dev, Canon e.mem → Canon (f e).mem)
    (hd : Canon d.mem) : Canon (d.op16 c n f).mem := canon_instr (fun _ h => canon_lawful (fun e h => by
  split
  · exact h
  · exact hf e h) h) hd

@[simp] theorem canon_op32 {d : Dev} {c : CoreId} {p : Pred} {n : Names} {f : Dev → Dev} (hf : ∀ e : Dev, Canon e.mem → Canon (f e).mem)
    (hd : Canon d.mem) : Canon (d.op32 c p n f).mem := canon_instr (fun _ h => canon_lawful (fun e h => by
  split
  · exact h
  · exact canon_pred hf h) h) hd

@[simp] theorem canon_arrayIssue {d : Dev} {opc : Nat} {a : AOp} (h : Canon d.mem) : Canon (d.arrayIssue opc a).mem := by
  refine canon_instr (fun e he => ?_) h
  split
  · exact canon_trapHere he
  split
  · exact he
  refine canon_pred (fun e he => ?_) he
  dsimp only
  repeat' split
  all_goals simp -implicitDefEqProofs [he]

@[simp] theorem canon_stroutHall {d : Dev} {j : Job} {h : Nat} (hd : Canon d.mem) : Canon (d.stroutHall j h).mem := by
  unfold Dev.stroutHall
  dsimp only
  exact canon_forEach _ (fun e i he => canon_galPut he) (by simpa -implicitDefEqProofs using hd)

@[simp] theorem canon_putChanBit {d : Dev} {ch h p k : Nat} {v : Bool} (hd : Canon d.mem) : Canon (d.putChanBit ch h p k v).mem := by
  unfold Dev.putChanBit
  simp -implicitDefEqProofs [hd]

@[simp] theorem canon_sendRow {d : Dev} {ch h p i w row : Nat} {a : BitVec 64} (hd : Canon d.mem) :
    Canon (d.sendRow ch h p i w row a).mem := by
  unfold Dev.sendRow
  split
  · extract_lets e
    refine canon_forEach _ (fun d1 l h1 => ?_) hd
    extract_lets n d2
    have h2 : Canon d2.mem := by
      unfold d2
      split
      · exact canon_putChanBit h1
      · exact h1
    clear_value d2
    split
    · refine canon_forEach _ (fun d3 k h3 => ?_) h2
      split
      · exact canon_putChanBit h3
      · exact h3
    · exact h2
  · exact canon_galPut hd

@[simp] theorem canon_hallCycle {d : Dev} {s : StreamId} {h : LHall} {r : HRun} (hd : Canon d.mem) : Canon (d.hallCycle s h r).mem := by
  unfold Dev.hallCycle
  extract_lets op tt ph a b w d0 ch cw pos x get rows reads
  split
  next tok d1 h1 =>
  have h1 : Canon d1.mem := by
    split at h1
    · have hx := mem_exchange d s h.val ph x
      rw [h1] at hx
      exact hx ▸ hd
    · injection h1 with _ h1
      exact h1 ▸ hd
  extract_lets d2 d3
  have h3 : Canon d3.mem := by simp -implicitDefEqProofs [d3, d2, h1]
  clear_value d3
  refine canon_forEach _ (fun e row he => ?_) h3
  extract_lets va vb e1 e2 act
  have he : Canon e2.mem := by simp -implicitDefEqProofs [e2, e1, he]
  clear_value e2
  clear_value va vb act rows reads
  refine canon_iteDev (by simpa -implicitDefEqProofs using he) ?_
  refine canon_iteDev (canon_forEach _ (fun e _ he => by simpa -implicitDefEqProofs using he) he) ?_
  refine canon_iteDev (canon_forEach _ (fun e _ he => by simpa -implicitDefEqProofs using he) he) ?_
  refine canon_iteDev (by simpa -implicitDefEqProofs using he) ?_
  refine canon_iteDev (by simpa -implicitDefEqProofs using he) ?_
  refine canon_iteDev (canon_forEach _ (fun e _ he => by simpa -implicitDefEqProofs using he) he) ?_
  refine canon_iteDev (by simpa -implicitDefEqProofs using he) ?_
  refine canon_iteDev (by simpa -implicitDefEqProofs using he) ?_
  refine canon_iteDev (by simpa -implicitDefEqProofs using he) ?_
  refine canon_iteDev (by simpa -implicitDefEqProofs using he) ?_
  exact canon_iteDev (canon_sendRow he) he

@[simp] theorem canon_runCycles {s : StreamId} {h : LHall} {n : Nat} {d : Dev} (hd : Canon d.mem) :
    Canon (Dev.runCycles s h n d).mem := by
  induction n generalizing d with
  | zero => exact hd
  | succ n ih =>
    unfold Dev.runCycles
    split
    · exact hd
    dsimp only
    split
    · simp -implicitDefEqProofs [hd]
    split
    · simp -implicitDefEqProofs [hd]
    · exact ih (by simp -implicitDefEqProofs [hd])

@[simp] theorem canon_startEntry {d : Dev} {s : StreamId} {h : LHall} (hd : Canon d.mem) : Canon (d.startEntry s h).mem := by
  unfold Dev.startEntry
  dsimp only
  repeat' split
  all_goals simp -implicitDefEqProofs [hd]

@[simp] theorem canon_endStall {d : Dev} {s : StreamId} {h : LHall} (hd : Canon d.mem) : Canon (d.endStall s h).mem := by
  unfold Dev.endStall
  split <;> simp -implicitDefEqProofs [hd]

@[simp] theorem canon_leadHall {d : Dev} {k h : Nat} (hd : Canon d.mem) : Canon (d.leadHall k h).mem := by
  unfold Dev.leadHall
  split <;> simp -implicitDefEqProofs [hd]

@[simp] theorem canon_leadDone {d : Dev} (h : Canon d.mem) : Canon d.leadDone.mem := by
  unfold Dev.leadDone
  split
  · exact h
  · refine canon_forEach _ (fun e ch he => by simpa -implicitDefEqProofs using he) ?_
    exact canon_forEach _ (fun e i he => canon_leadHall he) h

@[simp] theorem canon_dropMem {d : Dev} {lo hi : Nat} (h : Canon d.mem) : Canon (d.dropMem lo hi).mem := bankWf_bankClear h

@[simp] theorem canon_dropDram {d : Dev} (h : Canon d.mem) : Canon d.dropDram.mem := by
  unfold Dev.dropDram
  simp -implicitDefEqProofs [h]

@[simp] theorem canon_loseDomain {d : Dev} {k : Nat} (h : Canon d.mem) : Canon (d.loseDomain k).mem := by
  unfold Dev.loseDomain
  dsimp only
  split
  · simp -implicitDefEqProofs [h]
  · simp -implicitDefEqProofs [h]
  · split <;> simp -implicitDefEqProofs [h]
  · simp -implicitDefEqProofs [h]
  · simp -implicitDefEqProofs [h]
  · split
    · split
      · split <;> simp -implicitDefEqProofs [h]
      · simp -implicitDefEqProofs [h]
    · simp -implicitDefEqProofs [h]

@[simp] theorem canon_domainOff {d : Dev} {k : Nat} (h : Canon d.mem) : Canon (d.domainOff k).mem := by
  unfold Dev.domainOff
  simp -implicitDefEqProofs [h]

@[simp] theorem canon_cutDomain {d : Dev} {k : Nat} (h : Canon d.mem) : Canon (d.cutDomain k).mem := by
  unfold Dev.cutDomain
  simp -implicitDefEqProofs [h]

@[simp] theorem canon_dramPut {d : Dev} {i : Nat} {x : BitVec 64} (h : Canon d.mem) : Canon (d.dramPut i x).mem := by
  unfold Dev.dramPut
  simp -implicitDefEqProofs [h]

@[simp] theorem canon_dramWrite {d : Dev} {a : Nat} {l : List Byte} (h : Canon d.mem) : Canon (d.dramWrite a l).2.mem := by
  refine canon_foldl_pair _ (fun r i hr => ?_) h
  dsimp only
  split
  · simp -implicitDefEqProofs [hr]
  · split <;> simp -implicitDefEqProofs [hr]

@[simp] theorem canon_partly {d : Dev} {s : StreamId} {j : Job} (h : Canon d.mem) : Canon (d.partly s j).mem := by
  unfold Dev.partly
  extract_lets o d1 d2 k d3 d4 ch p
  have h4 : Canon d4.mem := by simp -implicitDefEqProofs [d4, d3, d2, d1, h]
  clear_value d4
  split
  · refine canon_foldl _ (fun e1 hl h1 => canon_forEach _ (fun e2 i h2 => ?_) h1) h4
    exact canon_galPut (by simpa -implicitDefEqProofs using h2)
  · exact h4

@[simp] theorem canon_routineTimeout {d : Dev} {s : StreamId} (h : Canon d.mem) : Canon (d.routineTimeout s).mem := by
  unfold Dev.routineTimeout
  dsimp only
  repeat' split
  all_goals simp -implicitDefEqProofs [h]

@[simp] theorem canon_spanOverrun {d : Dev} {s : StreamId} (h : Canon d.mem) : Canon (d.spanOverrun s).mem := by
  unfold Dev.spanOverrun
  repeat' split
  all_goals simp -implicitDefEqProofs [h]

@[simp] theorem canon_arrayFpTrap {d : Dev} {s : StreamId} (h : Canon d.mem) : Canon (d.arrayFpTrap s).mem := by
  unfold Dev.arrayFpTrap
  split <;> simp -implicitDefEqProofs [h]

@[simp] theorem canon_startTransfer {d : Dev} {h : LHall} (hd : Canon d.mem) : Canon (d.startTransfer h).mem := by
  unfold Dev.startTransfer
  split
  · exact hd
  split
  · split
    · exact hd
    · dsimp only
      split
      · simp -implicitDefEqProofs [hd]
      · split <;> simp -implicitDefEqProofs [hd]
  · exact hd

@[simp] theorem canon_lineCarry {d : Dev} {s : StreamId} {h : LHall} (hd : Canon d.mem) : Canon (d.lineCarry s h).mem := by
  refine canon_forEach _ (fun e j he => canon_forEach _ (fun e row he => canon_galPut he) ?_) hd
  simpa -implicitDefEqProofs using he

@[simp] theorem canon_carryAtReport {d : Dev} {s : StreamId} {j : Job} {h : LHall} (hd : Canon d.mem) :
    Canon (d.carryAtReport s j h).mem := by
  unfold Dev.carryAtReport
  simp -implicitDefEqProofs [hd]

@[simp] theorem canon_repReport {d : Dev} {h : LHall} (hd : Canon d.mem) : Canon (d.repReport h).mem := by
  unfold Dev.repReport
  split
  · exact hd
  next s _ =>
  split
  · exact hd
  extract_lets all
  split
  next j rep _ =>
    split
    · exact hd
    extract_lets e
    have he : Canon e.mem := by simp -implicitDefEqProofs [e, hd]
    clear_value e
    split <;> simp -implicitDefEqProofs [he]
  next j moved rep _ =>
    split
    · exact hd
    extract_lets r e
    have he : Canon e.mem := by simp -implicitDefEqProofs [e, hd]
    clear_value e
    split <;> simp -implicitDefEqProofs [he]
  next j _ =>
    split
    · exact hd
    extract_lets e1 e2 e3 m e4
    have h1 : Canon e1.mem := by simp -implicitDefEqProofs [e1, hd]
    clear_value e1
    split
    · exact h1
    have h3 : Canon e3.mem := by simp -implicitDefEqProofs [e3, e2, h1]
    clear_value e3
    have h4 : Canon e4.mem := by
      unfold e4
      split
      · split <;> simp -implicitDefEqProofs [h3]
      · exact h3
    clear_value e4
    split
    · split <;> simp -implicitDefEqProofs [h4]
    · exact h3
  next => exact hd

@[simp] theorem canon_writeMap {d : Dev} {h : Nat} (hd : Canon d.mem) : Canon (d.writeMap h).mem := by
  unfold Dev.writeMap
  simp -implicitDefEqProofs [hd]

@[simp] theorem canon_writeRecord {d : Dev} (h : Canon d.mem) : Canon d.writeRecord.mem := by
  unfold Dev.writeRecord
  split
  · exact h
  split
  · exact h
  extract_lets a e1 e2
  have h2 : Canon e2.mem := canon_forEach _ (fun e k he => canon_writeMap he) h
  clear_value e2
  simp -implicitDefEqProofs [h2]

@[simp] theorem canon_startFailover {d : Dev} {s : StreamId} {h : LHall} {up : Word} (hd : Canon d.mem) :
    Canon (d.startFailover s h up).mem := by
  unfold Dev.startFailover
  simp -implicitDefEqProofs [hd]

@[simp] theorem canon_hallOutcome {d : Dev} {s : StreamId} {p : Nat} {up : Word} (h : Canon d.mem) :
    Canon (d.hallOutcome s p up).mem := by
  unfold Dev.hallOutcome
  repeat' split
  all_goals simp -implicitDefEqProofs [h]

@[simp] theorem canon_decide1 {d : Dev} {s : StreamId} {fs : List Fault1} {v : Verdict212} (h : Canon d.mem) :
    Canon (d.decide1 s fs v).mem := by
  unfold Dev.decide1
  extract_lets all cols full sites word retire e1 spent w at1 e2 e3 e4 e5
  have hr : ∀ (e : Dev) fs imm, Canon e.mem → Canon (retire e fs imm).mem := by
    refine fun e fs imm he => canon_forEach _ (fun e c he => canon_forEach _ (fun e f he => ?_) he) he
    repeat' split
    all_goals simp -implicitDefEqProofs [he]
  clear_value retire
  have h1 : Canon e1.mem := hr _ _ _ (hr _ _ _ h)
  have h5 : Canon e5.mem := hr _ _ _ (hr _ _ _ h)
  clear_value e1 e5
  have h3 : Canon e3.mem := by simp -implicitDefEqProofs [e3, e2, h1]
  clear_value e3 sites
  split
  · split
    · simp -implicitDefEqProofs [h1]
    · split <;> simp -implicitDefEqProofs [h3]
  · exact canon_hallOutcome h5
  · simp -implicitDefEqProofs [h]

@[simp] theorem canon_recoverStream {d : Dev} {s : StreamId} (h : Canon d.mem) : Canon (d.recoverStream s).mem := by
  unfold Dev.recoverStream
  extract_lets rs e1 e2 fs
  have h2 : Canon e2.mem := by simp -implicitDefEqProofs [e2, e1, h]
  clear_value fs e2 rs
  split
  · exact h
  split
  · simp -implicitDefEqProofs [h]
  split
  next v e3 h3 =>
  have h3 : Canon e3.mem := by
    have hc := mem_classify e2 s fs
    rw [h3] at hc
    exact hc ▸ h2
  split
  · exact h3
  · exact canon_decide1 h3

@[simp] theorem canon_upsetRecovery {d : Dev} {reps : List (HallId × UpsetRep)} (h : Canon d.mem) : Canon (d.upsetRecovery reps).mem := by
  unfold Dev.upsetRecovery
  refine canon_forEach _ (fun e s he => ?_) (canon_forEach _ (fun e p he => ?_) h)
  · split
    · exact canon_recoverStream he
    · exact he
  · simpa -implicitDefEqProofs using he

theorem canon_barRetire {d : Dev} {r : RetRec} (h : Canon d.mem) : ∀ e, d.barRetire r = some e → Canon e.mem := by
  unfold Dev.barRetire
  extract_lets map
  split
  · exact fun e he => nomatch he
  · rintro e he
    injection he with he
    subst he
    repeat' split
    all_goals simp -implicitDefEqProofs [h]

@[simp] theorem canon_beginRetire {d : Dev} {h : HallId} (hd : Canon d.mem) : Canon (d.beginRetire h).mem := by
  unfold Dev.beginRetire
  split
  · exact hd
  next r _ =>
  split
  · exact hd
  · cases hb : d.barRetire r with
    | none => simp -implicitDefEqProofs [hd]
    | some e => exact canon_barRetire hd e hb

@[simp] theorem canon_startRefill {d : Dev} {h : HallId} (hd : Canon d.mem) : Canon (d.startRefill h).mem := by
  unfold Dev.startRefill
  split
  · exact hd
  next r _ =>
  split
  · exact hd
  · cases hb : d.barRetire r with
    | none => simp -implicitDefEqProofs [hd]
    | some e => exact canon_barRetire hd e hb

@[simp] theorem canon_refillDone {d : Dev} {h : HallId} (hd : Canon d.mem) : Canon (d.refillDone h).mem := by
  unfold Dev.refillDone
  dsimp only
  repeat' split
  all_goals simp -implicitDefEqProofs [hd]

@[simp] theorem canon_looseStaging {d : Dev} (h : Canon d.mem) : Canon d.looseStaging.mem := by
  unfold Dev.looseStaging
  exact canon_forEach _ (fun e i he => canon_galPut he) (by simpa -implicitDefEqProofs using h)

@[simp] theorem canon_imageLoaded {d : Dev} {ok : Bool} (h : Canon d.mem) : Canon (d.imageLoaded ok).mem := by
  unfold Dev.imageLoaded
  split
  · exact h
  next f _ =>
  split
  · exact h
  split
  · simp -implicitDefEqProofs [h]
  split
  next b1 e1 h1 =>
  have h1 : Canon e1.mem := by
    have hl := mem_loadImage d.looseStaging f.hall.val
    rw [h1] at hl
    exact canon_of_eq hl (canon_looseStaging h)
  split
  · simp -implicitDefEqProofs [h1]
  split
  next b2 e2 h2 =>
  have h2 : Canon e2.mem := by
    split at h2
    · have hk := canon_foldl_pair (e1.streamHalls f.strm.val) (r := (false, e1))
        (f := fun (r : Bool × Dev) h => (r.1 || (r.2.restoreCarry f.strm h).1, (r.2.restoreCarry f.strm h).2))
        (fun r k hr => by simpa -implicitDefEqProofs using hr) h1
      rw [h2] at hk
      exact hk
    · injection h2 with _ h2
      exact h2 ▸ h1
  split
  · simp -implicitDefEqProofs [h2]
  · exact h2

@[simp] theorem canon_unloadImage {d : Dev} {h : Nat} (hd : Canon d.mem) : Canon (d.unloadImage h).2.mem := by
  unfold Dev.unloadImage
  refine canon_foldl_pair _ (fun r a hr => canon_forEach _ (fun e row he => canon_dramPut he) ?_) hd
  simpa -implicitDefEqProofs using hr

@[simp] theorem canon_himgDone {d : Dev} (h : Canon d.mem) : Canon d.himgDone.mem := by
  unfold Dev.himgDone
  dsimp only
  repeat' split
  all_goals simp -implicitDefEqProofs [h]

@[simp] theorem canon_deferredDue {d : Dev} {s : StreamId} {lend : Bool} (h : Canon d.mem) : Canon (d.deferredDue s lend).mem := by
  unfold Dev.deferredDue
  split
  · exact h
  refine canon_forEach _ (fun e r he => ?_) h
  split <;> simp -implicitDefEqProofs [he]

@[simp] theorem canon_milestoneCommit {d : Dev} {s : StreamId} {t : Int} (h : Canon d.mem) : Canon (d.milestoneCommit s t).mem := by
  unfold Dev.milestoneCommit
  dsimp only
  repeat' split
  all_goals simp -implicitDefEqProofs [h]

@[simp] theorem canon_galAccess {d : Dev} {i : Nat} {q : GalReq} (h : Canon d.mem) : Canon (d.galAccess i q).mem := by
  unfold Dev.galAccess
  extract_lets w e1 e2 e3 old
  have h1 : Canon e1.mem := by simp -implicitDefEqProofs [e1, h]
  have h3 : Canon e3.mem := by simp -implicitDefEqProofs [e3, h]
  clear_value e1 e3
  have h2 : Canon e2.mem := by
    unfold e2
    split
    · split <;> simp -implicitDefEqProofs [h1]
    · exact h1
  clear_value e2
  split
  · simp -implicitDefEqProofs [h]
  split
  · simp -implicitDefEqProofs [h]
  split
  · simp -implicitDefEqProofs [h2]
  · split
    · simp -implicitDefEqProofs [h]
    · split <;> simp -implicitDefEqProofs [h3]

@[simp] theorem canon_arbGrant {d : Dev} {b : Nat} {waiting : List GalReq} (h : Canon d.mem) : Canon (d.arbGrant b waiting).mem := by
  unfold Dev.arbGrant
  dsimp only
  repeat' split
  all_goals simp -implicitDefEqProofs [h]

@[simp] theorem canon_bankGrant {d : Dev} {b : Fin 32} {waiting : List GalReq} (h : Canon d.mem) : Canon (d.bankGrant b waiting).mem := by
  unfold Dev.bankGrant
  simp -implicitDefEqProofs [h]

@[simp] theorem canon_wipeCleared {d : Dev} (h : Canon d.mem) : Canon d.wipeCleared.mem := by
  unfold Dev.wipeCleared
  split
  · exact h
  · rw [mem_syncSec]
    exact bankWf_bankClear h

@[simp] theorem canon_marchEnd {d : Dev} {fails : List MarchFail} (h : Canon d.mem) : Canon (d.marchEnd fails).mem := by
  unfold Dev.marchEnd
  split
  · exact h
  next pres rgn _ =>
  extract_lets g e1 e2 e3 e4 e5 e6
  have h2 : Canon e2.mem := by
    unfold e2
    split
    · exact h
    · exact canon_forEach _ (fun e r he => bankWf_bankClear he) h
  clear_value e2
  have h3 : Canon e3.mem := canon_forEach _ (fun e f he => by simpa -implicitDefEqProofs using he) h2
  clear_value e3
  have h4 : Canon e4.mem := by
    unfold e4
    split
    · exact h3
    · simpa -implicitDefEqProofs using h3
  clear_value e4
  have h6 : Canon e6.mem := by simp -implicitDefEqProofs [e6, e5, h4]
  exact h6

@[simp] theorem canon_looseRow {d : Dev} {b row : Nat} (h : Canon d.mem) : Canon (d.looseRow b row).mem := by
  unfold Dev.looseRow
  split
  · exact h
  · refine canon_forEach _ (fun e w he => ?_) h
    simp -implicitDefEqProofs [he]

@[simp] theorem canon_writeRpr {d : Dev} {n : Nat} {v : Word} (h : Canon d.mem) : Canon (d.writeRpr n v).mem := by
  unfold Dev.writeRpr
  split
  · exact h
  extract_lets b row old was bad e1 e2
  have h2 : Canon e2.mem := by simp -implicitDefEqProofs [e2, e1, h]
  clear_value e2
  exact canon_iteDev h2 (canon_looseRow h2)

@[simp] theorem canon_releaseRun {d : Dev} (h : Canon d.mem) : Canon d.releaseRun.mem := by
  unfold Dev.releaseRun
  split
  · exact h
  refine canon_forEach _ (fun e c he => ?_) h
  split
  · extract_lets pc e1
    have h1 : Canon e1.mem := by simp -implicitDefEqProofs [e1, he]
    clear_value e1
    exact canon_iteDev h1 (canon_trap h1)
  · exact he

@[simp] theorem canon_coreOff {d : Dev} {retain : Bool} (h : Canon d.mem) : Canon (d.coreOff retain).mem := by
  unfold Dev.coreOff
  split <;> simp -implicitDefEqProofs [h]

@[simp] theorem canon_wipeAll {d : Dev} (h : Canon d.mem) : Canon d.wipeAll.mem := by
  unfold Dev.wipeAll
  extract_lets kept tstop fuses tap e0 e1 e2 e3 l
  have h0 : Canon e0.mem := bankWf_parts h (by decide)
  clear_value e0
  have h1 : Canon e1.mem := by simpa -implicitDefEqProofs [e1] using h0
  clear_value e1
  have h3 : Canon e3.mem := by simpa -implicitDefEqProofs [e3, e2] using h1
  clear_value e3
  simpa -implicitDefEqProofs using h3

@[simp] theorem canon_fullReset {d : Dev} {cause : Fld} (h : Canon d.mem) : Canon (d.fullReset cause).mem := by
  unfold Dev.fullReset
  simp -implicitDefEqProofs [h]

@[simp] theorem canon_collapse {d : Dev} {cause : OffCause} (h : Canon d.mem) : Canon (d.collapse cause).mem := by
  unfold Dev.collapse
  simp -implicitDefEqProofs [h]

@[simp] theorem canon_vinOff {d : Dev} (h : Canon d.mem) : Canon d.vinOff.mem := by
  unfold Dev.vinOff
  split
  next n e0 h0 =>
  have h0 : Canon e0.mem := by
    have hf := mem_fresh d
    rw [h0] at hf
    exact hf ▸ h
  extract_lets e1 tap e2 e3 l
  have h1 : Canon e1.mem := canon_collapse h0
  clear_value e1
  have h2 : Canon e2.mem := bankWf_bankPart h1
  clear_value e2
  have h3 : Canon e3.mem := by simpa -implicitDefEqProofs [e3] using h2
  clear_value l e3
  split
  · simpa -implicitDefEqProofs using h1
  · simpa -implicitDefEqProofs using h3

@[simp] theorem canon_vmidOff {d : Dev} {cause : OffCause} (h : Canon d.mem) : Canon (d.vmidOff cause).mem := by
  unfold Dev.vmidOff
  simp -implicitDefEqProofs [h]

@[simp] theorem canon_lockout {d : Dev} {cause : BitVec 4} (h : Canon d.mem) : Canon (d.lockout cause).mem := by
  unfold Dev.lockout
  split
  · exact h
  extract_lets e1 e2 e3 e4 e5 e6 e7 e8
  have h1 : Canon e1.mem := by simpa -implicitDefEqProofs [e1] using h
  clear_value e1
  have h2 : Canon e2.mem := canon_forEach _ (fun e k he => canon_cutDomain he) h1
  clear_value e2
  have h3 : Canon e3.mem := by simpa -implicitDefEqProofs [e3] using h2
  clear_value e3
  have h4 : Canon e4.mem := by simp -implicitDefEqProofs [e4, h3]
  clear_value e4
  have h5 : Canon e5.mem := by simpa -implicitDefEqProofs [e5] using h4
  clear_value e5
  have h6 : Canon e6.mem := by simpa -implicitDefEqProofs [e6] using h5
  clear_value e6
  have h8 : Canon e8.mem := by simpa -implicitDefEqProofs [e8, e7] using h6
  clear_value e8
  simpa -implicitDefEqProofs using h8

@[simp] theorem canon_settleFatal {d : Dev} (h : Canon d.mem) : Canon d.settleFatal.mem := by
  unfold Dev.settleFatal
  split <;> simp -implicitDefEqProofs [h]

@[simp] theorem canon_rejectLife {d : Dev} (h : Canon d.mem) : Canon d.rejectLife.mem := by
  unfold Dev.rejectLife
  simp -implicitDefEqProofs [h]

@[simp] theorem canon_bootRecords {d : Dev} (h : Canon d.mem) : Canon d.bootRecords.mem := by
  unfold Dev.bootRecords
  split <;> simp -implicitDefEqProofs [h]

@[simp] theorem canon_bootTamper {d : Dev} (h : Canon d.mem) : Canon d.bootTamper.mem := by
  unfold Dev.bootTamper
  dsimp only
  repeat' split
  all_goals simp -implicitDefEqProofs [h]

@[simp] theorem canon_bootStep6 {d : Dev} (h : Canon d.mem) : Canon d.bootStep6.mem := by
  unfold Dev.bootStep6
  dsimp only
  repeat' split
  all_goals simp -implicitDefEqProofs [h]

@[simp] theorem canon_tryStep6 {d : Dev} (h : Canon d.mem) : Canon d.tryStep6.mem := by
  unfold Dev.tryStep6
  simp -implicitDefEqProofs [h]

@[simp] theorem canon_pllLock {d : Dev} {n : Fin 4} (h : Canon d.mem) : Canon (d.pllLock n).mem := by
  unfold Dev.pllLock
  split <;> simp -implicitDefEqProofs [h]

@[simp] theorem canon_handover {d : Dev} {a : Nat} (h : Canon d.mem) : Canon (d.handover a).mem := by
  unfold Dev.handover
  simp -implicitDefEqProofs [h]

@[simp] theorem canon_lifeVerified {d : Dev} {v : Verdict} (h : Canon d.mem) : Canon (d.lifeVerified v).mem := by
  unfold Dev.lifeVerified
  simp -implicitDefEqProofs [h]

@[simp] theorem canon_lifeWiped {d : Dev} {nonzero : Bool} (h : Canon d.mem) : Canon (d.lifeWiped nonzero).mem := by
  unfold Dev.lifeWiped
  split
  · exact h
  split
  · simpa -implicitDefEqProofs using h
  split
  next n e0 h0 =>
  have h0 : Canon e0.mem := by
    have hf := mem_fresh d
    rw [h0] at hf
    exact hf ▸ h
  split <;> simp -implicitDefEqProofs [h0]

@[simp] theorem canon_firmwareVerified {d : Dev} {v : Verdict} (h : Canon d.mem) : Canon (d.firmwareVerified v).mem := by
  unfold Dev.firmwareVerified
  split
  · exact h
  · exact h
  · split <;> simp -implicitDefEqProofs [h]
  · split <;> simp -implicitDefEqProofs [h]
  next b _ _ _ _ =>
  split
  · exact h
  extract_lets e
  have he : Canon e.mem := by simp -implicitDefEqProofs [e, h]
  clear_value e
  split
  · exact he
  · split
    · refine canon_handover ?_
      split <;> simp -implicitDefEqProofs [he]
    · simp -implicitDefEqProofs [he]

@[simp] theorem canon_downCore {d : Dev} {retain : Bool} (h : Canon d.mem) : Canon (d.downCore retain).mem := by
  unfold Dev.downCore
  simp -implicitDefEqProofs [h]

@[simp] theorem canon_transitionDone {d : Dev} (h : Canon d.mem) : Canon d.transitionDone.mem := by
  unfold Dev.transitionDone
  dsimp only
  repeat' split
  all_goals simp -implicitDefEqProofs [h]

@[simp] theorem canon_watchdogExpire {d : Dev} (h : Canon d.mem) : Canon d.watchdogExpire.mem := by
  unfold Dev.watchdogExpire
  split <;> simp -implicitDefEqProofs [h]

@[simp] theorem canon_vinSample {d : Dev} {mv : BitVec 16} {lowFor highFor : Nat} (h : Canon d.mem) :
    Canon (d.vinSample mv lowFor highFor).mem := by
  unfold Dev.vinSample
  dsimp only
  repeat' split
  all_goals simp -implicitDefEqProofs [h]

@[simp] theorem canon_vmidUnder {d : Dev} (h : Canon d.mem) : Canon d.vmidUnder.mem := by
  unfold Dev.vmidUnder
  simp -implicitDefEqProofs [h]

@[simp] theorem canon_thermalSample {d : Dev} {rs : List (BitVec 16)} {msWarm msHot : Nat} (h : Canon d.mem) :
    Canon (d.thermalSample rs msWarm msHot).mem := by
  unfold Dev.thermalSample
  extract_lets rs' e1 e2
  split
  · split <;> simp -implicitDefEqProofs [h]
  split
  · exact h
  have h1 : Canon e1.mem := by simp -implicitDefEqProofs [e1, h]
  clear_value e1
  have h2 : Canon e2.mem := by
    unfold e2
    split
    · split <;> simp -implicitDefEqProofs [h1]
    · exact h1
  clear_value e2
  split <;> simp -implicitDefEqProofs [h2]

@[simp] theorem canon_supplyTrip {d : Dev} {k : Nat} {usec : Nat} (h : Canon d.mem) : Canon (d.supplyTrip k usec).mem := by
  unfold Dev.supplyTrip
  dsimp only
  repeat' split
  all_goals simp -implicitDefEqProofs [h]

@[simp] theorem canon_ddrEnable {d : Dev} {en : Bool} (h : Canon d.mem) : Canon (d.ddrEnable en).mem := by
  unfold Dev.ddrEnable
  simp -implicitDefEqProofs [h]

@[simp] theorem canon_tamper {d : Dev} {n : Fin 5} (h : Canon d.mem) : Canon (d.tamper n).mem := by
  unfold Dev.tamper
  simp -implicitDefEqProofs [h]

@[simp] theorem canon_applyDdr {d : Dev} {c : CapSet} (h : Canon d.mem) : Canon (d.applyDdr c).mem := by
  unfold Dev.applyDdr
  simp -implicitDefEqProofs [h]

@[simp] theorem canon_commitApply {d : Dev} {b : Block} (h : Canon d.mem) : Canon (d.commitApply b).mem := by
  unfold Dev.commitApply
  split
  · exact h
  split
  · exact h
  cases b
  all_goals simp -implicitDefEqProofs [h]

@[simp] theorem canon_coreRun {d : Dev} {v : Word} (h : Canon d.mem) : Canon (d.coreRun v).mem := by
  unfold Dev.coreRun
  simp -implicitDefEqProofs [h]

@[simp] theorem canon_startWrite {d : Dev} {w : Who} {b : Block} {a : Nat} {v : Word} (h : Canon d.mem) :
    Canon (d.startWrite w b a v).mem := by
  unfold Dev.startWrite
  extract_lets plain z1 e z2
  have hp : Canon plain.mem := by simpa -implicitDefEqProofs [plain] using h
  clear_value plain
  have he : Canon e.mem := by simp -implicitDefEqProofs [e, hp]
  clear_value e
  cases b
  case byw =>
    dsimp only
    repeat' split
    all_goals simp -implicitDefEqProofs [hp, he]
  all_goals
    dsimp only
    repeat' split
    all_goals simp -implicitDefEqProofs [h, hp]

@[simp] theorem canon_regWrite {d : Dev} {w : Who} {b : Block} {off : Nat} {v : Word} (h : Canon d.mem) :
    Canon (d.regWrite w b off v).2.mem := by
  unfold Dev.regWrite
  dsimp only
  repeat' split
  all_goals simp -implicitDefEqProofs [h]

theorem canon_served_ite {α : Type} {p : Prop} [Decidable p] {r s : Served α} (h : r.Canon) (k : s.Canon) : (if p then r else s).Canon := by
  split
  · exact h
  · exact k

@[simp] theorem canon_serveRead {d : Dev} {w : Who} {a n : Nat} (h : Canon d.mem) : (d.serveRead w a n).Canon := by
  unfold Dev.serveRead
  split
  · exact h
  · exact canon_served_ite h h
  · exact canon_served_ite h h
  · refine canon_served_ite h ?_
    exact canon_of_eq (mem_regRead _ _ _ _) h
  · exact canon_served_ite h h
  · refine canon_served_ite h (canon_served_ite h ?_)
    exact canon_served_ite (canon_of_eq (mem_galRead _ _ _) h) (canon_of_eq (mem_galRead _ _ _) h)
  · refine canon_served_ite h ?_
    exact canon_served_ite (canon_of_eq (mem_dramRead _ _ _) h) (canon_of_eq (mem_dramRead _ _ _) h)
  · exact canon_served_ite h h
  · exact canon_served_ite h h

@[simp] theorem canon_serveWrite {d : Dev} {w : Who} {a : Nat} {l : List Byte} (h : Canon d.mem) : (d.serveWrite w a l).Canon := by
  unfold Dev.serveWrite
  extract_lets n
  split
  · exact h
  · exact h
  · exact canon_served_ite (canon_setBytes h) h
  · exact canon_served_ite h (canon_regWrite h)
  · exact canon_served_ite h (canon_served_ite h (canon_setBytes h))
  · exact canon_served_ite h (canon_served_ite h (canon_galWrite h))
  · exact canon_served_ite h (canon_dramWrite h)
  · exact canon_served_ite h h
  · exact canon_served_ite h h

@[simp] theorem canon_concluded {α : Type} {d : Dev} {w : Who} {node : Nat} {wr : Bool} {p : Packet} {st : BitVec 4} {l : List Byte}
    {x : α} (h : Canon d.mem) :
    (d.concluded w node wr p st l x).Canon := by
  unfold Dev.concluded
  split
  · exact canon_of_eq (by simp) h
  · exact canon_of_eq (by simp [Dev.probePair]) h

/-- A request that a bridge holds leaves memory alone. -/
theorem mem_holdRequest {d e : Dev} {w : Who} {node : Nat} {wr : Bool} {a n : Nat} {l : List Byte} {tid : BitVec 12}
    (h : d.holdRequest w node wr a n l = some (tid, e)) : e.mem = d.mem := by
  unfold Dev.holdRequest at h
  have hd := mem_drawTid d w.node
  dsimp only at h
  cases hv : d.vcFull node (w.kind wr)
  case true => simp [hv] at h
  case false =>
    simp only [hv, Bool.false_eq_true, if_false] at h
    split at h
    · cases h
    next t f ht =>
      rw [ht] at hd
      injection h with h
      injection h with _ h
      subst h
      simpa using hd

@[simp] theorem canon_busRead {d : Dev} {w : Who} {a n : Nat} (h : Canon d.mem) : (d.busRead w a n).Canon := by
  unfold Dev.busRead
  split
  · exact h
  next node _ =>
  have hr := mem_reach d node true
  split
  next e he =>
    rw [he] at hr
    split
    next tid f hf => exact canon_of_eq (mem_holdRequest hf) (canon_of_eq hr h)
    next => exact h
  next st e he =>
    rw [he] at hr
    exact canon_of_eq hr h
  next e he =>
    rw [he] at hr
    have hd := mem_drawTid e w.node
    split
    next f hf =>
      exact canon_of_eq hr h
    next tid f hf =>
      rw [hf] at hd
      have hs : (f.serveRead w a n).Canon := canon_serveRead (canon_of_eq hd (canon_of_eq hr h))
      split
      next st l g hg => exact canon_concluded (hs.of_done hg)
      next g hg => 
        have hg := hs.of_away hg
        dsimp only
        split <;> exact canon_of_eq (by simp) hg

@[simp] theorem canon_busWrite {d : Dev} {w : Who} {a : Nat} {l : List Byte} (h : Canon d.mem) : (d.busWrite w a l).Canon := by
  unfold Dev.busWrite
  split
  · exact h
  next node _ =>
  have hr := mem_reach d node true
  split
  next e he =>
    rw [he] at hr
    split
    next tid f hf => exact canon_of_eq (mem_holdRequest hf) (canon_of_eq hr h)
    next => exact h
  next st e he =>
    rw [he] at hr
    exact canon_of_eq hr h
  next e he =>
    rw [he] at hr
    have hd := mem_drawTid e w.node
    split
    next f hf =>
      exact canon_of_eq hr h
    next tid f hf =>
      rw [hf] at hd
      have hs : (f.serveWrite w a l).Canon := canon_serveWrite (canon_of_eq hd (canon_of_eq hr h))
      split
      next st l g hg => exact canon_concluded (hs.of_done hg)
      next g hg => exact canon_of_eq (mem_fresh g) (hs.of_away hg)

@[simp] theorem canon_awaited {d : Dev} {w : Who} {wr : Bool} {a n : Nat} {i : Issued (List Byte)} (hi : i.Canon) (h : Canon d.mem) :
    (d.awaited w wr a n i).Canon := by
  unfold Dev.awaited
  split
  · split <;> exact h
  · cases i with
    | answered st l e => exact hi
    | sent tid e => exact canon_of_eq (mem_ask _ _ _ _ _ _) hi
    | wait e => exact hi

@[simp] theorem canon_data {α β : Type} {f : α → β} {i : Issued α} (h : i.Canon) : (i.data f).Canon := by
  cases i with
  | answered st x d => exact h
  | sent tid d => exact h
  | wait d => exact h

theorem canon_answered_debug {d : Dev} {p : Config.DebugPlace} {wr : Option Word} (h : Canon d.mem) :
    (match wr with
      | some v => Done.answered 0 v (d.debugWrite p v)
      | none => .answered 0 (d.debugRead p) d).Canon := by
  cases wr with
  | none => exact h
  | some v => exact canon_of_eq (mem_debugWrite _ _ _) h

@[simp] theorem canon_debugAccess {d : Dev} {p : Config.DebugPlace} {wr : Option Word} (h : Canon d.mem) :
    (d.debugAccess p wr).Canon := by
  unfold Dev.debugAccess
  extract_lets run inHall
  have hrun : ∀ e : Dev, Canon e.mem → (run e).Canon := fun e he => canon_answered_debug he
  have hin : ∀ k, (inHall k).Canon := by
    intro k
    have hr := mem_reach d (0x10 + k) true
    unfold inHall
    split
    next e he =>
      rw [he] at hr
      exact canon_of_eq hr h
    next st e he =>
      rw [he] at hr
      exact canon_of_eq hr h
    next e he =>
      rw [he] at hr
      split
      · exact hrun e (canon_of_eq hr h)
      · exact canon_of_eq hr h
  split
  · exact hrun d h
  · exact hin _
  · exact hin _

@[simp] theorem canon_portAccess {d : Dev} {a : Nat} {wr : Option Word} (h : Canon d.mem) : (d.portAccess a wr).Canon := by
  unfold Dev.portAccess
  extract_lets w
  split
  · exact canon_debugAccess h
  split
  next v =>
    have hw : (d.awaited w true a 4 ((d.busWrite w a (leBytes 4 v.toNat)).data (fun _ => []))).Canon :=
      canon_awaited (canon_data (canon_busWrite h)) h
    split
    next st l e he => exact hw.of_answered he
    next e he => exact hw.of_wait he
  next =>
    have hw : (d.awaited w false a 4 (d.busRead w a 4)).Canon := canon_awaited (canon_busRead h) h
    split
    next st l e he => exact hw.of_answered he
    next e he => exact hw.of_wait he

/-- What the memory port does with an access at an address (R431). -/
def Dev.portMove (d : Dev) (wr : Option Word) (a : Nat) : Dev :=
  match d.portAccess a wr with
  | .answered st v d =>
    (((d.setReg R.DBG_MDATA v).setFld R.DBG_STAT_MSTAT st.toNat).setReg R.DBG_MADDR (BitVec.ofNat 32 (a + 4))).setFld
      R.DBG_MADDRH_HI ((a + 4) / 2 ^ 32)
  | .wait d => d

theorem memPort_eq (d : Dev) (wr : Option Word) : d.memPort wr = d.portMove wr d.memPortAddr := rfl

theorem canon_portMove {d : Dev} {wr : Option Word} {a : Nat} (h : Canon d.mem) : Canon (d.portMove wr a).mem := by
  have hp : (d.portAccess a wr).Canon := canon_portAccess h
  unfold Dev.portMove
  split
  next st v e he =>
    rw [mem_setFld, mem_setReg, mem_setFld, mem_setReg]
    exact hp.of_answered he
  next e he => exact hp.of_wait he

@[simp] theorem canon_memPort {d : Dev} {wr : Option Word} (h : Canon d.mem) : Canon (d.memPort wr).mem := by
  rw [memPort_eq]
  exact canon_portMove h

@[simp] theorem canon_portRead {d : Dev} {a n : Nat} (h : Canon d.mem) : Canon (d.portRead a n).mem := by
  unfold Dev.portRead
  split <;> simp -implicitDefEqProofs [h]

@[simp] theorem canon_issueRead {d : Dev} {w : Who} {a n : Nat} (h : Canon d.mem) : (d.issueRead w a n).Canon := by
  unfold Dev.issueRead
  split
  · exact h
  · exact canon_busRead (canon_portRead h)

@[simp] theorem canon_issueWrite {d : Dev} {w : Who} {a : Nat} {l : List Byte} (h : Canon d.mem) : (d.issueWrite w a l).Canon := by
  unfold Dev.issueWrite
  split
  · exact h
  split
  · exact canon_memPort h
  · exact canon_busWrite h

@[simp] theorem canon_read {d : Dev} {w : Who} {a n : Nat} (h : Canon d.mem) : (d.read w a n).Canon := canon_awaited (canon_issueRead h) h

@[simp] theorem canon_write {d : Dev} {w : Who} {a : Nat} {l : List Byte} (h : Canon d.mem) :
    (d.write w a l).Canon := canon_awaited (canon_data (canon_issueWrite h)) h

@[simp] theorem canon_command {d : Dev} {w : Who} {a : Nat} {l : List Byte} (h : Canon d.mem) : Canon (d.command w a l).mem := by
  unfold Dev.command
  have hi : (d.issueWrite w a l).Canon := canon_issueWrite h
  split
  next st u e he => simpa -implicitDefEqProofs using hi.of_answered he
  next tid e he => exact hi.of_sent he
  next e he => exact hi.of_wait he

@[simp] theorem canon_commandWord {d : Dev} {r : Requester} {a : Nat} {v : Word} (h : Canon d.mem) : Canon (d.commandWord r a v).mem := by
  unfold Dev.commandWord
  simp -implicitDefEqProofs [h]

@[simp] theorem canon_serveRd {d : Dev} {node : Nat} {k : PacketKind} {p : Packet} (h : Canon d.mem) :
    Canon (d.serveRd node k p).mem := by
  unfold Dev.serveRd
  extract_lets a n
  have hs : ((d.portRead a n).serveRead (packetWho p) a n).Canon := canon_serveRead (canon_portRead h)
  split
  next st l e he => exact canon_of_eq (mem_sendResp _ _) (hs.of_done he)
  next e he => exact canon_of_eq (mem_await _ _) (hs.of_away he)

@[simp] theorem canon_serveWr {d : Dev} {node : Nat} {k : PacketKind} {p : Packet} (h : Canon d.mem) :
    Canon (d.serveWr node k p).mem := by
  unfold Dev.serveWr
  extract_lets a
  split
  · exact canon_of_eq (mem_sendResp _ _) (canon_memPort h)
  have hs : (d.serveWrite (packetWho p) a p.data).Canon := canon_serveWrite h
  split
  next st u e he => exact canon_of_eq (mem_sendResp _ _) (hs.of_done he)
  next e he => exact canon_of_eq (mem_await _ _) (hs.of_away he)

@[simp] theorem canon_servePosted {d : Dev} {p : Packet} (h : Canon d.mem) : Canon (d.servePosted p).mem := by
  refine canon_forEach _ (fun e x he => ?_) h
  have hs : (e.serveWrite (packetWho p) x.1 x.2).Canon := canon_serveWrite he
  split
  next st u f hf =>
    have hf := hs.of_done hf
    split
    · exact canon_of_eq (mem_raise _ _) hf
    · exact hf
  next f hf => exact hs.of_away hf

@[simp] theorem canon_servePacket {d : Dev} {node : Nat} {k : PacketKind} {p : Packet} (h : Canon d.mem) :
    Canon (d.servePacket node k p).mem := by
  unfold Dev.servePacket
  split <;> simp -implicitDefEqProofs [h]

@[simp] theorem canon_inject {d : Dev} {k : PacketKind} {p : Packet} (h : Canon d.mem) : Canon (d.inject k p).2.mem := by
  unfold Dev.inject
  split
  · exact h
  split
  · dsimp only
    split <;> simp -implicitDefEqProofs [h]
  next node _ =>
  extract_lets pass
  have hp : ∀ e : Dev, Canon e.mem → Canon (pass e).mem := fun e he => canon_of_eq (mem_probe _ _ _ _ _ _) he
  clear_value pass
  have hr := mem_reach d node k.answered
  split
  next e he =>
    rw [he] at hr
    split
    · exact h
    · exact canon_of_eq (mem_countHeld _ _) (hp e (canon_of_eq hr h))
  next st e he =>
    rw [he] at hr
    have hq := hp e (canon_of_eq hr h)
    dsimp only
    split <;> simp -implicitDefEqProofs [hq]
  next e he =>
    rw [he] at hr
    exact canon_servePacket (hp e (canon_of_eq hr h))

@[simp] theorem canon_request {d : Dev} {k : PacketKind} {p : Packet} (h : Canon d.mem) : Canon (d.request k p).mem := by
  unfold Dev.request
  simp -implicitDefEqProofs [h]

theorem canon_postAll {d : Dev} {k : PacketKind} (ps : List Packet) (h : Canon d.mem) : ∀ e, d.postAll k ps = some e → Canon e.mem := by
  unfold Dev.postAll
  have hk : ∀ r : Option Dev, (∀ e, r = some e → Canon e.mem) → ∀ e,
      ps.foldl (fun r p => r.bind (fun e => if (e.inject k p).1 then some (e.inject k p).2 else none)) r = some e → Canon e.mem := by
    intro r hr
    refine forEach_keeps (P := fun r : Option Dev => ∀ e, r = some e → Canon e.mem) ps (fun r p hr e he => ?_) hr
    obtain ⟨f, hf, he⟩ := Option.bind_eq_some_iff.1 he
    split at he
    · injection he with he
      exact he ▸ canon_inject (hr f hf)
    · cases he
  exact hk _ (fun e he => by
    injection he with he
    exact he ▸ h)

@[simp] theorem canon_response {d : Dev} {mgmt : Bool} {tid : BitVec 12} (h : Canon d.mem) : Canon (d.response mgmt tid).mem := by
  unfold Dev.response
  split
  · exact h
  next x _ =>
  extract_lets r1 e1 e2 r2 e3 e4 w e5
  have h2 : Canon e2.mem := by
    unfold e2
    split
    · exact canon_of_eq (mem_probe _ _ _ _ _ _) h
    · exact h
  clear_value e2
  have h4 : Canon e4.mem := by simp -implicitDefEqProofs [e4, e3, h2]
  clear_value e4
  have h5 : Canon e5.mem := canon_of_eq (mem_lateBusError _ _ _ _) h4
  clear_value e5
  exact canon_iteDev h2 (canon_iteDev h2 (canon_iteDev (canon_loadAnswer h5) h5))

@[simp] theorem canon_settleBridge {d : Dev} {n : Nat} (h : Canon d.mem) : Canon (d.settleBridge n).mem := by
  unfold Dev.settleBridge
  extract_lets mine st e
  refine canon_iteDev h (canon_iteDev (canon_of_eq (mem_countHeld _ _) ?_) (canon_iteDev (canon_of_eq (by simp) h) h))
  exact canon_forEach _ (fun e x he => canon_servePacket he) h

@[simp] theorem canon_settle {d : Dev} (h : Canon d.mem) :
    Canon d.settle.mem := canon_settleFatal (canon_iteDev h (canon_forEach _ (fun _ _ he => canon_settleBridge he) h))

@[simp] theorem canon_readCommand {d : Dev} {r : Requester} {a : Nat} (h : Canon d.mem) : Canon (d.readCommand r a).mem := by
  unfold Dev.readCommand
  extract_lets w
  have hr : (d.read w a 4).Canon := canon_read h
  split
  next st l e he => simpa -implicitDefEqProofs using hr.of_answered he
  next e he => exact hr.of_wait he

@[simp] theorem canon_fabricRequest {d : Dev} {write : Bool} {p : Packet} (h : Canon d.mem) : Canon (d.fabricRequest write p).mem := by
  unfold Dev.fabricRequest
  simp -implicitDefEqProofs [h]

@[simp] theorem canon_sweepRead {d : Dev} {w : Who} {a n : Nat} (h : Canon d.mem) : Canon (d.sweepRead w a n).2.mem := by
  refine canon_foldl_pair _ (fun r p hr => ?_) h
  have hx : (r.2.read w p.1 p.2).Canon := canon_read hr
  split
  · exact hr
  split
  next st l e he => exact hx.of_answered he
  next e he => exact hx.of_wait he

@[simp] theorem canon_sweepWrite {d : Dev} {w : Who} {a : Nat} {l : List Byte} (h : Canon d.mem) : Canon (d.sweepWrite w a l).2.mem := by
  refine canon_foldl_pair _ (fun r p hr => ?_) h
  have hx : (r.2.write w p.1 p.2).Canon := canon_write hr
  split
  · exact hr
  split
  next st l e he => exact hx.of_answered he
  next e he => exact hx.of_wait he

@[simp] theorem canon_hostRead {d : Dev} {bar off len : Nat} (h : Canon d.mem) : Canon (d.hostRead bar off len).mem := by
  unfold Dev.hostRead
  refine canon_iteDev h (canon_iteDev (canon_iteDev h h) ?_)
  split
  · exact h
  · exact canon_iteDev (canon_sweepRead h) (canon_sweepRead h)

@[simp] theorem canon_hostWrite {d : Dev} {bar off : Nat} {l : List Byte} (h : Canon d.mem) : Canon (d.hostWrite bar off l).mem := by
  unfold Dev.hostWrite
  refine canon_iteDev h (canon_iteDev (canon_iteDev (canon_of_eq (mem_raise _ _) h) ?_) ?_)
  · exact canon_forEach _ (fun e i he => by simpa -implicitDefEqProofs using he) h
  split
  · exact canon_of_eq (mem_raise _ _) h
  next a _ =>
    cases hp : d.postAll .pwr ((joinBlocks (cut64 a l)).map hostPacket) with
    | none => exact h
    | some e => exact canon_postAll _ h e hp

@[simp] theorem canon_fetch {d : Dev} {q : Fin 16} {e : Sqe} (h : Canon d.mem) : Canon (d.fetch q e).mem := by
  unfold Dev.fetch
  dsimp only
  repeat' split
  all_goals simp -implicitDefEqProofs [h]

@[simp] theorem canon_copyIn {d : Dev} {q : Fin 16} {c : HostCmd} {l : List Byte} {ok : Bool} (h : Canon d.mem) :
    Canon (d.copyIn q c l ok).mem := by
  unfold Dev.copyIn
  simp -implicitDefEqProofs [h]

@[simp] theorem canon_copyOut {d : Dev} {q : Fin 16} {c : HostCmd} {n : Nat} (h : Canon d.mem) : Canon (d.copyOut q c n).mem := by
  unfold Dev.copyOut
  simp -implicitDefEqProofs [h]

@[simp] theorem canon_fwWrite {d : Dev} {q : Fin 16} {a : Nat} {v : Word} {f : Dev → Dev} (hf : ∀ e : Dev, Canon e.mem → Canon (f e).mem)
    (hd : Canon d.mem) : Canon (d.fwWrite q a v f).mem := by
  unfold Dev.fwWrite
  have hw : (d.write fwWho a (leBytes 4 v.toNat)).Canon := canon_write hd
  split
  next st l e he =>
    have he := hw.of_answered he
    exact canon_iteDev (hf e he) (canon_of_eq (mem_fwDone _ _ _ _) he)
  next e he => exact hw.of_wait he

@[simp] theorem canon_nvsWrite {d : Dev} {q : Fin 16} {e : Sqe} {off : Nat} (h : Canon d.mem) : Canon (d.nvsWrite q e off).mem := by
  unfold Dev.nvsWrite
  dsimp only
  repeat' split
  all_goals simp -implicitDefEqProofs [h]

@[simp] theorem canon_hostHimg {d : Dev} {q : Fin 16} {e : Sqe} (h : Canon d.mem) : Canon (d.hostHimg q e).mem := by
  refine canon_fwWrite (fun e he => ?_) (canon_of_eq (mem_setFlag _ _ _) h)
  exact canon_iteDev (canon_of_eq (mem_fwDone _ _ _ _) he) he

@[simp] theorem canon_hostFabload {d : Dev} {q : Fin 16} {e : Sqe} (h : Canon d.mem) : Canon (d.hostFabload q e).mem := by
  unfold Dev.hostFabload
  refine canon_iteDev (canon_of_eq (mem_fwDone _ _ _ _) h) (canon_fwWrite (fun e he => canon_fwWrite (fun e he => ?_) ?_) h)
  · exact canon_iteDev (canon_of_eq (mem_fwDone _ _ _ _) he) he
  · exact canon_of_eq (mem_setFlag _ _ _) he

@[simp] theorem canon_hostPatch {d : Dev} {q : Fin 16} {e : Sqe} (h : Canon d.mem) : Canon (d.hostPatch q e).mem := by
  unfold Dev.hostPatch
  refine canon_iteDev (canon_of_eq (mem_fwDone _ _ _ _) h) (canon_fwWrite (fun e he => canon_fwWrite (fun e he => ?_) ?_) h)
  · exact canon_iteDev (canon_of_eq (mem_fwDone _ _ _ _) he) he
  · exact canon_of_eq (mem_setFlag _ _ _) he

@[simp] theorem canon_linkRequest {d : Dev} {p : Fin 4} {write : Bool} {pk : Packet} (h : Canon d.mem) :
    Canon (d.linkRequest p write pk).mem := by
  unfold Dev.linkRequest
  dsimp only
  repeat' split
  all_goals simp -implicitDefEqProofs [h]

@[simp] theorem canon_dmaRead {d : Dev} {w : Who} {src n : Nat} (h : Canon d.mem) : Canon (d.dmaRead w src n).2.2.mem := by
  refine forEach_keeps (P := fun r : CopyEnd × List Byte × Dev => Canon r.2.2.mem) _ (fun r i hr => ?_) h
  have hx : (r.2.2.read w (src + 64 * i) 64).Canon := canon_read hr
  split
  · exact hr
  split
  next e he => exact hx.of_wait he
  next st l e he => exact hx.of_answered he

@[simp] theorem canon_dmaUnit {d : Dev} {w : Who} {posted : Bool} {src dst n : Nat} (h : Canon d.mem) :
    Canon (d.dmaUnit w posted src dst n).2.mem := by
  unfold Dev.dmaUnit
  have hr : Canon (d.dmaRead w src n).2.2.mem := canon_dmaRead h
  split
  next l e he =>
    rw [he] at hr
    split
    · split
      next f hf => exact canon_postAll _ hr f hf
      next => exact hr
    · have hw : (e.write w dst l).Canon := canon_write hr
      split
      next f hf => exact hw.of_wait hf
      next st x f hf => exact hw.of_answered hf
  next c x e _ he =>
    rw [he] at hr
    exact hr

@[simp] theorem canon_dmaDone {d : Dev} {e : Fin 8} (h : Canon d.mem) : Canon (d.dmaDone e).mem := by
  unfold Dev.dmaDone
  split
  · exact h
  extract_lets w src dst posted len u r idle
  have hr : Canon r.2.mem := canon_foldl_pair _ (fun r i hr => by
    split
    · exact hr
    · exact canon_dmaUnit hr) h
  clear_value r
  split
  · exact hr
  · simpa -implicitDefEqProofs [idle] using hr
  · simpa -implicitDefEqProofs [idle] using hr

@[simp] theorem canon_requestMode {d : Dev} {r : Requester} {t : Nat} (h : Canon d.mem) : Canon (d.requestMode r t).mem := by
  unfold Dev.requestMode
  simp -implicitDefEqProofs [h]

@[simp] theorem canon_domainRisen {d : Dev} {k : Nat} (h : Canon d.mem) : Canon (d.domainRisen k).mem := by
  unfold Dev.domainRisen
  simp -implicitDefEqProofs [h]

@[simp] theorem canon_resetPin {d : Dev} (h : Canon d.mem) : Canon d.resetPin.mem := by
  unfold Dev.resetPin
  simp -implicitDefEqProofs [h]

@[simp] theorem canon_startTest {d : Dev} {r : Requester} {t : Nat} {hmask : BitVec 17} (h : Canon d.mem) :
    Canon (d.startTest r t hmask).mem := by
  unfold Dev.startTest
  simp -implicitDefEqProofs [h]

@[simp] theorem canon_tapAccess {d : Dev} {i : TapInstr} {base : Nat} {go wr : Bool} {off : BitVec 16} {v : Word} (h : Canon d.mem) :
    Canon (d.tapAccess i base go wr off v).mem := by
  unfold Dev.tapAccess
  extract_lets e w b keep
  have he : Canon e.mem := canon_of_eq (by simp [e]) h
  clear_value e
  refine canon_iteDev he ?_
  split
  · have hw : (e.write w b (leBytes 4 v.toNat)).Canon := canon_write he
    split
    next st l f hf =>
      have hf := hw.of_answered hf
      exact hf
    next f hf =>
      have hf := hw.of_wait hf
      exact hf
  · have hw : (e.read w b 4).Canon := canon_read he
    split
    next st l f hf =>
      have hf := hw.of_answered hf
      exact hf
    next f hf =>
      have hf := hw.of_wait hf
      exact hf

@[simp] theorem canon_short {d : Dev} {c : CoreId} {n : Names} {f : CoreState → CoreState} (h : Canon d.mem) :
    Canon (d.short c n f).mem := by
  unfold Dev.short
  simp -implicitDefEqProofs [h]

@[simp] theorem canon_long {d : Dev} {c : CoreId} {p : Pred} {n : Names} {cycles : Nat} {f : CoreState → CoreState} (h : Canon d.mem) :
    Canon (d.long c p n cycles f).mem := by
  unfold Dev.long
  simp -implicitDefEqProofs [h]

@[simp] theorem canon_alu3 {d : Dev} {c : CoreId} {p : Pred} {rd s t : DReg} {op : Word → Word → Word} (h : Canon d.mem) :
    Canon (d.alu3 c p rd s t op).mem := by
  unfold Dev.alu3
  simp -implicitDefEqProofs [h]

@[simp] theorem canon_alu {d : Dev} {c : CoreId} {f : AluForm} {op : Word → Word → Word} (h : Canon d.mem) :
    Canon (d.alu c f op).mem := by
  unfold Dev.alu
  split <;> simp -implicitDefEqProofs [h]

@[simp] theorem canon_compare {d : Dev} {c : CoreId} {p : Pred} {pd : PReg} {s : DReg} {o : CmpOp} {cc : Word → Word → Bool}
    (h : Canon d.mem) : Canon (d.compare c p pd s o cc).mem := by
  unfold Dev.compare
  split <;> simp -implicitDefEqProofs [h]

@[simp] theorem canon_predLogic {d : Dev} {c : CoreId} {p : Pred} {pd a b : PReg} {op : Bool → Bool → Bool} (h : Canon d.mem) :
    Canon (d.predLogic c p pd a b op).mem := by
  unfold Dev.predLogic
  simp -implicitDefEqProofs [h]

@[simp] theorem canon_callTo {d : Dev} {c : CoreId} {len : Nat} {target : Word} (h : Canon d.mem) :
    Canon (d.callTo c len target).mem := by
  unfold Dev.callTo
  dsimp only
  repeat' split
  all_goals simp -implicitDefEqProofs [h]

@[simp] theorem canon_mulWord {d : Dev} {c : CoreId} {p : Pred} {rd s t : DReg} {ct : Bool} {sig : Word → Nat}
    {f : Word → Word → Word} (h : Canon d.mem) : Canon (d.mulWord c p rd s t ct sig f).mem := by
  unfold Dev.mulWord
  simp -implicitDefEqProofs [h]

@[simp] theorem canon_mulPair {d : Dev} {c : CoreId} {p : Pred} {rd s t : DReg} {ct : Bool} {sig : Word → Nat}
    {f : Word → Word → BitVec 64} (h : Canon d.mem) : Canon (d.mulPair c p rd s t ct sig f).mem := by
  unfold Dev.mulPair
  simp -implicitDefEqProofs [h]

@[simp] theorem canon_macReg {d : Dev} {c : CoreId} {p : Pred} {n : BitVec 2} {s t : DReg} {ct : Bool} {sig : Word → Nat}
    {f : Word → Word → Int} (h : Canon d.mem) : Canon (d.macReg c p n s t ct sig f).mem := by
  unfold Dev.macReg
  simp -implicitDefEqProofs [h]

@[simp] theorem canon_fpEnd {d : Dev} {c : CoreId} {fl : FFlags} {cycles : Nat} {write : CoreState → CoreState} (h : Canon d.mem) :
    Canon (d.fpEnd c fl cycles write).mem := by
  unfold Dev.fpEnd
  simp -implicitDefEqProofs [h]

@[simp] theorem canon_fpu {d : Dev} {c : CoreId} {p : Pred} {n : Names} {cycles : Nat} {op : CoreState → Nat × FFlags}
    {write : CoreState → Nat → CoreState} (h : Canon d.mem) :
    Canon (d.fpu c p n cycles op write).mem := canon_op32 (fun _ he => canon_fpEnd he) h

@[simp] theorem canon_fpuCmp {d : Dev} {c : CoreId} {p : Pred} {pr : Bool} {pd : PReg} {s t : DReg}
    {op : Fmt → Bool → Nat → Nat → Bool × FFlags} (h : Canon d.mem) :
    Canon (d.fpuCmp c p pr pd s t op).mem := canon_op32 (fun _ he => canon_fpEnd he) h

@[simp] theorem canon_fpTwo {d : Dev} {c : CoreId} {p : Pred} {pr : Bool} {rd s t : DReg} {cycles : Nat}
    {op : CoreState → Nat → Nat → Nat × FFlags} (h : Canon d.mem) : Canon (d.fpTwo c p pr rd s t cycles op).mem := by
  unfold Dev.fpTwo
  simp -implicitDefEqProofs [h]

@[simp] theorem canon_fpRound {d : Dev} {c : CoreId} {p : Pred} {pr : Bool} {rd s t : DReg} {cycles : Nat}
    {op : Fmt → RMode → Bool → Bool → Nat → Nat → Nat × FFlags} (h : Canon d.mem) : Canon (d.fpRound c p pr rd s t cycles op).mem := by
  unfold Dev.fpRound
  simp -implicitDefEqProofs [h]

@[simp] theorem canon_fpOne {d : Dev} {c : CoreId} {p : Pred} {pr : Bool} {rd s : DReg} {cycles : Nat}
    {op : CoreState → Nat → Nat × FFlags} (h : Canon d.mem) : Canon (d.fpOne c p pr rd s cycles op).mem := by
  unfold Dev.fpOne
  simp -implicitDefEqProofs [h]

@[simp] theorem canon_fpToWord {d : Dev} {c : CoreId} {p : Pred} {pr : Bool} {rd s : DReg} {lo hi : Int} (h : Canon d.mem) :
    Canon (d.fpToWord c p pr rd s lo hi).mem := by
  unfold Dev.fpToWord
  simp -implicitDefEqProofs [h]

@[simp] theorem canon_fpOfWord {d : Dev} {c : CoreId} {p : Pred} {pr : Bool} {rd s : DReg} {val : Word → Int} (h : Canon d.mem) :
    Canon (d.fpOfWord c p pr rd s val).mem := by
  unfold Dev.fpOfWord
  simp -implicitDefEqProofs [h]

@[simp] theorem canon_memOp {d : Dev} {c : CoreId} {store : Bool} {f : MemForm} {g : Dev → Nat → Access → Dev}
    (hg : ∀ (e : Dev) n x, Canon e.mem → Canon (g e n x).mem) (hd : Canon d.mem) : Canon (d.memOp c store f g).mem := by
  cases f with
  | short r a mode x => exact canon_op16 (fun e he => hg e 2 _ he) hd
  | long p size r a mode sx opd => exact canon_op32 (fun e he => hg e 4 _ he) hd

@[simp] theorem canon_loadAt {d : Dev} {c : CoreId} {len : Nat} {x : Access} (h : Canon d.mem) : Canon (d.loadAt c len x).mem := by
  unfold Dev.loadAt
  extract_lets k
  refine canon_iteDev (canon_trap h) ?_
  split
  · split
    · exact canon_trap h
    · exact h
  have hi : (d.issueRead (d.who (.core c)) (d.roadOf c x.addr) x.size).Canon := canon_issueRead h
  split
  next st l e he =>
    have he := hi.of_answered he
    exact canon_iteDev he (canon_of_eq (mem_imprecise _ _ _ _) he)
  next tid e he => exact canon_of_eq (mem_modCo _ _ _) (hi.of_sent he)
  next e he => exact hi.of_wait he

@[simp] theorem canon_storeAt {d : Dev} {c : CoreId} {len : Nat} {x : Access} (h : Canon d.mem) : Canon (d.storeAt c len x).mem := by
  unfold Dev.storeAt
  extract_lets k l w
  refine canon_iteDev (canon_trap h) ?_
  split
  · split
    · exact canon_trap h
    · exact canon_setBytes h
  have hi : ((d.setCo c (k.accessed len x)).issueWrite w (d.roadOf c x.addr) l).Canon := canon_issueWrite h
  split
  next st u e he => exact canon_of_eq (mem_lateBusError _ _ _ _) (hi.of_answered he)
  next tid e he => exact hi.of_sent he
  next e he => exact canon_of_eq (mem_setCo _ _ _) (hi.of_wait he)

@[simp] theorem canon_eventEntry {d : Dev} {c : CoreId} (h : Canon d.mem) : Canon (d.eventEntry c).mem := by
  unfold Dev.eventEntry
  extract_lets k e
  have he : Canon e.mem := canon_of_eq (mem_claim _ _) h
  clear_value e
  refine canon_iteDev h ?_
  split
  · exact h
  split
  · simpa -implicitDefEqProofs using he
  · simp -implicitDefEqProofs [he]

theorem canon_frameWord {d : Dev} {c : CoreId} {a : Word} (h : Canon d.mem) : (d.frameWord c a).Canon := by
  unfold Dev.frameWord
  split
  · exact h
  split
  · exact h
  have hr : (d.read (d.who (.core c)) (d.roadOf c a) 4).Canon := canon_read h
  split
  next st l e he => exact hr.of_answered he
  next e he => exact hr.of_wait he

@[simp] theorem canon_returnFrom {d : Dev} {c : CoreId} (h : Canon d.mem) : Canon (d.returnFrom c).mem := by
  unfold Dev.returnFrom
  extract_lets k
  refine canon_iteDev (canon_trap h) ?_
  have h1 : (d.frameWord c k.tsp).Canon := canon_frameWord h
  split
  next e he => exact h1.of_wait he
  next st pc e he =>
    have he := h1.of_answered he
    refine canon_iteDev (canon_trap he) ?_
    have h2 : (e.frameWord c (k.tsp + 4)).Canon := canon_frameWord he
    split
    next f hf => exact h2.of_wait hf
    next st sr f hf =>
      have hf := h2.of_answered hf
      exact canon_iteDev (canon_trap hf) (canon_of_eq (mem_returnTo _ _ _ _) hf)

@[simp] theorem canon_takeImprecise {d : Dev} {c : CoreId} (h : Canon d.mem) : Canon (d.takeImprecise c).mem := by
  unfold Dev.takeImprecise
  dsimp only
  repeat' split
  all_goals simp -implicitDefEqProofs [h]

/-! Commands that act through a stream, a hall's stream or a host queue. -/

theorem canon_onStream {d : Dev} {s : StreamId} {f : Dev → Dev} (hf : ∀ e : Dev, Canon e.mem → Canon (f e).mem)
    (hd : Canon d.mem) : Canon (d.onStream s f).mem :=
  canon_iteDev (hf d hd) hd

theorem canon_hallStream {d : Dev} {h : LHall} {f : StreamId → Dev} (hf : ∀ s, Canon (f s).mem) (hd : Canon d.mem) :
    Canon (d.hallStream h f).mem := by
  unfold Dev.hallStream
  split
  · exact hf _
  · exact hd

theorem canon_turn {d : Dev} {q : Fin 16} {f : Dev → Dev} (hf : ∀ e : Dev, Canon e.mem → Canon (f e).mem) (hd : Canon d.mem) :
    Canon (d.turn q f).mem :=
  canon_iteDev (hf _ hd) hd

theorem canon_engineCmd {d : Dev} {q : Fin 16} {o : Nat} {f : HostCmd → Dev} (hf : ∀ c, Canon (f c).mem) (hd : Canon d.mem) :
    Canon (d.engineCmd q o f).mem := by
  unfold Dev.engineCmd
  split
  · exact canon_iteDev (hf _) hd
  · exact hd

theorem canon_firmware {d : Dev} {q : Fin 16} {o : Nat} {f : Sqe → Dev} (hf : ∀ e, Canon (f e).mem) (hd : Canon d.mem) :
    Canon (d.firmware q o f).mem := by
  unfold Dev.firmware
  split
  · exact canon_iteDev (hf _) hd
  · exact hd

/-- A command whose operation keeps the canonical form leaves it: what follows at once keeps it too. -/
theorem canon_run {s t : State} {f : Dev → Dev} (hf : Canon (f s.dev).mem) (h : s.run f = .next t) : Canon t.dev.mem := by
  injection h with h
  exact h ▸ canon_settle hf

/-- The canonical form after any command: the arms that take a further operation one by one, the others by the lemma of
their operation. -/
theorem canon_exec (c : Instr) {s t : State} (h : Canon s.dev.mem) (e : exec c s = .next t) : Canon t.dev.mem := by
  cases c <;> unfold exec at e
  case routineStart x =>
    refine canon_run ?_ e
    exact canon_onStream (fun _ he => canon_of_eq (mem_startQueued _ _) he) h
  case microwordIssue x =>
    refine canon_run ?_ e
    exact canon_onStream (fun _ he => canon_of_eq (mem_issueWord _ _) he) h
  case orResultFormed x =>
    refine canon_run ?_ e
    exact canon_onStream (fun _ he => canon_of_eq (mem_formOr _ _) he) h
  case preemptStop x =>
    refine canon_run ?_ e
    exact canon_onStream (fun _ he => canon_of_eq (mem_preemptStop _ _) he) h
  case preemptResume x =>
    refine canon_run ?_ e
    exact canon_onStream (fun _ he => canon_of_eq (mem_preemptResume _ _) he) h
  case routineTimeout x =>
    refine canon_run ?_ e
    exact canon_onStream (fun _ he => canon_routineTimeout he) h
  case spanOverrun x =>
    refine canon_run ?_ e
    exact canon_onStream (fun _ he => canon_spanOverrun he) h
  case milestoneCommit x t =>
    refine canon_run ?_ e
    exact canon_onStream (fun _ he => canon_milestoneCommit he) h
  case hallEntryStart x =>
    refine canon_run ?_ e
    exact canon_hallStream (fun _ => canon_startEntry h) h
  case stallEnd x =>
    refine canon_run ?_ e
    exact canon_hallStream (fun _ => canon_endStall h) h
  case orRelease x =>
    refine canon_run ?_ e
    exact canon_hallStream (fun _ => canon_of_eq (mem_releaseOr _ _ _) h) h
  case commandStep x =>
    refine canon_run ?_ e
    split
    · exact canon_turn (fun _ he => canon_fetch he) h
    · exact h
  case copyin q l ok =>
    refine canon_run ?_ e
    exact canon_turn (fun _ he => canon_engineCmd (fun _ => canon_copyIn he) he) h
  case copyout q n =>
    refine canon_run ?_ e
    exact canon_turn (fun _ he => canon_engineCmd (fun _ => canon_copyOut he) he) h
  case invalidHostOpcode q =>
    refine canon_run ?_ e
    refine canon_turn (fun d hd => ?_) h
    split
    · exact canon_iteDev (canon_of_eq (mem_finish _ _ _ _) hd) hd
    · exact hd
  case plan q p =>
    refine canon_run ?_ e
    refine canon_firmware (fun x => ?_) h
    split <;> exact canon_of_eq (mem_fwDone _ _ _ _) h
  case mode q =>
    refine canon_run ?_ e
    exact canon_firmware (fun _ => canon_of_eq (mem_hostMode _ _ _) h) h
  case nvswr q off =>
    refine canon_run ?_ e
    exact canon_firmware (fun _ => canon_nvsWrite h) h
  case attest q sig =>
    refine canon_run ?_ e
    exact canon_firmware (fun _ => canon_of_eq (mem_attest _ _ _ _) h) h
  case himg q =>
    refine canon_run ?_ e
    exact canon_firmware (fun _ => canon_hostHimg h) h
  case fabload q =>
    refine canon_run ?_ e
    exact canon_firmware (fun _ => canon_hostFabload h) h
  case patch q =>
    refine canon_run ?_ e
    exact canon_firmware (fun _ => canon_hostPatch h) h
  case movi c f =>
    refine canon_run ?_ e
    cases f <;> simp -implicitDefEqProofs [h]
  case addi c f =>
    refine canon_run ?_ e
    cases f <;> simp -implicitDefEqProofs [h]
  case br c f =>
    refine canon_run ?_ e
    cases f
    · exact canon_op16 (fun _ he => he) h
    · exact canon_op32 (fun _ he => he) h
  case call c f =>
    refine canon_run ?_ e
    cases f
    · exact canon_op16 (fun _ he => canon_callTo he) h
    · exact canon_op32 (fun _ he => canon_callTo he) h
  case calla c p a =>
    refine canon_run ?_ e
    exact canon_op32 (fun _ he => canon_callTo he) h
  case ret c =>
    refine canon_run ?_ e
    refine canon_op16 (fun d hd => ?_) h
    split
    · exact canon_trapHere hd
    · exact hd
  case rspush c p r =>
    refine canon_run ?_ e
    refine canon_op32 (fun d hd => ?_) h
    split
    · exact hd
    · exact canon_trapHere hd
  case rspop c p r =>
    refine canon_run ?_ e
    refine canon_op32 (fun d hd => ?_) h
    split
    · exact canon_trapHere hd
    · exact hd
  case rspushb c p r =>
    refine canon_run ?_ e
    exact canon_op32 (fun d hd => canon_iteDev (canon_trapHere hd) hd) h
  case rspopb c p r =>
    refine canon_run ?_ e
    refine canon_op32 (fun d hd => ?_) h
    split
    · exact canon_trapHere hd
    · exact hd
  case macH2 c p n x y =>
    refine canon_run ?_ e
    exact canon_op32 (fun d hd => canon_iteDev (canon_trap hd) (canon_iteDev (canon_trap hd) hd)) h
  case load c f =>
    refine canon_run ?_ e
    exact canon_memOp (fun _ _ _ he => canon_loadAt he) h
  case store c f =>
    refine canon_run ?_ e
    exact canon_memOp (fun _ _ _ he => canon_storeAt he) h
  case rete c p =>
    refine canon_run ?_ e
    exact canon_op32 (fun _ he => canon_returnFrom he) h
  case sysc c p n =>
    refine canon_run ?_ e
    exact canon_op32 (fun _ he => canon_trap he) h
  case illegalInstruction c =>
    refine canon_run ?_ e
    exact canon_instr (fun _ he => canon_trapHere he) h
  case bkpt c =>
    refine canon_run ?_ e
    refine canon_op16 (fun d hd => ?_) h
    exact canon_iteDev (canon_of_eq (mem_enterHalt _) hd) (canon_trapHere hd)
  all_goals
    refine canon_run ?_ e
    simp -implicitDefEqProofs [h]

/-- Settles O60: a step performs the front command or lets the fabric's clocks run, and both keep memory's canonical form. -/
theorem memoryStaysCanonical : Obligations.MemoryStaysCanonical := by
  unfold Obligations.MemoryStaysCanonical
  intro s t h hstep
  unfold step at hstep
  split at hstep
  · injection hstep with hstep
    subst hstep
    show Canon s.dev.fabricTick.mem
    rw [mem_fabricTick]
    exact h
  next c r _ => exact canon_exec c (s := { s with pending := r }) h hstep

end Sys2Proof.Machine
end

section
/-! Packets and responses on the road: what a request does at its target, what stops it, and what an answer does at its requester
(R316 to R321, R332, R334, R335). -/

namespace Sys2Proof.Machine

section Posted

/-- The pieces in which the flits of a write carry its data write the whole of it (R317). -/
theorem forEach_packetPieces_setBytes (d : Dev) (a : Nat) (l : List Byte) :
    forEach (packetPieces a l) d (fun d x => d.setBytes x.1 x.2) = d.setBytes a l := by
  have hfirst : ∀ m, m ≤ (l.length + 63) / 64 →
      forEach ((List.range m).map (fun i => (a + 64 * i, (l.drop (64 * i)).take 64))) d (fun d x => d.setBytes x.1 x.2) =
        d.setBytes a (l.take (64 * m)) := by
    intro m hm
    induction m with
    | zero => rfl
    | succ m ih =>
      have hlen : (l.take (64 * m)).length = 64 * m := by rw [List.length_take]; omega
      rw [List.range_succ, List.map_append, forEach_append, ih (by omega), List.map_singleton, forEach_cons, forEach_nil,
        show 64 * (m + 1) = 64 * m + 64 by omega, List.take_add, setBytes_append, hlen]
  rw [packetPieces, hfirst _ le_rfl, List.take_of_length_le (by omega)]

end Posted

section Stopped

variable {d : Dev} {k : PacketKind} {p : Packet} {node : Nat}

/-- The source's conditions on a request that enters the road. -/
theorem request_enters (hcan : d.canRequest p.src.toNat = true) (hok : packetOk k p = true) (htid : d.tidOk k p = true)
    (hsrc : p.src.toNat ≤ 0x20) :
    ¬((!d.canRequest p.src.toNat || !packetOk k p || !d.tidOk k p || decide (0x20 < p.src.toNat)) = true) := by
  simp [hcan, hok, htid, hsrc]

/-- A read at an address that nothing maps is answered DECODE. -/
theorem request_unmapped (hgo : ¬((!d.canRequest p.src.toNat || !packetOk .rd p || !d.tidOk .rd p || decide (0x20 < p.src.toNat)) = true))
    (hnode : nodeOfAddr d.chipId p.addr.toNat = none) : d.request .rd p = d.answer 0x3F .rd p 1 := by
  unfold Dev.request Dev.inject
  rw [if_neg hgo, hnode]
  rfl

/-- A read whose node answers at once with a status of the road. -/
theorem request_answered {e : Dev} {st : BitVec 4}
    (hgo : ¬((!d.canRequest p.src.toNat || !packetOk .rd p || !d.tidOk .rd p || decide (0x20 < p.src.toNat)) = true))
    (hnode : nodeOfAddr d.chipId p.addr.toNat = some node) (hr : d.reach node true = (.status st, e)) (hoff : e.ProbesOff) :
    d.request .rd p = e.answer node .rd p st := by
  unfold Dev.request Dev.inject
  rw [if_neg hgo, hnode]
  dsimp only
  rw [show PacketKind.rd.answered = true from rfl, hr]
  dsimp only
  rw [probe_off hoff]
  rfl

/-- A read that waits while its node's domain wakes. -/
theorem request_held {e : Dev}
    (hgo : ¬((!d.canRequest p.src.toNat || !packetOk .rd p || !d.tidOk .rd p || decide (0x20 < p.src.toNat)) = true))
    (hnode : nodeOfAddr d.chipId p.addr.toNat = some node) (hr : d.reach node true = (.wait, e)) (hoff : e.ProbesOff)
    (hroom : d.vcFull node .rd = false) :
    d.request .rd p =
      { e with road := { e.road with hold := e.road.hold ++ [(BitVec.ofNat 6 node, PacketKind.rd, p)] } }.countHeld node := by
  unfold Dev.request Dev.inject
  rw [if_neg hgo, hnode]
  dsimp only
  rw [show PacketKind.rd.answered = true from rfl, hr]
  dsimp only
  rw [hroom, probe_off hoff]
  rfl

theorem reach_dead (h : d.nodeDead node = true) (b : Bool) : d.reach node b = (.status 5, d.addFld R.ROAD_DEADCNT_COUNT 1) := by
  unfold Dev.reach
  rw [if_pos h]

theorem reach_resetx (hdead : d.nodeDead node = false) (hb : hasBridge node = true) (hst : d.brState node = 5) :
    d.reach node true = (.status 4, d) := by
  unfold Dev.reach
  rw [hdead, hb, hst]
  rfl

theorem reach_asleep (hdead : d.nodeDead node = false) (hb : hasBridge node = true) (hst : d.brState node = 3)
    (haw : d.flag (R.ROAD_BR_AW node) = false ∨ d.canWake node = false) :
    d.reach node true = (.status 3, d.addFld (R.ROAD_BR_ASLP node) 1) := by
  unfold Dev.reach
  rw [hdead, hb, hst]
  rcases haw with haw | haw <;> simp [haw]

theorem reach_wakes (hdead : d.nodeDead node = false) (hb : hasBridge node = true) (hst : d.brState node = 3)
    (haw : d.flag (R.ROAD_BR_AW node) = true) (hwake : d.canWake node = true) :
    d.reach node true = (.wait, (d.setBr node 4).wakeNode node) := by
  unfold Dev.reach
  rw [hdead, hb, hst]
  simp [haw, hwake]

/-- A counter of the road is no configuration of a probe (R336). -/
theorem probesOff_addFld {f : Fld} (n : Nat) (hf : ∀ k, k < 4 → R.ROAD_PRBCFG k ≠ f.addr) (h : d.ProbesOff) : (d.addFld f n).ProbesOff :=
  fun k hk => (flag_congr (f := R.ROAD_PRBCFG_EN k) (reg_addFld_ne d n (hf k hk))).trans (h k hk)

theorem vcFull_of_heldAt_nil (h : d.heldAt node = []) : d.vcFull node k = false := by
  unfold Dev.vcFull
  rw [h]
  rfl

end Stopped

section Arrives

variable {d : Dev} {m : Bool} {x : OpenReq} {tid : BitVec 12}

/-- A response leaves the road; with the probes off nothing else sees it. -/
theorem response_taken (hoff : d.ProbesOff) (x : OpenReq) (t : Nat) (hdr : BitVec 64) (n : Nat) :
    (if x.node.toNat ≤ 0x20 then (d.respTaken x).probe t x.node.toNat x.src.toNat hdr n else d.respTaken x) = d.respTaken x := by
  rw [probe_off (probesOff_respTaken hoff x), ite_self]

theorem response_sunk (hoff : d.ProbesOff)
    (hx : d.road.resp.find? (fun z => z.tid = tid && z.mgmt = m && d.firstResp z) = some x)
    (hsunk : d.road.sunk.contains tid = true) :
    d.response m tid = { d.respTaken x with road := { (d.respTaken x).road with sunk := d.road.sunk.erase tid } } := by
  unfold Dev.response
  rw [hx]
  dsimp only
  rw [show ({ d with road := { d.road with resp := d.road.resp.erase x } } : Dev) = d.respTaken x from rfl, response_taken hoff,
    if_pos (show (d.respTaken x).road.sunk.contains tid = true from hsunk)]
  rfl

theorem response_dead (hoff : d.ProbesOff)
    (hx : d.road.resp.find? (fun z => z.tid = tid && z.mgmt = m && d.firstResp z) = some x)
    (hsunk : d.road.sunk.contains tid = false) (hdead : d.nodeDead x.src.toNat = true) : d.response m tid = d.respTaken x := by
  unfold Dev.response
  rw [hx]
  dsimp only
  rw [show ({ d with road := { d.road with resp := d.road.resp.erase x } } : Dev) = d.respTaken x from rfl, response_taken hoff,
    if_neg (show ¬(d.respTaken x).road.sunk.contains tid = true from ne_true_of_eq_false hsunk),
    if_pos (show (d.respTaken x).nodeDead x.src.toNat = true from hdead)]

/-- The part with a response at a core, before its load takes the data: a bus error that comes late is told (R275). -/
def Dev.respAtCore (d : Dev) (x : OpenReq) (k : CoreId) : Dev :=
  let u := ((d.respTaken x).answerAsked x).respond x.status x.data
  if x.status = 0 ∨ (d.co k).mode = .reset ∨ (d.co k).mode = .dead then u
  else u.imprecise k .bus (d.flivinOf k.val x.addr.toNat)

theorem coreId_core (k : CoreId) (sys sec : Bool) : Who.coreId ⟨k.val, sys, sec⟩ = k := dif_pos k.isLt

theorem lateBusError_core (d : Dev) (k : CoreId) (st : BitVec 4) (a : Word) :
    d.lateBusError ⟨k.val, false, false⟩ st a =
      if st = 0 ∨ (d.co k).mode = .reset ∨ (d.co k).mode = .dead then d else d.imprecise k .bus a := by
  have hlt : ¬4 ≤ k.val := by omega
  unfold Dev.lateBusError
  rw [coreId_core]
  by_cases hst : st = 0
  · simp [hst]
  · by_cases hm : (d.co k).mode = .reset ∨ (d.co k).mode = .dead
    · rcases hm with hm | hm <;> simp [hlt, hm]
    · rw [not_or] at hm
      simp [hlt, hm.1, hm.2]

theorem response_core {k : CoreId} (hoff : d.ProbesOff)
    (hx : d.road.resp.find? (fun z => z.tid = tid && z.mgmt = m && d.firstResp z) = some x)
    (hsunk : d.road.sunk.contains tid = false) (hdead : d.nodeDead x.src.toNat = false) (hk : x.src.toNat = k.val) :
    d.response m tid = (d.respAtCore x k).loadAnswer k tid x.status x.data := by
  have hlogic : x.src ≠ 0x0B := by
    intro h
    rw [h] at hk
    have := k.isLt
    simp at hk
    omega
  unfold Dev.response
  rw [hx]
  dsimp only
  rw [show ({ d with road := { d.road with resp := d.road.resp.erase x } } : Dev) = d.respTaken x from rfl, response_taken hoff,
    if_neg (show ¬(d.respTaken x).road.sunk.contains tid = true from ne_true_of_eq_false hsunk),
    if_neg (show ¬(d.respTaken x).nodeDead x.src.toNat = true from ne_true_of_eq_false hdead), if_neg hlogic, hk,
    if_pos k.isLt, coreId_core, lateBusError_core]
  rfl

end Arrives

/-- The command that takes a response of a channel. -/
theorem exec_response (s : State) (m : Bool) (tid : BitVec 12) {t : Dev} (h : s.dev.response m tid = t) :
    exec (if m then Instr.mrsp tid else Instr.rsp tid) s = s.after t := by
  cases m with
  | true => exact run_eq_after (f := fun d => d.response true tid) h
  | false => exact run_eq_after (f := fun d => d.response false tid) h

/-- The order of the responses on the road names the response that a command takes: its TID. -/
theorem tid_of_found {l : List OpenReq} {f : OpenReq → Bool} {tid : BitVec 12} {m : Bool} {x : OpenReq}
    (h : l.find? (fun z => z.tid = tid && z.mgmt = m && f z) = some x) : x.tid = tid := by
  have := List.find?_some h
  simp only [Bool.and_eq_true, decide_eq_true_eq] at this
  exact this.1.1

/-- Settles O40: a request is served, answered or held by what it finds at its node, and a response ends at its requester. An address that
nothing maps is answered as node 0x3F, the model's choice (log entry 41). -/
theorem packetsReachTheirTargets : Obligations.PacketsReachTheirTargets := by
  unfold Obligations.PacketsReachTheirTargets
  intro s p d a n enters
  refine ⟨fun _ node hnode hdead hbr => ⟨fun hp => ?_, fun hp => ?_, ?_⟩, ?_, ?_⟩
  · have served (k : PacketKind) (h : enters k) : d.request k p = d.servePacket node k p := by
      obtain ⟨hcan, hok, htid, hsrc, hoff⟩ := h
      exact request_served hnode hdead hbr hcan hsrc hoff hok htid
    have hdata (k : PacketKind) (hk : k = .wr ∨ k = .mwr) (h : enters k) : p.data.length = n := by
      obtain ⟨_, hok, _⟩ := h
      rcases hk with rfl | rfl <;> exact of_decide_eq_true hok
    refine ⟨fun h => ?_, fun h => ?_, fun h => ?_, fun h => ?_⟩
    · exact run_eq_after (f := fun d => d.request .rd p) ((served _ h).trans (serveRd_tcm hp))
    · exact run_eq_after (f := fun d => d.request .mrd p) ((served _ h).trans (serveRd_tcm hp))
    · have hl := hdata _ (.inl rfl) h
      exact run_eq_after (f := fun d => d.request .wr p)
        ((served _ h).trans (serveWr_tcm (fun i hi => hp i (hl ▸ hi)) (hl ▸ Nat.succ_pos _)))
    · have hl := hdata _ (.inr rfl) h
      exact run_eq_after (f := fun d => d.request .mwr p)
        ((served _ h).trans (serveWr_tcm (fun i hi => hp i (hl ▸ hi)) (hl ▸ Nat.succ_pos _)))
  · have stored (k : PacketKind) (hk : k = .pwr ∨ k = .swr) (h : enters k) :
        d.request k p = forEach (packetPieces a p.data) d (fun d x => d.setBytes x.1 x.2) := by
      obtain ⟨hcan, hok, htid, hsrc, hoff⟩ := h
      rw [forEach_packetPieces_setBytes, ← servePosted_tcm hp, request_served hnode hdead hbr hcan hsrc hoff hok htid]
      rcases hk with rfl | rfl <;> rfl
    exact ⟨fun h => run_eq_after (f := fun d => d.request .pwr p) (stored _ (.inl rfl) h),
      fun h => run_eq_after (f := fun d => d.request .swr p) (stored _ (.inr rfl) h)⟩
  · rintro ⟨hcan, hok, htid, hsrc, hoff⟩
    exact run_eq_after (f := fun d => d.request .msg p) (request_served hnode hdead hbr hcan hsrc hoff hok htid)
  · rintro ⟨hcan, hok, htid, hsrc, hoff⟩
    have hgo := request_enters hcan hok htid hsrc
    have after {t : Dev} (h : d.request .rd p = t) : exec (.rd p) s = s.after t := run_eq_after (f := fun d => d.request .rd p) h
    refine ⟨fun hnode => after (request_unmapped hgo hnode), fun node hnode => ⟨fun hdead => ?_, fun hdead hb => ⟨fun hst => ?_,
      fun hst haw => ?_, fun hst haw hwake hheld hoff' => ?_⟩⟩⟩
    · refine after (request_answered hgo hnode (reach_dead hdead _) (probesOff_addFld 1 (fun k _ => ?_) hoff))
      simp only [R.ROAD_PRBCFG, R.ROAD_DEADCNT_COUNT, R.ROAD_DEADCNT]
      omega
    · exact after (request_answered hgo hnode (reach_resetx hdead hb hst) hoff)
    · refine after (request_answered hgo hnode (reach_asleep hdead hb hst haw) (probesOff_addFld 1 (fun k _ => ?_) hoff))
      have hnode : node ≤ 0x20 := by
        simp only [hasBridge, Bool.and_eq_true, decide_eq_true_eq] at hb
        exact hb.2
      simp only [R.ROAD_PRBCFG, R.ROAD_BR_ASLP, R.ROAD_BR]
      omega
    · exact after (request_held hgo hnode (reach_wakes hdead hb hst haw hwake) hoff' (vcFull_of_heldAt_nil hheld))
  · intro m tid x hoff hx c t u
    have htid := tid_of_found hx
    refine ⟨fun hsunk => exec_response s m tid (response_sunk hoff hx hsunk),
      fun hsunk hdead => exec_response s m tid (response_dead hoff hx hsunk hdead), fun hsunk hdead => ⟨fun hsrc => ?_, fun hne hsrc => ?_,
        fun k hk => exec_response s m tid (response_core hoff hx hsunk hdead hk)⟩⟩
    · subst htid
      refine exec_response s m x.tid ((response_arrives hoff hx hsunk hdead (by rw [hsrc]; decide)).trans ?_)
      exact if_pos hsrc
    · subst htid
      exact exec_response s m x.tid ((response_arrives hoff hx hsunk hdead hsrc).trans (if_neg hne))

end Sys2Proof.Machine
end

section
/-! TLPs at the host interface and its resets (R311, R359 to R362, R367). -/

namespace Sys2Proof.Machine

section Gallery

variable {d : Dev} {a n x o : Nat} {w : Who}

/-- The gallery's error counters are the only registers that a read of it changes (R186). -/
theorem reg_galCount_ne (i : Nat) (r : EccFind) (b : Bool) (hs : x ≠ R.GAL_ECCSTAT) (hl : x ≠ R.GAL_ECCLOG) :
    (d.galCount i r b).reg x = d.reg x := by
  unfold Dev.galCount
  cases r with
  | good => rfl
  | corrected =>
    cases b with
    | false => rfl
    | true => exact (reg_setReg_ne _ _ hl).trans (reg_addFld_ne d 1 hs)
  | uncorrectable => exact (reg_raise _ _ _).trans ((reg_setReg_ne _ _ hl).trans (reg_addFld_ne d 1 hs))

theorem reg_galRead_ne (hs : x ≠ R.GAL_ECCSTAT) (hl : x ≠ R.GAL_ECCLOG) : (d.galRead a n).2.2.reg x = d.reg x :=
  forEach_frame (Dev.reg · x) _ d fun _ _ => reg_galCount_ne _ _ _ hs hl

theorem reg_galRead_response (d : Dev) (a n : Nat) : ∀ x ∈ responseRegs, (d.galRead a n).2.2.reg x = d.reg x := by
  intro x hx
  refine reg_galRead_ne ?_ ?_ <;> (rintro rfl; exact absurd hx (by decide))

/-- The gallery that a requester reaches lies below the words that nothing maps (R184). -/
theorem lt_of_galleryOpen (h : d.galleryOpen w o n = true) : o < 0x1800000 := by
  by_contra hge
  have hr : galRegion o = 3 := by
    unfold galRegion
    split_ifs <;> omega
  simp [Dev.galleryOpen, galInside, hr] at h

theorem place_gallery (d : Dev) (h : o < 0x1800000) : d.place (0x40000000 + o) = some (.gallery o) := by
  have h1 : ¬(0x40000000 + o < 0x10000) := by omega
  have h2 : ¬(0x40000000 + o < 0x10000000) := by omega
  have h3 : ¬(0x40000000 + o < 0x10C00000) := by omega
  have h4 : ¬(0x40000000 + o < 0x20800000) := by omega
  have h5 : 0x40000000 + o < 0x41800000 := by omega
  simp [Dev.place, h1, h2, h3, h4, h5]

theorem nodeOfAddr_gallery (c : Nat) (h : o < 0x1800000) : nodeOfAddr c (0x40000000 + o) = some 0x06 := by
  have h1 : ¬(0x40000000 + o < 0x10000) := by omega
  have h2 : ¬(0x40000000 + o < 0x10000000) := by omega
  have h3 : ¬(0x40000000 + o < 0x10C00000) := by omega
  have h4 : ¬(0x40000000 + o < 0x20800000) := by omega
  have h5 : 0x40000000 + o < 0x41800000 := by omega
  simp [nodeOfAddr, h1, h2, h3, h4, h5]

theorem serveRead_gallery (ho : d.galleryOpen w o n = true) (hm : d.underMarch o n = false) (hg : (d.galRead o n).2.1 = false) :
    d.serveRead w (0x40000000 + o) n = .done 0 (d.galRead o n).1 (d.galRead o n).2.2 := by
  unfold Dev.serveRead
  simp only [place_gallery d (lt_of_galleryOpen ho), ho, hm, hg, Bool.not_true, Bool.false_eq_true, if_false]

theorem serveWrite_gallery {l : List Byte} (ho : d.galleryOpen w o l.length = true) (hm : d.underMarch o l.length = false)
    (hg : (d.galWrite true o l).1 = false) : d.serveWrite w (0x40000000 + o) l = .done 0 () (d.galWrite true o l).2 := by
  unfold Dev.serveWrite
  simp only [place_gallery d (lt_of_galleryOpen ho), ho, hm, hg, Bool.not_true, Bool.false_eq_true, if_false]

end Gallery

section Reads

variable {d e : Dev} {w : Who} {node a n : Nat} {st : BitVec 4} {l : List Byte}

/-- A read that the road carries and that its target answers. -/
theorem read_served (hc : d.Carries w node) (hn : nodeOfAddr d.chipId a = some node) (hm : a ≠ R.DBG_MDATA ∧ a ≠ R.DBG_MDATA + 0x8000)
    (hq : d.road.asked = []) (hs : d.drawn.serveRead w a n = .done st l e) (hk : ∀ x ∈ responseRegs, e.reg x = d.reg x)
    (hw : w.node < 32) : d.read w a n = .answered st l e := by
  have hreach := reach_of_carries hc true
  obtain ⟨hon, hbr, _, _, hfree, hoff, halive⟩ := hc
  obtain ⟨hdata, hmirror⟩ := hm
  obtain ⟨tid, htid⟩ := drawTid_free hfree
  have hcan : d.canRequest w.node = true := by simp [Dev.canRequest, hon, hbr]
  have hport : d.portRead a n = d := by simp [Dev.portRead, hdata, hmirror]
  have hend := concluded_off (probesOff_of_responseRegs hk hoff) ((nodeDead_of_responseRegs hk hw).trans halive) node false
    (w.packet tid a n []) st l l
  have hissued : d.issueRead w a n = .answered st l e := by
    unfold Dev.issueRead Dev.busRead
    simp only [hcan, hport, hn, hreach, htid, hs, hend, Bool.not_true, Bool.false_eq_true, if_false]
  unfold Dev.read Dev.awaited
  rw [hissued, hq]
  rfl

end Reads

section Pieces

variable {a n : Nat}

/-- An access that lies in one block of 64 bytes is one piece. -/
theorem pieces64_one (f : Nat) (hn : 0 < n) (h : a % 64 + n ≤ 64) : pieces64 (f + 2) a n = [(a, n)] := by
  have hmin : min n (64 - a % 64) = n := by omega
  rw [pieces64, if_neg (by omega)]
  dsimp only
  rw [hmin, pieces64, if_pos (Nat.sub_self n)]

theorem cut64_one {l : List Byte} (hl : 0 < l.length) (h : a % 64 + l.length ≤ 64) : cut64 a l = [(a, l)] := by
  rw [cut64, pieces64_one _ hl h]
  simp

end Pieces

section Tlps

variable {d e : Dev} {o n : Nat} {l : List Byte}

theorem sweepRead_one {w : Who} {a : Nat} {st : BitVec 4} (hn : 0 < n) (h : a % 64 + n ≤ 64) (hr : d.read w a n = .answered st l e) :
    d.sweepRead w a n = ({ st := st, data := if st = 0 then l else [] }, e) := by
  unfold Dev.sweepRead
  rw [pieces64_one _ hn h]
  simp only [List.foldl_cons, List.foldl_nil, hr]
  rfl

theorem barAddr_gallery (h : o < 0x2000000) : barAddr 2 o = some (0x40000000 + o) := by
  simp [barAddr, h]

theorem hostRead_gallery (hin : d.hostIn = true) (hc : d.Carries hostWho 0x06) (hq : d.road.asked = []) (hn : 0 < n) (hp : o % 64 + n ≤ 64)
    (ho : d.galleryOpen hostWho o n = true) (hm : d.underMarch o n = false) (hg : (d.galRead o n).2.1 = false) :
    d.hostRead 2 o n = (d.drawn.galRead o n).2.2.respond 0 (d.galRead o n).1 := by
  have hlt := lt_of_galleryOpen ho
  have hread : d.read hostWho (0x40000000 + o) n = .answered 0 (d.galRead o n).1 (d.drawn.galRead o n).2.2 :=
    read_served hc (nodeOfAddr_gallery _ hlt) (by simp only [R.DBG_MDATA]; omega) hq
      (serveRead_gallery (d := d.drawn) ho hm hg) (reg_galRead_response d.drawn o n) (by decide)
  have hsweep := sweepRead_one hn (show (0x40000000 + o) % 64 + n ≤ 64 by omega) hread
  unfold Dev.hostRead
  simp only [hin, barAddr_gallery (show o < 0x2000000 by omega), hsweep, Bool.not_true, Bool.false_eq_true, if_false, if_true,
    show ¬((2 : Nat) = 4) by decide]

/-- The packet of a posted write in one block of 64 bytes. -/
theorem packetPieces_one {a : Nat} (hl : 0 < l.length) (h : l.length ≤ 64) : packetPieces a l = [(a, l)] := by
  have hone : (l.length + 63) / 64 = 1 := by omega
  rw [packetPieces, hone]
  simp [List.take_of_length_le h]

/-- A well-formed request whose node is up and that no probe sees enters the road and is served (R332). -/
theorem inject_served {p : Packet} {k : PacketKind} {node : Nat} (hnode : nodeOfAddr d.chipId p.addr.toNat = some node)
    (hdead : d.nodeDead node = false) (hbr : hasBridge node = true → d.brState node = 0) (hcan : d.canRequest p.src.toNat = true)
    (hsrc : p.src.toNat ≤ 0x20) (hoff : d.ProbesOff) (hok : packetOk k p = true) (htid : d.tidOk k p = true) :
    d.inject k p = (true, d.servePacket node k p) := by
  have hgo : ¬((!d.canRequest p.src.toNat || !packetOk k p || !d.tidOk k p || decide (0x20 < p.src.toNat)) = true) := by
    simp [hcan, hok, htid, hsrc]
  unfold Dev.inject
  rw [if_neg hgo, hnode]
  dsimp only
  rw [reach_up hdead hbr]
  dsimp only
  rw [probe_off hoff]

theorem inject_hostPacket (hcan : d.canRequest 0x08 = true) (hdead : d.nodeDead 0x06 = false) (hoff : d.ProbesOff)
    (hl : 0 < l.length) (hp : o % 64 + l.length ≤ 64) (ho : d.galleryOpen hostWho o l.length = true)
    (hm : d.underMarch o l.length = false) (hg : (d.galWrite true o l).1 = false) :
    d.inject .pwr (hostPacket (0x40000000 + o, l)) = (true, (d.galWrite true o l).2) := by
  have hlt := lt_of_galleryOpen ho
  have haddr : (hostPacket (0x40000000 + o, l)).addr.toNat = 0x40000000 + o := by
    simp only [hostPacket, postedPacket, BitVec.toNat_ofNat]
    omega
  have hlen : packetOk .pwr (hostPacket (0x40000000 + o, l)) = true := by
    have : ((BitVec.ofNat 6 (l.length - 1)).toNat) + 1 = l.length := by
      rw [BitVec.toNat_ofNat]
      omega
    simp only [packetOk, hostPacket, postedPacket, if_neg (show ¬64 < l.length by omega), this]
    simp
  have hnode : nodeOfAddr d.chipId (hostPacket (0x40000000 + o, l)).addr.toNat = some 0x06 := by
    rw [haddr]
    exact nodeOfAddr_gallery _ hlt
  have hpiece : d.postPiece (hostPacket (0x40000000 + o, l)) (0x40000000 + o, l) = (d.galWrite true o l).2 := by
    unfold Dev.postPiece
    rw [show packetWho (hostPacket (0x40000000 + o, l)) = hostWho from rfl, serveWrite_gallery ho hm hg]
    rfl
  rw [inject_served hnode hdead (fun h => absurd h (by decide)) hcan (show (0x08 : BitVec 6).toNat ≤ 0x20 by decide) hoff hlen rfl]
  refine congrArg (Prod.mk true) ?_
  show d.servePosted _ = _
  rw [servePosted_eq, haddr, show (hostPacket (0x40000000 + o, l)).data = l from rfl, packetPieces_one hl (by omega), forEach_cons,
    forEach_nil, hpiece]

theorem hostWrite_gallery (hin : d.hostIn = true) (hcan : d.canRequest 0x08 = true) (hdead : d.nodeDead 0x06 = false) (hoff : d.ProbesOff)
    (hl : 0 < l.length) (hp : o % 64 + l.length ≤ 64) (ho : d.galleryOpen hostWho o l.length = true)
    (hm : d.underMarch o l.length = false) (hg : (d.galWrite true o l).1 = false) : d.hostWrite 2 o l = (d.galWrite true o l).2 := by
  have hlt := lt_of_galleryOpen ho
  have hcut := cut64_one hl (show (0x40000000 + o) % 64 + l.length ≤ 64 by omega)
  have hpost : d.postAll .pwr ((joinBlocks (cut64 (0x40000000 + o) l)).map hostPacket) = some (d.galWrite true o l).2 := by
    rw [hcut, show joinBlocks [(0x40000000 + o, l)] = [(0x40000000 + o, l)] from rfl]
    simp only [Dev.postAll, List.map_cons, List.map_nil, List.foldl_cons, List.foldl_nil, Option.bind_some,
      inject_hostPacket hcan hdead hoff hl hp ho hm hg, if_true]
  unfold Dev.hostWrite
  simp only [hin, barAddr_gallery (show o < 0x2000000 by omega), hpost, Bool.not_true, Bool.false_eq_true, if_false,
    show ¬((2 : Nat) = 4) by decide, Option.getD_some]

/-- A doubleword of the MSI-X table (R311). -/
theorem hostWrite_msix (hin : d.hostIn = true) (ha : o % 4 = 0) (hb : o < 0x400) (v : Word) :
    d.hostWrite 4 o (leBytes 4 v.toNat) = { d with host := { d.host with
      msixTab := bankSet (fun k => if k % 4 = 3 then (1 : Word) else 0) d.host.msixTab (o / 4) v } } := by
  have hlen : (leBytes 4 v.toNat).length = 4 := length_leBytes _ _
  have hword : BitVec.ofNat 32 (leNat (leBytes 4 v.toNat)) = v := by
    rw [leNat_leBytes, show 256 ^ 4 = 2 ^ 32 by decide, Nat.mod_eq_of_lt v.isLt, BitVec.ofNat_toNat, BitVec.setWidth_eq]
  have hin4 : ¬(0x4000 < o + 4) := by omega
  unfold Dev.hostWrite
  simp only [hin, ha, hlen, hin4, Bool.not_true, Bool.false_eq_true, if_false, if_true, decide_false, Bool.or_false, ne_eq,
    not_true_eq_false, show List.range (4 / 4) = [0] from rfl, forEach_cons, forEach_nil, Nat.mul_zero, List.drop_zero, Nat.add_zero,
    List.take_of_length_le hlen.le, hword, Dev.setBar4Word, if_pos (show o / 4 < 256 by omega)]

end Tlps

section Resets

variable {d : Dev}

/-- Function Level Reset, as far as the queues' registers. -/
def Dev.flrZeroed (d : Dev) : Dev :=
  forEach (List.range 16) d (fun d q =>
    forEach ((hostQueueRegs q) ++ [R.HOST_QSQT q, R.HOST_QCQH q, R.HOST_QSTAT q]) d (fun d a => (d.setReg a 0).setStaged a 0))

/-- Every register of a queue reads 0. -/
theorem reg_flrZeroed {q x : Nat} (hq : q < 16) (hx : x ∈ hostQueueRegs q ++ [R.HOST_QSQT q, R.HOST_QCQH q, R.HOST_QSTAT q]) :
    d.flrZeroed.reg x = 0 := by
  refine forEach_reaches (P := fun e : Dev => e.reg x = 0) (List.mem_range.mpr hq) (fun e => ?_) (fun e k he => ?_) d
  · exact forEach_reaches (P := fun e : Dev => e.reg x = 0) hx (fun e => reg_setReg_same e x 0)
      (f := fun e a => (e.setReg a 0).setStaged a 0) (fun e a he => reg_setReg_zero he) e
  · exact forEach_keeps (P := fun e : Dev => e.reg x = 0) _ (fun e a he => reg_setReg_zero he) he

theorem host_flrZeroed : d.flrZeroed.host = d.host :=
  forEach_frame Dev.host _ _ fun _ _ => forEach_frame Dev.host _ _ fun _ _ => rfl

theorem flag_raise (d : Dev) (n : Nat) (f : Fld) : (d.raise n).flag f = d.flag f := flag_congr (reg_raise d n f.addr)

theorem flag_of_reg_zero {f : Fld} (h : d.reg f.addr = 0) : d.flag f = false := by
  unfold Dev.flag Dev.fld
  rw [h]
  simp [bits]

theorem host_raise (d : Dev) (n : Nat) : (d.raise n).host = d.host := (congrArg Dev.host (raise_evcOnly d n)).trans rfl

/-- Function Level Reset ends with its flag, and every queue's registers and state as after reset. -/
theorem functionReset_on (h : d.domOn 2 = true) : ∃ e : Dev, e.host = {} ∧
    d.functionReset = (e.flrZeroed.setFlag R.HOST_LSTAT_FLR true).raise 0x62 := by
  refine ⟨_, ?_, (if_neg (by rw [h]; decide)).trans rfl⟩
  rfl

theorem hostQ_setHostQ (d : Dev) (k q : Fin 16) (x : HostQueue) : (d.setHostQ k x).hostQ q = if k = q then x else d.hostQ q := by
  unfold Dev.hostQ Dev.setHostQ
  simp [Vector.getElem_set, Fin.ext_iff]

theorem cmd_abortQueues (q : Fin 16) : (d.abortQueues.hostQ q).cmd = none := by
  refine forEach_reaches (P := fun e : Dev => (e.hostQ q).cmd = none) (List.mem_finRange q) (fun e => ?_) (fun e k he => ?_) _
  · rw [hostQ_setHostQ, if_pos rfl]
  · rw [hostQ_setHostQ]
    split
    · rfl
    · exact he

theorem host_discardQueued : d.discardQueued.host = d.host := forEach_frame Dev.host _ _ fun _ _ => rfl

/-- The submission heads stand at the tails (R367). -/
theorem head_discardQueued {q : Nat} (hq : q < 16) : d.discardQueued.fld (R.HOST_QSTAT_HEAD q) = d.discardQueued.fld (R.HOST_QSQT_TAIL q) := by
  have htail (e : Dev) (k n : Nat) : (e.setFld (R.HOST_QSTAT_HEAD k) n).fld (R.HOST_QSQT_TAIL q) = e.fld (R.HOST_QSQT_TAIL q) := by
    refine fld_setFld_other _ _ _ _ (show 11 < 32 by decide) (.inl ?_)
    simp only [R.HOST_QSQT_TAIL, R.HOST_QSTAT_HEAD, R.HOST_QSQT, R.HOST_QSTAT]
    omega
  have hset (e : Dev) : (e.setFld (R.HOST_QSTAT_HEAD q) (e.fld (R.HOST_QSQT_TAIL q))).fld (R.HOST_QSTAT_HEAD q) = e.fld (R.HOST_QSQT_TAIL q) := by
    rw [fld_setFld_same _ _ _ (show 11 < 32 by decide)]
    exact Nat.mod_eq_of_lt (fld_lt e _)
  refine forEach_reaches (P := fun e : Dev => e.fld (R.HOST_QSTAT_HEAD q) = e.fld (R.HOST_QSQT_TAIL q)) (List.mem_range.mpr hq)
    (fun e => (hset e).trans (htail e q _).symm) (fun e k he => ?_) d
  by_cases hk : k = q
  · rw [hk]
    exact (hset e).trans (htail e q _).symm
  · refine ((fld_setFld_other _ _ _ _ (show 11 < 32 by decide) (.inl ?_)).trans he).trans (htail e k _).symm
    simp only [R.HOST_QSTAT_HEAD, R.HOST_QSTAT]
    omega

theorem enterD3hot_on (h : d.domOn 2 = true) : ∃ e : Dev, (∀ q : Fin 16, (e.hostQ q).cmd = none) ∧
    (∀ q : Fin 16, e.fld (R.HOST_QSTAT_HEAD q.val) = e.fld (R.HOST_QSQT_TAIL q.val)) ∧
    d.enterD3hot = { e with host := { e.host with d3hot := true } } := by
  refine ⟨d.abortQueues.discardQueued, fun q => ?_, fun q => head_discardQueued q.isLt, if_neg (by rw [h]; decide)⟩
  unfold Dev.hostQ
  rw [host_discardQueued]
  exact cmd_abortQueues q

theorem hostAnswer_found {tid : BitVec 12} {x : OpenReq} (h : d.road.waiting.find? (fun x => x.node = 0x08 && x.tid = tid) = some x)
    (st : BitVec 4) (l : List Byte) :
    d.hostAnswer tid st l =
      ({ d with road := { d.road with waiting := d.road.waiting.erase x } } : Dev).sendResp { x with status := st, data := l } := by
  unfold Dev.hostAnswer
  rw [h]

theorem hostReset_on (h : d.domOn 2 = true) :
    d.hostReset = (if d.flag R.HOST_LSTAT_UP then ({ (d.dropHost.bridgeReset 0x08).resetWindow .host with host := {} } : Dev).raise 0x60
      else { (d.dropHost.bridgeReset 0x08).resetWindow .host with host := {} }) := by
  unfold Dev.hostReset
  rw [h]
  rfl

end Resets

/-- Settles O45. That a part in D3hot serves no TLP, and that D3hot moves each head to its tail, is the model's choice (log entry 58). -/
theorem hostAccessesAndResets : Obligations.HostAccessesAndResets := by
  unfold Obligations.HostAccessesAndResets
  intro s off len l d o
  refine ⟨fun hin => ⟨fun hc hq hn hp _ ho hm hg => ?_, fun hcan hdead hoff hl hp _ ho hm hg => ?_, fun hb => ?_, fun ha hb v => ?_,
    fun b hb hb4 => ⟨?_, ?_⟩⟩, fun hin b => ⟨?_, ?_⟩, fun tid x hx => ⟨?_, ?_, ?_⟩, fun hon => ⟨fun c hc => ?_, ?_, ?_, ?_, ?_⟩⟩
  · exact run_eq_after (f := fun d => d.hostRead 2 o len) (hostRead_gallery hin hc hq hn hp ho hm hg)
  · exact run_eq_after (f := fun d => d.hostWrite 2 o l) (hostWrite_gallery hin hcan hdead hoff hl hp ho hm hg)
  · refine run_eq_after (f := fun d => d.hostRead 4 o len) ?_
    unfold Dev.hostRead
    rw [hin, if_neg (by decide), if_pos rfl, if_pos hb]
  · exact run_eq_after (f := fun d => d.hostWrite 4 o (leBytes 4 v.toNat)) (hostWrite_msix hin ha hb v)
  · refine run_eq_after (f := fun d => d.hostRead b.val o len) ?_
    unfold Dev.hostRead
    rw [hin, if_neg (by decide), if_neg hb4, hb]
  · refine run_eq_after (f := fun d => d.hostWrite b.val o l) ?_
    unfold Dev.hostWrite
    rw [hin, if_neg (by decide), if_neg hb4, hb]
  · refine run_eq_after (f := fun d => d.hostRead b.val o len) ?_
    unfold Dev.hostRead
    rw [hin]
    rfl
  · refine run_eq_after (f := fun d => d.hostWrite b.val o l) ?_
    unfold Dev.hostWrite
    rw [hin]
    rfl
  · exact run_eq_after (f := fun d => d.hostAnswer tid 0 l) (hostAnswer_found hx 0 l)
  · exact run_eq_after (f := fun d => d.hostAnswer tid 2 []) (hostAnswer_found hx 2 [])
  · exact run_eq_after (f := fun d => d.hostAnswer tid 2 []) (hostAnswer_found hx 2 [])
  · rcases List.mem_pair.mp hc with rfl | rfl
    · exact run_eq_after (f := Dev.hostReset) (hostReset_on hon)
    · exact run_eq_after (f := Dev.hostReset) (hostReset_on hon)
  · obtain ⟨e, he, ht⟩ := functionReset_on (d := d) hon
    refine ⟨_, run_eq_after (f := Dev.functionReset) ht, ?_, ?_, fun q hq => ?_⟩
    · rw [flag_raise]
      exact flag_setFlag_same e.flrZeroed R.HOST_LSTAT_FLR true (by decide) rfl
    · rw [host_raise, host_setFlag, host_flrZeroed]
      exact he
    · have hreg (x : Nat) (hx : x ∈ hostQueueRegs q ++ [R.HOST_QSQT q, R.HOST_QCQH q, R.HOST_QSTAT q]) (hne : x ≠ R.HOST_LSTAT) :
          ((e.flrZeroed.setFlag R.HOST_LSTAT_FLR true).raise 0x62).reg x = 0 := by
        rw [reg_raise]
        exact (reg_setFlag_ne _ _ hne).trans (reg_flrZeroed hq hx)
      refine ⟨hreg _ (by simp) ?_, hreg _ (by simp) ?_, hreg _ (by simp) ?_, ?_⟩
      · simp only [R.HOST_QSQT, R.HOST_LSTAT]
        omega
      · simp only [R.HOST_QCQH, R.HOST_LSTAT]
        omega
      · simp only [R.HOST_QSTAT, R.HOST_LSTAT]
        omega
      · refine flag_of_reg_zero (hreg _ (by simp [hostQueueRegs, R.HOST_QCFG_EN]) ?_)
        simp only [R.HOST_QCFG_EN, R.HOST_QCFG, R.HOST_LSTAT]
        omega
  · obtain ⟨e, hcmd, hhead, ht⟩ := enterD3hot_on (d := d) hon
    exact ⟨_, run_eq_after (f := Dev.enterD3hot) ht, Bool.and_false _, rfl, fun q => ⟨hcmd q, hhead q⟩⟩
  · intro up l1 speed width t
    refine run_eq_after (f := fun d => if d.domOn 2 then d.linkState up speed.toNat width.toNat l1 else d) ?_
    exact if_pos hon
  · intro hup b
    have hgo : ¬((!d.domOn 2 || !d.flag R.HOST_LSTAT_UP) = true) := by simp [hon, hup]
    refine ⟨?_, ?_, ?_, ?_⟩
    · exact run_eq_after (f := fun d => d.configWrite (.busMaster b)) (if_neg hgo)
    · exact run_eq_after (f := fun d => d.configWrite (.msixEnable b)) (if_neg hgo)
    · exact run_eq_after (f := fun d => d.configWrite (.msixMask b)) (if_neg hgo)
    · exact run_eq_after (f := fun d => d.configWrite .toD0) (if_neg hgo)

end Sys2Proof.Machine
end

section
/-! The epoch switch and the main links (R324, R326, R329). -/

namespace Sys2Proof.Machine

section Markers

variable {d : Dev}

theorem probeMarker_off (hoff : d.ProbesOff) (r p vc : Nat) : d.probeMarker r p vc = { d with free := d.free + 1 } := by
  unfold Dev.probeMarker
  split
  rename_i n e hfresh
  obtain ⟨-, rfl⟩ := Prod.mk.inj hfresh
  have hfree : ({ d with free := d.free + 1 } : Dev).ProbesOff := hoff
  simp only [probeAlong_off hfree]
  split <;> rfl

/-- A marker that its sender has sent is held, and only the probes could see it. -/
theorem marker_router {r : Fin 10} {p : Fin 16} {vc : Fin 4} (hsw : d.flag R.ROAD_EPOCH_SW = true)
    (hp : (routerInputs r.val).contains p.val = true) (hnew : (r.val, p.val, vc.val) ∉ d.road.markers)
    (hsent : d.markerSent r.val p.val vc.val = true) (hoff : d.ProbesOff) :
    d.marker (.router r p vc) =
      { d with road := { d.road with markers := d.road.markers ++ [(r.val, p.val, vc.val)] }, free := d.free + 1 } := by
  have hheld : ({ d with road := { d.road with markers := d.road.markers ++ [(r.val, p.val, vc.val)] } } : Dev).ProbesOff := hoff
  unfold Dev.marker
  rw [hsw, if_neg (by decide)]
  dsimp only
  rw [hp, hsent, if_neg (by simpa using hnew), probeMarker_off hheld]

theorem marker_router_early {r : Fin 10} {p : Fin 16} {vc : Fin 4} (hsent : d.markerSent r.val p.val vc.val = false) :
    d.marker (.router r p vc) = d := by
  unfold Dev.marker
  dsimp only
  rw [hsent]
  simp

theorem ejectPorts_eq (n : Nat) : ejectPorts n = if n = 0x06 ∨ n = 0x09 then 2 else 1 := by
  simp [ejectPorts]

/-- A marker reaches an ejection port when its router holds that of every input; the last one ends the epoch. -/
theorem marker_eject {n : BitVec 6} {vc : Fin 4} (hsw : d.flag R.ROAD_EPOCH_SW = true) (hn : n.toNat ≤ 0x20)
    (hroom : d.road.ejects.count (n.toNat, vc.val) < ejectPorts n.toNat)
    (hheld : ∀ p ∈ routerInputs (nodeRouter n.toNat), (nodeRouter n.toNat, p, vc.val) ∈ d.road.markers) :
    d.marker (.eject n vc) =
      if ({ d with road := { d.road with ejects := d.road.ejects ++ [(n.toNat, vc.val)] } } : Dev).epochDone
      then ({ d with road := { d.road with ejects := d.road.ejects ++ [(n.toNat, vc.val)] } } : Dev).endEpoch
      else { d with road := { d.road with ejects := d.road.ejects ++ [(n.toNat, vc.val)] } } := by
  have hnode : allNodes.contains n.toNat = true := by
    rw [List.contains_iff_mem]
    exact List.mem_range.mpr (by omega)
  have hholds : d.holdsMarkers (nodeRouter n.toNat) vc.val = true :=
    List.all_eq_true.mpr fun p hp => List.contains_iff_mem.mpr (hheld p hp)
  unfold Dev.marker
  rw [hsw, if_neg (by decide)]
  dsimp only
  rw [hnode, hholds, if_neg (by simp; omega)]

theorem epochDone_iff : d.epochDone = true ↔ ∀ m v, m < 0x21 → v < 4 → d.road.ejects.count (m, v) = ejectPorts m := by
  simp only [Dev.epochDone, allNodes, List.all_eq_true, List.mem_range, decide_eq_true_eq]
  exact ⟨fun h m v hm hv => h m hm v hv, fun h m hm v hv => h m v hm hv⟩

end Markers

/-- Settles O41. That a marker from another router is held once that router holds those of the inputs that feed the link is log entry 38. -/
theorem epochsAndLinksRun : Obligations.EpochsAndLinksRun := by
  unfold Obligations.EpochsAndLinksRun
  intro s d
  refine ⟨fun r p vc hsw hp hnew => ⟨fun hsent hoff => ?_, fun hsent => ?_⟩, ?_, ?_⟩
  · exact run_eq_after (f := fun d => d.marker (.router r p vc)) (marker_router hsw hp hnew hsent hoff)
  · exact run_eq_after (f := fun d => d.marker (.router r p vc)) (marker_router_early hsent)
  · intro n vc hsw hn ports hroom hheld t
    have hmarker := marker_eject hsw hn (by rw [ejectPorts_eq]; exact hroom) hheld
    constructor
    · rintro ⟨m, v, hm, hv, hne⟩
      have hdone : ¬t.epochDone = true := fun h => hne ((epochDone_iff.mp h m v hm hv).trans (ejectPorts_eq m))
      exact run_eq_after (f := fun d => d.marker (.eject n vc)) (hmarker.trans (if_neg hdone))
    · intro hall c hc u u'
      have hdone : t.epochDone = true := epochDone_iff.mpr fun m v hm hv => (hall m v hm hv).trans (ejectPorts_eq m).symm
      have hend : t.endEpoch = (({ u' with road := { u'.road with markers := [], ejects := [] } } : Dev).applied .road).noteLinkPath := by
        unfold Dev.endEpoch
        rw [show t.capture? .road = some c from hc]
      exact run_eq_after (f := fun d => d.marker (.eject n vc)) (hmarker.trans ((if_pos hdone).trans hend))
  · intro k up hon hup i failed
    have hgo : ¬((!d.domOn 0 || (d.fld R.ROAD_LSTAT_FAIL).testBit k.val) = true) := by simp [hon, hup]
    have hfail (e : Dev) (he : e.regs = d.regs) : e.linkFail k.val = failed e := by
      unfold Dev.linkFail
      rw [fld_congr (f := R.ROAD_LSTAT_FAIL) (reg_of_regs he _), if_neg (by rw [hup]; decide)]
    refine ⟨?_, fun h => ?_, fun h => ?_, ?_⟩
    · exact run_eq_after (f := fun d => d.flitReceive k.val up true) ((if_neg hgo).trans (if_pos rfl))
    · exact run_eq_after (f := fun d => d.flitReceive k.val up false)
        ((if_neg hgo).trans ((if_neg (by decide)).trans (if_neg (Nat.ne_of_lt h))))
    · exact run_eq_after (f := fun d => d.flitReceive k.val up false)
        ((if_neg hgo).trans ((if_neg (by decide)).trans ((if_pos h).trans (hfail _ rfl))))
    · exact run_eq_after (f := fun d => if d.domOn 0 then d.linkFail k.val else d) ((if_pos hon).trans (hfail d rfl))

end Sys2Proof.Machine
end

section
/-! Bridges and dead nodes (R331, R333 to R335). -/

namespace Sys2Proof.Machine

section DeadNodes

variable {d : Dev} {n : Nat}

/-- The node's bit of ROAD_DEAD set. -/
def Dev.markDead (d : Dev) (n : Nat) : Dev := d.setReg (R.ROAD_DEAD (n / 32)) (setBit (d.reg (R.ROAD_DEAD (n / 32))) (n % 32) true)

/-- What a node's bridge holds is answered DEAD. -/
def Dev.answerDead (d : Dev) (n : Nat) : Dev :=
  forEach (d.heldAt n) { d with road := { d.road with hold := d.road.hold.filter (fun x => x.1.toNat ≠ n) } }
    (fun d x => d.answer n x.2.1 x.2.2 5)

/-- What is held or waits at a node, and what is owed to it, is answered DEAD, sunk and counted. -/
def Dev.clearDead (d : Dev) (n : Nat) : Dev :=
  ((((d.answerDead n).answerWaiting n 5).sinkFor n).addFld R.ROAD_DEADCNT_COUNT
    ((d.road.waiting.filter (fun x => x.node.toNat = n)).length + (d.heldAt n).length)).countHeld n

theorem declareDead_alive (hn : n ≤ 0x20) (hd : d.nodeDead n = false) :
    d.declareDead n =
      if n = 0x06 || n = 0x0C
      then { (((d.markDead n).clearDead n).setBr n 6).raise 0xD1 with
        fatal := some ((((((d.markDead n).clearDead n).setBr n 6).raise 0xD1).fatal).getD 3) }
      else (((d.markDead n).clearDead n).setBr n 6).raise 0xD1 := by
  unfold Dev.declareDead
  rw [if_neg (by simp [hd, hn])]
  rfl

/-- A node that is dead, or that does not exist, stays as it was. -/
theorem declareDead_noop (h : 0x20 < n ∨ d.nodeDead n = true) : d.declareDead n = d := by
  unfold Dev.declareDead
  exact if_pos (by simpa using h)

theorem reg_answer (d : Dev) (n : Nat) (k : PacketKind) (p : Packet) (st : BitVec 4) (a : Nat) : (d.answer n k p st).reg a = d.reg a := by
  unfold Dev.answer
  split <;> rfl

theorem hold_answer (d : Dev) (n : Nat) (k : PacketKind) (p : Packet) (st : BitVec 4) : (d.answer n k p st).road.hold = d.road.hold := by
  unfold Dev.answer
  split <;> rfl

theorem waiting_answer (d : Dev) (n : Nat) (k : PacketKind) (p : Packet) (st : BitVec 4) :
    (d.answer n k p st).road.waiting = d.road.waiting := by
  unfold Dev.answer
  split <;> rfl

theorem reg_countHeld {a : Nat} (h : a ≠ R.ROAD_BR n) : (d.countHeld n).reg a = d.reg a := by
  unfold Dev.countHeld
  split
  · exact reg_setFld_ne d _ h
  · rfl

theorem reg_setBr {a : Nat} (st : Nat) (h : a ≠ R.ROAD_BR n) : (d.setBr n st).reg a = d.reg a := by
  unfold Dev.setBr
  split
  · exact reg_setFld_ne d _ h
  · rfl

theorem road_setBr (d : Dev) (n st : Nat) : (d.setBr n st).road = d.road := by
  unfold Dev.setBr
  split <;> rfl

theorem road_countHeld (d : Dev) (n : Nat) : (d.countHeld n).road = d.road := by
  unfold Dev.countHeld
  split <;> rfl

theorem road_raise (d : Dev) (n : Nat) : (d.raise n).road = d.road := (congrArg Dev.road (raise_evcOnly d n)).trans rfl

theorem reg_answerDead (d : Dev) (n a : Nat) : (d.answerDead n).reg a = d.reg a :=
  forEach_frame (Dev.reg · a) _ _ (fun d x => reg_answer d n x.2.1 x.2.2 5 a)

theorem hold_answerDead (d : Dev) (n : Nat) : (d.answerDead n).road.hold = d.road.hold.filter (fun x => x.1.toNat ≠ n) :=
  forEach_frame (fun d : Dev => d.road.hold) _ _ (fun d x => hold_answer d n x.2.1 x.2.2 5)

theorem waiting_answerDead (d : Dev) (n : Nat) : (d.answerDead n).road.waiting = d.road.waiting :=
  forEach_frame (fun d : Dev => d.road.waiting) _ _ (fun d x => waiting_answer d n x.2.1 x.2.2 5)

theorem reg_clearDead {a : Nat} (hc : a ≠ R.ROAD_DEADCNT) (hb : a ≠ R.ROAD_BR n) : (d.clearDead n).reg a = d.reg a :=
  (reg_countHeld hb).trans ((reg_addFld_ne (f := R.ROAD_DEADCNT_COUNT) _ _ hc).trans (reg_answerDead d n a))

theorem hold_clearDead (d : Dev) (n : Nat) : (d.clearDead n).road.hold = d.road.hold.filter (fun x => x.1.toNat ≠ n) :=
  (congrArg RoadState.hold (road_countHeld _ n)).trans (hold_answerDead d n)

theorem waiting_clearDead (d : Dev) (n : Nat) : (d.clearDead n).road.waiting = d.road.waiting.filter (fun x => x.node.toNat ≠ n) := by
  rw [Dev.clearDead, road_countHeld, ← waiting_answerDead d n]
  rfl

theorem fatal_clearDead (d : Dev) (n : Nat) : (d.clearDead n).fatal = d.fatal := by
  rw [Dev.clearDead, fatal_countHeld, fatal_addFld, fatal_sinkFor, fatal_answerWaiting]
  exact forEach_frame Dev.fatal _ _ (fun d x => fatal_answer d n x.2.1 x.2.2 5)

/-- Outside the dead nodes' bits and count, and the node's bridge, a node's death changes no register. -/
theorem reg_declareDead {a : Nat} (hm : a ≠ R.ROAD_DEAD (n / 32)) (hc : a ≠ R.ROAD_DEADCNT) (hb : a ≠ R.ROAD_BR n) :
    (d.declareDead n).reg a = d.reg a := by
  by_cases h : 0x20 < n ∨ d.nodeDead n = true
  · rw [declareDead_noop h]
  simp only [not_or, not_lt, Bool.not_eq_true] at h
  obtain ⟨hn, hd⟩ := h
  have hreg : ((((d.markDead n).clearDead n).setBr n 6).raise 0xD1).reg a = d.reg a :=
    (reg_raise _ _ _).trans ((reg_setBr 6 hb).trans ((reg_clearDead hc hb).trans (reg_setReg_ne d _ hm)))
  rw [declareDead_alive hn hd]
  split <;> exact hreg

/-- The bits of ROAD_DEAD after a node's death: the node's own is set. -/
theorem reg_declareDead_dead {i : Nat} (hn : n ≤ 0x20) (hd : d.nodeDead n = false) (hi : i < 2) :
    (d.declareDead n).reg (R.ROAD_DEAD i) = (d.markDead n).reg (R.ROAD_DEAD i) := by
  have hb : R.ROAD_DEAD i ≠ R.ROAD_BR n := by simp only [R.ROAD_BR, R.ROAD_DEAD]; omega
  have hc : R.ROAD_DEAD i ≠ R.ROAD_DEADCNT := by simp only [R.ROAD_DEADCNT, R.ROAD_DEAD]; omega
  have hreg : ((((d.markDead n).clearDead n).setBr n 6).raise 0xD1).reg (R.ROAD_DEAD i) = (d.markDead n).reg (R.ROAD_DEAD i) :=
    (reg_raise _ _ _).trans ((reg_setBr 6 hb).trans (reg_clearDead hc hb))
  rw [declareDead_alive hn hd]
  split <;> exact hreg

theorem nodeDead_declareDead_same (hn : n ≤ 0x20) (hd : d.nodeDead n = false) : (d.declareDead n).nodeDead n = true := by
  unfold Dev.nodeDead
  rw [reg_declareDead_dead hn hd (by omega), Dev.markDead, reg_setReg_same]
  exact getLsbD_setBit_same _ _ (Nat.mod_lt n (by decide))

/-- Another node's death leaves a requester alive. -/
theorem nodeDead_declareDead_ne {m : Nat} (hm : m < 32) (h : n ≠ m) : (d.declareDead n).nodeDead m = d.nodeDead m := by
  by_cases hdead : 0x20 < n ∨ d.nodeDead n = true
  · rw [declareDead_noop hdead]
  simp only [not_or, not_lt, Bool.not_eq_true] at hdead
  obtain ⟨hn, hd⟩ := hdead
  unfold Dev.nodeDead
  rw [Nat.div_eq_of_lt hm, Nat.mod_eq_of_lt hm, reg_declareDead_dead hn hd (by decide), Dev.markDead]
  by_cases h0 : n / 32 = 0
  · rw [h0, reg_setReg_same]
    exact getLsbD_setBit_ne _ _ (by omega)
  · rw [reg_setReg_ne _ _ (by simp only [R.ROAD_DEAD]; omega)]

theorem probesOff_declareDead (h : d.ProbesOff) (n : Nat) : (d.declareDead n).ProbesOff := by
  by_cases hn : 0x20 < n
  · rw [declareDead_noop (.inl hn)]
    exact h
  intro k hk
  rw [← h k hk]
  refine flag_congr (reg_declareDead ?_ ?_ ?_)
  all_goals
    simp only [R.ROAD_PRBCFG_EN, R.ROAD_PRBCFG, R.ROAD_DEAD, R.ROAD_DEADCNT, R.ROAD_BR]
    omega

/-- A node's death, its bridge's state and its event, without the fatal fault that it may be. -/
def Dev.fallen (d : Dev) (n : Nat) : Dev := (((d.markDead n).clearDead n).setBr n 6).raise 0xD1

theorem road_fallen (d : Dev) (n : Nat) : (d.fallen n).road = ((d.markDead n).clearDead n).road := (road_raise _ _).trans (road_setBr _ n 6)

theorem fatal_fallen (d : Dev) (n : Nat) : (d.fallen n).fatal = d.fatal := by
  rw [Dev.fallen, fatal_raise, fatal_setBr, fatal_clearDead]
  rfl

theorem brState_fallen (hb : hasBridge n = true) : (d.fallen n).brState n = 6 := by
  rw [Dev.brState, if_pos hb, Dev.fallen, fld_congr (reg_raise _ _ _), Dev.setBr, if_pos hb, fld_setFld_same _ _ _ (show 30 < 32 by decide)]
  rfl

theorem road_declareDead (hn : n ≤ 0x20) (hd : d.nodeDead n = false) : (d.declareDead n).road = (d.fallen n).road := by
  rw [declareDead_alive hn hd]
  split <;> rfl

theorem heldAt_declareDead (hn : n ≤ 0x20) (hd : d.nodeDead n = false) : (d.declareDead n).heldAt n = [] := by
  rw [Dev.heldAt, road_declareDead hn hd, road_fallen, hold_clearDead, List.filter_filter]
  exact List.filter_eq_nil_iff.mpr fun x _ h => by simp at h

theorem waiting_declareDead (hn : n ≤ 0x20) (hd : d.nodeDead n = false) :
    ∀ x ∈ (d.declareDead n).road.waiting, x.node.toNat ≠ n := by
  rw [road_declareDead hn hd, road_fallen, waiting_clearDead]
  exact fun x hx => by simpa using (List.mem_filter.mp hx).2

theorem brState_declareDead (hn : n ≤ 0x20) (hd : d.nodeDead n = false) (hb : hasBridge n = true) : (d.declareDead n).brState n = 6 := by
  rw [declareDead_alive hn hd]
  split <;> exact brState_fallen hb

/-- The death of the gallery's node or of the DRAM's is a fatal fault, if none waits already (R406). -/
theorem fatal_declareDead (hn : n ≤ 0x20) (hd : d.nodeDead n = false) :
    (d.declareDead n).fatal = if d.fatal = none ∧ (n = 0x06 ∨ n = 0x0C) then some 3 else d.fatal := by
  have hfatal : ((((d.markDead n).clearDead n).setBr n 6).raise 0xD1).fatal = d.fatal := fatal_fallen d n
  rw [declareDead_alive hn hd]
  by_cases hnode : n = 0x06 ∨ n = 0x0C
  · rw [if_pos (by simpa using hnode)]
    dsimp only
    rw [hfatal]
    cases d.fatal <;> simp [hnode]
  · rw [if_neg (by simpa using hnode), if_neg (fun h => hnode h.2), hfatal]

end DeadNodes

section Commands

variable {d : Dev} {s : State} {r : Requester} {b : Block} {a : Nat} {v : Word}

/-- A register write that the road carries is performed at its register; how it is answered depends on the part that it leaves. -/
theorem issueWrite_performed (h : d.Writes r b a v) :
    ∃ node tid, d.issueWrite (d.who r) a (leBytes 4 v.toNat) =
      (d.drawn.startWrite (d.who r) b a v).concluded (d.who r) node true ((d.who r).packet tid a 4 (leBytes 4 v.toNat)) 0 [] () := by
  obtain ⟨hplace, ⟨node, hnode, hc⟩, halign, hbase, hoff, hreg, hrefused, hport⟩ := h
  have hreach := reach_of_carries hc true
  obtain ⟨hon, hbr, _, _, hfree, _, _⟩ := hc
  obtain ⟨tid, htid⟩ := drawTid_free hfree
  have hcan : d.canRequest (d.who r).node = true := by simp [Dev.canRequest, hon, hbr]
  have hlen : (leBytes 4 v.toNat).length = 4 := length_leBytes _ _
  have hword : BitVec.ofNat 32 (leNat (leBytes 4 v.toNat)) = v := by
    rw [leNat_leBytes, Nat.mod_eq_of_lt (by simpa using v.isLt), BitVec.ofNat_toNat, BitVec.setWidth_eq]
  have hserve : d.drawn.serveWrite (d.who r) a (leBytes 4 v.toNat) = .done 0 () (d.drawn.startWrite (d.who r) b a v) := by
    have hplace' : d.drawn.place a = some (.window b (a - blockBase b)) := hplace
    have hrefused' : d.drawn.writeRefused (d.who r) b a v = false := hrefused
    obtain ⟨x, hx⟩ := Option.isSome_iff_exists.mp hreg
    unfold Dev.serveWrite Dev.regWrite
    simp [hplace', hlen, halign, hword, hx, hrefused', Nat.not_le.mpr hoff, Nat.add_sub_cancel' hbase]
  refine ⟨node, tid, ?_⟩
  unfold Dev.issueWrite Dev.busWrite
  rw [hcan, hnode]
  simp [hport, hreach, htid, hserve, hlen]

theorem startWrite_kill (d : Dev) (w : Who) (v : Word) : d.startWrite w .road R.ROAD_KILL v = d.declareDead (bits v.toNat 5 0) := by
  unfold Dev.startWrite
  exact if_pos rfl

theorem startWrite_dead (d : Dev) (w : Who) (i : Fin 2) (v : Word) : d.startWrite w .road (R.ROAD_DEAD i.val) v = d.deadRevive i.val v := by
  have hkill : R.ROAD_DEAD i.val ≠ R.ROAD_KILL := by revert i; decide
  have hidx : arrIdx (R.ROAD_DEAD 0) 4 2 (R.ROAD_DEAD i.val) = some i.val := by revert i; decide
  unfold Dev.startWrite
  simp only [hkill, hidx, if_false]

/-- The node field of a kill word. -/
theorem killWord_node (n : BitVec 6) : bits (n.setWidth 32).toNat 5 0 = n.toNat := by
  have hlt := n.isLt
  simp only [bits, BitVec.toNat_setWidth, pow_zero, Nat.div_one]
  omega

theorem drawn_declareDead_drawn (d : Dev) (w : Who) (n : BitVec 6) :
    d.drawn.startWrite w .road R.ROAD_KILL (n.setWidth 32) = d.drawn.declareDead n.toNat := by
  rw [startWrite_kill, killWord_node]

/-- The kill of another node is answered OK. -/
theorem run_kill {n : BitVec 6} (hw : s.dev.Writes r .road R.ROAD_KILL (n.setWidth 32)) (hn : n.toNat ≠ (s.dev.who r).node) :
    s.run (fun d => d.commandWord r R.ROAD_KILL (n.setWidth 32)) = s.wrote (s.dev.drawn.declareDead n.toNat) := by
  have hstart := drawn_declareDead_drawn s.dev (s.dev.who r) n
  have hcarried := hw
  obtain ⟨_, ⟨_, _, _, _, _, _, _, hoff, halive⟩, _⟩ := hcarried
  have hgo := command_register hw (hstart ▸ probesOff_declareDead (d := s.dev.drawn) hoff n.toNat)
    (hstart ▸ (nodeDead_declareDead_ne (d := s.dev.drawn) (who_node_lt s.dev r) hn).trans halive)
  exact run_eq_after (hgo.trans (by rw [hstart]))

/-- A node that kills itself has its response OK on the road, and does not have it. -/
theorem run_kill_self {n : BitVec 6} (hw : s.dev.Writes r .road R.ROAD_KILL (n.setWidth 32)) (hn : n.toNat = (s.dev.who r).node) :
    ∃ x : OpenReq, x.src = n ∧ x.status = 0 ∧ s.run (fun d => d.commandWord r R.ROAD_KILL (n.setWidth 32)) =
      s.after ((s.dev.drawn.declareDead n.toNat).sendResp x) := by
  obtain ⟨node, tid, hissue⟩ := issueWrite_performed hw
  rw [drawn_declareDead_drawn] at hissue
  have hcarried := hw
  obtain ⟨_, ⟨_, _, _, _, _, _, _, hoff, halive⟩, _⟩ := hcarried
  have hle : n.toNat ≤ 0x20 := (hn.trans_lt (who_node_lt s.dev r)).le
  have hdead : (s.dev.drawn.declareDead n.toNat).nodeDead (s.dev.who r).node = true :=
    hn ▸ nodeDead_declareDead_same hle (d := s.dev.drawn) (hn ▸ halive)
  have hprobes := probesOff_declareDead (d := s.dev.drawn) hoff n.toNat
  refine ⟨openReq node ((s.dev.who r).kind true) ((s.dev.who r).packet tid R.ROAD_KILL 4 (leBytes 4 (n.setWidth 32).toNat)) 0 [], ?_, rfl,
    run_eq_after ?_⟩
  · exact BitVec.eq_of_toNat_eq (by simp [openReq, Who.packet, ← hn])
  · unfold Dev.commandWord Dev.command
    rw [hissue, Dev.concluded, if_pos hdead]
    exact congrArg (Dev.sendResp · _) (probe_off hprobes _ _ _ _ _)

theorem filter_oneHot (j : Fin 32) : (List.range 32).filter (BitVec.ofNat 32 (2 ^ j.val)).getLsbD = [j.val] := by
  revert j
  decide +kernel

theorem deadRevive_oneHot {i : Fin 2} {j : Fin 32} (hd : d.nodeDead (32 * i.val + j.val) = true) :
    d.deadRevive i.val (BitVec.ofNat 32 (2 ^ j.val)) =
      (d.setReg (R.ROAD_DEAD i.val) (setBit (d.reg (R.ROAD_DEAD i.val)) j.val false)).setBr (32 * i.val + j.val) 5 := by
  unfold Dev.deadRevive
  rw [filter_oneHot, forEach_cons, forEach_nil]
  exact if_neg (by simp [hd])

/-- A dead node's bit cleared, its bridge in RESETX. -/
def Dev.revived (d : Dev) (i j : Nat) : Dev :=
  (d.setReg (R.ROAD_DEAD i) (setBit (d.reg (R.ROAD_DEAD i)) j false)).setBr (32 * i + j) 5

theorem probesOff_revived (h : d.ProbesOff) (i : Fin 2) (j : Fin 32) : (d.revived i.val j.val).ProbesOff := by
  intro k hk
  have hi := i.isLt
  have hj := j.isLt
  rw [← h k hk]
  refine flag_congr ((reg_setBr 5 ?_).trans (reg_setReg_ne d _ ?_))
  all_goals
    simp only [R.ROAD_PRBCFG_EN, R.ROAD_PRBCFG, R.ROAD_DEAD, R.ROAD_BR]
    omega

/-- A node's return leaves every live requester alive. -/
theorem nodeDead_revived {m : Nat} (hm : m < 32) (hd : d.nodeDead m = false) (i : Fin 2) (j : Fin 32) :
    (d.revived i.val j.val).nodeDead m = false := by
  have hbr : R.ROAD_DEAD 0 ≠ R.ROAD_BR (32 * i.val + j.val) := by simp only [R.ROAD_DEAD, R.ROAD_BR]; omega
  unfold Dev.nodeDead at hd ⊢
  rw [Nat.div_eq_of_lt hm, Nat.mod_eq_of_lt hm] at hd ⊢
  rw [Dev.revived, reg_setBr 5 hbr]
  by_cases hi : i.val = 0
  · rw [hi, reg_setReg_same]
    by_cases hjm : m = j.val
    · rw [hjm]
      exact getLsbD_setBit_same _ _ j.isLt
    · rw [getLsbD_setBit_ne _ _ hjm, hd]
  · rw [reg_setReg_ne _ _ (by simp only [R.ROAD_DEAD]; omega), hd]

/-- A dead node whose bit is written 1 comes back through the exchange. -/
theorem run_revive {i : Fin 2} {j : Fin 32} (hw : s.dev.Writes r .road (R.ROAD_DEAD i.val) (BitVec.ofNat 32 (2 ^ j.val)))
    (hd : s.dev.nodeDead (32 * i.val + j.val) = true) :
    s.run (fun d => d.commandWord r (R.ROAD_DEAD i.val) (BitVec.ofNat 32 (2 ^ j.val))) = s.wrote (s.dev.drawn.revived i.val j.val) := by
  have hstart : s.dev.drawn.startWrite (s.dev.who r) .road (R.ROAD_DEAD i.val) (BitVec.ofNat 32 (2 ^ j.val)) =
      s.dev.drawn.revived i.val j.val := (startWrite_dead _ _ i _).trans (deadRevive_oneHot (d := s.dev.drawn) hd)
  have hcarried := hw
  obtain ⟨_, ⟨_, _, _, _, _, _, _, hoff, halive⟩, _⟩ := hcarried
  have hgo := command_register hw (hstart ▸ probesOff_revived (d := s.dev.drawn) hoff i j)
    (hstart ▸ nodeDead_revived (d := s.dev.drawn) (who_node_lt s.dev r) halive i j)
  exact run_eq_after (hgo.trans (by rw [hstart]))

end Commands

/-- Settles O42. That a refused drain of CORE takes its bridges UP again is log entry 39. -/
theorem bridgesAndDeadNodes : Obligations.BridgesAndDeadNodes := by
  unfold Obligations.BridgesAndDeadNodes
  intro s r n d k
  refine ⟨fun hb h2 => ⟨fun hnone howed => ?_, ?_⟩, fun hb hon h3 halive => ?_, fun hb h5 hal howed => ?_, fun hon ht hx => ?_,
    fun hw => ⟨fun hk => run_kill hw hk, fun hk => run_kill_self hw hk⟩, fun hk hd => ⟨nodeDead_declareDead_same hk hd,
      brState_declareDead hk hd, heldAt_declareDead hk hd, fun x hx h => waiting_declareDead hk hd x hx (congrArg BitVec.toNat h),
      fatal_declareDead hk hd⟩, fun i j => fun hw hd => run_revive hw hd⟩
  · have hdrained : d.drainedAt k = true := by
      simp only [Dev.drainedAt, howed, List.isEmpty_nil, Bool.and_true, List.all_eq_true, decide_eq_true_eq]
      exact fun x hx h => hnone x hx (BitVec.eq_of_toNat_eq h)
    refine run_eq_after (f := fun d => d.drainEnd n.toNat) ((if_pos (show (hasBridge k && d.brState k = 2 && d.drainedAt k) = true by
      simp [hb, h2, hdrained])).trans (if_pos hb))
  · refine run_eq_after (f := fun d => d.drainTimeout n.toNat) ((if_pos (show (hasBridge k && d.brState k = 2) = true by
      simp [hb, h2])).trans (congrArg (Dev.raise · 0xD2) ?_))
    change d.abortDown k = _
    unfold Dev.abortDown
    cases nodeDom k with
    | none => rfl
    | some j => exact congrArg (Dev.refuseDown · j) (if_pos hb)
  · exact run_eq_after (f := fun d => if d.domOn 0 && d.brState n.toNat ≠ 3 then d.bridgeReset n.toNat else d)
      ((if_pos (show (d.domOn 0 && d.brState k ≠ 3) = true by simp [hon, h3])).trans
        ((if_neg (show ¬(!hasBridge k || d.nodeDead k) = true by simp [hb, halive])).trans (if_pos hb)))
  · exact run_eq_after (f := fun d => d.resetExchange n.toNat) ((if_pos (show (hasBridge k && d.brState k = 5 && d.nodeAlive k &&
      (d.owedTo k).isEmpty) = true by simp [hb, h5, hal, howed])).trans (if_pos hb))
  · obtain ⟨x, hx, hxn⟩ := hx
    have hany : d.road.waiting.any (fun x => x.node.toNat = n.toNat) = true :=
      List.any_eq_true.mpr ⟨x, hx, decide_eq_true (congrArg BitVec.toNat hxn)⟩
    exact run_eq_after (f := fun d => d.targetTimeout n.toNat) (if_pos (show (d.domOn 0 && d.fld R.ROAD_CTRL_TTMO ≠ 0 &&
      d.road.waiting.any (fun x => x.node.toNat = n.toNat)) = true by simp only [hon, ht, hany, ne_eq, not_false_eq_true, decide_true, Bool.and_self]))

end Sys2Proof.Machine
end

section
/-! Configuration loads of the fabric (R343 to R346, R418). -/

namespace Sys2Proof.Machine

section Begins

variable {d : Dev} {r : Requester} {v : Word} {x : Nat}

/-- What a load clears as it begins, and where it leaves the pins (R344 step 1). -/
def Dev.loadBegins (d : Dev) (f : FabricLoad) : Dev :=
  let t := (((d.setFlag R.BYW_CFGSTAT_BUSY true).setFlag R.BYW_CFGSTAT_CONFLICT false).setFld R.BYW_CFGSTAT_NCONF 0).setFld
    R.BYW_CFGSTAT_FRAME 0
  let t := (((if f.part then t else t.setFlag R.BYW_CFGSTAT_DONE false).stopRegions f.regions).clearFrames f).clearCells f.regions
  let hold := t.fld R.BYW_RGNCTL_PINHOLD
  t.modByw (fun b => { b with
    load := some f, clear := setMask b.clear f.regions true, fullDigest := if f.part then b.fullDigest else [],
    pins := setPins b.pins f.regions (fun k =>
      if f.part && hold.testBit k && b.pins.toList.getD k .safe = .logic then .held else .safe) })

/-- What GO of a load depends on: BUSY, PRINT, the queues of what it loads, and DONE. -/
theorem fabricGo_full_refused (h : d.flag R.BYW_CFGSTAT_BUSY = true ∨ d.mode = 8) (g : BitVec 3) : d.fabricGo false g = d.cfgRefuse 1 := by
  unfold Dev.fabricGo
  exact if_pos (by simpa using h)

theorem fabricGo_full_queue (hb : d.flag R.BYW_CFGSTAT_BUSY = false) (hm : d.mode ≠ 8) (hq : d.anyQueue = true) (g : BitVec 3) :
    d.fabricGo false g = d.cfgRefuse 7 := by
  unfold Dev.fabricGo
  rw [if_neg (by simp [hb, hm])]
  exact if_pos hq

theorem fabricGo_full (hb : d.flag R.BYW_CFGSTAT_BUSY = false) (hm : d.mode ≠ 8) (hq : d.anyQueue = false) (g : BitVec 3) :
    d.fabricGo false g = d.loadBegins { part := false, rgn := g, phase := .reading } := by
  unfold Dev.fabricGo
  rw [if_neg (by simp [hb, hm]), if_neg (by simp [hq])]
  rfl

theorem fabricGo_part_busy (h : d.flag R.BYW_CFGSTAT_BUSY = true) (g : BitVec 3) : d.fabricGo true g = d.cfgRefuse 1 := by
  unfold Dev.fabricGo
  exact if_pos (by simp [h])

theorem fabricGo_part_queue {g : BitVec 3} (hb : d.flag R.BYW_CFGSTAT_BUSY = false)
    (hq : (d.regionQueue g.toNat || d.flag R.BYW_CAPSTAT_ARMED) = true) : d.fabricGo true g = d.cfgRefuse 7 := by
  unfold Dev.fabricGo
  rw [if_neg (by simp [hb])]
  exact if_pos hq

theorem fabricGo_part_undone {g : BitVec 3} (hb : d.flag R.BYW_CFGSTAT_BUSY = false)
    (hq : (d.regionQueue g.toNat || d.flag R.BYW_CAPSTAT_ARMED) = false) (hd : d.flag R.BYW_CFGSTAT_DONE = false) :
    d.fabricGo true g = d.cfgRefuse 8 := by
  unfold Dev.fabricGo
  rw [if_neg (by simp [hb]), if_neg (by simpa using hq)]
  exact if_pos (by simp [hd])

theorem fabricGo_part {g : BitVec 3} (hb : d.flag R.BYW_CFGSTAT_BUSY = false)
    (hq : (d.regionQueue g.toNat || d.flag R.BYW_CAPSTAT_ARMED) = false) (hd : d.flag R.BYW_CFGSTAT_DONE = true) :
    d.fabricGo true g = d.loadBegins { part := true, rgn := g, phase := .reading } := by
  unfold Dev.fabricGo
  rw [if_neg (by simp [hb]), if_neg (by simpa using hq), if_neg (by simp [hd])]
  rfl

theorem reg_stopRegions (ks : List Nat) (h : x ≠ R.BYW_RGNCTL) : (d.stopRegions ks).reg x = d.reg x := by
  unfold Dev.stopRegions
  dsimp only
  split
  · exact reg_setFld_ne d _ h
  · refine (forEach_frame (Dev.reg · x) _ _ (fun d i => ?_)).trans (reg_setFld_ne d _ h)
    split
    · exact (sourceLine_evcOnly d _ false).reg x
    · rfl

theorem reg_loadBegins (f : FabricLoad) (hr : x ≠ R.BYW_RGNCTL) (hs : x ≠ R.BYW_CFGSTAT) : (d.loadBegins f).reg x = d.reg x := by
  have hmod (e : Dev) (g : BywState → BywState) : (e.modByw g).reg x = e.reg x := rfl
  unfold Dev.loadBegins Dev.clearCells Dev.clearFrames
  dsimp only
  rw [hmod, hmod, hmod, reg_stopRegions f.regions hr]
  split
  · exact (reg_setFld_ne _ _ hs).trans ((reg_setFld_ne _ _ hs).trans ((reg_setFlag_ne _ _ hs).trans (reg_setFlag_ne _ _ hs)))
  · exact (reg_setFlag_ne _ _ hs).trans ((reg_setFld_ne _ _ hs).trans ((reg_setFld_ne _ _ hs).trans
      ((reg_setFlag_ne _ _ hs).trans (reg_setFlag_ne _ _ hs))))

theorem reg_cfgRefuse (c : Nat) (hs : x ≠ R.BYW_CFGSTAT) : (d.cfgRefuse c).reg x = d.reg x :=
  (reg_setFld_ne _ _ hs).trans (reg_setFlag_ne _ _ hs)

/-- A write of BYW_CFGCMD leaves every register but its own and its window's CSTAT. -/
theorem reg_fielded_cfgcmd (d : Dev) (r : Requester) (v : Word) (ha : x ≠ R.BYW_CFGCMD) (hs : x ≠ cstatAddr .byw) :
    (d.fielded r .byw R.BYW_CFGCMD v).reg x = d.reg x :=
  reg_plainWrite_noCommit d.drawn _ v (by decide) ha hs

theorem queueOn_fielded_cfgcmd (d : Dev) (r : Requester) (v : Word) {q : Nat} (hq : q < 48) :
    (d.fielded r .byw R.BYW_CFGCMD v).queueOn q = d.queueOn q := by
  refine flag_congr (reg_fielded_cfgcmd d r v ?_ ?_)
  · simp only [R.BYW_QCFG_EN, R.BYW_QCFG, R.BYW_CFGCMD]
    omega
  · simp only [R.BYW_QCFG_EN, R.BYW_QCFG, cstatAddr, blockBase]
    omega

theorem any_eq_of_mem {α : Type} {p q : α → Bool} {l : List α} (h : ∀ x ∈ l, p x = q x) : l.any p = l.any q := by
  rw [Bool.eq_iff_iff, List.any_eq_true, List.any_eq_true]
  exact exists_congr fun x => and_congr_right fun hx => by rw [h x hx]

theorem anyQueue_fielded_cfgcmd (d : Dev) (r : Requester) (v : Word) : (d.fielded r .byw R.BYW_CFGCMD v).anyQueue = d.anyQueue :=
  any_eq_of_mem fun _ hq => queueOn_fielded_cfgcmd d r v (List.mem_range.mp hq)

theorem regionQueue_fielded_cfgcmd (d : Dev) (r : Requester) (v : Word) (g : BitVec 3) :
    (d.fielded r .byw R.BYW_CFGCMD v).regionQueue g.toNat = d.regionQueue g.toNat := by
  have hg := g.isLt
  exact any_eq_of_mem fun i hi => queueOn_fielded_cfgcmd d r v (by have := List.mem_range.mp hi; omega)

theorem startWrite_cfgcmd (d : Dev) (w : Who) (v : Word) (hv : v.getLsbD 0 = true) :
    d.startWrite w .byw R.BYW_CFGCMD v = (d.plainWrite w .byw R.BYW_CFGCMD v).fabricGo (v.getLsbD 1) (BitVec.ofNat 3 (bits v.toNat 5 3)) := by
  unfold Dev.startWrite
  simp only [hv, if_true]

/-- The word of a partial load names its region. -/
theorem partialWord_fields (g : BitVec 3) : (BitVec.ofNat 32 (3 + g.toNat * 8)).getLsbD 0 = true ∧
    (BitVec.ofNat 32 (3 + g.toNat * 8)).getLsbD 1 = true ∧
      BitVec.ofNat 3 (bits (BitVec.ofNat 32 (3 + g.toNat * 8)).toNat 5 3) = g := by
  revert g
  decide +kernel

/-- GO of a load is answered OK, whatever it starts or refuses. -/
theorem run_cfgcmd {s : State} {e : Dev} (hw : s.dev.Writes r .byw R.BYW_CFGCMD v) (hv : v.getLsbD 0 = true)
    (hgo : (s.dev.fielded r .byw R.BYW_CFGCMD v).fabricGo (v.getLsbD 1) (BitVec.ofNat 3 (bits v.toNat 5 3)) = e)
    (he : (∃ c, e = (s.dev.fielded r .byw R.BYW_CFGCMD v).cfgRefuse c) ∨ ∃ f, e = (s.dev.fielded r .byw R.BYW_CFGCMD v).loadBegins f) :
    s.run (fun d => d.commandWord r R.BYW_CFGCMD v) = s.wrote e := by
  refine run_commandWord hw ((startWrite_cfgcmd _ _ v hv).trans hgo) fun x hx => ?_
  have hlt : x ≠ R.BYW_CFGCMD ∧ x ≠ cstatAddr .byw ∧ x ≠ R.BYW_CFGSTAT ∧ x ≠ R.BYW_RGNCTL := by
    revert x
    decide
  obtain ⟨hcmd, hcst, hstat, hrgn⟩ := hlt
  have hreg := reg_fielded_cfgcmd s.dev r v hcmd hcst
  obtain ⟨c, rfl⟩ | ⟨f, rfl⟩ := he
  · exact (reg_cfgRefuse c hstat).trans hreg
  · exact (reg_loadBegins f hrgn hstat).trans hreg

end Begins

section Ends

variable {d : Dev} {f : FabricLoad}

theorem setMask_getLsbD (m : BitVec 8) (ks : List Nat) {k : Nat} (hk : k < 8) :
    (setMask m ks true).getLsbD k = (decide (k ∈ ks) || m.getLsbD k) := by
  induction ks generalizing m with
  | nil => rfl
  | cons j ks ih =>
    have hstep : setMask m (j :: ks) true = setMask (setBit m j true) ks true := rfl
    rw [hstep, ih]
    by_cases hj : k = j
    · subst hj
      simp [getLsbD_setBit_same _ _ hk]
    · simp [getLsbD_setBit_ne _ _ hj, hj]

variable {a b : Nat} {hl sl : List Byte} {bad : Bool} {e e' : Dev} {seen : List (List Byte)}

theorem framesRead_noStream (hf : d.byw.load = some f) (hp : f.phase = .reading) (hs : d.streamOff 0 64 = none) (ok : Bool) :
    d.framesRead ok = d.loadFails f 2 := by
  unfold Dev.framesRead
  simp only [hf, hp, hs, ne_eq, not_true_eq_false, if_false]

/-- The header cannot be read, or the road answers with an error. -/
theorem framesRead_noHeader (hf : d.byw.load = some f) (hp : f.phase = .reading) (hs : d.streamOff 0 64 = some a)
    (hx : d.galRead a 64 = (hl, bad, e)) {ok : Bool} (h : (bad || !ok) = true) : d.framesRead ok = e.loadFails f 2 := by
  unfold Dev.framesRead
  simp only [hf, hp, hs, hx, h, ne_eq, not_true_eq_false, if_false, if_true]

theorem framesRead_mismatch (hf : d.byw.load = some f) (hp : f.phase = .reading) (hs : d.streamOff 0 64 = some a)
    (hx : d.galRead a 64 = (hl, false, e)) (hm : e.headerMatches f (parseHeader hl) = false) : d.framesRead true = e.loadFails f 3 := by
  unfold Dev.framesRead
  simp only [hf, hp, hs, hx, hm, ne_eq, not_true_eq_false, if_false, Bool.not_true, Bool.or_self, Bool.false_eq_true, Bool.not_false, if_true]

theorem framesRead_badFrame (hf : d.byw.load = some f) (hp : f.phase = .reading) (hs : d.streamOff 0 64 = some a)
    (hx : d.galRead a 64 = (hl, false, e)) (hm : e.headerMatches f (parseHeader hl) = true) {c : Nat}
    (hr : e.readFrames (f.addrs.mapIdx (fun i a => (i, a))) = (.error c, e')) : d.framesRead true = e'.loadFails f c := by
  unfold Dev.framesRead
  simp only [hf, hp, hs, hx, hm, hr, ne_eq, not_true_eq_false, if_false, Bool.not_true, Bool.or_self, Bool.false_eq_true]

/-- The frames are good and the signature has been read: the security engine verifies it (R344 step 4). -/
theorem framesRead_good (hf : d.byw.load = some f) (hp : f.phase = .reading) (hs : d.streamOff 0 64 = some a)
    (hx : d.galRead a 64 = (hl, false, e)) (hm : e.headerMatches f (parseHeader hl) = true)
    (hr : e.readFrames (f.addrs.mapIdx (fun i a => (i, a))) = (.ok seen, e')) (hb : e'.streamOff (64 + 264 * f.addrs.length) 3136 = some b)
    {t : Dev} (hsig : e'.galRead b 3136 = (sl, false, t)) :
    d.framesRead true = (t.modByw (fun y => { y with
      load := some { f with phase := .verifying, slot := (parseHeader hl).slot, sig := parseSig sl },
      fullDigest := if f.part then y.fullDigest
        else (List.range 32).map (Config.shake256 (hl ++ seen.reverse.flatten)) })).verifyRequest .fabric := by
  unfold Dev.framesRead
  simp only [hf, hp, hs, hx, hm, hr, hb, hsig, ne_eq, not_true_eq_false, if_false, Bool.not_true, Bool.or_self, Bool.false_eq_true]

theorem fabricVerified_eq (hf : d.byw.load = some f) (hp : f.phase = .verifying) (hv : d.verifyFirst .fabric = true) (v : Verdict) :
    d.fabricVerified v =
      if !d.verifyEnd.keyOk (if f.part then 5 else 4) f.slot then d.verifyEnd.loadFails f 9
      else if v ≠ .pass || !f.sig.ok then d.verifyEnd.loadFails f 6
      else (d.verifyEnd.startCells f.regions).modByw (fun b => { b with
        load := some { f with phase := .starting },
        clear := setMask b.clear (f.regions.filter (fun k => d.verifyEnd.flag (R.BYW_CLK_EN k))) false }) := by
  unfold Dev.fabricVerified
  simp only [hf, hp, hv, ne_eq, not_true_eq_false, decide_false, Bool.not_true, Bool.or_self, Bool.false_eq_true, if_false]

/-- The end of a verification leaves the registers outside the security engine. -/
theorem reg_verifyEnd {x : Nat} (h : x ≠ R.SEC_STAT) : d.verifyEnd.reg x = d.reg x :=
  (reg_raise _ _ _).trans ((reg_setFlag_ne _ _ h).trans (reg_setFld_ne _ _ h))

/-- What is running once the outputs are enabled (R345 steps 3 and 4), before its event. -/
def Dev.fabricEnabled (d : Dev) (f : FabricLoad) : Dev :=
  let d := d.modByw (fun b => { b with load := none, pins := setPins b.pins f.regions (fun _ => .logic) })
  let d := d.setFld R.BYW_RGNCTL_RUN (setMask (BitVec.ofNat 8 (d.fld R.BYW_RGNCTL_RUN)) f.regions true).toNat
  let d := if f.part then d else d.setFlag R.BYW_CFGSTAT_DONE true
  d.setFlag R.BYW_CFGSTAT_BUSY false

theorem fabricStart_eq (hf : d.byw.load = some f) (hp : f.phase = .starting) : d.fabricStart = (d.fabricEnabled f).raise 0xD4 := by
  unfold Dev.fabricStart
  simp only [hf, hp, ne_eq, not_true_eq_false, if_false]
  rfl

theorem byw_fabricEnabled (d : Dev) (f : FabricLoad) :
    (d.fabricEnabled f).byw = { d.byw with load := none, pins := setPins d.byw.pins f.regions (fun _ => .logic) } := by
  unfold Dev.fabricEnabled
  dsimp only
  split <;> rfl

theorem byw_raise (d : Dev) (n : Nat) : (d.raise n).byw = d.byw := (congrArg Dev.byw (raise_evcOnly d n)).trans rfl

theorem done_fabricEnabled (d : Dev) (f : FabricLoad) :
    (d.fabricEnabled f).flag R.BYW_CFGSTAT_DONE = (!f.part || d.flag R.BYW_CFGSTAT_DONE) := by
  refine (flag_setFld_other _ _ _ _ (by decide) (by decide)).trans ?_
  cases f.part
  · exact flag_setFlag_same _ _ _ (by decide) rfl
  · exact flag_setFld_other _ _ _ _ (by decide) (by decide)

/-- A region runs when its outputs are enabled, or when it ran. -/
theorem run_fabricEnabled (d : Dev) (f : FabricLoad) {k : Nat} (hk : k < 8) :
    ((d.fabricEnabled f).fld R.BYW_RGNCTL_RUN).testBit k = (decide (k ∈ f.regions) || (d.fld R.BYW_RGNCTL_RUN).testBit k) := by
  have hrun : (d.fabricEnabled f).fld R.BYW_RGNCTL_RUN = (setMask (BitVec.ofNat 8 (d.fld R.BYW_RGNCTL_RUN)) f.regions true).toNat := by
    refine (fld_setFld_other _ _ _ _ (by decide) (by decide)).trans ?_
    have hsame (e : Dev) (m : BitVec 8) : (e.setFld R.BYW_RGNCTL_RUN m.toNat).fld R.BYW_RGNCTL_RUN = m.toNat :=
      (fld_setFld_same _ _ _ (by decide)).trans (Nat.mod_eq_of_lt m.isLt)
    split
    · exact hsame _ _
    · exact (fld_setFld_other _ _ _ _ (by decide) (by decide)).trans (hsame _ _)
  have hbit := setMask_getLsbD (BitVec.ofNat 8 (d.fld R.BYW_RGNCTL_RUN)) f.regions hk
  rw [hrun, BitVec.testBit_toNat, hbit, BitVec.getLsbD_ofNat]
  simp [hk]

end Ends

/-- Settles O43. That CFGSTAT.FRAME is left by the causes other than 4 and 5 as the load's begin sets it is log entry 70. -/
theorem fabricLoads : Obligations.FabricLoads := by
  unfold Obligations.FabricLoads
  intro s r d begins fails
  have hbegins (t : Dev) (f : FabricLoad) : begins t f = t.loadBegins f := rfl
  have hfails (t : Dev) (f : FabricLoad) (c : Nat) : fails t f c = t.loadFails f c := rfl
  refine ⟨?full, ?region, fun f hf hp => ⟨fun hs ok => ?_, fun a hs => ?read⟩, fun f hf hp hv => ?verify, fun f hf hp => ?start⟩
  case full =>
    intro t hw
    have hstat : t.flag R.BYW_CFGSTAT_BUSY = d.flag R.BYW_CFGSTAT_BUSY := flag_congr (reg_fielded_cfgcmd d r 1 (by decide) (by decide))
    have hmode : t.mode = d.mode := fld_congr (f := R.PWR_MSTAT_MODE) (reg_fielded_cfgcmd d r 1 (by decide) (by decide))
    have hqueue : t.anyQueue = d.anyQueue := anyQueue_fielded_cfgcmd d r 1
    refine ⟨fun h => ?_, fun hb hm => ⟨fun hq => ?_, fun hq => ?_⟩⟩
    · exact run_cfgcmd hw (by decide) (fabricGo_full_refused (by rwa [hstat, hmode]) _) (.inl ⟨1, rfl⟩)
    · exact run_cfgcmd hw (by decide) (fabricGo_full_queue (hstat.trans hb) (hmode ▸ hm) (hqueue.trans hq) _) (.inl ⟨7, rfl⟩)
    · exact run_cfgcmd hw (by decide) (fabricGo_full (hstat.trans hb) (hmode ▸ hm) (hqueue.trans hq) _) (.inr ⟨_, rfl⟩)
  case region =>
    intro g v t hw
    obtain ⟨hgo, hpart, hrgn⟩ := partialWord_fields g
    have hreg {x : Nat} (ha : x ≠ R.BYW_CFGCMD) (hs : x ≠ cstatAddr .byw) : t.reg x = d.reg x := reg_fielded_cfgcmd d r v ha hs
    have hbusy : t.flag R.BYW_CFGSTAT_BUSY = d.flag R.BYW_CFGSTAT_BUSY := flag_congr (hreg (by decide) (by decide))
    have hdone : t.flag R.BYW_CFGSTAT_DONE = d.flag R.BYW_CFGSTAT_DONE := flag_congr (hreg (by decide) (by decide))
    have hqueue : (t.regionQueue g.toNat || t.flag R.BYW_CAPSTAT_ARMED) = (d.regionQueue g.toNat || d.flag R.BYW_CAPSTAT_ARMED) := by
      rw [regionQueue_fielded_cfgcmd d r v g, flag_congr (hreg (by decide) (by decide))]
    have hload {e : Dev} (h : t.fabricGo true g = e) : t.fabricGo (v.getLsbD 1) (BitVec.ofNat 3 (bits v.toNat 5 3)) = e := by
      rwa [hpart, hrgn]
    refine ⟨fun hb => ?_, fun hb => ⟨fun hq => ?_, fun hq => ⟨fun hd => ?_, fun hd => ?_⟩⟩⟩
    · exact run_cfgcmd hw hgo (hload (fabricGo_part_busy (hbusy.trans hb) g)) (.inl ⟨1, rfl⟩)
    · exact run_cfgcmd hw hgo (hload (fabricGo_part_queue (hbusy.trans hb) (hqueue.trans hq))) (.inl ⟨7, rfl⟩)
    · exact run_cfgcmd hw hgo (hload (fabricGo_part_undone (hbusy.trans hb) (hqueue.trans hq) (hdone.trans hd))) (.inl ⟨8, rfl⟩)
    · exact run_cfgcmd hw hgo (hload (fabricGo_part (hbusy.trans hb) (hqueue.trans hq) (hdone.trans hd))) (.inr ⟨_, rfl⟩)
  · exact run_eq_after (f := fun d => d.framesRead ok) (framesRead_noStream hf hp hs ok)
  case read =>
    intro x h
    obtain ⟨hl, bad, e, hx⟩ : ∃ hl bad e, d.galRead a 64 = (hl, bad, e) := ⟨_, _, _, rfl⟩
    have hxe : x = (hl, bad, e) := hx
    clear_value x
    subst hxe
    refine ⟨?_, fun hbad => ?_, fun hbad => ?_⟩
    · exact run_eq_after (f := fun d => d.framesRead false) (framesRead_noHeader hf hp hs hx (by simp))
    all_goals
      replace hbad : bad = _ := hbad
      subst hbad
    · exact run_eq_after (f := fun d => d.framesRead true) (framesRead_noHeader hf hp hs hx rfl)
    · refine ⟨fun hm => ?_, fun hm => ⟨fun c t hr => ?_, fun seen t b hr hb hsig => ?_⟩⟩
      · exact run_eq_after (f := fun d => d.framesRead true) (framesRead_mismatch hf hp hs hx hm)
      · exact run_eq_after (f := fun d => d.framesRead true) (framesRead_badFrame hf hp hs hx hm hr)
      · exact run_eq_after (f := fun d => d.framesRead true)
          (framesRead_good hf hp hs hx hm hr hb (sl := (t.galRead b 3136).1) (t := (t.galRead b 3136).2.2) (by rw [← hsig]))
  case verify =>
    intro e
    have heq := fabricVerified_eq hf hp hv
    refine ⟨fun hk v => ?_, fun hk => ⟨fun v hne => ?_, fun hsig => ?_, fun hsig => ?_⟩⟩
    · exact run_eq_after (f := fun d => d.fabricVerified v) ((heq v).trans (if_pos (by rw [hk]; rfl)))
    all_goals refine run_eq_after (f := fun d => d.fabricVerified _) ((heq _).trans ((if_neg (by rw [hk]; decide)).trans ?_))
    · exact if_pos (by simp [hne])
    · exact if_pos (by simp [hsig])
    · have hrun : f.regions.filter (fun k => e.flag (R.BYW_CLK_EN k)) = f.regions.filter (fun k => d.flag (R.BYW_CLK_EN k)) := by
        refine List.filter_congr fun k _ => flag_congr (reg_verifyEnd ?_)
        simp only [R.BYW_CLK_EN, R.BYW_CLK, R.SEC_STAT]
        omega
      exact (if_neg (by simp [hsig])).trans (by rw [hrun])
  case start =>
    have hstart : exec .fabricOutputsEnable s = s.after ((d.fabricEnabled f).raise 0xD4) :=
      run_eq_after (f := Dev.fabricStart) (fabricStart_eq hf hp)
    refine ⟨_, hstart, ?_, ?_, ?_, ?_, fun k hk => ?_⟩
    · rw [byw_raise, byw_fabricEnabled]
    · rw [byw_raise, byw_fabricEnabled]
    · exact (flag_congr (reg_raise _ _ _)).trans (flag_setFlag_same _ _ _ (by decide) rfl)
    · exact (flag_congr (reg_raise _ _ _)).trans (done_fabricEnabled d f)
    · rw [fld_congr (reg_raise _ _ _)]
      exact run_fabricEnabled d f hk

end Sys2Proof.Machine
end

section
/-! The fabric's queue controllers, capture and requests (R347 to R352, R355, R356). -/

namespace Sys2Proof.Machine

section Queues

variable {d : Dev} {q : Fin 48}

/-- The queue's state as a line begins. -/
def BywQueue.lineBegun (x : BywQueue) (blank : Bool) : BywQueue :=
  { x with line := some x.next, blank := blank, pos := 0, part := 0, parts := 0, words := 0, blocks := [] }

theorem queueBegin_copied (hon : d.queueOn q.val = true) (hl : (d.bq q).line = none) (hc : (d.bq q).next < d.lead.copied)
    (hlate : (d.bq q).next ∉ d.lead.late) (he : d.queueEntries q.val ≠ []) :
    d.queueBegin q = d.setBq q ((d.bq q).lineBegun false) := by
  have hcont : d.lead.late.contains (d.bq q).next = false := by simpa using hlate
  have hne : (d.queueEntries q.val).isEmpty = false := by simpa using he
  unfold Dev.queueBegin
  dsimp only
  rw [if_neg (by simp [hon, hl]), hcont, if_neg (by simp [hc]), if_neg Bool.false_ne_true]
  exact if_neg (by rw [show (d.setBq q _).queueEntries q.val = d.queueEntries q.val from rfl, hne]; decide)

theorem queueBegin_late (hon : d.queueOn q.val = true) (hl : (d.bq q).line = none) (hlate : (d.bq q).next ∈ d.lead.late) :
    d.queueBegin q = (d.setBq q ((d.bq q).lineBegun true)).blankFill q := by
  have hcont : d.lead.late.contains (d.bq q).next = true := by simpa using hlate
  unfold Dev.queueBegin
  dsimp only
  rw [if_neg (by simp [hon, hl]), hcont, if_neg (by simp)]
  exact if_pos rfl

/-- A queue that has taken the code at a position from its block. -/
def Dev.codeTaken (d : Dev) (q : Nat) (x : BywQueue) (p : Nat) (last : Bool) (e : Nat × Nat × List Byte) : BywQueue :=
  let v := setBits x.part (2 * x.parts + 1) (2 * x.parts) (codeIn (d.codePlace p).2.2 e.2.2)
  if x.parts = 15 || last
    then { x with pos := x.pos + 1, part := 0, parts := 0, words := x.words + 1, fifo := x.fifo ++ [d.queueWord q x.words v false] }
    else { x with pos := x.pos + 1, part := v, parts := x.parts + 1 }

theorem takeCodes_cons (d : Dev) (q : Nat) (x : BywQueue) (p : Nat) (last : Bool) (l : List (Nat × Bool)) :
    d.takeCodes q x ((p, last) :: l) =
      match x.blocks.find? (fun e => e.1 = (d.codeBlock p).1 && e.2.1 = (d.codeBlock p).2) with
      | none => x
      | some e => d.takeCodes q (d.codeTaken q x p last e) l := by
  rw [Dev.takeCodes]
  generalize d.codeBlock p = cb
  obtain ⟨t, b⟩ := cb
  rfl

theorem codeTaken_pos (d : Dev) (q : Nat) (x : BywQueue) (p : Nat) (last : Bool) (e : Nat × Nat × List Byte) :
    (d.codeTaken q x p last e).pos = x.pos + 1 := by
  unfold Dev.codeTaken
  dsimp only
  split <;> rfl

/-- Taking codes never goes back. -/
theorem takeCodes_pos_le (d : Dev) (q : Nat) (x : BywQueue) (l : List (Nat × Bool)) : x.pos ≤ (d.takeCodes q x l).pos := by
  induction l generalizing x with
  | nil => exact le_refl _
  | cons e l ih =>
    obtain ⟨p, last⟩ := e
    rw [takeCodes_cons]
    generalize x.blocks.find? _ = found
    cases found with
    | none => exact le_refl _
    | some e => exact le_trans (by rw [codeTaken_pos]; exact Nat.le_succ _) (ih (d.codeTaken q x p last e))

/-- A code whose block is there is taken. -/
theorem takeCodes_pos_lt (d : Dev) (q : Nat) (x : BywQueue) (p : Nat) (last : Bool) (l : List (Nat × Bool)) {e : Nat × Nat × List Byte}
    (he : x.blocks.find? (fun e => e.1 = (d.codeBlock p).1 && e.2.1 = (d.codeBlock p).2) = some e) :
    x.pos < (d.takeCodes q x ((p, last) :: l)).pos := by
  have hpos := codeTaken_pos d q x p last e
  rw [takeCodes_cons, he]
  exact Nat.lt_of_lt_of_le (hpos ▸ Nat.lt_succ_self x.pos) (takeCodes_pos_le d q _ l)

theorem find?_block (t b : Nat) (bytes : List Byte) (l : List (Nat × Nat × List Byte)) :
    ((t, b, bytes) :: l).find? (fun e => e.1 = t && e.2.1 = b) = some (t, b, bytes) := by
  simp

/-- The queue with the block of a position as a gather read delivers it (R350, R351). -/
def Dev.delivered (d : Dev) (x : BywQueue) (k p : Nat) : BywQueue :=
  { x with blocks := ((d.codeBlock p).1, (d.codeBlock p).2, (d.galRead (d.slotOff k + (d.codeBlock p).2) 64).1) ::
    x.blocks.filter (fun e => e.1 ≠ (d.codeBlock p).1) }

section Gather

variable {k p : Nat} {last : Bool} {l : List (Nat × Bool)} {y : BywQueue}

/-- The code whose block has been delivered is taken. -/
theorem pos_lt_of_delivered (hy : d.takeCodes q.val (d.delivered (d.bq q) k p) ((p, last) :: l) = y) : (d.bq q).pos < y.pos :=
  hy ▸ takeCodes_pos_lt d q.val (d.delivered (d.bq q) k p) p last l (find?_block _ _ _ _)

/-- A gather read delivers its block, and the line ends with its last position (R351). -/
theorem gatherRead_eq (hon : d.queueOn q.val = true) (hl : (d.bq q).line = some k) (hb : (d.bq q).blank = false)
    (hp : (d.queuePositions q.val).drop (d.bq q).pos = (p, last) :: l)
    (hy : d.takeCodes q.val (d.delivered (d.bq q) k p) ((p, last) :: l) = y) (hroom : y.fifo.length ≤ 1024) :
    d.gatherRead q =
      if (d.queuePositions q.val).length ≤ y.pos
      then ((d.galRead (d.slotOff k + (d.codeBlock p).2) 64).2.2.setBq q y).finishLine q k
      else (d.galRead (d.slotOff k + (d.codeBlock p).2) 64).2.2.setBq q y := by
  have hrun : ¬(!d.queueOn q.val || (d.bq q).blank) = true := by rw [hon, hb]; decide
  have hsame {k' p' : Nat} {last' : Bool} {r : List (Nat × Bool)} (hk : (d.bq q).line = some k')
      (hcons : (d.queuePositions q.val).drop (d.bq q).pos = (p', last') :: r) : k' = k ∧ p' = p ∧ last' = last ∧ r = l := by
    simpa [hl, hp, eq_comm, and_assoc] using And.intro hk hcons
  fun_cases Dev.gatherRead d q with
  | case1 x hnone => exact absurd (hl.symm.trans hnone) (Option.some_ne_none k)
  | case2 x k' hk hoff => exact absurd hoff hrun
  | case3 x k' hk hon' all hnil => exact absurd (hp.symm.trans hnil) (List.cons_ne_nil _ _)
  | case4 x k' hk hon' all p' last' r hcons n t hblock bytes bad e hread y' hfull =>
    obtain ⟨rfl, rfl, rfl, rfl⟩ := hsame hk hcons
    have hy' : y' = y := by rw [← hy, Dev.delivered, hblock, hread]
    exact absurd hroom (Nat.not_le.mpr (hy' ▸ hfull))
  | case5 x k' hk hon' all p' last' r hcons n t hblock bytes bad e hread y' hfit e' hend =>
    obtain ⟨rfl, rfl, rfl, rfl⟩ := hsame hk hcons
    have hy' : y' = y := by rw [← hy, Dev.delivered, hblock, hread]
    rw [if_pos (hy' ▸ hend), hblock, hread, ← hy']
  | case6 x k' hk hon' all p' last' r hcons n t hblock bytes bad e hread y' hfit e' hend =>
    obtain ⟨rfl, rfl, rfl, rfl⟩ := hsame hk hcons
    have hy' : y' = y := by rw [← hy, Dev.delivered, hblock, hread]
    rw [if_neg (hy' ▸ hend), hblock, hread, ← hy']

end Gather

theorem queuePop_eq (hon : d.queueOn q.val = true) (hrun : d.treeRuns (d.fld (R.BYW_QCFG_QCLK q.val)) = true) :
    d.queuePop q = (d.setBq q { (d.bq q) with fifo := (d.bq q).fifo.drop 1 }).blankFill q := by
  unfold Dev.queuePop
  exact if_neg (by simp [hon, hrun])

theorem bq_setBq_same (d : Dev) (q : Fin 48) (x : BywQueue) : (d.setBq q x).bq q = x := Vector.getElem_set_self _

/-- A queue whose line is not blank has no blanks to fill in. -/
theorem blankFill_of_not_blank (hb : (d.bq q).blank = false) : d.blankFill q = d := by
  unfold Dev.blankFill
  dsimp only
  split
  · rfl
  · exact if_pos (by simp [hb])

end Queues

section Capture

variable {d : Dev} {r : Requester} {s : State} {x : Nat}

theorem startWrite_capctl (d : Dev) (w : Who) (v : Word) :
    d.startWrite w .byw R.BYW_CAPCTL v =
      if v.getLsbD 30 then (if v.getLsbD 31 then (d.plainWrite w .byw R.BYW_CAPCTL v).captureArm
        else d.plainWrite w .byw R.BYW_CAPCTL v).captureResume
      else if v.getLsbD 31 then (d.plainWrite w .byw R.BYW_CAPCTL v).captureArm else d.plainWrite w .byw R.BYW_CAPCTL v := by
  have hne : R.BYW_CAPCTL ≠ R.BYW_CFGCMD := by decide
  unfold Dev.startWrite
  dsimp only
  rw [if_neg hne, if_pos rfl]

theorem reg_fielded_capctl (d : Dev) (r : Requester) (v : Word) (ha : x ≠ R.BYW_CAPCTL) (hs : x ≠ cstatAddr .byw) :
    (d.fielded r .byw R.BYW_CAPCTL v).reg x = d.reg x :=
  reg_plainWrite_noCommit d.drawn _ v (by decide) ha hs

/-- The response's registers are none of the capture's. -/
theorem responseRegs_ne_capture : ∀ x ∈ responseRegs, x ≠ R.BYW_CAPCTL ∧ x ≠ cstatAddr .byw ∧ x ≠ R.BYW_CAPSTAT ∧ x ≠ R.BYW_RBADDR ∧
    x ≠ R.BYW_RBDATA := by
  decide

theorem captureArm_eq (d : Dev) : d.captureArm =
    if d.flag R.BYW_CFGSTAT_BUSY || d.flag R.BYW_CAPSTAT_ARMED then d.setFlag R.BYW_CAPSTAT_ERR true
    else (d.modByw (fun b => { b with struck := false })).setFlag R.BYW_CAPSTAT_ARMED true := rfl

theorem reg_captureArm (hx : x ≠ R.BYW_CAPSTAT) : d.captureArm.reg x = d.reg x := by
  rw [captureArm_eq]
  split
  · exact reg_setFlag_ne _ _ hx
  · exact reg_setFlag_ne _ _ hx

/-- A command that sets one bit of a register writes the word that the register has at its start. -/
theorem run_regWith (s : State) (r : Requester) (a n : Nat) :
    s.run (fun d => d.commandWord r a (d.regWith a n)) = s.run (fun d => d.commandWord r a (setBit (s.dev.reg a) n true)) :=
  (run_eq_after (f := fun d => d.commandWord r a (d.regWith a n)) rfl).trans
    (run_eq_after (f := fun d => d.commandWord r a (setBit (s.dev.reg a) n true)) rfl).symm

theorem run_captureArm (h30 : (s.dev.reg R.BYW_CAPCTL).getLsbD 30 = false)
    (hw : s.dev.Writes r .byw R.BYW_CAPCTL (setBit (s.dev.reg R.BYW_CAPCTL) 31 true)) :
    exec (.captureArm r) s =
      s.wrote (s.dev.fielded r .byw R.BYW_CAPCTL (setBit (s.dev.reg R.BYW_CAPCTL) 31 true)).captureArm := by
  have h31 : (setBit (s.dev.reg R.BYW_CAPCTL) 31 true).getLsbD 31 = true := getLsbD_setBit_same _ _ (by decide)
  have h30' : (setBit (s.dev.reg R.BYW_CAPCTL) 31 true).getLsbD 30 = false := (getLsbD_setBit_ne _ _ (by decide)).trans h30
  refine (run_regWith s r R.BYW_CAPCTL 31).trans (run_commandWord hw ((startWrite_capctl _ _ _).trans ((if_neg (by rw [h30']; decide)).trans (if_pos h31))) fun x hx => ?_)
  obtain ⟨hctl, hcst, hstat, _, _⟩ := responseRegs_ne_capture x hx
  exact (reg_captureArm hstat).trans (reg_fielded_capctl _ r _ hctl hcst)

theorem run_captureResume (h31 : (s.dev.reg R.BYW_CAPCTL).getLsbD 31 = false)
    (hw : s.dev.Writes r .byw R.BYW_CAPCTL (setBit (s.dev.reg R.BYW_CAPCTL) 30 true)) :
    exec (.captureResume r) s =
      s.wrote ((s.dev.fielded r .byw R.BYW_CAPCTL (setBit (s.dev.reg R.BYW_CAPCTL) 30 true)).setFlag R.BYW_CAPSTAT_STOPPED false) := by
  have h30 : (setBit (s.dev.reg R.BYW_CAPCTL) 30 true).getLsbD 30 = true := getLsbD_setBit_same _ _ (by decide)
  have h31' : (setBit (s.dev.reg R.BYW_CAPCTL) 30 true).getLsbD 31 = false := (getLsbD_setBit_ne _ _ (by decide)).trans h31
  refine (run_regWith s r R.BYW_CAPCTL 30).trans (run_commandWord hw ((startWrite_capctl _ _ _).trans ((if_pos h30).trans
    (congrArg Dev.captureResume (if_neg (by rw [h31']; decide))))) fun x hx => ?_)
  obtain ⟨hctl, hcst, hstat, _, _⟩ := responseRegs_ne_capture x hx
  exact (reg_setFlag_ne _ _ hstat).trans (reg_fielded_capctl _ r _ hctl hcst)

/-- A capture is due when it is armed, its tree runs and its trigger has come. -/
theorem captureDue_of (ha : d.flag R.BYW_CAPSTAT_ARMED = true) (hrun : d.treeRuns (d.fld R.BYW_CAPCTL_CLK) = true)
    (ht : d.fld R.BYW_CAPCTL_TRIG = 0 ∨ d.fld R.BYW_CAPCTL_TRIG = 1 ∧ d.byw.struck = true ∨ d.fld R.BYW_CAPCTL_TRIG = 2) :
    d.captureDue = true := by
  unfold Dev.captureDue
  rw [ha, hrun]
  obtain h | ⟨h, hstruck⟩ | h := ht
  · rw [h]; rfl
  · rw [h]; exact hstruck
  · rw [h]; rfl

/-- The capture's words: the flip-flops, and a word for every queue. -/
def Dev.captureKept (d : Dev) : Dev :=
  ((d.modByw (fun b => { b with capture := d.flopWords ++ (List.finRange 48).map d.captureQueue })).setFlag
    R.BYW_CAPSTAT_ARMED false).setFlag R.BYW_CAPSTAT_TAKEN true

theorem captureTake_due (h : d.captureDue = true) (ffs : List Word) :
    d.captureTake ffs = (if d.flag R.BYW_CAPCTL_STOP then (d.setFlops ffs).captureKept.setFlag R.BYW_CAPSTAT_STOPPED true
      else (d.setFlops ffs).captureKept).raise 0xD5 := by
  have hstop : (d.setFlops ffs).captureKept.flag R.BYW_CAPCTL_STOP = d.flag R.BYW_CAPCTL_STOP :=
    flag_congr ((reg_setFlag_ne _ _ (by decide)).trans (reg_setFlag_ne _ _ (by decide)))
  rw [← hstop]
  unfold Dev.captureTake
  exact if_neg (by rw [h]; decide)

/-- A read of BYW_RBDATA takes the word that BYW_RBADDR names, and moves it on. -/
theorem captureRead_word {w : Word} (hw : d.byw.capture[d.fld R.BYW_RBADDR_WORD]? = some w) :
    d.captureRead = (w, (d.setFld R.BYW_RBADDR_WORD ((d.fld R.BYW_RBADDR_WORD + 1) % 2 ^ 16)).setReg R.BYW_RBDATA w) := by
  unfold Dev.captureRead
  dsimp only
  rw [show (d.setFld R.BYW_RBADDR_WORD _).byw = d.byw from rfl, hw]

theorem readCommand_rbdata {w : Word} (hc : d.Carries (d.who r) 0x0B) (hq : d.road.asked = [])
    (hlevel : ¬d.debugLevel < levelNeeded (d.who r) .byw R.BYW_RBDATA) (hw : d.byw.capture[d.fld R.BYW_RBADDR_WORD]? = some w) :
    d.readCommand r R.BYW_RBDATA =
      ((d.drawn.setFld R.BYW_RBADDR_WORD ((d.fld R.BYW_RBADDR_WORD + 1) % 2 ^ 16)).setReg R.BYW_RBDATA w).respond 0
        (leBytes 4 w.toNat) := by
  have hword := captureRead_word (d := d.drawn) hw
  have hread : d.drawn.regRead (d.who r) .byw (R.BYW_RBDATA - blockBase .byw) = (0, w, d.drawn.captureRead.2) := by
    unfold Dev.regRead
    dsimp only
    rw [if_neg (by exact hlevel), if_pos (by decide), hword]
  have hpl : d.place R.BYW_RBDATA = some (.window .byw (R.BYW_RBDATA - blockBase .byw)) := rfl
  have hn : nodeOfAddr d.chipId R.BYW_RBDATA = some 0x0B := rfl
  have hk : ∀ x ∈ responseRegs, d.drawn.captureRead.2.reg x = d.reg x := by
    intro x hx
    obtain ⟨_, _, _, haddr, hdata⟩ := responseRegs_ne_capture x hx
    rw [hword]
    exact (reg_setReg_ne _ _ hdata).trans (reg_setFld_ne _ _ haddr)
  unfold Dev.readCommand
  dsimp only
  rw [read_register hc hn hpl (by decide) (by decide) hq hread hk (who_node_lt d _), hword]
  rfl

end Capture

section Requests

variable {d : Dev} {p : Packet} {node : Nat}

/-- A packet of the fabric's logic: of node 0x0B, without attributes (R356). -/
def fabricPacket (p : Packet) : Packet := { p with src := 0x0B, sys := false, sec := false }

theorem tidBusy_of_tidOk (h : d.tidOk .rd p = true) : d.tidBusy p.tid.toNat = false := by
  unfold Dev.tidOk at h
  simp only [PacketKind.answered, Bool.not_true, Bool.false_or, Bool.and_eq_true, Bool.not_eq_true'] at h
  exact h.2

theorem tidBusy_sendResp (d : Dev) (x : OpenReq) : (d.sendResp x).tidBusy x.tid.toNat = true := by
  simp [Dev.tidBusy, Dev.sendResp]

/-- A request of the logic that is served with a response keeps its TID among those asked. -/
theorem fabricRequest_served {write : Bool} {e : Dev} {x : OpenReq} (hon : d.domOn 1 = true) (hrun : d.fld R.BYW_RGNCTL_RUN ≠ 0)
    (htid : d.tidBusy p.tid.toNat = false) (hserved : d.request (if write then .wr else .rd) (fabricPacket p) = e.sendResp x)
    (hx : x.tid = p.tid) :
    d.fabricRequest write p = (e.sendResp x).modByw (fun b => { b with req := b.req ++ [p.tid] }) := by
  unfold Dev.fabricRequest
  rw [if_neg (by simp [hon, hrun, htid])]
  have hbusy : (e.sendResp x).tidBusy p.tid.toNat = true := hx ▸ tidBusy_sendResp e x
  change (if (d.request (if write then .wr else .rd) (fabricPacket p)).tidBusy p.tid.toNat then
    (d.request (if write then .wr else .rd) (fabricPacket p)).modByw _ else _) = _
  rw [hserved, if_pos hbusy]

end Requests

/-- Settles O44. That a capture is the flip-flops' words and then a word for every queue, and that trigger 2 is the row of the capture
itself, is the model's choice (log entry 71). -/
theorem fabricServesItsLogic : Obligations.FabricServesItsLogic := by
  unfold Obligations.FabricServesItsLogic
  intro s q r d x
  refine ⟨fun hon hl hc hlate he => ?_, fun hon hl hlate => ?_, ?gather, fun hon hrun hb => ?_, fun hon hrun _ => ?_, ?arm, ?resume, ?take,
    fun hc hq hlevel w hw => ?_, ?request⟩
  case gather =>
    intro k p l rest hon hl hb hp g y hroom
    have hread := gatherRead_eq hon hl hb hp (y := y) rfl hroom
    refine ⟨pos_lt_of_delivered (y := y) rfl, fun hlt => ?_, fun hle => ?_⟩
    · exact run_eq_after (f := fun d => d.gatherRead q) (hread.trans (if_neg (Nat.not_le.mpr hlt)))
    · exact run_eq_after (f := fun d => d.gatherRead q) (hread.trans (if_pos hle))
  case arm =>
    intro h30 v t hw
    have hexec : exec (.captureArm r) s = s.wrote t.captureArm := run_captureArm h30 hw
    have hbusy : t.flag R.BYW_CFGSTAT_BUSY = d.flag R.BYW_CFGSTAT_BUSY := flag_congr (reg_fielded_capctl d r v (by decide) (by decide))
    have harmed : t.flag R.BYW_CAPSTAT_ARMED = d.flag R.BYW_CAPSTAT_ARMED := flag_congr (reg_fielded_capctl d r v (by decide) (by decide))
    rw [hexec, captureArm_eq, hbusy, harmed]
  case resume =>
    intro h31 v hw
    exact run_captureResume h31 hw
  case take =>
    intro ffs ha hrun ht u t
    exact run_eq_after (f := fun d => d.captureTake ffs) (captureTake_due (captureDue_of ha hrun ht) ffs)
  case request =>
    intro p node hon hrun hcan hoff htid hnode hdead hbr pk asked
    have hfree := tidBusy_of_tidOk htid
    refine ⟨fun hdata hp => ?_, fun hlen hp => ?_⟩
    · have hserved : d.request .rd pk = d.sendResp (openReq node .rd pk 0 (d.bytes p.addr.toNat (p.len.toNat + 1))) :=
        (request_served (k := .rd) (p := pk) hnode hdead hbr hcan (show 0x0B ≤ 0x20 by decide) hoff (List.isEmpty_iff.mpr hdata) htid).trans (serveRd_tcm hp)
      exact run_eq_after (f := fun d => d.fabricRequest false p) (fabricRequest_served hon hrun hfree hserved rfl)
    · have hserved : d.request .wr pk = (d.setBytes p.addr.toNat p.data).sendResp (openReq node .wr pk 0 []) :=
        (request_served (k := .wr) (p := pk) hnode hdead hbr hcan (show 0x0B ≤ 0x20 by decide) hoff (decide_eq_true hlen) htid).trans (serveWr_tcm hp (show 0 < p.data.length by omega))
      exact run_eq_after (f := fun d => d.fabricRequest true p) (fabricRequest_served hon hrun hfree hserved rfl)
  · exact run_eq_after (f := fun d => d.queueBegin q) (queueBegin_copied hon hl hc hlate he)
  · exact run_eq_after (f := fun d => d.queueBegin q) (queueBegin_late hon hl hlate)
  · exact run_eq_after (f := fun d => d.queuePop q) ((queuePop_eq hon hrun).trans
      (blankFill_of_not_blank ((congrArg BywQueue.blank (bq_setBq_same d q _)).trans hb)))
  · exact run_eq_after (f := fun d => d.queuePop q) (queuePop_eq hon hrun)
  · exact run_eq_after (f := fun d => d.readCommand r R.BYW_RBDATA) (readCommand_rbdata hc hq hlevel hw)

end Sys2Proof.Machine
end

section
/-! The host's queues: doorbells, the executor's steps, copies and completions (R363 to R367). -/

namespace Sys2Proof.Machine

section Doorbells

variable {d : Dev} {s : State} {r : Requester} {q : Fin 16} {x : Nat}

/-- The register of each queue by its number; the three kinds do not meet. -/
theorem arrIdx_sqt : ∀ q : Fin 16, arrIdx (R.HOST_QSQT 0) 32 16 (R.HOST_QSQT q.val) = some q.val := by decide

theorem arrIdx_cqh : ∀ q : Fin 16, arrIdx (R.HOST_QSQT 0) 32 16 (R.HOST_QCQH q.val) = none ∧
    arrIdx (R.HOST_QCQH 0) 32 16 (R.HOST_QCQH q.val) = some q.val := by decide

theorem arrIdx_fwdc : ∀ q : Fin 16, arrIdx (R.HOST_QSQT 0) 32 16 (R.HOST_FWDC q.val) = none ∧
    arrIdx (R.HOST_QCQH 0) 32 16 (R.HOST_FWDC q.val) = none ∧ arrIdx (R.HOST_FWDC 0) 16 16 (R.HOST_FWDC q.val) = some q.val := by decide

theorem startWrite_sqt (d : Dev) (w : Who) (q : Fin 16) (v : Word) :
    d.startWrite w .host (R.HOST_QSQT q.val) v = d.doorbell q (R.HOST_QSQT_TAIL q.val) (bits v.toNat 11 0) := by
  unfold Dev.startWrite
  simp only [arrIdx_sqt, q.isLt, dif_pos]

theorem startWrite_cqh (d : Dev) (w : Who) (q : Fin 16) (v : Word) :
    d.startWrite w .host (R.HOST_QCQH q.val) v = d.doorbell q (R.HOST_QCQH_HEAD q.val) (bits v.toNat 11 0) := by
  obtain ⟨hsqt, hcqh⟩ := arrIdx_cqh q
  unfold Dev.startWrite
  simp only [hsqt, hcqh, q.isLt, dif_pos]

theorem startWrite_fwdc (d : Dev) (w : Who) (q : Fin 16) (v : Word) (hv : v.getLsbD 31 = true) :
    d.startWrite w .host (R.HOST_FWDC q.val) v = (d.plainWrite w .host (R.HOST_FWDC q.val) v).fwGo q := by
  obtain ⟨hsqt, hcqh, hfwdc⟩ := arrIdx_fwdc q
  unfold Dev.startWrite
  simp only [hsqt, hcqh, hfwdc, q.isLt, hv, dif_pos, if_true]

/-- A doorbell's number is the low bits of its word. -/
theorem doorbellWord (v : BitVec 12) : bits (v.setWidth 32).toNat 11 0 = v.toNat := by
  have hlt := v.isLt
  simp only [bits, BitVec.toNat_setWidth, pow_zero, Nat.div_one]
  omega

/-- A doorbell takes its number; one at or above the queue's size is an error. -/
theorem doorbell_eq {f : Fld} (hf : f.addr ≠ R.HOST_QCFG q.val) (n : Nat) :
    d.drawn.doorbell q f n = if d.fld (R.HOST_QCFG_SZM1 q.val) + 1 ≤ n
      then (d.drawn.setFld f n).setFlag (R.HOST_QSTAT_QERR q.val) true else d.drawn.setFld f n := by
  have hsize : (d.drawn.setFld f n).hostSize q = d.fld (R.HOST_QCFG_SZM1 q.val) + 1 :=
    congrArg (· + 1) (fld_congr (f := R.HOST_QCFG_SZM1 q.val) (reg_setFld_ne _ _ hf.symm))
  rw [← hsize]
  rfl

theorem reg_doorbell {f : Fld} (hf : x ≠ f.addr) (hs : x ≠ R.HOST_QSTAT q.val) (n : Nat) : (d.doorbell q f n).reg x = d.reg x := by
  unfold Dev.doorbell
  dsimp only
  split
  · exact (reg_setFlag_ne _ _ hs).trans (reg_setFld_ne _ _ hf)
  · exact reg_setFld_ne _ _ hf

/-- The doorbells, the queues' states and firmware's registers lie above the response's. -/
theorem responseRegs_ne_host (q : Fin 16) (hx : x ∈ responseRegs) : x ≠ R.HOST_QSQT q.val ∧ x ≠ R.HOST_QCQH q.val ∧
    x ≠ R.HOST_QSTAT q.val ∧ x ≠ R.HOST_FWDC q.val :=
  ⟨ne_of_responseRegs hx (by simp only [R.HOST_QSQT]; omega), ne_of_responseRegs hx (by simp only [R.HOST_QCQH]; omega),
    ne_of_responseRegs hx (by simp only [R.HOST_QSTAT]; omega), ne_of_responseRegs hx (by simp only [R.HOST_FWDC]; omega)⟩

theorem run_doorbell {a : Nat} {f : Fld} {v : BitVec 12} (hw : s.dev.Writes r .host a (v.setWidth 32))
    (hstart : s.dev.drawn.startWrite (s.dev.who r) .host a (v.setWidth 32) = s.dev.drawn.doorbell q f (bits (v.setWidth 32).toNat 11 0))
    (hf : f.addr ≠ R.HOST_QCFG q.val) (hx : ∀ x ∈ responseRegs, x ≠ f.addr) :
    s.run (fun d => d.commandWord r a (v.setWidth 32)) = s.wrote (if s.dev.fld (R.HOST_QCFG_SZM1 q.val) + 1 ≤ v.toNat
      then (s.dev.drawn.setFld f v.toNat).setFlag (R.HOST_QSTAT_QERR q.val) true else s.dev.drawn.setFld f v.toNat) := by
  rw [doorbellWord] at hstart
  rw [← doorbell_eq hf]
  refine run_commandWord hw hstart fun x hmem => ?_
  obtain ⟨_, _, hstat, _⟩ := responseRegs_ne_host q hmem
  exact reg_doorbell (hx x hmem) hstat _

end Doorbells

section Steps

variable {d : Dev} {q : Fin 16} {e : Sqe} {c : HostCmd}

/-- The part as queue q has its turn. -/
def Dev.atTurn (d : Dev) (q : Fin 16) : Dev := { d with host := { d.host with served := q.val } }

theorem turn_eq (h : d.nextQueue = some q) (f : Dev → Dev) : d.turn q f = f (d.atTurn q) := if_pos h

/-- No other queue holds a fenced entry back. -/
theorem unfenced (h : e.fence = false ∨ ∀ k, k ≠ q → (d.hostQ k).cmd = none) :
    (e.fence && (List.finRange 16).any (fun k => k ≠ q && (d.hostQ k).cmd.isSome)) = false := by
  obtain h | h := h
  · rw [h]
    rfl
  · rw [Bool.and_eq_false_iff]
    refine .inr (List.any_eq_false.mpr fun k _ => ?_)
    by_cases hk : k = q
    · simp [hk]
    · simp [hk, h k hk]

/-- What a fetch does with the entry of a queue that may fetch. -/
theorem fetch_eq (hq : d.queueFetches q = true) (hf : e.fence = false ∨ ∀ k, k ≠ q → (d.hostQ k).cmd = none) :
    d.fetch q e =
      if d.mode = 3 && e.opc ≠ 0x21 then (d.takeEntry q e false).finish q 6 0
      else if firmwareOpc e.opc.toNat then
        let x := d.sweepWrite hostWho (0x40000000 + d.fld R.HOST_MBOX_BASE * 4096 + 64 * q.val) (Sqe.bytes e)
        if x.1.stuck then x.2
        else if x.1.st ≠ 0 then (x.2.takeEntry q e false).finish q 3 x.1.st.toNat
        else (x.2.takeEntry q e true).raise (0x40 + q.val)
      else d.takeEntry q e false := by
  unfold Dev.fetch
  exact if_neg (by rw [hq, unfenced hf]; decide)

theorem engineCmd_eq (hc : (d.hostQ q).cmd = some c) (hfw : c.fw = false) {o : Byte} (ho : c.e.opc = o) (f : HostCmd → Dev) :
    d.engineCmd q o.toNat f = f c := by
  unfold Dev.engineCmd
  rw [hc]
  exact if_pos (by simp [hfw, ho])

theorem copyIn_fails (d : Dev) (q : Fin 16) (c : HostCmd) (l : List Byte) : d.copyIn q c l false = d.finish q 4 0 := rfl

theorem copyIn_eq (d : Dev) (q : Fin 16) (c : HostCmd) (l : List Byte) {x : Sweep × Dev}
    (hx : d.sweepWrite hostWho (c.e.raddr.toNat + c.moved) (l.take (c.e.len.toNat - c.moved)) = x) :
    d.copyIn q c l true = if x.1.st = 0 then x.2.moved q c x.1.data.length else x.2.finish q 3 x.1.st.toNat := by
  subst hx
  unfold Dev.copyIn
  rw [if_neg (by decide)]
  exact ite_not _ _ _

theorem copyOut_eq (d : Dev) (q : Fin 16) (c : HostCmd) (n : Nat) {x : Sweep × Dev}
    (hx : d.sweepRead hostWho (c.e.raddr.toNat + c.moved) (min n (c.e.len.toNat - c.moved)) = x) :
    d.copyOut q c n = if x.1.st = 0 then x.2.moved q c x.1.data.length else x.2.finish q 3 x.1.st.toNat := by
  subst hx
  unfold Dev.copyOut
  exact ite_not _ _ _

end Steps

section Completions

variable {d : Dev} {q : Fin 16} {c : HostCmd}

/-- A completion, before its event. -/
def Dev.completed (d : Dev) (q : Fin 16) (c : HostCmd) (st detail : Nat) (res : BitVec 64) : Dev :=
  let x := d.hostQ q
  let t := (x.cqTail + 1) % d.hostSize q
  let u := d.setHostQ q { cmd := none, cqTail := t, phase := x.phase != (t = 0) }
  if u.hostOut then { u with host := { u.host with cqes := u.host.cqes ++ [(BitVec.ofNat 4 q.val,
    completion c.e.cid.toNat (d.fld (R.HOST_QSTAT_HEAD q.val)) st detail x.phase res)] } } else u

theorem complete_eq (hc : (d.hostQ q).cmd = some c) (st detail : Nat) (res : BitVec 64) :
    d.complete q st detail res = (d.completed q c st detail res).raise (0x50 + q.val) := by
  unfold Dev.complete
  dsimp only
  rw [hc]
  rfl

theorem hostQ_completed (d : Dev) (q : Fin 16) (c : HostCmd) (st detail : Nat) (res : BitVec 64) :
    (d.completed q c st detail res).hostQ q =
      { cmd := none, cqTail := ((d.hostQ q).cqTail + 1) % d.hostSize q,
        phase := (d.hostQ q).phase != decide (((d.hostQ q).cqTail + 1) % d.hostSize q = 0) } := by
  have hset (x : HostQueue) : (d.setHostQ q x).hostQ q = x := Vector.getElem_set_self _
  unfold Dev.completed
  dsimp only
  split <;> exact hset _

theorem cqes_completed (d : Dev) (q : Fin 16) (c : HostCmd) (st detail : Nat) (res : BitVec 64) :
    (d.completed q c st detail res).host.cqes = d.host.cqes ++ (if d.hostOut then [(BitVec.ofNat 4 q.val,
      completion c.e.cid.toNat (d.fld (R.HOST_QSTAT_HEAD q.val)) st detail (d.hostQ q).phase res)] else []) := by
  have hout (x : HostQueue) : (d.setHostQ q x).hostOut = d.hostOut := rfl
  unfold Dev.completed
  dsimp only
  rw [hout]
  split
  · rfl
  · exact (List.append_nil _).symm

theorem regs_completed (d : Dev) (q : Fin 16) (c : HostCmd) (st detail : Nat) (res : BitVec 64) :
    (d.completed q c st detail res).regs = d.regs := by
  unfold Dev.completed
  dsimp only
  split <;> rfl

theorem fwGo_eq (hc : (d.hostQ q).cmd = some c) (hfw : c.fw = true) :
    d.fwGo q = d.complete q (d.fld (R.HOST_FWDC_STATUS q.val)) (d.fld (R.HOST_FWDC_DETAIL q.val))
      ((d.reg (R.HOST_FWDH q.val)).append (d.reg (R.HOST_FWD q.val))) := by
  unfold Dev.fwGo
  rw [hc]
  exact if_pos hfw

/-- Firmware's GO completes the command that its mailbox has. -/
theorem run_fwdc {s : State} {r : Requester} {w : Word} (hc : (s.dev.hostQ q).cmd = some c) (hfw : c.fw = true)
    (hv : w.getLsbD 31 = true) (hw : s.dev.Writes r .host (R.HOST_FWDC q.val) w) :
    s.run (fun d => d.commandWord r (R.HOST_FWDC q.val) w) =
      s.wrote ((s.dev.fielded r .host (R.HOST_FWDC q.val) w).complete q
        ((s.dev.fielded r .host (R.HOST_FWDC q.val) w).fld (R.HOST_FWDC_STATUS q.val))
        ((s.dev.fielded r .host (R.HOST_FWDC q.val) w).fld (R.HOST_FWDC_DETAIL q.val))
        ((s.dev.reg (R.HOST_FWDH q.val)).append (s.dev.reg (R.HOST_FWD q.val)))) := by
  have hnc : R.HOST_FWDC q.val ≠ blockBase .host + 0x7FF0 := by clear * -; revert q; decide
  have hfh : R.HOST_FWDH q.val ≠ R.HOST_FWDC q.val ∧ R.HOST_FWDH q.val ≠ cstatAddr .host := by clear * -; revert q; decide
  have hfl : R.HOST_FWD q.val ≠ R.HOST_FWDC q.val ∧ R.HOST_FWD q.val ≠ cstatAddr .host := by clear * -; revert q; decide
  have hreg {x : Nat} (ha : x ≠ R.HOST_FWDC q.val) (hs : x ≠ cstatAddr .host) :
      (s.dev.fielded r .host (R.HOST_FWDC q.val) w).reg x = s.dev.reg x := reg_plainWrite_noCommit s.dev.drawn _ w hnc ha hs
  have hhost : (s.dev.fielded r .host (R.HOST_FWDC q.val) w).host = s.dev.host := by
    obtain ⟨_, _, he⟩ := plainWrite_eq (d := s.dev.drawn) (s.dev.who r) w hnc
    exact (congrArg Dev.host he).trans rfl
  have hcmd : ((s.dev.fielded r .host (R.HOST_FWDC q.val) w).hostQ q).cmd = some c :=
    (congrArg (fun h : HostState => h.queue[q].cmd) hhost).trans hc
  refine run_commandWord hw ((startWrite_fwdc _ _ q w hv).trans ((fwGo_eq hcmd hfw).trans ?_)) fun x hx => ?_
  · rw [hreg hfh.1 hfh.2, hreg hfl.1 hfl.2]
  · obtain ⟨_, _, _, hne⟩ := responseRegs_ne_host q hx
    have hcst : x ≠ cstatAddr .host := ne_of_responseRegs hx (by decide)
    rw [complete_eq hcmd, reg_raise, reg_of_regs (regs_completed _ _ _ _ _ _) x]
    exact hreg hne hcst

end Completions

/-- Settles O46. That a doorbell at or above the size takes its number is log entry 45; that every command but 0x21 ends with status 6
in mode 3 is log entry 59. -/
theorem hostQueuesRun : Obligations.HostQueuesRun := by
  unfold Obligations.HostQueuesRun
  intro s r q v e d t ends size
  refine ⟨fun hw => ?_, fun hw => ?_, ?fetch, ?copy, ?complete⟩
  · exact run_doorbell hw (startWrite_sqt _ _ q _) (by clear * -; revert q; decide) fun x hx => (responseRegs_ne_host q hx).1
  · exact run_doorbell hw (startWrite_cqh _ _ q _) (by clear * -; revert q; decide) fun x hx => (responseRegs_ne_host q hx).2.1
  case fetch =>
    intro hnext hq hf taken
    have hstep {u : Dev} (h : t.fetch q e = u) : exec (.commandStep e) s = s.after u := by
      refine run_eq_after (f := fun d => match d.nextQueue with
        | some q => d.turn q (fun d => d.fetch q e)
        | none => d) ?_
      rw [hnext]
      exact (turn_eq hnext _).trans h
    have hfetch := fetch_eq (d := t) hq hf
    refine ⟨fun hm ho => ?_, fun hmo => ?_⟩
    · have hrefused : (t.mode = 3 && e.opc ≠ 0x21) = true := by
        rw [Bool.and_eq_true]
        exact ⟨decide_eq_true hm, decide_eq_true ho⟩
      exact hstep (hfetch.trans (if_pos hrefused))
    · have hgoes : ¬(t.mode = 3 && e.opc ≠ 0x21) = true := by
        rw [Bool.and_eq_true, decide_eq_true_eq, decide_eq_true_eq]
        exact fun h => hmo.elim (fun hm => hm h.1) (fun ho => h.2 ho)
      refine ⟨fun hfirm => ?_, ?_⟩
      · exact hstep (hfetch.trans ((if_neg hgoes).trans (if_neg (by rw [hfirm]; decide))))
      · intro hfirm x
        have hmail := hfetch.trans ((if_neg hgoes).trans (if_pos hfirm))
        refine ⟨fun hstuck => ?_, fun hstuck hst => ?_, fun hstuck hst => ?_⟩
        · exact hstep (hmail.trans (if_pos hstuck))
        · exact hstep (hmail.trans ((if_neg (show ¬x.1.stuck = true by rw [hstuck]; decide)).trans (if_pos hst)))
        · exact hstep (hmail.trans ((if_neg (show ¬x.1.stuck = true by rw [hstuck]; decide)).trans (if_neg (not_not_intro hst))))
  case copy =>
    intro c hnext hc hfw goes
    have hstep {o : Byte} (ho : c.e.opc = o) {f : HostCmd → Dev → Dev} {u : Dev} (h : f c t = u) :
        s.run (fun d => d.turn q (fun d => d.engineCmd q o.toNat (fun c => f c d))) = s.after u :=
      run_eq_after ((turn_eq hnext _).trans ((engineCmd_eq (d := t) hc hfw ho (fun c => f c t)).trans h))
    refine ⟨fun ho l => ⟨?_, ?_⟩, fun ho n => ?_, fun h1 h2 => ?_⟩
    · exact hstep ho (f := fun c d => d.copyIn q c l false) (copyIn_fails t q c l)
    · exact hstep ho (f := fun c d => d.copyIn q c l true) (copyIn_eq t q c l rfl)
    · exact hstep ho (f := fun c d => d.copyOut q c n) (copyOut_eq t q c n rfl)
    · have hengine : (!c.fw && !engineOpc c.e.opc.toNat) = true := by
        have hne (o : Byte) (h : c.e.opc ≠ o) : c.e.opc.toNat ≠ o.toNat := fun he => h (BitVec.eq_of_toNat_eq he)
        have hone := hne 1 h1
        have htwo := hne 2 h2
        simp_all [engineOpc]
      refine run_eq_after (f := fun d => d.turn q (fun d => match (d.hostQ q).cmd with
        | some c => if !c.fw && !engineOpc c.e.opc.toNat then d.finish q 1 0 else d
        | none => d)) ((turn_eq hnext _).trans ?_)
      rw [show ((d.atTurn q).hostQ q).cmd = some c from hc]
      exact if_pos hengine
  case complete =>
    intro c st detail res hc x tail u
    have hu : u = (d.completed q c st detail res).raise (0x50 + q.val) := complete_eq hc st detail res
    refine ⟨?_, ?_, fun hfw w hv hw => ?_⟩
    · rw [hu, Dev.hostQ, host_raise]
      exact hostQ_completed d q c st detail res
    · rw [hu, host_raise]
      exact cqes_completed d q c st detail res
    · subst hv
      exact (run_regWith s r (R.HOST_FWDC q.val) 31).trans (run_fwdc hc hfw (getLsbD_setBit_same _ _ (by decide)) hw)

end Sys2Proof.Machine
end

section
/-! The gallery DMA engines (R376). -/

namespace Sys2Proof.Machine

section Starts

variable {d : Dev} {s : State} {r : Requester} {e : Fin 8} {v : Word}

theorem startWrite_dmactl (d : Dev) (w : Who) (e : Fin 8) (v : Word) :
    d.startWrite w .gal (R.GAL_DMACTL e.val) v = d.dmaWrite w e.val v := by
  have hsec : R.GAL_DMACTL e.val ≠ R.GAL_SEC := by revert e; decide
  have hctl : R.GAL_DMACTL e.val ≠ R.GAL_MCTL := by revert e; decide
  have hrpr : arrIdx (R.GAL_RPR 0) 4 320 (R.GAL_DMACTL e.val) = none := by revert e; decide
  have hidx : arrIdx (R.GAL_DMACTL 0) 16 8 (R.GAL_DMACTL e.val) = some e.val := by revert e; decide
  unfold Dev.startWrite
  simp only [hsec, hctl, hrpr, hidx, if_false]

/-- GO starts a copy, or while one runs is an error. -/
theorem dmaWrite_go (w : Who) (hv : v.getLsbD 31 = true) :
    d.dmaWrite w e.val v = if d.flag (R.GAL_DMACTL_BUSY e.val)
      then ((d.plainWrite w .gal (R.GAL_DMACTL e.val) v).setFlag (R.GAL_DMACTL_ERR e.val) true).setFld (R.GAL_DMACTL_RSTAT e.val) 0xF
      else (d.plainWrite w .gal (R.GAL_DMACTL e.val) v).setFlag (R.GAL_DMACTL_BUSY e.val) true := by
  unfold Dev.dmaWrite
  exact if_neg (by rw [hv]; decide)

theorem run_dmactl {t : Dev} (hw : s.dev.Writes r .gal (R.GAL_DMACTL e.val) v) (hv : v.getLsbD 31 = true)
    (ht : s.dev.drawn.dmaWrite (s.dev.who r) e.val v = t) :
    s.run (fun d => d.commandWord r (R.GAL_DMACTL e.val) v) = s.wrote t := by
  refine run_commandWord hw ((startWrite_dmactl _ _ e v).trans ht) fun x hx => ?_
  have hctl : x ≠ R.GAL_DMACTL e.val := ne_of_responseRegs hx (by simp only [R.GAL_DMACTL]; omega)
  have hplain : (s.dev.fielded r .gal (R.GAL_DMACTL e.val) v).reg x = s.dev.reg x :=
    reg_fielded_gal s.dev r v hx (by simp only [R.GAL_DMACTL]; omega) (by clear * -; revert e; decide)
  rw [← ht, dmaWrite_go _ hv]
  split
  · exact (reg_setFld_ne _ _ hctl).trans ((reg_setFlag_ne _ _ hctl).trans hplain)
  · exact (reg_setFlag_ne _ _ hctl).trans hplain

end Starts

section Copies

/-- The engines' requester. -/
def dmaWho : Who := ⟨0x0C, false, false⟩

/-- All but memory and the count of free choices is as it was. -/
def Dev.CopyOf (d t : Dev) : Prop := ∃ m f, t = { d with mem := m, free := f }

variable {d t : Dev} {a b n : Nat} {node : Nat} {l : List Byte}

theorem Dev.CopyOf.refl (d : Dev) : d.CopyOf d := ⟨d.mem, d.free, rfl⟩

theorem Dev.CopyOf.trans {u : Dev} (h : d.CopyOf t) (h' : t.CopyOf u) : d.CopyOf u := by
  obtain ⟨m, f, rfl⟩ := h
  obtain ⟨m', f', rfl⟩ := h'
  exact ⟨m', f', rfl⟩

theorem copyOf_drawn (d : Dev) : d.CopyOf d.drawn := ⟨d.mem, d.free + 1, rfl⟩

theorem copyOf_setBytes (d : Dev) (a : Nat) (l : List Byte) : d.CopyOf (d.setBytes a l) :=
  forEach_keeps (P := d.CopyOf) l.zipIdx (fun s p h => h.trans ⟨(s.setByte (a + p.2) p.1).mem, s.free, rfl⟩) (.refl d)

/-- n bytes that a node's memory holds at an address, within reach of the engines. -/
structure Dev.InTcm (d : Dev) (a n node : Nat) : Prop where
  carries : d.Carries dmaWho node
  asked : d.road.asked = []
  node : ∀ i, i < n → nodeOfAddr d.chipId (a + i) = some node
  place : ∀ i, i < n → d.place (a + i) = some (.tcm (a + i))

theorem Dev.InTcm.of_copy (h : d.InTcm a n node) (hc : d.CopyOf t) : t.InTcm a n node := by
  obtain ⟨m, f, rfl⟩ := hc
  exact ⟨h.carries, h.asked, h.node, h.place⟩

theorem Dev.InTcm.part {k m : Nat} (h : d.InTcm a n node) (hm : k + m ≤ n) : d.InTcm (a + k) m node :=
  ⟨h.carries, h.asked, fun i hi => by rw [Nat.add_assoc]; exact h.node _ (by omega),
    fun i hi => by rw [Nat.add_assoc]; exact h.place _ (by omega)⟩

theorem Dev.InTcm.lt (h : d.InTcm a n node) (hn : 0 < n) : a < 0x10000000 := lt_of_place_tcm (h.place 0 hn)

/-- A read of a node's memory. -/
theorem read_inTcm (h : d.InTcm a n node) (hn : 0 < n) : d.read dmaWho a n = .answered 0 (d.bytes a n) d.drawn := by
  have hlt := h.lt hn
  have hport : a ≠ R.DBG_MDATA ∧ a ≠ R.DBG_MDATA + 0x8000 := by simp only [R.DBG_MDATA]; omega
  exact read_served h.carries (h.node 0 hn) hport h.asked (serveRead_tcm (d := d.drawn) dmaWho h.place hn) (fun _ _ => rfl) (by decide)

/-- A write of a node's memory. -/
theorem write_inTcm (h : d.InTcm a l.length node) (hl : 0 < l.length) :
    d.write dmaWho a l = .answered 0 [] (d.drawn.setBytes a l) := by
  have hlt := h.lt hl
  have hreach := reach_of_carries h.carries true
  obtain ⟨hon, hbr, _, _, hfree, hoff, halive⟩ := h.carries
  obtain ⟨tid, htid⟩ := drawTid_free hfree
  have hcan : d.canRequest dmaWho.node = true := by simp [Dev.canRequest, hon, hbr]
  have hnode : nodeOfAddr d.chipId a = some node := h.node 0 hl
  have hport : ¬(a = R.DBG_MDATA) := by simp only [R.DBG_MDATA]; omega
  have hserve := serveWrite_tcm (d := d.drawn) dmaWho h.place hl
  have hregs : ∀ x ∈ responseRegs, (d.drawn.setBytes a l).reg x = d.reg x := fun x _ => reg_of_regs (regs_setBytes (d := d.drawn) a l) x
  have hend := concluded_off (probesOff_of_responseRegs hregs hoff) ((nodeDead_of_responseRegs (n := dmaWho.node) hregs (by decide)).trans halive)
    node true (dmaWho.packet tid a l.length l) 0 [] ()
  have hissued : d.issueWrite dmaWho a l = .answered 0 () (d.drawn.setBytes a l) := by
    unfold Dev.issueWrite Dev.busWrite
    simp only [hcan, hport, hnode, hreach, htid, hserve, hend, Bool.not_true, Bool.false_eq_true, if_false, decide_false,
      Bool.false_and]
  unfold Dev.write Dev.awaited
  rw [hissued, h.asked]
  rfl

theorem dmaRead_succ {w : Who} {l' : List Byte} {u : Dev} (hr : d.dmaRead w a n = (.ok, l, t))
    (ht : t.read w (a + 64 * n) 64 = .answered 0 l' u) : d.dmaRead w a (n + 1) = (.ok, l ++ l', u) := by
  unfold Dev.dmaRead at hr ⊢
  rw [List.range_succ, List.foldl_append, hr, List.foldl_cons, List.foldl_nil, if_neg (by simp), ht]
  rfl

/-- The blocks of a unit are read one after another. -/
theorem dmaRead_inTcm (h : d.InTcm a (64 * n) node) : ∃ f, d.dmaRead dmaWho a n = (.ok, d.bytes a (64 * n), { d with free := f }) := by
  induction n with
  | zero => exact ⟨d.free, rfl⟩
  | succ n ih =>
    have hfirst : d.InTcm a (64 * n) node := h.part (k := 0) (by omega)
    obtain ⟨f, hread⟩ := ih hfirst
    have hblock : ({ d with free := f } : Dev).InTcm (a + 64 * n) 64 node :=
      (h.part (k := 64 * n) (m := 64) (by omega)).of_copy ⟨d.mem, f, rfl⟩
    refine ⟨f + 1, ?_⟩
    rw [Nat.mul_add, bytes_add]
    exact dmaRead_succ hread (read_inTcm hblock (by decide))

/-- A posted unit is served where it goes; its address is a block's. -/
theorem postAll_inTcm (h : d.InTcm a l.length node) (ha : a % 64 = 0) (hl : l.length = 64 * n) (h1 : 1 ≤ n) (h8 : n ≤ 8) :
    d.postAll .swr [postedPacket 0x0C a l] = some (d.setBytes a l) := by
  have hlt := h.lt (by omega)
  have haddr : (postedPacket 0x0C a l).addr.toNat = a := by
    simp only [postedPacket, BitVec.toNat_ofNat]
    omega
  obtain ⟨hon, hbr, hdead, hup, _, hoff, _⟩ := h.carries
  have hcan : d.canRequest 0x0C = true := by simp [Dev.canRequest, hon, show d.brState 0x0C ≠ 5 from hbr]
  have hlen : (postedPacket 0x0C a l).len.toNat = if n = 1 then 63 else n - 1 := by
    simp only [postedPacket, BitVec.toNat_ofNat, hl]
    split <;> split <;> omega
  have hok : packetOk .swr (postedPacket 0x0C a l) = true := by
    have hdata : (postedPacket 0x0C a l).data.length = 64 * n := hl
    simp only [packetOk, hlen, haddr, hdata, ha]
    split <;> simp <;> omega
  have hserved := inject_served (d := d) (k := .swr) (p := postedPacket 0x0C a l) (by rw [haddr]; exact h.node 0 (by omega)) hdead hup hcan
    (show (0x0C : BitVec 6).toNat ≤ 0x20 by decide) hoff hok rfl
  have hposted : d.servePosted (postedPacket 0x0C a l) = d.setBytes a l := by
    refine (servePosted_tcm fun i hi => ?_).trans (by rw [haddr]; rfl)
    rw [haddr]
    exact h.place i hi
  unfold Dev.postAll
  rw [List.foldl_cons, List.foldl_nil, Option.bind_some, hserved]
  exact congrArg some hposted

/-- A unit of a copy: its bytes stand at its destination. -/
theorem dmaUnit_inTcm {posted : Bool} {src dst from' to' : Nat} (hs : d.InTcm src (64 * n) from') (hd : d.InTcm dst (64 * n) to')
    (ha : dst % 64 = 0) (h1 : 1 ≤ n) (hn : n ≤ if posted then 8 else 1) :
    ∃ f, d.dmaUnit dmaWho posted src dst n = (.ok, ({ d with free := f } : Dev).setBytes dst (d.bytes src (64 * n))) := by
  obtain ⟨f, hread⟩ := dmaRead_inTcm hs
  have hlen : (d.bytes src (64 * n)).length = 64 * n := length_bytes d src _
  have hto : ({ d with free := f } : Dev).InTcm dst (d.bytes src (64 * n)).length to' := by
    rw [hlen]
    exact hd.of_copy ⟨d.mem, f, rfl⟩
  unfold Dev.dmaUnit
  rw [hread]
  cases posted with
  | true =>
    refine ⟨f, ?_⟩
    dsimp only
    rw [if_pos rfl, postAll_inTcm hto ha hlen h1 hn]
  | false =>
    refine ⟨f + 1, ?_⟩
    dsimp only
    rw [if_neg (by decide), write_inTcm hto (by omega)]
    rfl

/-- The units of a copy, one after another. -/
def Dev.dmaUnits (d : Dev) (posted : Bool) (src dst len u k : Nat) : CopyEnd × Dev :=
  (List.range k).foldl (fun (r : CopyEnd × Dev) i =>
    if r.1 ≠ .ok then r else r.2.dmaUnit dmaWho posted (src + 64 * u * i) (dst + 64 * u * i) (min u (len - u * i))) (.ok, d)

theorem dmaUnits_succ {posted : Bool} {src dst len u k : Nat} (h : d.dmaUnits posted src dst len u k = (.ok, t)) :
    d.dmaUnits posted src dst len u (k + 1) = t.dmaUnit dmaWho posted (src + 64 * u * k) (dst + 64 * u * k) (min u (len - u * k)) := by
  unfold Dev.dmaUnits at h ⊢
  rw [List.range_succ, List.foldl_append, h]
  rfl

/-- The first bytes of a range stand at another, and no byte outside that has changed. -/
structure Dev.Copied (d : Dev) (src dst len n : Nat) (t : Dev) : Prop where
  same : d.CopyOf t
  inside : ∀ i, i < n → t.byte (dst + i) = d.byte (src + i)
  outside : ∀ a, a < dst ∨ dst + len ≤ a → t.byte a = d.byte a

theorem Dev.Copied.refl (d : Dev) (src dst len : Nat) : d.Copied src dst len 0 d :=
  ⟨.refl d, fun _ h => absurd h (Nat.not_lt_zero _), fun _ _ => rfl⟩

/-- One more part of a copy between ranges that do not overlap. -/
theorem Dev.Copied.step {src dst len m f : Nat} (h : d.Copied src dst len n t) (hlen : n + m ≤ len)
    (hdis : src + len ≤ dst ∨ dst + len ≤ src) :
    d.Copied src dst len (n + m) (({ t with free := f } : Dev).setBytes (dst + n) (t.bytes (src + n) m)) := by
  have hsize : (t.bytes (src + n) m).length = m := length_bytes t _ m
  refine ⟨h.same.trans (.trans ⟨t.mem, f, rfl⟩ (copyOf_setBytes _ _ _)), fun i hi => ?_, fun a ha => ?_⟩
  · by_cases hin : i < n
    · rw [byte_setBytes_outside (.inl (by omega))]
      exact h.inside i hin
    · obtain ⟨j, rfl⟩ : ∃ j, i = n + j := ⟨i - n, by omega⟩
      rw [← Nat.add_assoc, byte_setBytes_inside (by omega)]
      simp only [Dev.bytes, List.getElem_map, List.getElem_range]
      rw [h.outside _ (by omega), Nat.add_assoc]
  · rw [byte_setBytes_outside (by omega)]
    exact h.outside a ha

/-- Every unit of a copy is read and written while both ranges are memory within reach. -/
theorem dmaUnits_copied {posted : Bool} {src dst len u from' to' k : Nat} (hu : u = if posted then 8 else 1)
    (hs : d.InTcm src (64 * len) from') (hd : d.InTcm dst (64 * len) to') (ha : dst % 64 = 0)
    (hdis : src + 64 * len ≤ dst ∨ dst + 64 * len ≤ src) (hk : k ≤ (len + u - 1) / u) :
    ∃ t, d.dmaUnits posted src dst len u k = (.ok, t) ∧ d.Copied src dst (64 * len) (64 * min (u * k) len) t := by
  have hpos : 1 ≤ u ∧ u ≤ 8 := by
    rw [hu]
    split <;> omega
  induction k with
  | zero => exact ⟨d, rfl, by rw [Nat.mul_zero, Nat.zero_min]; exact .refl d src dst _⟩
  | succ k ih =>
    have hmore : u * k < len := by
      have hle := (Nat.le_div_iff_mul_le hpos.1).mp hk
      rw [Nat.succ_mul, Nat.mul_comm k u] at hle
      omega
    obtain ⟨t, ht, hcopied⟩ := ih (by omega)
    have hdone : min (u * k) len = u * k := Nat.min_eq_left hmore.le
    rw [hdone] at hcopied
    obtain ⟨f, hunit⟩ := dmaUnit_inTcm (posted := posted) (n := min u (len - u * k))
      ((hs.part (k := 64 * (u * k)) (m := 64 * min u (len - u * k)) (by omega)).of_copy hcopied.same)
      ((hd.part (k := 64 * (u * k)) (m := 64 * min u (len - u * k)) (by omega)).of_copy hcopied.same) (by omega) (by omega)
      (hu ▸ Nat.min_le_left _ _)
    refine ⟨_, (dmaUnits_succ ht).trans (by rw [Nat.mul_assoc, hunit]), ?_⟩
    rw [show 64 * min (u * (k + 1)) len = 64 * (u * k) + 64 * min u (len - u * k) by rw [Nat.mul_succ]; omega]
    exact hcopied.step (by omega) hdis

/-- The units, rounded up, cover the length. -/
theorem units_cover (n : Nat) {u : Nat} (hu : 0 < u) : n ≤ u * ((n + u - 1) / u) := by
  have hdiv := Nat.div_add_mod (n + u - 1) u
  have hmod := Nat.mod_lt (n + u - 1) hu
  omega

theorem dmaDone_ok {e : Fin 8} {posted : Bool} {u : Nat} (hbusy : d.flag (R.GAL_DMACTL_BUSY e.val) = true)
    (hp : d.flag (R.GAL_DMACTL_POSTED e.val) = posted) (hu : u = if posted then 8 else 1)
    (ht : d.dmaUnits posted (d.dmaSrc e.val) (d.dmaDst e.val) (d.fld (R.GAL_DMACTL_LEN64 e.val)) u
      ((d.fld (R.GAL_DMACTL_LEN64 e.val) + u - 1) / u) = (.ok, t)) :
    d.dmaDone e = ((t.setFlag (R.GAL_DMACTL_BUSY e.val) false).setFlag (R.GAL_DMACTL_DONE e.val) true).raise 0xDD := by
  subst hu hp
  unfold Dev.dmaUnits at ht
  unfold Dev.dmaDone
  rw [if_neg (by rw [hbusy]; decide)]
  dsimp only
  rw [show d.who (.dma e) = dmaWho from rfl, ht]

theorem dmaDst_aligned (d : Dev) (e : Nat) : d.dmaDst e % 64 = 0 := by
  unfold Dev.dmaDst
  omega

theorem byte_raise (d : Dev) (n a : Nat) : (d.raise n).byte a = d.byte a := by
  unfold Dev.byte
  rw [mem_raise]

end Copies

/-- Settles O49, by induction on the units of the copy. -/
theorem dmaCopies : Obligations.DmaCopies := by
  unfold Obligations.DmaCopies
  intro s r e v d
  refine ⟨?_, ?_⟩
  · intro w t hw
    have hgo : w.getLsbD 31 = true := by simp [w]
    refine ⟨fun hb => ?_, fun hb => ?_⟩
    · exact run_dmactl hw hgo ((dmaWrite_go _ hgo).trans (if_neg (by rw [show s.dev.drawn.flag _ = _ from hb]; decide)))
    · exact run_dmactl hw hgo ((dmaWrite_go _ hgo).trans (if_pos hb))
  · intro src dst n from' to' hbusy hsrc hdst hlen hdis hmem hfrom hto hasked
    have hs : d.InTcm src (64 * n) from' := ⟨hfrom, hasked, fun i hi => (hmem i hi).1, fun i hi => (hmem i hi).2.1⟩
    have hd : d.InTcm dst (64 * n) to' := ⟨hto, hasked, fun i hi => (hmem i hi).2.2.1, fun i hi => (hmem i hi).2.2.2⟩
    obtain ⟨posted, hp⟩ : ∃ b, d.flag (R.GAL_DMACTL_POSTED e.val) = b := ⟨_, rfl⟩
    obtain ⟨u, hu⟩ : ∃ u : Nat, u = if posted then 8 else 1 := ⟨_, rfl⟩
    obtain ⟨t, hunits, hcopied⟩ := dmaUnits_copied hu hs hd (hdst ▸ dmaDst_aligned d e.val) hdis (le_refl _)
    have hall : 64 * min (u * ((n + u - 1) / u)) n = 64 * n := by
      have hle : n ≤ u * ((n + u - 1) / u) := units_cover n (by rw [hu]; split <;> decide)
      rw [Nat.min_eq_right hle]
    rw [hall] at hcopied
    have hdone := dmaDone_ok hbusy hp hu (by rw [hsrc, hdst, hlen]; exact hunits)
    refine ⟨_, run_eq_after (f := fun d => d.dmaDone e) hdone, ?_, ?_, fun i hi => ?_, fun a ha => ?_⟩
    · rw [flag_raise]
      exact (flag_setFld_other _ _ _ _ (show 29 < 32 by decide) (.inr (.inr (show 29 < 30 by decide)))).trans
        (flag_setFlag_same _ _ _ (show 30 < 32 by decide) rfl)
    · rw [flag_raise]
      exact flag_setFlag_same _ _ _ (show 29 < 32 by decide) rfl
    · exact (byte_raise _ _ _).trans (hcopied.inside i hi)
    · exact (byte_raise _ _ _).trans (hcopied.outside a ha)

end Sys2Proof.Machine
end

section
/-! What the power domains' rules read: the registers below the security engine's window, the power state, the cores. -/

namespace Sys2Proof.Machine

/-- e has d's registers of the blocks PWR and CLK, its power state and its cores. -/
structure Dev.KeepsPower (d e : Dev) : Prop where
  reg : ∀ a, a < 0x10030000 → e.reg a = d.reg a
  pow : e.pow = d.pow
  core : e.core = d.core

variable {d e f : Dev} {k : Nat}

theorem Dev.KeepsPower.refl (d : Dev) : d.KeepsPower d := ⟨fun _ _ => rfl, rfl, rfl⟩

theorem Dev.KeepsPower.trans (h : d.KeepsPower e) (g : e.KeepsPower f) : d.KeepsPower f :=
  ⟨fun a ha => (g.reg a ha).trans (h.reg a ha), g.pow.trans h.pow, g.core.trans h.core⟩

theorem Dev.KeepsPower.ite {p : Prop} [Decidable p] (h : d.KeepsPower e) (g : d.KeepsPower f) : d.KeepsPower (if p then e else f) := by
  split
  · exact h
  · exact g

theorem Dev.EvcOnly.keepsPower (h : d.EvcOnly e) : d.KeepsPower e := ⟨fun a _ => h.reg a, (congrArg Dev.pow h).trans rfl, h.core⟩

theorem keepsPower_forEach {β : Type} {f : Dev → β → Dev} (l : List β) (h : ∀ (d : Dev) b, d.KeepsPower (f d b)) (d : Dev) :
    d.KeepsPower (forEach l d f) :=
  forEach_keeps (P := d.KeepsPower) l (fun s b hs => hs.trans (h s b)) (.refl d)

theorem keepsPower_setReg (d : Dev) {a : Nat} (v : Word) (h : 0x10030000 ≤ a) : d.KeepsPower (d.setReg a v) :=
  ⟨fun _ hb => reg_setReg_ne d v (by omega), rfl, rfl⟩

theorem keepsPower_setFld (d : Dev) {g : Fld} (x : Nat) (h : 0x10030000 ≤ g.addr) : d.KeepsPower (d.setFld g x) := keepsPower_setReg d _ h

theorem keepsPower_setFlag (d : Dev) {g : Fld} (b : Bool) (h : 0x10030000 ≤ g.addr) : d.KeepsPower (d.setFlag g b) := keepsPower_setReg d _ h

theorem keepsPower_preset (d : Dev) {a : Nat} (v : Word) (h : 0x10030000 ≤ a) : d.KeepsPower (d.preset a v) :=
  (keepsPower_setReg d v h).trans ⟨fun _ _ => rfl, rfl, rfl⟩

theorem keepsPower_setBr (d : Dev) (n st : Nat) : d.KeepsPower (d.setBr n st) :=
  .ite (keepsPower_setFld d st (show 0x10030000 ≤ R.ROAD_BR n by unfold R.ROAD_BR; omega)) (.refl d)

theorem keepsPower_resetWindow (d : Dev) {b : Block} (h : 0x10030000 ≤ blockBase b) : d.KeepsPower (d.resetWindow b) :=
  ⟨fun a ha => (bankGet_bankClear _ _ _ a).trans (if_neg (by omega)), rfl, rfl⟩

theorem keepsPower_darkLines (d : Dev) (k : Nat) : d.KeepsPower (d.darkLines k) :=
  keepsPower_forEach _ (fun d n => by
    split
    · exact ⟨fun _ _ => rfl, rfl, rfl⟩
    · exact .refl d) d

theorem keepsPower_setVerifs (d : Dev) (l : List VerifyKind) : d.KeepsPower (d.setVerifs l) := by
  unfold Dev.setVerifs Dev.syncVerify
  exact .trans (e := { d with sec := { d.sec with verifs := l, serve := d.sec.serve && !l.isEmpty } }) ⟨fun _ _ => rfl, rfl, rfl⟩
    ((keepsPower_setFld _ _ (g := R.SEC_STAT_NVQ) (by decide)).trans (keepsPower_setFlag _ _ (g := R.SEC_STAT_BUSY) (by decide)))

theorem keepsPower_dropVerify (d : Dev) (k : VerifyKind) : d.KeepsPower (d.dropVerify k) :=
  .ite (keepsPower_setVerifs d _) (.refl d)

theorem keepsPower_dropHost (d : Dev) : d.KeepsPower d.dropHost :=
  keepsPower_forEach _ (fun d n => (endSource_evcOnly d n).keepsPower) d

/-- A domain that goes off loses what its blocks hold and nothing else that the domains' rules read. -/
theorem keepsPower_loseDomain (d : Dev) (k : Nat) : d.KeepsPower (d.loseDomain k) := by
  refine (keepsPower_darkLines d k).trans ?_
  generalize hd : d.darkLines k = e
  unfold Dev.loseDomain
  rw [hd]
  dsimp only
  split
  · obtain ⟨hreg, hpow, hcore⟩ := (keepsPower_dropVerify e .fabric).trans (keepsPower_resetWindow _ (b := .byw) (by decide))
    exact ⟨hreg, hpow, hcore⟩
  · obtain ⟨hreg, hpow, hcore⟩ := (keepsPower_dropHost e).trans (keepsPower_resetWindow _ (b := .host) (by decide))
    exact ⟨hreg, hpow, hcore⟩
  · split
    · obtain ⟨hreg, hpow, hcore⟩ := keepsPower_resetWindow e (b := .ddr) (by decide)
      exact ⟨hreg, hpow, hcore⟩
    · obtain ⟨hreg, hpow, hcore⟩ := keepsPower_resetWindow e.dropDram (b := .ddr) (by decide)
      exact ⟨hreg, hpow, hcore⟩
  · obtain ⟨hreg, hpow, hcore⟩ := keepsPower_resetWindow e (b := .link) (by decide)
    exact ⟨hreg, hpow, hcore⟩
  · exact .refl e
  · split
    · rename_i hk
      have hbase : 0x10030000 ≤ blockBase (.hall ⟨k - 8, hk⟩) := by
        simp only [blockBase]
        omega
      obtain ⟨hreg, hpow, hcore⟩ := keepsPower_resetWindow e hbase
      split
      · split
        · exact ⟨hreg, hpow, hcore⟩
        · exact ⟨hreg, hpow, hcore⟩
      · exact ⟨hreg, hpow, hcore⟩
    · exact .refl e

end Sys2Proof.Machine
end

section
/-! The domains' sequencing (R379 to R381): what a step of it decides for one domain, and that it decides the others apart. -/

namespace Sys2Proof.Machine

variable {d e : Dev} {k j : Nat}

/-- What the sequencing reads and writes of one domain. -/
structure DomView where
  goal : Bool
  held : Bool
  on : Bool
  rising : Bool
  falling : Bool

def Dev.domView (d : Dev) (k : Nat) : DomView :=
  ⟨d.pow.goal.getLsbD k, d.heldOff k, d.domOn k, d.pow.rising.getLsbD k, d.pow.falling.getLsbD k⟩

/-- A domain that neither rises nor falls begins to, when it is not as it shall be. -/
def DomView.sequenced (v : DomView) : DomView :=
  if v.rising || v.falling then v
  else { v with rising := v.goal && !v.held && !v.on, falling := !(v.goal && !v.held) && v.on }

/-- A loop over different elements does to each what its own round does, when the other rounds leave it as it is. -/
theorem forEach_at {σ β γ : Type} (g : σ → γ) (φ : γ → γ) {l : List β} {b : β} {f : σ → β → σ} (hl : l.Nodup) (hb : b ∈ l)
    (hother : ∀ s, ∀ c ∈ l, c ≠ b → g (f s c) = g s) (hown : ∀ s, g (f s b) = φ (g s)) (s : σ) : g (forEach l s f) = φ (g s) := by
  induction l generalizing s with
  | nil => exact absurd hb List.not_mem_nil
  | cons c l ih =>
    obtain ⟨hnot, hrest⟩ := List.nodup_cons.mp hl
    rw [forEach_cons]
    rcases List.mem_cons.mp hb with rfl | hmem
    · rw [forEach_frame_of_mem g (fun s c hc => hother s c (List.mem_cons_of_mem _ hc) (fun h => hnot (h ▸ hc))), hown]
    · rw [ih hrest hmem (fun s c hc => hother s c (List.mem_cons_of_mem _ hc)),
        hother s c List.mem_cons_self (fun h => hnot (h ▸ hmem))]

theorem reg_setBr_far {n a : Nat} (st : Nat) (h : a < 0x10050300 ∨ 0x10050380 < a) : (d.setBr n st).reg a = d.reg a := by
  unfold Dev.setBr
  split
  · rename_i hn
    have hle : n ≤ 0x20 := by
      simp only [hasBridge, Bool.and_eq_true, decide_eq_true_eq] at hn
      exact hn.2
    exact reg_setFld_ne d _ (show a ≠ R.ROAD_BR n by unfold R.ROAD_BR; omega)
  · rfl

theorem reg_reconcileOne {a : Nat} (h : a < 0x10050300 ∨ 0x10050380 < a) : (d.reconcileOne k).reg a = d.reg a := by
  unfold Dev.reconcileOne
  dsimp only
  split
  · rfl
  · split
    · split <;> rfl
    · split
      · split
        · rfl
        · exact reg_setBr_far _ h
      · rfl

theorem reg_startGroup (a : Nat) : d.startGroup.reg a = d.reg a := by
  unfold Dev.startGroup
  split <;> rfl

theorem reg_startFirstGroup (a : Nat) : d.startFirstGroup.reg a = d.reg a := by
  unfold Dev.startFirstGroup
  split
  · exact reg_startGroup a
  · rfl

theorem reg_reconcile {a : Nat} (h : a < 0x10050300 ∨ 0x10050380 < a) : d.reconcile.reg a = d.reg a := by
  unfold Dev.reconcile
  exact (reg_startFirstGroup a).trans (forEach_frame (·.reg a) _ d (fun _ _ => reg_reconcileOne h))

theorem pow_reconcileOne : (d.reconcileOne k).pow =
    if d.pow.rising.getLsbD k || d.pow.falling.getLsbD k then d.pow
    else if (d.pow.goal.getLsbD k && !d.heldOff k) && !d.domOn k then { d.pow with rising := setBit d.pow.rising k true }
    else if !(d.pow.goal.getLsbD k && !d.heldOff k) && d.domOn k then { d.pow with falling := setBit d.pow.falling k true }
    else d.pow := by
  unfold Dev.reconcileOne
  dsimp only
  split
  · rfl
  · split
    · split <;> rfl
    · split
      · split
        · rfl
        · exact (keepsPower_setBr _ _ _).pow
      · rfl

theorem core_reconcile : d.reconcile.core = d.core := by
  unfold Dev.reconcile Dev.startFirstGroup Dev.startGroup
  have hall : (forEach seqDomains d Dev.reconcileOne).core = d.core := forEach_frame Dev.core _ d (fun d k => by
    unfold Dev.reconcileOne
    dsimp only
    split
    · rfl
    · split
      · split <;> rfl
      · split
        · split
          · rfl
          · exact (keepsPower_setBr _ _ _).core
        · rfl)
  split
  · split
    · exact hall
    · exact hall
  · exact hall

theorem boot_reconcile : d.reconcile.pow.boot = d.pow.boot := by
  unfold Dev.reconcile Dev.startFirstGroup Dev.startGroup
  have hall : (forEach seqDomains d Dev.reconcileOne).pow.boot = d.pow.boot := forEach_frame (fun d => d.pow.boot) _ d (fun d k => by
    rw [pow_reconcileOne]
    split
    · rfl
    · split
      · rfl
      · split <;> rfl)
  split
  · split
    · exact hall
    · exact hall
  · exact hall

theorem heldOff_congr (hf : e.pow.forced = d.pow.forced) (hr : e.reg R.SEQ_HSUB = d.reg R.SEQ_HSUB) : e.heldOff k = d.heldOff k := by
  unfold Dev.heldOff
  rw [hf, flag_congr (f := R.SEQ_HSUB_V) hr, fld_congr (f := R.SEQ_HSUB_HALL) hr]

theorem heldOff_reconcileOne : (d.reconcileOne j).heldOff k = d.heldOff k := by
  refine heldOff_congr ?_ (reg_reconcileOne (.inr (by decide)))
  rw [pow_reconcileOne]
  split
  · rfl
  · split
    · rfl
    · split <;> rfl

theorem domOn_reconcileOne : (d.reconcileOne j).domOn k = d.domOn k :=
  congrArg (fun w => w.getLsbD k) (reg_reconcileOne (.inl (by decide)))

/-- A round of the sequencing decides its own domain. -/
theorem domView_reconcileOne_self (hk : k < 25) : (d.reconcileOne k).domView k = (d.domView k).sequenced := by
  unfold Dev.domView DomView.sequenced
  rw [heldOff_reconcileOne, domOn_reconcileOne, pow_reconcileOne]
  dsimp only
  cases hmoves : d.pow.rising.getLsbD k || d.pow.falling.getLsbD k with
  | true => simp only [if_true]
  | false =>
    obtain ⟨hrise, hfall⟩ := Bool.or_eq_false_iff.mp hmoves
    cases d.pow.goal.getLsbD k && !d.heldOff k <;> cases d.domOn k <;>
      simp only [Bool.and_self, Bool.and_true, Bool.and_false, Bool.not_true, Bool.not_false, Bool.false_eq_true, if_true, if_false,
        getLsbD_setBit_same _ _ hk, hrise, hfall]

/-- And no other. -/
theorem domView_reconcileOne_other (h : j ≠ k) : (d.reconcileOne j).domView k = d.domView k := by
  unfold Dev.domView
  rw [heldOff_reconcileOne, domOn_reconcileOne, pow_reconcileOne]
  split
  · rfl
  · split
    · rw [getLsbD_setBit_ne _ _ h.symm]
    · split
      · rw [getLsbD_setBit_ne _ _ h.symm]
      · rfl

theorem domView_startFirstGroup : d.startFirstGroup.domView k = d.domView k := by
  unfold Dev.startFirstGroup Dev.startGroup
  split
  · split <;> rfl
  · rfl

theorem lt_of_mem_seqDomains (h : k ∈ seqDomains) : k < 25 := by
  revert k
  decide

/-- The sequencing of every domain decides each by itself. -/
theorem domView_reconcile (hk : k ∈ seqDomains) : d.reconcile.domView k = (d.domView k).sequenced :=
  domView_startFirstGroup.trans (forEach_at (·.domView k) DomView.sequenced (by decide) hk (fun _ _ _ h => domView_reconcileOne_other h)
    (fun _ => domView_reconcileOne_self (lt_of_mem_seqDomains hk)) d)

theorem domView_reconcile_others (hk : k ∉ seqDomains) : d.reconcile.domView k = d.domView k :=
  domView_startFirstGroup.trans (forEach_frame_of_mem (·.domView k) (fun _ _ hj => domView_reconcileOne_other (by rintro rfl; exact hk hj)) d)

theorem domOn_reconcile : d.reconcile.domOn k = d.domOn k := congrArg (fun w => w.getLsbD k) (reg_reconcile (.inl (by decide)))

/-- A domain that is on does not begin to rise. -/
theorem rising_reconcile (hr : d.pow.rising.getLsbD k = false) (hon : d.domOn k = true) : d.reconcile.pow.rising.getLsbD k = false := by
  by_cases hk : k ∈ seqDomains
  · have h := congrArg DomView.rising (domView_reconcile (d := d) hk)
    simp only [DomView.sequenced, Dev.domView, hr, hon] at h
    rw [h]
    split <;> simp
  · exact (congrArg DomView.rising (domView_reconcile_others hk)).trans hr

/-- A domain that is off does not begin to fall. -/
theorem falling_reconcile (hf : d.pow.falling.getLsbD k = false) (hon : d.domOn k = false) : d.reconcile.pow.falling.getLsbD k = false := by
  by_cases hk : k ∈ seqDomains
  · have h := congrArg DomView.falling (domView_reconcile (d := d) hk)
    simp only [DomView.sequenced, Dev.domView, hf, hon] at h
    rw [h]
    split <;> simp
  · exact (congrArg DomView.falling (domView_reconcile_others hk)).trans hf

/-- A domain that has risen is reached again; the host's interface is asked for the sources that wait for it. -/
def Dev.rejoins (d : Dev) (k st : Nat) : Dev := if k = 2 then (d.setBr (domNode k) st).scanFallback else d.setBr (domNode k) st

theorem keepsPower_rejoins (d : Dev) (k st : Nat) : d.KeepsPower (d.rejoins k st) :=
  .ite ((keepsPower_setBr d _ st).trans (scanFallback_evcOnly _).keepsPower) (keepsPower_setBr d _ st)

/-- A hall that rises is clear and has its supply's nominal step. -/
def Dev.hallRises (d : Dev) (h : Nat) : Dev :=
  ((d.modPow (fun p => { p with trim := if hh : h < 17 then p.trim.set h 0 hh else p.trim })).clearHall h).setCur h (d.fld (R.PWR_HV_NOM h))

theorem reg_clearHall (d : Dev) (h a : Nat) : (d.clearHall h).reg a = d.reg a := rfl

theorem pow_clearHall (d : Dev) (h : Nat) : (d.clearHall h).pow = d.pow := rfl

theorem core_clearHall (d : Dev) (h : Nat) : (d.clearHall h).core = d.core := rfl

theorem reg_setCur (d : Dev) {h c a : Nat} (ha : a ≠ R.PWR_HV h) : (d.setCur h c).reg a = d.reg a :=
  (reg_setFlag_ne _ _ ha).trans (reg_setFld_ne _ _ ha)

theorem reg_hallRises (d : Dev) {h a : Nat} (ha : a ≠ R.PWR_HV h) : (d.hallRises h).reg a = d.reg a :=
  (reg_setCur _ ha).trans (reg_clearHall _ _ _)

/-- A domain's rise: it no longer rises and is on, it is reached again, and what it holds begins anew. -/
theorem riseDomain_eq (d : Dev) (k : Nat) : ∃ st, d.riseDomain k =
    let e := ((d.modPow (fun p => { p with rising := setBit p.rising k false, started := setBit p.started k false })).setOn k true).rejoins k st
    if isHallDom k then e.hallRises (k - 8) else if k = 4 then { e with link := { e.link with training := 0xF } } else e := ⟨_, rfl⟩

/-- What a domain's rise leaves of the registers of PWR: PWR_DSTAT shows it on. -/
theorem reg_riseDomain {a : Nat} (ha : a < 0x10030000) (hv : a ≠ R.PWR_HV (k - 8)) :
    (d.riseDomain k).reg a = (d.setOn k true).reg a := by
  obtain ⟨st, h⟩ := riseDomain_eq d k
  rw [h]
  have hkeep := (keepsPower_rejoins ((d.modPow (fun p => { p with
    rising := setBit p.rising k false, started := setBit p.started k false })).setOn k true) k st).reg a ha
  dsimp only
  split
  · exact (reg_hallRises _ hv).trans hkeep
  · split
    · exact hkeep
    · exact hkeep

theorem pow_riseDomain (d : Dev) (k : Nat) : (d.riseDomain k).pow.rising = setBit d.pow.rising k false ∧
    (d.riseDomain k).pow.boot = d.pow.boot ∧ (d.riseDomain k).core = d.core := by
  obtain ⟨st, h⟩ := riseDomain_eq d k
  rw [h]
  obtain ⟨_, hpow, hcore⟩ := keepsPower_rejoins ((d.modPow (fun p => { p with
    rising := setBit p.rising k false, started := setBit p.started k false })).setOn k true) k st
  have hrise := congrArg PowerState.rising hpow
  have hboot := congrArg PowerState.boot hpow
  dsimp only
  split
  · exact ⟨hrise, hboot, hcore⟩
  · split
    · exact ⟨hrise, hboot, hcore⟩
    · exact ⟨hrise, hboot, hcore⟩

end Sys2Proof.Machine
end

section
/-! What a full reset or a loss of the supplies leaves (R377, R378, R407): NVS, and of the registers a few. -/

namespace Sys2Proof.Machine

variable {d e : Dev} {k a : Nat} {cause : OffCause}

/-- Outside its range, a part of a bank holds nothing. -/
theorem bankGet_bankPart_append_outside {α : Type} {dflt : Nat → α} (m r : List (Nat × α)) {lo hi : Nat} (h : ¬(lo ≤ k ∧ k < hi)) :
    bankGet dflt (bankPart m lo hi ++ r) k = bankGet dflt r k := by
  induction m with
  | nil => rfl
  | cons p m ih =>
    obtain ⟨b, v⟩ := p
    unfold bankPart at ih ⊢
    by_cases hb : lo ≤ b ∧ b < hi
    · rw [List.filter_cons_of_pos (by simpa using hb), List.cons_append, bankGet, if_neg (by rintro rfl; exact h hb), ih]
    · rw [List.filter_cons_of_neg (by simpa using hb), ih]

/-- In its range it is the bank. -/
theorem bankGet_bankPart_append_inside {α : Type} {dflt : Nat → α} (m : List (Nat × α)) {r : List (Nat × α)} {lo hi : Nat}
    (hlo : lo ≤ k) (hhi : k < hi) (hr : bankGet dflt r k = dflt k) : bankGet dflt (bankPart m lo hi ++ r) k = bankGet dflt m k := by
  induction m with
  | nil => exact hr
  | cons p m ih =>
    obtain ⟨b, v⟩ := p
    unfold bankPart at ih ⊢
    by_cases hb : lo ≤ b ∧ b < hi
    · rw [List.filter_cons_of_pos (by simpa using hb), List.cons_append, bankGet, bankGet, ih]
    · rw [List.filter_cons_of_neg (by simpa using hb), ih, bankGet, if_neg (by rintro rfl; exact hb ⟨hlo, hhi⟩)]

theorem bankGet_bankPart_outside {α : Type} {dflt : Nat → α} (m : List (Nat × α)) {lo hi : Nat} (h : ¬(lo ≤ k ∧ k < hi)) :
    bankGet dflt (bankPart m lo hi) k = dflt k := by
  rw [← List.append_nil (bankPart m lo hi), bankGet_bankPart_append_outside m [] h]
  rfl

theorem mem_wipeAll (d : Dev) : d.wipeAll.mem = bankPart d.mem 0x20000000 0x20800000 ++ bankPart d.mem 0x41700000 0x41800000 := by
  simp [Dev.wipeAll]

/-- NVS is kept. -/
theorem byte_wipeAll_nvs (hlo : 0x20000000 ≤ a) (hhi : a < 0x20800000) : d.wipeAll.byte a = d.byte a := by
  unfold Dev.byte
  rw [mem_wipeAll, bankGet_bankPart_append_inside _ hlo hhi (bankGet_bankPart_outside _ (by omega))]

/-- And the ordinary gallery is cleared. -/
theorem byte_wipeAll_gallery (hlo : 0x40000000 ≤ a) (hhi : a < 0x41700000) : d.wipeAll.byte a = byteReset a := by
  unfold Dev.byte
  rw [mem_wipeAll, bankGet_bankPart_append_outside _ _ (by omega), bankGet_bankPart_outside _ (by omega)]

theorem pow_preset (d : Dev) (b : Nat) (v : Word) : (d.preset b v).pow = d.pow := rfl

theorem reg_presetPwr (d : Dev) (h : ∀ n : HallId, a ≠ R.PWR_HV n.val) : d.presetPwr.reg a = d.reg a := by
  unfold Dev.presetPwr
  refine forEach_frame (fun e : Dev => e.reg a) (List.finRange 17) d (fun e n => ?_)
  exact reg_preset_ne _ _ (h n)

theorem pow_presetPwr (d : Dev) : d.presetPwr.pow = d.pow := by
  unfold Dev.presetPwr
  refine forEach_frame Dev.pow (List.finRange 17) d (fun e n => ?_)
  exact pow_preset _ _ _

/-- The registers that a full reset does not leave at their reset values. -/
def keptRegs : List Nat :=
  [R.PWR_RSTC, R.PWR_TAMP, R.PWR_TAMPEN, lockAddr .pwr, R.PWR_THERM, R.SEC_KEYS, R.SEC_LCS, R.DBG_STAT, R.DBG_LVLSET]

theorem reg_wipeAll (d : Dev) (h : a ∉ keptRegs) (hv : ∀ n : HallId, a ≠ R.PWR_HV n.val) : d.wipeAll.reg a = regReset a := by
  simp only [keptRegs, List.mem_cons, List.not_mem_nil, or_false, not_or] at h
  obtain ⟨hrstc, htamp, htampen, hlock, htherm, hkeys, hlcs, hstat, hlvl⟩ := h
  unfold Dev.wipeAll
  dsimp only
  rw [reg_presetPwr _ hv, reg_setReg_ne _ _ hlvl, reg_setFld_ne _ _ hstat]
  simp only [List.map_cons, List.map_nil, forEach_cons, forEach_nil]
  rw [reg_setFld_ne _ _ hlcs, reg_setFld_ne _ _ hlcs, reg_setFld_ne _ _ hlcs, reg_setFld_ne _ _ hkeys, reg_setFld_ne _ _ hkeys,
    reg_setFlag_ne _ _ htherm, reg_setReg_ne _ _ hlock, reg_setReg_ne _ _ htampen, reg_setReg_ne _ _ htamp, reg_setReg_ne _ _ hrstc]
  rfl

theorem pow_wipeAll (d : Dev) : d.wipeAll.pow =
    { rprFuse := d.pow.rprFuse, rfl := d.pow.rfl, resetLow := d.pow.resetLow, vinOut := d.pow.vinOut, aonTime := d.pow.aonTime } := by
  unfold Dev.wipeAll
  dsimp only
  rw [pow_presetPwr]
  rfl

end Sys2Proof.Machine
end

section
/-! The loss of the supplies (R377, R378, R383, R469): the part is OFF, and NVS is kept. -/

namespace Sys2Proof.Machine

variable {d e t : Dev} {k a : Nat} {cause : OffCause}

theorem mode_setMode (d : Dev) {m : Nat} (h : m < 16) : (d.setFld R.PWR_MSTAT_MODE m).mode = m :=
  (fld_setFld_same d R.PWR_MSTAT_MODE m (by decide)).trans (Nat.mod_eq_of_lt h)

theorem domOn_of_reg (h : e.reg R.PWR_DSTAT = d.reg R.PWR_DSTAT) (k : Nat) : e.domOn k = d.domOn k :=
  congrArg (fun w => w.getLsbD k) h

theorem mode_of_reg (h : e.reg R.PWR_MSTAT = d.reg R.PWR_MSTAT) : e.mode = d.mode := fld_congr (f := R.PWR_MSTAT_MODE) h

/-- t is OFF by the cause, with the NVS of d. -/
def Dev.WentOff (d t : Dev) (cause : OffCause) : Prop :=
  t.mode = 0 ∧ t.domOn 0 = false ∧ t.pow.off = some cause ∧ (∀ a, 0x20000000 ≤ a → a < 0x20800000 → t.byte a = d.byte a)

theorem Dev.WentOff.setFlag (h : d.WentOff t cause) {f : Fld} (b : Bool) (hm : R.PWR_MSTAT ≠ f.addr) (hs : R.PWR_DSTAT ≠ f.addr) :
    d.WentOff (t.setFlag f b) cause := by
  obtain ⟨hmode, hon, hoff, hnvs⟩ := h
  exact ⟨(mode_of_reg (reg_setFlag_ne t b hm)).trans hmode, (domOn_of_reg (reg_setFlag_ne t b hs) 0).trans hon, hoff, hnvs⟩

theorem Dev.WentOff.of_mem (h : e.WentOff t cause) (hm : e.mem = d.mem) : d.WentOff t cause := by
  obtain ⟨hmode, hon, hoff, hnvs⟩ := h
  exact ⟨hmode, hon, hoff, fun a hlo hhi => (hnvs a hlo hhi).trans (by rw [Dev.byte, hm, Dev.byte])⟩

theorem domOn_wipeAll (d : Dev) (k : Nat) : d.wipeAll.domOn k = false :=
  (domOn_of_reg (e := d.wipeAll) (d := State.reset.dev) (reg_wipeAll d (by decide) (by decide)) k).trans (domOn_reset k)

theorem reg_modPow (d : Dev) (f : PowerState → PowerState) (a : Nat) : (d.modPow f).reg a = d.reg a := rfl

theorem pow_modPow (d : Dev) (f : PowerState → PowerState) : (d.modPow f).pow = f d.pow := rfl

theorem wentOff_collapse (d : Dev) (cause : OffCause) : d.WentOff (d.collapse cause) cause := by
  unfold Dev.collapse
  dsimp only
  refine ⟨?mode, ?on, ?off, fun a hlo hhi => ?nvs⟩
  case mode =>
    exact mode_setMode _ (by decide)
  case on =>
    refine (domOn_of_reg ?_ 0).trans (domOn_wipeAll d 0)
    rw [reg_setFld_ne _ _ (by decide), reg_setFld_ne _ _ (by decide), reg_modPow]

  case off =>
    rw [pow_setFld, pow_setFld, pow_modPow]
  case nvs =>
    refine (congrArg (fun m => bankGet byteReset m a) ?_).trans (byte_wipeAll_nvs hlo hhi)
    rw [mem_setFld, mem_setFld, mem_modPow]

theorem wentOff_vmidOff (d : Dev) (cause : OffCause) : d.WentOff (d.vmidOff cause) cause :=
  (wentOff_collapse d cause).setFlag true (by decide) (by decide)

theorem wentOff_vinOff (d : Dev) : d.WentOff d.vinOff .vin := by
  unfold Dev.vinOff
  dsimp only
  split
  · exact .of_mem ((wentOff_collapse d.fresh.2 .vin).setFlag true (by decide) (by decide)) rfl
  · refine ⟨mode_setMode _ (by decide), ?on, ?off, fun a hlo hhi => ?nvs⟩
    case on =>
      refine (domOn_of_reg ?_ 0).trans (domOn_reset 0)
      rw [reg_setFld_ne _ _ (by decide), reg_presetPwr _ (by decide), reg_setReg_ne _ _ (by decide), reg_setFld_ne _ _ (by decide)]
      simp only [forEach_cons, forEach_nil]
      rw [reg_setFld_ne _ _ (by decide), reg_setFld_ne _ _ (by decide), reg_setFld_ne _ _ (by decide), reg_setFld_ne _ _ (by decide),
        reg_setFld_ne _ _ (by decide)]
      rfl
    case off =>
      rw [pow_setFld, pow_presetPwr, pow_setReg, pow_setFld]
      simp only [forEach_cons, forEach_nil, pow_setFld]
    case nvs =>
      obtain ⟨_, _, _, hnvs⟩ := wentOff_collapse d.fresh.2 .vin
      refine Eq.trans ?_ (hnvs a hlo hhi)
      unfold Dev.byte
      rw [mem_setFld, mem_presetPwr, mem_setReg, mem_setFld, ← bankGet_bankPart_append_inside (d.fresh.2.collapse .vin).mem (r := []) hlo hhi rfl,
        List.append_nil]
      simp only [forEach_cons, forEach_nil, mem_setFld]

end Sys2Proof.Machine
end

section
/-! Start-up's last step (R378, R400, R410): the part with core 0's domain on, in BOOT or, without a crystal, in QUARANTINE. -/

namespace Sys2Proof.Machine

variable {d e : Dev} {k a m : Nat}

theorem keepsPower_presetRoad (d : Dev) : d.KeepsPower d.presetRoad := by
  unfold Dev.presetRoad
  refine .trans (keepsPower_forEach (List.range 64) (fun d n => ?_) d)
    (keepsPower_forEach (List.range 10) (fun d r => keepsPower_forEach allNodes (fun d n => ?_) d) _)
  · dsimp only
    split
    · exact .refl d
    · exact keepsPower_preset d _ (show 0x10030000 ≤ R.ROAD_TID n by unfold R.ROAD_TID; omega)
  · exact keepsPower_preset d _ (show 0x10030000 ≤ R.ROAD_RT r n by unfold R.ROAD_RT; omega)

theorem keepsPower_syncSec (d : Dev) : d.KeepsPower d.syncSec := by
  unfold Dev.syncSec
  exact ((keepsPower_setFlag d _ (by decide)).trans (keepsPower_setFlag _ _ (by decide))).trans (keepsPower_setFld _ _ (by decide))

theorem keepsPower_presetBridges (d : Dev) : d.KeepsPower (forEach ((List.range 33).filter hasBridge) d (fun d n =>
    match nodeDom n with
    | some k => if d.domOn k then d else d.setBr n 3
    | none => d)) := by
  refine keepsPower_forEach _ (fun d n => ?_) d
  split
  · exact .ite (.refl d) (keepsPower_setBr d n 3)
  · exact .refl d

theorem keepsPower_setGal (d : Dev) (g : GalState) : d.KeepsPower { d with gal := g } := ⟨fun _ _ => rfl, rfl, rfl⟩

theorem keepsPower_setStaged (d : Dev) (a : Nat) (v : Word) : d.KeepsPower (d.setStaged a v) := ⟨fun _ _ => rfl, rfl, rfl⟩

theorem reg_releaseCore (d : Dev) (c : CoreId) (pc : Word) (a : Nat) : (d.releaseCore c pc).reg a = d.reg a := rfl

/-- What core 0's domain is given when it comes up are registers of other blocks. -/
theorem keepsPower_presetCore (d : Dev) : d.KeepsPower d.presetCore := by
  unfold Dev.presetCore
  dsimp only
  refine .trans ?_ (keepsPower_syncSec _)
  refine .trans ?_ (keepsPower_setGal _ _)
  refine .trans ?_ (keepsPower_presetBridges _)
  refine .trans ?_ (keepsPower_presetRoad _)
  refine .trans ?_ (keepsPower_setReg _ _ (by decide))
  refine .trans ?_ (keepsPower_setStaged _ _ _)
  refine (keepsPower_preset d _ (show 0x10030000 ≤ R.SEQ_CTRL by decide)).trans (keepsPower_forEach _ (fun d p => ?_) _)
  exact keepsPower_setReg d _ (show 0x10030000 ≤ R.GAL_RPR p.1 by unfold R.GAL_RPR; omega)

theorem reg_coreOn (ha : a < 0x10030000) (hd : a ≠ R.PWR_DSTAT) : d.coreOn.reg a = d.reg a := by
  unfold Dev.coreOn
  split
  · rfl
  · rw [reg_releaseCore, (keepsPower_presetCore _).reg a ha, Dev.setOn, reg_setReg_ne d _ hd]

theorem domOn_coreOn : d.coreOn.domOn 0 = true := by
  unfold Dev.coreOn
  split
  · assumption
  · rw [Dev.domOn, reg_releaseCore, (keepsPower_presetCore _).reg _ (by decide), Dev.setOn, reg_setReg_same, getLsbD_setBit_same _ _ (by decide)]

theorem reg_setMode (ha : a ≠ R.PWR_MSTAT) : (d.setMode m).reg a = d.reg a := by
  unfold Dev.setMode
  exact (reg_raise _ _ _).trans ((reg_setFld_ne _ _ ha).trans ((reg_setFld_ne _ _ ha).trans (reg_setFlag_ne _ _ ha)))

theorem mode_set (hm : m < 16) : (d.setMode m).mode = m := by
  unfold Dev.setMode
  exact (mode_of_reg (reg_raise _ _ _)).trans (mode_setMode _ hm)

theorem reg_followMode : (d.followMode m k).reg a = d.reg a := by
  unfold Dev.followMode
  split <;> rfl

theorem reg_applyMode (ha : a < 0x10050300 ∨ 0x10050380 < a) : (d.applyMode m).reg a = d.reg a :=
  (reg_reconcile ha).trans (forEach_frame (·.reg a) seqDomains d (fun _ _ => reg_followMode))

theorem reg_quarantine (ha : a < 0x10050300 ∨ 0x10050380 < a) (hm : a ≠ R.PWR_MSTAT) : d.quarantine.reg a = d.reg a :=
  (reg_applyMode ha).trans (reg_setMode hm)

theorem mode_quarantine : d.quarantine.mode = 3 :=
  (mode_of_reg (reg_applyMode (.inl (by decide)))).trans (mode_set (by decide))

theorem reg_enablePlls (h : ∀ n, a ≠ R.CLK_PLL n) (hf : ∀ n, a ≠ R.CLK_PLLF n) : d.enablePlls.reg a = d.reg a := by
  unfold Dev.enablePlls
  refine forEach_frame (fun e : Dev => e.reg a) [0, 1] d (fun e n => ?_)
  dsimp only
  split
  · exact (reg_preset_ne _ _ (hf n)).trans (reg_preset_ne _ _ (h n))
  · exact (reg_preset_ne _ _ (hf n)).trans (reg_preset_ne _ _ (h n))

/-- The state in which start-up ends, before the crystal decides. -/
def Dev.bootsFrom (d : Dev) : Dev := (((d.modPow (fun p => { p with fromStandby := false })).coreOn).setMode 2).applyMode 2

theorem reg_bootsFrom (ha : a < 0x10030000) (hd : a ≠ R.PWR_DSTAT) (hm : a ≠ R.PWR_MSTAT) : d.bootsFrom.reg a = d.reg a :=
  (reg_applyMode (.inl (by omega))).trans ((reg_setMode hm).trans (reg_coreOn ha hd))

theorem domOn_bootsFrom : d.bootsFrom.domOn 0 = true :=
  (domOn_of_reg ((reg_applyMode (.inl (by decide))).trans (reg_setMode (by decide))) 0).trans domOn_coreOn

theorem mode_bootsFrom : d.bootsFrom.mode = 2 := (mode_of_reg (reg_applyMode (.inl (by decide)))).trans (mode_set (by decide))

/-- The straps as PWR_STRAP shows them, unless the part comes from STANDBY. -/
def Dev.showStraps (d : Dev) : Dev :=
  match d.pow.straps with
  | some st => if d.pow.fromStandby then d else d.setReg R.PWR_STRAP (BitVec.ofNat 32
      (st.part.toNat * 2 ^ 12 + bn st.xsel * 2 ^ 11 + st.safe.toNat * 2 ^ 9 + bn st.hostw * 2 ^ 8 + st.chipid.toNat * 2 ^ 5 +
        st.oscdly.toNat * 4 + st.boot.toNat))
  | none => d

theorem reg_showStraps (ha : a ≠ R.PWR_STRAP) : d.showStraps.reg a = d.reg a := by
  unfold Dev.showStraps
  split
  · split
    · rfl
    · exact reg_setReg_ne _ _ ha
  · rfl

theorem tryBoot_eq (h : (!(d.mode = 1 || d.pow.fromStandby) || !d.pow.aonGood || !d.pow.vmidGood || !d.pow.xtaDone) = false) :
    d.tryBoot = if d.showStraps.bootsFrom.flag R.CLK_STAT_XFAIL then d.showStraps.bootsFrom.quarantine
      else d.showStraps.bootsFrom.enablePlls := by
  unfold Dev.tryBoot
  dsimp only
  rw [h, if_neg Bool.false_ne_true]
  rfl

/-- With AON, VMID and the reference there, start-up ends. -/
theorem tryBoot_boots (hmode : d.mode = 1 ∨ d.pow.fromStandby = true) (ha : d.pow.aonGood = true) (hv : d.pow.vmidGood = true)
    (hx : d.pow.xtaDone = true) : d.tryBoot.domOn 0 = true ∧ d.tryBoot.mode = if d.flag R.CLK_STAT_XFAIL then 3 else 2 := by
  have hgo : (!(d.mode = 1 || d.pow.fromStandby) || !d.pow.aonGood || !d.pow.vmidGood || !d.pow.xtaDone) = false := by
    rcases hmode with h | h <;> simp [h, ha, hv, hx]
  have hxfail : d.showStraps.bootsFrom.flag R.CLK_STAT_XFAIL = d.flag R.CLK_STAT_XFAIL :=
    flag_congr ((reg_bootsFrom (by decide) (by decide) (by decide)).trans (reg_showStraps (by decide)))
  rw [tryBoot_eq hgo, hxfail]
  split
  · exact ⟨(domOn_of_reg (reg_quarantine (.inl (by decide)) (by decide)) 0).trans domOn_bootsFrom, mode_quarantine⟩
  · have hpll : ∀ a, a < 0x10020000 → d.showStraps.bootsFrom.enablePlls.reg a = d.showStraps.bootsFrom.reg a := fun a ha =>
      reg_enablePlls (fun n => by unfold R.CLK_PLL; omega) (fun n => by unfold R.CLK_PLLF; omega)
    exact ⟨(domOn_of_reg (hpll _ (by decide)) 0).trans domOn_bootsFrom, (mode_of_reg (hpll _ (by decide))).trans mode_bootsFrom⟩

end Sys2Proof.Machine
end

section
/-! Supplies, domains, trips and start-up (R377 to R383, R387, R394, R400, R410, R469). The result of AON_POWER_GOOD_TIMEOUT, that
the part stays as it was, is the model's choice (log entry 63). -/

namespace Sys2Proof.Machine

variable {d : Dev} {k : Nat} {v : Word}

theorem vinSample_inside {mv : BitVec 16} {lo hi : Nat} (hmode : d.mode ≠ 0) (hon : d.aonOn = true) (hlow : 3800 ≤ mv.toNat)
    (hhigh : mv.toNat ≤ 22000) : d.vinSample mv lo hi =
      let t := ({ d with pow := { d.pow with vinOut := decide (mv.toNat < 4200 ∨ 20000 < mv.toNat) } } : Dev).setFld R.PWR_VIN_MV mv.toNat
      let t := if mv.toNat < 4000 ∧ 10 ≤ lo then (t.setFlag R.PWR_VSTAT_UVW true).raise 0xE1 else t
      if 21000 < mv.toNat ∧ 10 ≤ hi then (t.setFlag R.PWR_VSTAT_OVW true).raise 0xE1 else t := by
  have hin : (decide (mv.toNat < 3800) || decide (22000 < mv.toNat)) = false := by
    simp only [Bool.or_eq_false_iff, decide_eq_false_iff_not]
    omega
  have hmode' : ¬ (d.modPow (fun p => { p with vinOut := decide (mv.toNat < 4200 ∨ 20000 < mv.toNat) })).mode = 0 := hmode
  have hon' : (d.modPow (fun p => { p with vinOut := decide (mv.toNat < 4200 ∨ 20000 < mv.toNat) })).aonOn = true := hon
  unfold Dev.vinSample
  dsimp only
  rw [if_neg hmode', hin, if_neg Bool.false_ne_true, hon', Bool.not_true, if_neg Bool.false_ne_true]
  simp only [Bool.and_eq_true, decide_eq_true_eq]
  rfl

theorem vinSample_outside {mv : BitVec 16} (lo hi : Nat) (hmode : d.mode ≠ 0) (hout : mv.toNat < 3800 ∨ 22000 < mv.toNat) :
    d.WentOff (d.vinSample mv lo hi) .vin := by
  have hmode' : ¬ (d.modPow (fun p => { p with vinOut := decide (mv.toNat < 4200 ∨ 20000 < mv.toNat) })).mode = 0 := hmode
  unfold Dev.vinSample
  dsimp only
  rw [if_neg hmode', if_pos (by simpa only [Bool.or_eq_true, decide_eq_true_eq] using hout)]
  refine (wentOff_vinOff _).of_mem ?_
  split
  · rfl
  · split <;> split <;> simp

theorem vmidUnder_off (hon : d.aonOn = true) (hmode : d.mode ≠ 4 ∨ d.pow.fromStandby = true) : d.WentOff d.vmidUnder .vmid := by
  unfold Dev.vmidUnder
  rw [if_pos (by simpa [hon] using hmode)]
  exact wentOff_vmidOff d .vmid

/-- A request of domains: the goal of a domain that the mode leaves to it is the register's bit. -/
def Dev.requestedGoal (d : Dev) (v : Word) : BitVec 25 :=
  forEach seqDomains d.pow.goal (fun g k => if domUse d.mode k = .cfg then setBit g k ((v &&& 0x01FFFF3F).getLsbD k) else g)

theorem getLsbD_requestedGoal (d : Dev) (v : Word) (hk : k ∈ seqDomains) :
    (d.requestedGoal v).getLsbD k = if domUse d.mode k = .cfg then v.getLsbD k else d.pow.goal.getLsbD k := by
  have hmask : (v &&& 0x01FFFF3F).getLsbD k = v.getLsbD k := by
    have hbit : (0x01FFFF3F : Word).getLsbD k = true := by
      revert hk
      revert k
      decide
    rw [BitVec.getLsbD_and, hbit, Bool.and_true]
  refine forEach_at (fun g : BitVec 25 => g.getLsbD k) (fun b => if domUse d.mode k = .cfg then v.getLsbD k else b) (by decide) hk ?_ ?_
    d.pow.goal
  · intro g j _ hne
    split
    · exact getLsbD_setBit_ne _ _ (Ne.symm hne)
    · rfl
  · intro g
    split
    · rw [getLsbD_setBit_same _ _ (lt_of_mem_seqDomains hk), hmask]
    · rfl

theorem requestDomains_eq (d : Dev) (v : Word) : d.requestDomains v =
    ((d.setReg R.PWR_DREQ (v &&& 0x01FFFF3F)).modPow (fun p => { p with goal := d.requestedGoal v })).reconcile := by
  have hmode : (d.setReg R.PWR_DREQ (v &&& 0x01FFFF3F)).mode = d.mode := mode_of_reg (reg_setReg_ne _ _ (by decide))
  unfold Dev.requestDomains
  dsimp only
  rw [hmode, reg_setReg_same]
  rfl

theorem domView_of_goal {d e : Dev} (hf : e.pow.forced = d.pow.forced) (hh : e.reg R.SEQ_HSUB = d.reg R.SEQ_HSUB)
    (hs : e.reg R.PWR_DSTAT = d.reg R.PWR_DSTAT) (hr : e.pow.rising = d.pow.rising) (hg : e.pow.falling = d.pow.falling) :
    e.domView k = { d.domView k with goal := e.pow.goal.getLsbD k } := by
  unfold Dev.domView
  rw [heldOff_congr hf hh, domOn_of_reg hs, hr, hg]

theorem domView_requestDomains (d : Dev) (v : Word) (hk : k ∈ seqDomains) :
    (d.requestDomains v).domView k = ({ d.domView k with goal := (d.requestedGoal v).getLsbD k } : DomView).sequenced := by
  rw [requestDomains_eq, domView_reconcile hk]
  exact congrArg DomView.sequenced (domView_of_goal rfl (reg_setReg_ne d _ (by decide)) (reg_setReg_ne d _ (by decide)) rfl rfl)

theorem requestDomains_decides (d : Dev) (v : Word) : (d.requestDomains v).reg R.PWR_DREQ = v &&& 0x01FFFF3F ∧
    ∀ k ∈ seqDomains, (d.requestDomains v).pow.goal.getLsbD k = (if domUse d.mode k = .cfg then v.getLsbD k else d.pow.goal.getLsbD k) ∧
      (d.pow.rising.getLsbD k = false → d.pow.falling.getLsbD k = false →
        (d.requestDomains v).pow.rising.getLsbD k = ((d.requestDomains v).pow.goal.getLsbD k && !d.heldOff k && !d.domOn k) ∧
        (d.requestDomains v).pow.falling.getLsbD k = (!((d.requestDomains v).pow.goal.getLsbD k && !d.heldOff k) && d.domOn k)) := by
  refine ⟨?_, fun k hk => ?_⟩
  · rw [requestDomains_eq, reg_reconcile (.inl (by decide)), reg_modPow, reg_setReg_same]
  · have hview := domView_requestDomains d v hk
    have hgoal : (d.requestDomains v).pow.goal.getLsbD k = (d.requestedGoal v).getLsbD k := by
      refine (congrArg DomView.goal hview).trans ?_
      unfold DomView.sequenced
      split <;> rfl
    refine ⟨hgoal.trans (getLsbD_requestedGoal d v hk), fun hr hf => ?_⟩
    have hmoves : (d.pow.rising.getLsbD k || d.pow.falling.getLsbD k) = false := by rw [hr, hf, Bool.or_self]
    have hstep : (d.requestDomains v).domView k = ⟨(d.requestedGoal v).getLsbD k, d.heldOff k, d.domOn k,
        (d.requestedGoal v).getLsbD k && !d.heldOff k && !d.domOn k, !((d.requestedGoal v).getLsbD k && !d.heldOff k) && d.domOn k⟩ := by
      rw [hview]
      exact if_neg (by simp [Dev.domView, hr, hf])
    rw [hgoal]
    exact ⟨congrArg DomView.rising hstep, congrArg DomView.falling hstep⟩

theorem dstat_ne_hv (n : Nat) : R.PWR_DSTAT ≠ R.PWR_HV n := by
  unfold R.PWR_DSTAT R.PWR_HV
  omega

theorem mstat_ne_hv {n : Nat} (h : n < 17) : R.PWR_MSTAT ≠ R.PWR_HV n := by
  unfold R.PWR_MSTAT R.PWR_HV
  omega

/-- A domain that may come up is on, and no longer rises. -/
theorem domainUp_up (hk : k < 25) (hr : d.pow.rising.getLsbD k = true) (hs : isHallDom k = true → d.pow.started.getLsbD k = true)
    (ho : d.owedTo (domNode k) = []) : (d.domainUp k).domOn k = true ∧ (d.domainUp k).pow.rising.getLsbD k = false := by
  have hgo : (d.pow.rising.getLsbD k && (!isHallDom k || d.pow.started.getLsbD k) && (d.owedTo (domNode k)).isEmpty) = true := by
    cases hh : isHallDom k
    · simp [hr, ho]
    · simp [hr, ho, hs hh]
  have hon : (d.riseDomain k).domOn k = true := by
    refine (domOn_of_reg (reg_riseDomain (by decide) (dstat_ne_hv _)) k).trans ?_
    rw [Dev.domOn, Dev.setOn, reg_setReg_same, getLsbD_setBit_same _ _ (hk.trans (by decide))]
  have hrise : (d.riseDomain k).pow.rising.getLsbD k = false := by
    rw [(pow_riseDomain d k).1, getLsbD_setBit_same _ _ hk]
  unfold Dev.domainUp
  rw [hgo, if_pos rfl]
  exact ⟨domOn_reconcile.trans hon, rising_reconcile hrise hon⟩

theorem beforeStep6_congr {d e : Dev} (hm : e.mode = d.mode) (hb : e.pow.boot = d.pow.boot) (hc : e.core = d.core) :
    e.beforeStep6 = d.beforeStep6 := by
  unfold Dev.beforeStep6 Dev.co
  rw [hm, hb, hc]

theorem beforeStep6_domainUp (hk : k < 25) : (d.domainUp k).beforeStep6 = d.beforeStep6 := by
  unfold Dev.domainUp
  split
  · obtain ⟨_, hboot, hcore⟩ := pow_riseDomain d k
    have hreg : (d.riseDomain k).reg R.PWR_MSTAT = d.reg R.PWR_MSTAT :=
      (reg_riseDomain (by decide) (mstat_ne_hv (by omega))).trans (reg_setReg_ne d _ (by decide))
    exact beforeStep6_congr (mode_of_reg ((reg_reconcile (.inl (by decide))).trans hreg)) (boot_reconcile.trans hboot)
      (core_reconcile.trans hcore)
  · rfl

theorem domainRisen_eq (hk : k < 25) (h : k = 5 → d.beforeStep6 = false) : d.domainRisen k = d.domainUp k := by
  unfold Dev.domainRisen
  split
  · rename_i hroad
    unfold Dev.tryStep6
    rw [beforeStep6_domainUp hk, h hroad]
    rfl
  · rfl

/-- A domain that may go off is off, and no longer falls. -/
theorem domainOff_off (hk : k < 25) (hf : d.pow.falling.getLsbD k = true) (hi : d.isolated k = true) :
    (d.domainOff k).domOn k = false ∧ (d.domainOff k).pow.falling.getLsbD k = false := by
  unfold Dev.domainOff
  rw [hf, hi, Bool.and_self, if_pos rfl]
  obtain ⟨hreg, hpow, _⟩ := keepsPower_loseDomain
    ((d.modPow (fun p => { p with falling := setBit p.falling k false })).setOn k false) k
  have hon : (((d.modPow (fun p => { p with falling := setBit p.falling k false })).setOn k false).loseDomain k).domOn k = false := by
    refine (domOn_of_reg (hreg _ (by decide)) k).trans ?_
    rw [Dev.domOn, Dev.setOn, reg_setReg_same, getLsbD_setBit_same _ _ (hk.trans (by decide))]
  refine ⟨domOn_reconcile.trans hon, falling_reconcile ?_ hon⟩
  rw [hpow]
  exact getLsbD_setBit_same _ _ hk

/-! Trips (R382, R383, R406). -/

/-- A trip as it is recorded, with its event. -/
def Dev.trips (d : Dev) (k : Nat) : Dev := (d.setFld R.PWR_MONF_TRIP (d.fld R.PWR_MONF_TRIP ||| 2 ^ k)).raise 0xE0

theorem supplyTrip_core (us : Nat) (h : d.monitored 0 = true) : d.supplyTrip 0 us = { d.trips 0 with fatal := some 4 } := by
  have hkind : isHallDom 0 = false := by decide
  unfold Dev.supplyTrip
  simp only [hkind, h, Nat.reduceEqDiff, Bool.false_eq_true, Bool.not_true, if_false, dif_neg, not_false_eq_true, if_true]
  rfl

theorem supplyTrip_domain (us : Nat) (hlo : 1 ≤ k) (hhi : k ≤ 5) (h : d.monitored k = true) :
    d.supplyTrip k us = (d.trips k).declareDead (domNode k) := by
  have hkind : isHallDom k = false := by
    unfold isHallDom
    simp only [Bool.and_eq_false_iff, decide_eq_false_iff_not]
    omega
  unfold Dev.supplyTrip
  dsimp only
  rw [if_neg (by omega), if_neg (by omega), dif_neg (by rw [hkind]; exact Bool.false_ne_true), if_neg (by rw [h]; exact Bool.false_ne_true),
    if_neg (by omega)]
  rfl

theorem supplyTrip_hall (us : Nat) (g : HallId) (h : d.monitored (8 + g.val) = true) : d.supplyTrip (8 + g.val) us = d.hallTrip g := by
  have hkind : isHallDom (8 + g.val) = true := by clear h; revert g; decide
  have hstill : d.pow.rising.getLsbD (8 + g.val) = false := by
    simp only [Dev.monitored, Bool.and_eq_true, Bool.not_eq_true'] at h
    exact h.1.2
  have hg : (⟨(8 + g.val - 8) % 17, by omega⟩ : HallId) = g := Fin.ext (by simp only; omega)
  unfold Dev.supplyTrip
  dsimp only
  rw [if_neg (by omega), if_neg (by omega), dif_pos hkind, hstill, Bool.false_and, if_neg Bool.false_ne_true, if_pos h, hg]

theorem hallTrip_eq (d : Dev) (g : HallId) :
    d.hallTrip g = { d.trips (8 + g.val) with arr := { d.arr with reports := d.arr.reports ++ [.dead g] } } := by
  have harr : (d.trips (8 + g.val)).arr = d.arr := arr_raise _ _
  unfold Dev.hallTrip
  dsimp only
  rw [show ((d.setFld R.PWR_MONF_TRIP (d.fld R.PWR_MONF_TRIP ||| 2 ^ (8 + g.val))).raise 0xE0).arr = d.arr from harr]
  rfl

theorem supplyTrip_aon {us : Nat} (hon : d.aonOn = true) (hmode : d.mode ≠ 4 ∨ d.pow.fromStandby = true) (hus : us < 50) :
    d.supplyTrip 6 us = d.trips 6 := by
  have hstays : (!d.aonOn || (decide (d.mode = 4) && !d.pow.fromStandby)) = false := by
    rcases hmode with h | h <;> simp [hon, h]
  unfold Dev.supplyTrip
  dsimp only
  rw [if_pos rfl, hstays, if_neg Bool.false_ne_true, if_neg (by omega)]
  rfl

/-! Heat (R469). -/

/-- The hottest reading so far. -/
def Dev.hottest (d : Dev) (l : List (BitVec 16)) : Dev :=
  d.setFld R.PWR_THERM_TMAX (wrapInt 16 (l.foldl (fun m x => max m x.toInt) (sval 16 (d.fld R.PWR_THERM_TMAX))))

/-- The first sensor that reads 88 degrees or more. -/
def firstWarm (l : List (BitVec 16)) : Option Nat :=
  findIdx l.length (fun i => ((l[i]?).map (fun r => decide (880 ≤ tempOf r))).getD false)

theorem firstWarm_none {l : List (BitVec 16)} (h : ∀ x ∈ l, x.toInt < 880) : firstWarm l = none := by
  refine List.find?_eq_none.mpr (fun i _ => ?_)
  cases hi : l[i]? with
  | none => simp
  | some x =>
    have hx := h x (List.mem_of_getElem? hi)
    exact Bool.eq_false_iff.mp (decide_eq_false (not_le.mpr hx))

theorem firstWarm_some {l : List (BitVec 16)} {i : Nat} {x : BitVec 16} (hi : l[i]? = some x) (hx : 880 ≤ x.toInt)
    (hfirst : ∀ j y, j < i → l[j]? = some y → y.toInt < 880) : firstWarm l = some i := by
  have hlt : i < l.length := (List.getElem?_eq_some_iff.mp hi).1
  unfold firstWarm findIdx
  rw [List.find?_range_eq_some]
  refine ⟨by simp [hi, tempOf, hx], List.mem_range.mpr hlt, fun j hj => ?_⟩
  cases hy : l[j]? with
  | none => simp
  | some y =>
    have hcool : decide (880 ≤ tempOf y) = false := decide_eq_false (not_le.mpr (hfirst j y hj hy))
    rw [Option.map_some, Option.getD_some, hcool, Bool.not_false]

theorem thermalSample_eq {l : List (BitVec 16)} {warm hot : Nat} (hmode : d.mode ≠ 0) (hon : d.aonOn = true) (hl : l.length ≤ 18) :
    d.thermalSample l warm hot =
      let t := match firstWarm l with
        | some i => if 1 ≤ warm then (((d.hottest l).setFlag R.PWR_THERM_WARN true).setFld R.PWR_THERM_SENS i).raise 0xE5 else d.hottest l
        | none => d.hottest l
      if l.any (fun r => 960 ≤ tempOf r) && 1 ≤ hot then (t.vmidOff .thermal).setFlag R.PWR_THERM_TSTOP true else t := by
  unfold Dev.thermalSample
  dsimp only
  rw [List.take_of_length_le hl, if_neg hmode, hon, Bool.not_true, if_neg Bool.false_ne_true]
  rfl

theorem any_hot_false {l : List (BitVec 16)} {hot : Nat} (h : ∀ y ∈ l, y.toInt < 960) : (l.any (fun r => 960 ≤ tempOf r) && 1 ≤ hot) = false := by
  have hany : l.any (fun r => decide (960 ≤ tempOf r)) = false := List.any_eq_false.mpr (fun y hy hbad =>
    absurd (of_decide_eq_true hbad) (not_le.mpr (h y hy)))
  rw [hany, Bool.false_and]

theorem thermalSample_cool {l : List (BitVec 16)} {warm hot : Nat} (hmode : d.mode ≠ 0) (hon : d.aonOn = true) (hl : l.length ≤ 18)
    (h : ∀ x ∈ l, x.toInt < 880) : d.thermalSample l warm hot = d.hottest l := by
  rw [thermalSample_eq hmode hon hl, firstWarm_none h, any_hot_false (fun y hy => (h y hy).trans (by decide))]
  rfl

theorem thermalSample_warm {l : List (BitVec 16)} {warm hot i : Nat} {x : BitVec 16} (hmode : d.mode ≠ 0) (hon : d.aonOn = true)
    (hl : l.length ≤ 18) (hi : l[i]? = some x) (hx : 880 ≤ x.toInt) (hfirst : ∀ j y, j < i → l[j]? = some y → y.toInt < 880)
    (hwarm : 1 ≤ warm) (h : ∀ y ∈ l, y.toInt < 960) : d.thermalSample l warm hot =
      (((d.hottest l).setFlag R.PWR_THERM_WARN true).setFld R.PWR_THERM_SENS i).raise 0xE5 := by
  rw [thermalSample_eq hmode hon hl, firstWarm_some hi hx hfirst, any_hot_false h]
  exact if_pos hwarm

theorem thermalSample_hot {l : List (BitVec 16)} {warm hot : Nat} (hmode : d.mode ≠ 0) (hon : d.aonOn = true) (hl : l.length ≤ 18)
    (h : ∃ x ∈ l, 960 ≤ x.toInt) (hhot : 1 ≤ hot) : d.WentOff (d.thermalSample l warm hot) .thermal := by
  have hany : l.any (fun r => decide (960 ≤ tempOf r)) = true := by
    obtain ⟨x, hx, hge⟩ := h
    exact List.any_eq_true.mpr ⟨x, hx, decide_eq_true hge⟩
  rw [thermalSample_eq hmode hon hl, hany, decide_eq_true hhot]
  refine ((wentOff_vmidOff _ .thermal).setFlag true (by decide) (by decide)).of_mem ?_
  split
  · split
    · rw [mem_raise]
      rfl
    · rfl
  · rfl

/-! Start-up (R378, R400, R410). -/

theorem tryBoot_waits (h : d.pow.vmidGood = false ∨ d.pow.xtaDone = false) : d.tryBoot = d := by
  unfold Dev.tryBoot
  refine if_pos ?_
  rcases h with h | h <;> simp [h]

theorem aonPowerGood_waits (st : Straps) (hm : d.mode = 1) (ha : d.pow.aonGood = false) (hl : d.pow.resetLow = false)
    (hv : d.pow.vmidGood = false) :
    d.aonPowerGood st = { d with pow := { d.pow with aonGood := true, straps := some st, xtaDone := st.xsel } } := by
  unfold Dev.aonPowerGood
  rw [hm, ha, hl, if_pos (by decide)]
  exact tryBoot_waits (.inl hv)

theorem vmidUp_eq (hm : d.mode = 1) (ha : d.pow.aonGood = true) (hv : d.pow.vmidGood = false) :
    d.vmidUp = (d.modPow (fun p => { p with vmidGood := true })).tryBoot := by
  unfold Dev.vmidUp
  rw [hm, ha, hv]
  exact if_pos rfl

theorem vmidUp_waits (hm : d.mode = 1) (ha : d.pow.aonGood = true) (hv : d.pow.vmidGood = false) (hx : d.pow.xtaDone = false) :
    d.vmidUp = { d with pow := { d.pow with vmidGood := true } } :=
  (vmidUp_eq hm ha hv).trans (tryBoot_waits (.inr hx))

theorem vmidUp_boots (hm : d.mode = 1) (ha : d.pow.aonGood = true) (hv : d.pow.vmidGood = false) (hx : d.pow.xtaDone = true) :
    d.vmidUp.domOn 0 = true ∧ d.vmidUp.mode = if d.flag R.CLK_STAT_XFAIL then 3 else 2 := by
  rw [vmidUp_eq hm ha hv]
  exact tryBoot_boots (.inl hm) ha rfl hx

/-- Settles O50: a sample of VIN and of the temperatures by what it is compared with, a loss of supplies by the wipe that keeps NVS, a
domain by its own round of the sequencing, a trip by the domain's kind, start-up by the three conditions of its last step. -/
theorem powerRuns : Obligations.PowerRuns := by
  unfold Obligations.PowerRuns
  intro s r v d pow trip off
  refine ⟨fun mv lo hi => ⟨?vinOff, ?vinIn, ?vinOut⟩, fun hon hmode => ?vmid, fun hmode hvin hoff => ?restart, fun hw => ?request,
    fun k => ⟨?up, ?down, fun us hmon => ⟨?core, ?domain⟩⟩, fun h us hmon => ⟨?hall, ?clock⟩, fun us hon hmode hus => ?aon, fun hlock => ?group,
    fun hmode => ⟨fun st ha hlow hv => ?power, ?timeout, fun ha hv => ⟨fun hx => ?early, fun hx => ?boots⟩⟩,
    fun l warm hot hmode hon hl => ⟨fun h => ?cool, fun i x hi hx hfirst hwarm h => ?warm, fun h hhot => ?hot⟩⟩
  case vinOff =>
    intro hmode
    exact run_eq_after (f := fun d => d.vinSample mv lo hi) (if_pos hmode)
  case vinIn =>
    intro hmode hon hlow hhigh
    exact run_eq_after (f := fun d => d.vinSample mv lo hi) (vinSample_inside hmode hon hlow hhigh)
  case vinOut => exact fun hmode hout => ⟨_, rfl, vinSample_outside lo hi hmode hout⟩
  case vmid => exact ⟨_, rfl, vmidUnder_off hon hmode⟩
  case restart =>
    refine run_eq_after (f := Dev.rampRestart) (if_neg ?_)
    simp [show s.dev.mode = 0 from hmode, show s.dev.pow.vinOut = false from hvin, show ¬s.dev.pow.off = some .thermal from hoff]
  case request =>
    refine ⟨s.dev.drawn.requestDomains v, ?_, requestDomains_decides s.dev.drawn v⟩
    have hfar : ∀ x ∈ responseRegs, (x < 0x10050300 ∨ 0x10050380 < x) ∧ x ≠ R.PWR_DREQ := by decide
    refine run_commandWord hw rfl (fun x hx => ?_)
    obtain ⟨hbr, hdreq⟩ := hfar x hx
    rw [requestDomains_eq, reg_reconcile hbr, reg_modPow]
    exact reg_setReg_ne s.dev.drawn _ hdreq
  case up =>
    intro hr hs hstep ho
    obtain ⟨hon, hrise⟩ := domainUp_up k.isLt hr hs ho
    exact ⟨_, run_eq_after (f := fun d => d.domainRisen k.val) (domainRisen_eq k.isLt hstep), hon, hrise⟩
  case down => exact fun hf hi => ⟨_, rfl, domainOff_off k.isLt hf hi⟩
  case core =>
    intro hk
    rw [hk] at hmon
    refine run_eq_after (f := fun d => d.supplyTrip k.val us) ?_
    dsimp only
    rw [hk]
    exact supplyTrip_core us hmon
  case domain =>
    exact fun hlo hhi => run_eq_after (f := fun d => d.supplyTrip k.val us) (supplyTrip_domain us hlo hhi hmon)
  case hall => exact run_eq_after (f := fun d => d.supplyTrip (8 + h.val) us) ((supplyTrip_hall us h hmon).trans (hallTrip_eq _ h))
  case clock => exact run_eq_after (f := fun d => d.hallClockFail h) ((if_pos hmon).trans (hallTrip_eq _ h))
  case aon => exact run_eq_after (f := fun d => d.supplyTrip 6 us) (supplyTrip_aon hon hmode hus)
  case group => exact run_eq_after (f := Dev.startGroup) (if_neg (by rw [hlock]; exact Bool.false_ne_true))
  case power =>
    exact run_eq_after (f := fun d => d.aonPowerGood st) (aonPowerGood_waits st hmode ha hlow hv)
  case timeout => rfl
  case early => exact run_eq_after (f := Dev.vmidUp) (vmidUp_waits hmode ha hv hx)
  case boots =>
    obtain ⟨hon, hm⟩ := vmidUp_boots hmode ha hv hx
    exact ⟨_, rfl, hon, hm⟩
  case cool => exact run_eq_after (f := fun d => d.thermalSample l warm hot) (thermalSample_cool hmode hon hl h)
  case warm => exact run_eq_after (f := fun d => d.thermalSample l warm hot) (thermalSample_warm hmode hon hl hi hx hfirst hwarm h)
  case hot => exact ⟨_, rfl, thermalSample_hot hmode hon hl h hhot⟩

end Sys2Proof.Machine
end


section
/-! The references, the PLLs, the hall clocks' trim and the frequency meter (R389 to R391, R393, R396). That the result of a
measurement comes with its row is log entry 66. -/

namespace Sys2Proof.Machine

variable {d : Dev} {n : Fin 4}

theorem xtaCheck_first {khz : Nat} {st old : Straps} (hm : d.mode = 1) (ha : d.pow.aonGood = true) (hx : d.pow.xtaDone = false)
    (hv : d.pow.vmidGood = false) (hold : d.pow.straps = some old) (hs : d.pow.fromStandby = false) : d.xtaCheck khz st =
      let t := if 19400 ≤ khz ∧ khz ≤ 51500 then d.setFlag R.CLK_STAT_XAOK true else d.setFlag R.CLK_STAT_XFAIL true
      { t with pow := { t.pow with
        xtaDone := true, xtaKhz := khz, straps := some { st with oscdly := old.oscdly, xsel := old.xsel } } } := by
  unfold Dev.xtaCheck
  rw [hm, ha, hx, if_pos (by rfl)]
  simp only [decide_eq_true_eq]
  split
  · refine Eq.trans (tryBoot_waits ?_) ?_
    · exact .inl hv
    · simp only [Dev.modPow, pow_setFlag, hold, hs, Bool.false_eq_true, if_false]
  · refine Eq.trans (tryBoot_waits ?_) ?_
    · exact .inl hv
    · simp only [Dev.modPow, pow_setFlag, hold, hs, Bool.false_eq_true, if_false]

theorem xtbCheck_first {hz : Nat} (ha : d.pow.aonGood = true) (hx : d.flag R.CLK_STAT_XBOK = false) : d.xtbCheck hz =
    if 31129600 ≤ 1000 * hz ∧ 1000 * hz ≤ 34406400 then d.setFlag R.CLK_STAT_XBOK true else d := by
  unfold Dev.xtbCheck
  rw [ha, hx]
  simp only [Bool.not_false, Bool.and_self, Bool.true_and, decide_eq_true_eq]

/-- A stopped crystal is reported, and fails the reference when the part runs from it. -/
theorem crystalStop_stops {b : Bool} (hok : d.flag (if b then R.CLK_STAT_XBOK else R.CLK_STAT_XAOK) = true)
    (hb : d.beforeStep6 = false ∨ d.flag R.CLK_SEL_SYSSRC = true) : d.crystalStop b =
      let t := (d.setFlag (if b then R.CLK_STAT_XBOK else R.CLK_STAT_XAOK) false).raise 0xE2
      if d.xtbRef = b then t.setFlag R.CLK_STAT_XFAIL true else t := by
  have haddr : (if b then R.CLK_STAT_XBOK else R.CLK_STAT_XAOK).addr = R.CLK_STAT := by cases b <;> rfl
  unfold Dev.crystalStop
  dsimp only
  generalize (if b then R.CLK_STAT_XBOK else R.CLK_STAT_XAOK) = ok at hok haddr
  obtain ⟨_, hpow, hcore⟩ := (raise_evcOnly (d.setFlag ok false) 0xE2).keepsPower
  have hreg : ∀ a, a ≠ R.CLK_STAT → (((d.setFlag ok false).raise 0xE2).setFlag R.CLK_STAT_XFAIL true).reg a = d.reg a := fun a ha =>
    (reg_setFlag_ne _ _ ha).trans ((reg_raise _ _ _).trans (reg_setFlag_ne _ _ (by rwa [haddr])))
  have hstays : ((((d.setFlag ok false).raise 0xE2).setFlag R.CLK_STAT_XFAIL true).beforeStep6 &&
      !(((d.setFlag ok false).raise 0xE2).setFlag R.CLK_STAT_XFAIL true).flag R.CLK_SEL_SYSSRC) = false := by
    rw [beforeStep6_congr (mode_of_reg (hreg _ (by decide))) (congrArg PowerState.boot hpow) hcore,
      flag_congr (d := d) (hreg _ (by decide))]
    rcases hb with h | h <;> simp [h]
  have href : ((d.setFlag ok false).raise 0xE2).xtbRef = d.xtbRef := by
    unfold Dev.xtbRef
    rw [hpow, pow_setFlag]
  rw [hok, Bool.not_true, if_neg Bool.false_ne_true, href, hstays, if_neg Bool.false_ne_true]
  by_cases hsame : d.xtbRef = b
  · rw [if_pos hsame, if_neg (by simp [hsame])]
  · rw [if_neg hsame, if_pos (by simpa using hsame)]

theorem boot_startFirstGroup : d.startFirstGroup.pow.boot = d.pow.boot := by
  unfold Dev.startFirstGroup Dev.startGroup
  split
  · split <;> rfl
  · rfl

theorem core_startFirstGroup : d.startFirstGroup.core = d.core := by
  unfold Dev.startFirstGroup Dev.startGroup
  split
  · split <;> rfl
  · rfl

/-- A PLL that has its reference locks. -/
theorem pllLock_locks (hon : d.domOn 0 = true) (hen : d.flag (R.CLK_PLL_EN n.val) = true)
    (hl : (d.fld R.CLK_STAT_LOCK).testBit n.val = false) (hr : d.refOk = true) (hb : d.beforeStep6 = false) (hm : d.mode ≠ 5) :
    d.pllLock n = let t := d.setFld R.CLK_STAT_LOCK (d.fld R.CLK_STAT_LOCK + 2 ^ n.val)
      if n = 2 then t.startFirstGroup else t := by
  have hgo : (!d.domOn 0 || !d.flag (R.CLK_PLL_EN n.val) || (d.fld R.CLK_STAT_LOCK).testBit n.val || !d.refOk) = false := by
    simp [hon, hen, hl, hr]
  have hkeep : ∀ e : Dev, e.mode = d.mode → e.beforeStep6 = false → ∀ x : Nat,
      (if (e.beforeStep6 || e.mode = 5) && decide (x % 4 = 3) then (e.preset R.CLK_SEL 3).tryStep6 else e) = e := by
    intro e he hbe x
    rw [hbe, he, decide_eq_false hm]
    rfl
  unfold Dev.pllLock
  dsimp only
  rw [hgo, if_neg Bool.false_ne_true]
  have hreg : (d.setFld R.CLK_STAT_LOCK (d.fld R.CLK_STAT_LOCK + 2 ^ n.val)).reg R.PWR_MSTAT = d.reg R.PWR_MSTAT :=
    reg_setFld_ne _ _ (by decide)
  split
  · have hmode := mode_of_reg ((reg_startFirstGroup R.PWR_MSTAT).trans hreg)
    exact hkeep _ hmode ((beforeStep6_congr hmode boot_startFirstGroup core_startFirstGroup).trans hb) _
  · exact hkeep _ (mode_of_reg hreg) ((beforeStep6_congr (mode_of_reg hreg) rfl rfl).trans hb) _

theorem pllLost_loses (hon : d.domOn 0 = true) (hl : (d.fld R.CLK_STAT_LOCK).testBit n.val = true) : d.pllLost n =
    ((d.setFld R.CLK_STAT_LOCK (d.fld R.CLK_STAT_LOCK - 2 ^ n.val)).setFld R.CLK_STAT_LOST
      (d.fld R.CLK_STAT_LOST ||| 2 ^ n.val)).raise 0xE2 := by
  unfold Dev.pllLost
  dsimp only
  rw [hon, hl, if_neg (by decide), fld_setFld_other _ _ _ _ (by decide) (by decide)]

theorem fmeterDone_counts {n : Nat} (h : d.flag R.CLK_FMCTL_BUSY = true) : d.fmeterDone n =
    let t := d.fld R.CLK_FMCTL_TSEL
    let c := if t ≤ 0x18 ∧ (0x11 ≤ t ∨ d.domOn (8 + t) = true) then min n 0xFFFFFFFF else 0
    ((d.setReg R.CLK_FMRES (BitVec.ofNat 32 c)).setFlag R.CLK_FMCTL_BUSY false).setFlag R.CLK_FMCTL_DONE true := by
  unfold Dev.fmeterDone
  dsimp only
  rw [h, Bool.not_true, if_neg Bool.false_ne_true]
  have hnot : (decide (0x18 < d.fld R.CLK_FMCTL_TSEL) || (decide (d.fld R.CLK_FMCTL_TSEL ≤ 0x10) && !d.domOn (8 + d.fld R.CLK_FMCTL_TSEL))) =
      !decide (d.fld R.CLK_FMCTL_TSEL ≤ 0x18 ∧ (0x11 ≤ d.fld R.CLK_FMCTL_TSEL ∨ d.domOn (8 + d.fld R.CLK_FMCTL_TSEL) = true)) := by
    cases d.domOn (8 + d.fld R.CLK_FMCTL_TSEL) <;> rw [Bool.eq_iff_iff] <;> simp
    omega
  rw [hnot]
  by_cases hc : d.fld R.CLK_FMCTL_TSEL ≤ 0x18 ∧ (0x11 ≤ d.fld R.CLK_FMCTL_TSEL ∨ d.domOn (8 + d.fld R.CLK_FMCTL_TSEL) = true)
  · rw [decide_eq_true hc, if_neg (by decide), if_pos hc]
  · rw [decide_eq_false hc, if_pos (by decide), if_neg hc]

/-- A write of CLK_FMCTL with GO starts the measurement unless one runs. -/
theorem startWrite_fmctl {r : Requester} {w : Word} (hgo : w.getLsbD 31 = true) :
    d.drawn.startWrite (d.who r) .clk R.CLK_FMCTL w =
      if d.flag R.CLK_FMCTL_BUSY then d.fielded r .clk R.CLK_FMCTL w else (d.fielded r .clk R.CLK_FMCTL w).setFlag R.CLK_FMCTL_BUSY true := by
  unfold Dev.startWrite
  dsimp only
  rw [hgo, decide_eq_true rfl, Bool.and_self, if_pos rfl]
  rfl

theorem fmctl_responseRegs {r : Requester} {w : Word} {x : Nat} (hx : x ∈ responseRegs) :
    (if d.flag R.CLK_FMCTL_BUSY then d.fielded r .clk R.CLK_FMCTL w
      else (d.fielded r .clk R.CLK_FMCTL w).setFlag R.CLK_FMCTL_BUSY true).reg x = d.reg x := by
  have hfar : ∀ x ∈ responseRegs, x ≠ R.CLK_FMCTL ∧ x ≠ cstatAddr .clk := by decide
  obtain ⟨hne, hstat⟩ := hfar x hx
  have hfielded : (d.fielded r .clk R.CLK_FMCTL w).reg x = d.reg x := reg_plainWrite_noCommit d.drawn _ w (by decide) hne hstat
  split
  · exact hfielded
  · exact (reg_setFlag_ne _ _ hne).trans hfielded

/-- Settles O51: each check by what it reads, and start-up waits for VMID. -/
theorem clocksRun : Obligations.ClocksRun := by
  unfold Obligations.ClocksRun
  intro s r v d
  refine ⟨fun khz st old hm ha hx hv hold hs => ?xta, fun hz ha hx => ?xtb, fun b => ?stop,
    fun n hon => ⟨fun hen hl hr hn hb hm => ?lock, fun hl => ?lost⟩, fun hon hen hl hr hb hm => ?first, fun h b hon => ?trim,
    fun hw => ?start, fun n hb => ?done⟩
  case xta => exact run_eq_after (f := fun d => d.xtaCheck khz st) (xtaCheck_first hm ha hx hv hold hs)
  case xtb => exact run_eq_after (f := fun d => d.xtbCheck hz) (xtbCheck_first ha hx)
  case stop =>
    intro ok t hok hb
    exact run_eq_after (f := fun d => d.crystalStop b) (crystalStop_stops hok hb)
  case lock => exact run_eq_after (f := fun d => d.pllLock n) ((pllLock_locks hon hen hl hr hb hm).trans (if_neg hn))
  case lost => exact run_eq_after (f := fun d => d.pllLost n) (pllLost_loses hon hl)
  case first => exact run_eq_after (f := fun d => d.pllLock 2) (pllLock_locks hon hen hl hr hb hm)
  case trim => exact run_eq_after (f := fun d => d.hallTrim h b) (if_neg (by rw [hon]; decide))
  case start =>
    have hgo : (v ||| 0x80000000).getLsbD 31 = true := by
      rw [BitVec.getLsbD_or]
      simp
    exact run_commandWord hw (startWrite_fmctl hgo) (fun x hx => fmctl_responseRegs hx)
  case done => exact run_eq_after (f := fun d => d.fmeterDone n) (fmeterDone_counts hb)

end Sys2Proof.Machine
end

section
/-! Mode requests (R401, R402): what a request that the road carries does. That the causes of a refusal are judged in the order 4, 1, 2,
3 is log entry 64. -/

namespace Sys2Proof.Machine

variable {d e : Dev} {s : State} {r : Requester} {n : Nat}

theorem bits_of_go (hn : n < 16) : bits (BitVec.ofNat 32 (2 ^ 31 + n)).toNat 3 0 = n := by
  revert hn
  revert n
  decide

theorem getLsbD_of_go (hn : n < 16) : (BitVec.ofNat 32 (2 ^ 31 + n)).getLsbD 31 = true := by
  revert hn
  revert n
  decide

/-- Every mode request is a write of PWR_MREQ with GO and its target. -/
theorem exec_modeReq {p : Instr × Nat} (hp : p ∈ ([(Instr.modeReqIdle r, 6), (.modeReqReady r, 7), (.modeReqPrint r, 8),
      (.modeReqService r, 9), (.modeReqSleep r, 5), (.modeReqStandby r, 4)] ++
      (List.range 16).map (fun n => (.modeReqUnlisted r (BitVec.ofNat 4 n), n)) : List (Instr × Nat))) :
    p.2 < 16 ∧ exec p.1 s = s.run (fun d => d.commandWord r R.PWR_MREQ (BitVec.ofNat 32 (2 ^ 31 + p.2))) := by
  rcases List.mem_append.mp hp with h | h
  · simp only [List.mem_cons, List.not_mem_nil, or_false] at h
    rcases h with rfl | rfl | rfl | rfl | rfl | rfl <;> exact ⟨by simp, rfl⟩
  · obtain ⟨n, hn, rfl⟩ := List.mem_map.mp h
    have hlt := List.mem_range.mp hn
    refine ⟨hlt, ?_⟩
    have hto : (BitVec.ofNat 4 n).toNat = n := by
      rw [BitVec.toNat_ofNat]
      exact Nat.mod_eq_of_lt hlt
    change s.run (fun d => d.requestMode r (BitVec.ofNat 4 n).toNat) = _
    rw [hto]
    rfl

/-- PWR_MREQ with the request's target. -/
def Dev.asksMode (d : Dev) (r : Requester) (n : Nat) : Dev :=
  (d.fielded r .pwr R.PWR_MREQ (BitVec.ofNat 32 (2 ^ 31 + n))).setFld R.PWR_MREQ_TGT n

theorem asksMode_keeps (d : Dev) (r : Requester) (n : Nat) : (d.asksMode r n).pow = d.pow ∧ (d.asksMode r n).core = d.core ∧
    (d.asksMode r n).test = d.test ∧ ∀ a, a ≠ R.PWR_MREQ → a ≠ cstatAddr .pwr → (d.asksMode r n).reg a = d.reg a := by
  refine ⟨?_, ?_, ?_, fun a ha hs => (reg_setFld_ne _ _ ha).trans (reg_plainWrite_noCommit d.drawn _ _ (by decide) ha hs)⟩
  all_goals
    obtain ⟨g, t, h⟩ := plainWrite_eq (d := d.drawn) (b := .pwr) (a := R.PWR_MREQ) (d.who r) (BitVec.ofNat 32 (2 ^ 31 + n)) (by decide)
    unfold Dev.asksMode Dev.fielded
    rw [h]
    rfl

theorem modeReady_congr {c : CoreId} {m t : Nat} (hp : e.pow = d.pow) (hc : e.core = d.core)
    (hr : ∀ a, a ≠ R.PWR_MREQ → a ≠ cstatAddr .pwr → e.reg a = d.reg a) : e.modeReady c m t = d.modeReady c m t := by
  have hco : ∀ c, e.co c = d.co c := fun c => congrArg (·[c]) hc
  unfold Dev.modeReady
  simp only [hp, hco, domOn_of_reg (hr R.PWR_DSTAT (by decide) (by decide)), flag_congr (f := R.BYW_CFGSTAT_DONE) (hr _ (by decide) (by decide)),
    flag_congr (f := R.DDR_STAT_READY) (hr _ (by decide) (by decide)), flag_congr (f := R.LINE_CTRL_EN) (hr _ (by decide) (by decide)),
    flag_congr (f := R.GAL_LCFG_LEN) (hr _ (by decide) (by decide))]

/-- A transition that has been asked for begins. -/
def Dev.startsMode (d : Dev) (n : Nat) : Dev :=
  let u := ((d.setFlag R.PWR_MSTAT_BUSY true).setFld R.PWR_MSTAT_TO n).applyMode n
  if n = 4 ∨ n = 5 then u.fenceCore else u

/-- A request by the state before it. -/
def Dev.modeAnswer (d : Dev) (r : Requester) (n : Nat) : Dev :=
  let t := d.asksMode r n
  if d.mode = 0xA ∨ d.mode = 0xB then t.modeRefuse 4
  else if d.flag R.PWR_MSTAT_BUSY = true then t.modeRefuse 1
  else if modeListed d.mode n = false then t.modeRefuse 2
  else if d.modeReady (d.who r).coreId d.mode n = false then t.modeRefuse 3
  else if d.test.isSome = true then t.modPow (fun p => { p with testReq := some (BitVec.ofNat 4 n) })
  else t.startsMode n

theorem startWrite_mreq (hn : n < 16) : d.drawn.startWrite (d.who r) .pwr R.PWR_MREQ (BitVec.ofNat 32 (2 ^ 31 + n)) = d.modeAnswer r n := by
  obtain ⟨hpow, hcore, htest, hreg⟩ := asksMode_keeps d r n
  have hmode : (d.asksMode r n).mode = d.mode := mode_of_reg (hreg _ (by decide) (by decide))
  have hbusy : (d.asksMode r n).flag R.PWR_MSTAT_BUSY = d.flag R.PWR_MSTAT_BUSY := flag_congr (hreg _ (by decide) (by decide))
  have hstart : d.drawn.startWrite (d.who r) .pwr R.PWR_MREQ (BitVec.ofNat 32 (2 ^ 31 + n)) =
      (d.fielded r .pwr R.PWR_MREQ (BitVec.ofNat 32 (2 ^ 31 + n))).modeRequest (d.who r).coreId n := by
    unfold Dev.startWrite
    dsimp only
    rw [if_neg (by decide), if_pos rfl, getLsbD_of_go hn, if_pos rfl, bits_of_go hn]
    rfl
  rw [hstart]
  unfold Dev.modeRequest Dev.modeAnswer Dev.startsMode
  dsimp only
  rw [show (d.fielded r .pwr R.PWR_MREQ (BitVec.ofNat 32 (2 ^ 31 + n))).setFld R.PWR_MREQ_TGT n = d.asksMode r n from rfl, hmode, hbusy, htest,
    modeReady_congr hpow hcore hreg]
  simp only [Bool.or_eq_true, decide_eq_true_eq, Bool.not_eq_true']

theorem reg_fenceCore {a : Nat} (ha : a < 0x10050300 ∨ 0x10050380 < a) : d.fenceCore.reg a = d.reg a := by
  unfold Dev.fenceCore
  refine forEach_frame (·.reg a) coreNodes d (fun d n => ?_)
  split
  · rfl
  · exact reg_setBr_far _ ha

theorem reg_startsMode {a : Nat} (ha : a < 0x10050300 ∨ 0x10050380 < a) (hm : a ≠ R.PWR_MSTAT) : (d.startsMode n).reg a = d.reg a := by
  have h : (((d.setFlag R.PWR_MSTAT_BUSY true).setFld R.PWR_MSTAT_TO n).applyMode n).reg a = d.reg a :=
    (reg_applyMode ha).trans ((reg_setFld_ne _ _ hm).trans (reg_setFlag_ne _ _ hm))
  unfold Dev.startsMode
  dsimp only
  split
  · exact (reg_fenceCore ha).trans h
  · exact h

theorem reg_modeRefuse {a c : Nat} (hm : a ≠ R.PWR_MSTAT) : (d.modeRefuse c).reg a = d.reg a :=
  (reg_raise _ _ _).trans ((reg_setFld_ne _ _ hm).trans (reg_setFlag_ne _ _ hm))

theorem reg_modeAnswer {x : Nat} (hx : x ∈ responseRegs) : (d.modeAnswer r n).reg x = d.reg x := by
  have hfar : ∀ x ∈ responseRegs, (x < 0x10050300 ∨ 0x10050380 < x) ∧ x ≠ R.PWR_MSTAT ∧ x ≠ R.PWR_MREQ ∧ x ≠ cstatAddr .pwr := by decide
  obtain ⟨hbr, hmstat, hmreq, hcstat⟩ := hfar x hx
  obtain ⟨_, _, _, hreg⟩ := asksMode_keeps d r n
  have hasks := hreg x hmreq hcstat
  unfold Dev.modeAnswer
  dsimp only
  split_ifs
  · exact (reg_modeRefuse hmstat).trans hasks
  · exact (reg_modeRefuse hmstat).trans hasks
  · exact (reg_modeRefuse hmstat).trans hasks
  · exact (reg_modeRefuse hmstat).trans hasks
  · exact hasks
  · exact (reg_startsMode hbr hmstat).trans hasks

theorem run_modeReq (hn : n < 16) (hw : s.dev.Writes r .pwr R.PWR_MREQ (BitVec.ofNat 32 (2 ^ 31 + n))) :
    s.run (fun d => d.commandWord r R.PWR_MREQ (BitVec.ofNat 32 (2 ^ 31 + n))) = s.wrote (s.dev.modeAnswer r n) :=
  run_commandWord hw (startWrite_mreq hn) (fun _ hx => reg_modeAnswer hx)

end Sys2Proof.Machine
end

section
/-! The end of a transition, wakes, full resets and the watchdog (R401 to R404, R407, R408). That STANDBY keeps its mode with TO = 2
after a wake is log entry 64. -/

namespace Sys2Proof.Machine

variable {d e : Dev} {s : State} {r : Requester} {cause : Fld}

/-! The end of a transition. -/

/-- Nothing that the end of a transition shows tells e from d. -/
def Dev.SameShown (d e : Dev) : Prop := e.regs = d.regs ∧ e.pow = d.pow ∧ e.line = d.line

theorem Dev.SameShown.refl (d : Dev) : d.SameShown d := ⟨rfl, rfl, rfl⟩

theorem Dev.SameShown.trans {f : Dev} (h : d.SameShown e) (g : e.SameShown f) : d.SameShown f :=
  ⟨g.1.trans h.1, g.2.1.trans h.2.1, g.2.2.trans h.2.2⟩

theorem Dev.EvcOnly.sameShown (h : d.EvcOnly e) : d.SameShown e := by
  refine ⟨h.regs, h.keepsPower.pow, ?_⟩
  unfold Dev.EvcOnly at h
  have hline := congrArg Dev.line h
  exact hline

theorem sameShown_setWord32 (d : Dev) (a : Nat) (v : Word) : d.SameShown (d.setWord32 a v) := by
  unfold Dev.setWord32
  exact ⟨by simp, pow_setBytes _ _ _, by simp⟩

theorem sameShown_setCo (d : Dev) (c : CoreId) (k : CoreState) : d.SameShown (d.setCo c k) := ⟨rfl, rfl, rfl⟩

theorem sameShown_modCo (d : Dev) (c : CoreId) (f : CoreState → CoreState) : d.SameShown (d.modCo c f) := ⟨rfl, rfl, rfl⟩

theorem Dev.SameShown.withFatal (h : d.SameShown e) (x : Option (BitVec 4)) : d.SameShown { e with fatal := x } := h

theorem sameShown_doubleFault (d : Dev) (c : CoreId) : d.SameShown (d.doubleFault c) := by
  have h : d.SameShown (((d.modCo c (fun k => { k with mode := .dead })).dropOwner c.val).raise (0x30 + c.val)) :=
    (sameShown_modCo d c _).trans ((dropOwner_evcOnly _ c.val).sameShown.trans (raise_evcOnly _ _).sameShown)
  unfold Dev.doubleFault
  dsimp only
  split
  · exact h.withFatal _
  · exact h

theorem sameShown_enter (d : Dev) (c : CoreId) (ret : Word) (n : Nat) (f : CoreState → CoreState) : d.SameShown (d.enter c ret n f) := by
  unfold Dev.enter
  dsimp only
  split
  · exact sameShown_doubleFault d c
  · split_ifs
    · exact sameShown_doubleFault d c
    · exact ((sameShown_setWord32 d _ _).trans (sameShown_setWord32 _ _ _)).trans (sameShown_setCo _ c _)
    · exact (((sameShown_setWord32 d _ _).trans (sameShown_setWord32 _ _ _)).trans (sameShown_setCo _ c _)).trans (sameShown_doubleFault _ c)

theorem sameShown_trap (d : Dev) (c : CoreId) (t : Trap) (ret taddr : Word) (impr : Bool) : d.SameShown (d.trap c t ret taddr impr) := by
  unfold Dev.trap Dev.takeTrap
  split
  · exact sameShown_setCo d c _
  · exact (sameShown_setCo d c _).trans (sameShown_enter _ c _ _ _)

theorem sameShown_releaseRun (d : Dev) : d.SameShown d.releaseRun := by
  unfold Dev.releaseRun
  split
  · exact .refl d
  · refine forEach_keeps (P := d.SameShown) _ (fun e c he => he.trans ?_) (.refl d)
    dsimp only
    split
    · split
      · exact sameShown_setCo e c _
      · exact (sameShown_setCo e c _).trans (sameShown_trap _ c _ _ _ _)
    · exact .refl e

theorem tryHalt_idle (h : d.pow.haltReq = 0) : d.tryHalt = d := by
  unfold Dev.tryHalt
  rw [h]
  rfl

/-- Outside PRINT the line timer stands still. -/
def Dev.stopsLine (d : Dev) : Dev :=
  ({ d.setFlag R.LINE_STAT_RUN false with line := { d.line with follow := false } } : Dev).modPow (fun p => { p with galReady := false })

theorem reg_stopsLine {a : Nat} (hl : a ≠ R.LINE_STAT) : d.stopsLine.reg a = d.reg a := reg_setFlag_ne d false hl

theorem pow_stopsLine : d.stopsLine.pow = { d.pow with galReady := false } := rfl

theorem leavePrint_eq : d.leavePrint = (forEach (List.range 17) d (fun d h => d.setCur h (d.fld (R.PWR_HV_NOM h)))).stopsLine := rfl

theorem reg_leavePrint {a : Nat} (h : ∀ n : HallId, a ≠ R.PWR_HV n.val) (hl : a ≠ R.LINE_STAT) : d.leavePrint.reg a = d.reg a := by
  rw [leavePrint_eq, reg_stopsLine hl]
  refine forEach_frame_of_mem (fun d : Dev => d.reg a) (fun d n hn => ?_) d
  exact reg_setCur d (h ⟨n, List.mem_range.mp hn⟩)

theorem pow_setCur (d : Dev) (h c : Nat) : (d.setCur h c).pow = d.pow := rfl

theorem pow_leavePrint : d.leavePrint.pow = { d.pow with galReady := false } := by
  have hloop : (forEach (List.range 17) d (fun d h => d.setCur h (d.fld (R.PWR_HV_NOM h)))).pow = d.pow := by
    refine forEach_frame Dev.pow (List.range 17) d (fun d n => ?_)
    exact pow_setCur d n _
  rw [leavePrint_eq, pow_stopsLine, hloop]

theorem pow_enterPrint : d.enterPrint.pow = d.pow := rfl

theorem reg_enterPrint {a : Nat} (hp : a ≠ R.LINE_POS) (ht : a ≠ R.LINE_TLAST) (hs : a ≠ R.LINE_STAT) : d.enterPrint.reg a = d.reg a := by
  unfold Dev.enterPrint
  rw [reg_setFlag_ne _ _ hs, reg_setFld_ne _ _ hs, reg_setReg_ne _ _ ht, reg_setReg_ne _ _ hp]
  exact reg_setFlag_ne d false hs

/-- The line timer starts at 0 with PRINT (R232). -/
theorem enterPrint_starts : d.enterPrint.reg R.LINE_POS = 0 ∧ d.enterPrint.fld R.LINE_STAT_SCNT = 0 ∧ d.enterPrint.line.strobes = 0 := by
  refine ⟨?_, ?_, rfl⟩
  · unfold Dev.enterPrint
    rw [reg_setFlag_ne _ _ (by decide), reg_setFld_ne _ _ (by decide), reg_setReg_ne _ _ (by decide), reg_setReg_same]
  · unfold Dev.enterPrint Dev.setFlag
    rw [fld_setFld_other _ _ _ _ (by decide) (by decide), fld_setFld_same _ _ _ (by decide), Nat.zero_mod]

/-- The registers of a mode that has been entered. -/
theorem setMode_shows {m : Nat} (hm : m < 16) (ho : d.mode < 16) : (d.setMode m).mode = m ∧ (d.setMode m).flag R.PWR_MSTAT_BUSY = false ∧
    (d.setMode m).fld R.PWR_MSTAT_FROM = d.mode := by
  refine ⟨mode_set hm, ?_, ?_⟩
  · unfold Dev.setMode
    rw [flag_congr (reg_raise _ _ _), flag_setFld_other _ _ _ _ (by decide) (by decide), flag_setFld_other _ _ _ _ (by decide) (by decide),
      flag_setFlag_same _ _ _ (by decide) rfl]
  · unfold Dev.setMode
    rw [fld_congr (reg_raise _ _ _), fld_setFld_other _ _ _ _ (by decide) (by decide), fld_setFld_same _ _ _ (by decide)]
    exact Nat.mod_eq_of_lt ho

/-- The mode's own work at its entry and at the exit from PRINT. -/
def Dev.enters (d : Dev) (old m : Nat) : Dev :=
  let e := if old = 8 then d.leavePrint else d
  if m = 8 then e.enterPrint else e

theorem reg_enters {old m a : Nat} (hv : ∀ n : HallId, a ≠ R.PWR_HV n.val) (hp : a ≠ R.LINE_POS) (ht : a ≠ R.LINE_TLAST) (hs : a ≠ R.LINE_STAT) :
    (d.enters old m).reg a = d.reg a := by
  unfold Dev.enters
  dsimp only
  split_ifs
  · exact (reg_enterPrint hp ht hs).trans (reg_leavePrint hv hs)
  · exact reg_enterPrint hp ht hs
  · exact reg_leavePrint hv hs
  · rfl

theorem haltReq_enters {old m : Nat} : (d.enters old m).pow.haltReq = d.pow.haltReq ∧ (old = 8 → (d.enters old m).pow.galReady = false) := by
  have hleave := pow_leavePrint (d := d)
  unfold Dev.enters
  dsimp only
  split_ifs with hm ho
  · rw [pow_enterPrint, hleave]
    exact ⟨rfl, fun _ => rfl⟩
  · exact ⟨congrArg PowerState.haltReq pow_enterPrint, fun h => absurd h ho⟩
  · rw [hleave]
    exact ⟨rfl, fun _ => rfl⟩
  · exact ⟨rfl, fun h => absurd h ‹_›⟩

theorem transitionDone_eq (h : d.transitionReady = true) (h4 : d.fld R.PWR_MSTAT_TO ≠ 4) (h5 : d.fld R.PWR_MSTAT_TO ≠ 5) :
    d.transitionDone = ((d.setMode (d.fld R.PWR_MSTAT_TO)).enters d.mode (d.fld R.PWR_MSTAT_TO)).releaseRun.tryHalt := by
  unfold Dev.transitionDone
  dsimp only
  rw [h, Bool.not_true, if_neg Bool.false_ne_true, if_neg h5, if_neg h4]
  rfl

/-- A transition whose work is done ends in its mode. -/
theorem transitionDone_ends (h : d.transitionReady = true) (h4 : d.fld R.PWR_MSTAT_TO ≠ 4) (h5 : d.fld R.PWR_MSTAT_TO ≠ 5)
    (hh : d.pow.haltReq = 0) : ∃ t : Dev, d.transitionDone = t ∧ t.mode = d.fld R.PWR_MSTAT_TO ∧ t.flag R.PWR_MSTAT_BUSY = false ∧
      t.fld R.PWR_MSTAT_FROM = d.mode ∧
      (d.fld R.PWR_MSTAT_TO = 8 → t.reg R.LINE_POS = 0 ∧ t.fld R.LINE_STAT_SCNT = 0 ∧ t.line.strobes = 0) ∧
      (d.mode = 8 → t.pow.galReady = false) := by
  have hm : d.fld R.PWR_MSTAT_TO < 16 := fld_lt d _
  obtain ⟨hmode, hbusy, hfrom⟩ := setMode_shows hm (fld_lt d R.PWR_MSTAT_MODE)
  have hpow : (d.setMode (d.fld R.PWR_MSTAT_TO)).pow = d.pow := by
    unfold Dev.setMode
    exact (raise_evcOnly _ _).keepsPower.pow
  rw [transitionDone_eq h h4 h5]
  generalize hgen : d.setMode (d.fld R.PWR_MSTAT_TO) = u at hmode hbusy hfrom hpow
  generalize d.fld R.PWR_MSTAT_TO = m at *
  obtain ⟨hregs, hkept, hline⟩ := sameShown_releaseRun (u.enters d.mode m)
  obtain ⟨hreq, hready⟩ := haltReq_enters (d := u) (old := d.mode) (m := m)
  rw [tryHalt_idle (by rw [hkept, hreq, hpow, hh])]
  have hmstat : (u.enters d.mode m).releaseRun.reg R.PWR_MSTAT = u.reg R.PWR_MSTAT :=
    (reg_of_regs hregs _).trans (reg_enters (by decide) (by decide) (by decide) (by decide))
  refine ⟨_, rfl, (mode_of_reg hmstat).trans hmode, (flag_congr hmstat).trans hbusy, (fld_congr hmstat).trans hfrom, fun h8 => ?_,
    fun ho => (congrArg PowerState.galReady hkept).trans (hready ho)⟩
  have hprint : u.enters d.mode m = (if d.mode = 8 then u.leavePrint else u).enterPrint := if_pos h8
  rw [hprint] at hregs hline ⊢
  obtain ⟨hpos, hscnt, hstrobes⟩ := enterPrint_starts (d := if d.mode = 8 then u.leavePrint else u)
  exact ⟨(reg_of_regs hregs _).trans hpos, (fld_of_regs hregs _).trans hscnt, (congrArg LineState.strobes hline).trans hstrobes⟩

/-! Wakes (R403). -/

theorem core_raise (d : Dev) (n : Nat) : (d.raise n).core = d.core := (raise_evcOnly d n).core

theorem core_applyMode {m : Nat} : (d.applyMode m).core = d.core := by
  refine core_reconcile.trans (forEach_frame Dev.core seqDomains d (fun e k => ?_))
  unfold Dev.followMode
  split <;> rfl

theorem core_preset (d : Dev) (a : Nat) (v : Word) : (d.preset a v).core = d.core := rfl

theorem core_enablePlls : d.enablePlls.core = d.core := by
  unfold Dev.enablePlls
  refine forEach_frame Dev.core [0, 1] d (fun e n => ?_)
  dsimp only
  split
  · exact (core_preset _ _ _).trans (core_preset _ _ _)
  · exact (core_preset _ _ _).trans (core_preset _ _ _)

/-- Core 0 where PWR_RESUME sends it, without the secure attribute. -/
def Dev.resumes (d : Dev) : Dev :=
  d.modCo 0 (fun k => { k with pc := d.reg R.PWR_RESUME &&& 0xFFFFFFFE, sr := setBit k.sr 30 false })

theorem resumes_runs : (d.resumes.co 0).pc = d.reg R.PWR_RESUME &&& 0xFFFFFFFE ∧ (d.resumes.co 0).sec = false := by
  unfold Dev.resumes
  rw [co_modCo_same]
  exact ⟨rfl, getLsbD_setBit_same _ _ (by decide)⟩

theorem reg_resumes (a : Nat) : d.resumes.reg a = d.reg a := rfl

theorem wakeSleep_eq (hon : d.domOn 0 = false) : d.wakeSleep =
    (((((d.modPow (fun p => { p with wakeDue := false })).coreOn.resumes.enablePlls).setFlag R.PWR_MSTAT_BUSY true).setFld
      R.PWR_MSTAT_TO 6).applyMode 6) := by
  have hoff : (d.modPow (fun p => { p with wakeDue := false })).domOn 0 = false := hon
  unfold Dev.wakeSleep
  dsimp only
  rw [hoff, if_neg Bool.false_ne_true]
  rfl

theorem wakeSleep_wakes (hon : d.domOn 0 = false) : d.wakeSleep.domOn 0 = true ∧
    (d.wakeSleep.co 0).pc = d.reg R.PWR_RESUME &&& 0xFFFFFFFE ∧ (d.wakeSleep.co 0).sec = false ∧ d.wakeSleep.fld R.PWR_MSTAT_TO = 6 ∧
    d.wakeSleep.flag R.PWR_MSTAT_BUSY = true := by
  rw [wakeSleep_eq hon]
  have hpll : ∀ (e : Dev) a, a < 0x10020000 → e.enablePlls.reg a = e.reg a := fun e a ha =>
    reg_enablePlls (fun n => by unfold R.CLK_PLL; omega) (fun n => by unfold R.CLK_PLLF; omega)
  have hresume : (d.modPow (fun p => { p with wakeDue := false })).coreOn.reg R.PWR_RESUME = d.reg R.PWR_RESUME :=
    reg_coreOn (by decide) (by decide)
  have hcoreOn := domOn_coreOn (d := d.modPow (fun p => { p with wakeDue := false }))
  generalize (d.modPow (fun p => { p with wakeDue := false })).coreOn = u at hresume hcoreOn
  obtain ⟨hpc, hsec⟩ := resumes_runs (d := u)
  have hco : (((u.resumes.enablePlls.setFlag R.PWR_MSTAT_BUSY true).setFld R.PWR_MSTAT_TO 6).applyMode 6).co 0 = u.resumes.co 0 :=
    congrArg (·[(0 : CoreId)]) ((core_applyMode.trans rfl).trans core_enablePlls)
  have hreg : ∀ (f : Dev) a, a < 0x10050300 → (f.applyMode 6).reg a = f.reg a := fun f a ha => reg_applyMode (.inl ha)
  refine ⟨?on, ?pc, ?sec, ?target, ?busy⟩
  case on =>
    refine (domOn_of_reg ?_ 0).trans hcoreOn
    rw [hreg _ _ (by decide), reg_setFld_ne _ _ (by decide), reg_setFlag_ne _ _ (by decide), hpll _ _ (by decide), reg_resumes]
  case pc => exact (congrArg CoreState.pc hco).trans (hpc.trans (by rw [hresume]))
  case sec => exact (congrArg CoreState.sec hco).trans hsec
  case target => exact (fld_congr (hreg _ _ (by decide))).trans (fld_setFld_same _ R.PWR_MSTAT_TO 6 (by decide))
  case busy =>
    rw [flag_congr (hreg _ _ (by decide)), flag_setFld_other _ _ _ _ (by decide) (by decide), flag_setFlag_same _ _ _ (by decide) rfl]

theorem wake_sleep {b : Bool} (hb : d.flag R.PWR_MSTAT_BUSY = false) (hm : d.mode = 5) : d.wake b = d.wakeSleep := by
  unfold Dev.wake
  dsimp only
  rw [if_pos hm, hb, if_neg Bool.false_ne_true]

theorem wake_standby (hb : d.flag R.PWR_MSTAT_BUSY = false) (hm : d.mode = 4) : d.wake true = d.wakeStandby := by
  unfold Dev.wake
  dsimp only
  rw [if_neg (by rw [hm]; decide), if_pos hm, hb, if_neg (by decide)]

end Sys2Proof.Machine
end

section
/-! Full resets (R407): RAMP, with NVS, the fuses and the cause kept. -/

namespace Sys2Proof.Machine

variable {d e : Dev} {s : State} {r : Requester} {cause : Fld}

/-- A full reset leaves d's life cycle, its NVS, and the cause. -/
def Dev.ResetBy (d t : Dev) (cause : Fld) : Prop :=
  t.mode = 1 ∧ t.domOn 0 = false ∧ t.flag cause = true ∧ t.lcs = d.lcs ∧
    (∀ a, 0x20000000 ≤ a → a < 0x20800000 → t.byte a = d.byte a) ∧ (∀ a, 0x40000000 ≤ a → a < 0x41700000 → t.byte a = byteReset a)

theorem mode_reset : State.reset.dev.mode = 1 := by decide +kernel

theorem lcs_wipeAll (d : Dev) : d.wipeAll.lcs = d.lcs := by
  have hlt : d.fld R.SEC_LCS_LCS < 2 ^ (R.SEC_LCS_LCS.hi + 1 - R.SEC_LCS_LCS.lo) := fld_lt d _
  unfold Dev.lcs Dev.wipeAll
  dsimp only
  rw [fld_congr (reg_presetPwr _ (by decide)), fld_congr (reg_setReg_ne _ _ (by decide)), fld_congr (reg_setFld_ne _ _ (by decide))]
  simp only [List.map_cons, List.map_nil, forEach_cons, forEach_nil]
  rw [fld_setFld_other _ _ _ _ (by decide) (by decide), fld_setFld_other _ _ _ _ (by decide) (by decide), fld_setFld_same _ _ _ (by decide),
    Nat.mod_eq_of_lt hlt]

theorem fullReset_resets (d : Dev) {cause : Fld} (ha : cause.addr = R.PWR_RSTC) (hh : cause.hi < 32) (hl : cause.lo = cause.hi) :
    d.ResetBy (d.fullReset cause) cause := by
  have hreg : ∀ a, a ≠ R.PWR_RSTC → (d.fullReset cause).reg a = d.wipeAll.reg a := fun a h => reg_setFlag_ne _ _ (by rwa [ha])
  have hmem : (d.fullReset cause).mem = d.wipeAll.mem := mem_setFlag _ _ _
  have hbyte : ∀ a, (d.fullReset cause).byte a = d.wipeAll.byte a := fun a => by rw [Dev.byte, hmem, Dev.byte]
  have hmstat : d.wipeAll.reg R.PWR_MSTAT = State.reset.dev.reg R.PWR_MSTAT := reg_wipeAll d (by decide) (by decide)
  refine ⟨?mode, ?on, flag_setFlag_same _ _ _ hh hl, ?lcs, fun a hlo hhi => ?nvs, fun a hlo hhi => ?gallery⟩
  case mode => exact (mode_of_reg ((hreg _ (by decide)).trans hmstat)).trans mode_reset
  case on => exact (domOn_of_reg (hreg _ (by decide)) 0).trans (domOn_wipeAll d 0)
  case lcs => exact (fld_congr (hreg _ (by decide))).trans (lcs_wipeAll d)
  case nvs => exact (hbyte a).trans (byte_wipeAll_nvs hlo hhi)
  case gallery => exact (hbyte a).trans (byte_wipeAll_gallery hlo hhi)

/-- After a full reset no probe and no dead node stops a response. -/
theorem reg_fullReset_reset {a : Nat} (ha : a ∉ keptRegs) (hv : ∀ n : HallId, a ≠ R.PWR_HV n.val) :
    (d.fullReset R.PWR_RSTC_SW).reg a = State.reset.dev.reg a := by
  have hne : a ≠ R.PWR_RSTC := fun h => ha (h ▸ List.mem_cons_self)
  exact (reg_setFlag_ne _ _ hne).trans (reg_wipeAll d ha hv)

theorem probesOff_reset : State.reset.dev.ProbesOff := by
  unfold Dev.ProbesOff
  decide +kernel

theorem nodeDead_reset {n : Nat} (hn : n < 32) : State.reset.dev.nodeDead n = false := by
  revert hn
  revert n
  decide +kernel

theorem run_softwareReset (hw : s.dev.Writes r .pwr R.PWR_RST 0x80000000) :
    s.run (fun d => d.commandWord r R.PWR_RST 0x80000000) = s.wrote (s.dev.drawn.fullReset R.PWR_RSTC_SW) := by
  have hstart : s.dev.drawn.startWrite (s.dev.who r) .pwr R.PWR_RST 0x80000000 = s.dev.drawn.fullReset R.PWR_RSTC_SW := by
    unfold Dev.startWrite
    dsimp only
    rw [if_neg (by decide), if_neg (by decide), if_pos rfl, if_pos (by decide)]
  have hkeep : ∀ x ∈ responseRegs, (s.dev.drawn.fullReset R.PWR_RSTC_SW).reg x = State.reset.dev.reg x := by
    intro x hx
    have hfar : ∀ x ∈ responseRegs, x ∉ keptRegs ∧ ∀ n : HallId, x ≠ R.PWR_HV n.val := by decide
    obtain ⟨hkept, hv⟩ := hfar x hx
    exact reg_fullReset_reset hkept hv
  have hanswer := command_register hw (by rw [hstart]; exact probesOff_of_responseRegs hkeep probesOff_reset)
    (by rw [hstart, nodeDead_of_responseRegs hkeep (who_node_lt _ _)]; exact nodeDead_reset (who_node_lt _ _))
  rw [hstart] at hanswer
  exact run_eq_after (f := fun d => d.commandWord r R.PWR_RST 0x80000000) hanswer

/-! The host's offer of an image (R404), and the watchdog (R408). -/

theorem startWrite_bootadr {w : Word} (hgo : w.getLsbD 31 = true) (hm : d.mode = 2 ∨ d.mode = 3) (hb : d.pow.boot = some .wait) :
    d.drawn.startWrite (d.who r) .pwr R.PWR_BOOTADR w =
      { (d.fielded r .pwr R.PWR_BOOTADR w).verifyRequest .boot with pow := { d.pow with boot := some .host } } := by
  obtain ⟨g, t, h⟩ := plainWrite_eq (d := d.drawn) (b := .pwr) (a := R.PWR_BOOTADR) (d.who r) w (by decide)
  have hpow : (d.fielded r .pwr R.PWR_BOOTADR w).pow = d.pow := by
    unfold Dev.fielded
    rw [h]
    rfl
  have hmode : (d.fielded r .pwr R.PWR_BOOTADR w).mode = d.mode :=
    mode_of_reg (reg_plainWrite_noCommit d.drawn _ _ (by decide) (by decide) (by decide))
  have hoffer : ((decide ((d.fielded r .pwr R.PWR_BOOTADR w).mode = 2) || decide ((d.fielded r .pwr R.PWR_BOOTADR w).mode = 3)) &&
      decide ((d.fielded r .pwr R.PWR_BOOTADR w).pow.boot = some .wait)) = true := by
    rw [hmode, hpow]
    simpa [hb] using hm
  have hstart : d.drawn.startWrite (d.who r) .pwr R.PWR_BOOTADR w = (d.fielded r .pwr R.PWR_BOOTADR w).bootOffer := by
    unfold Dev.startWrite
    dsimp only
    rw [if_neg (by decide), if_neg (by decide), if_neg (by decide), if_neg (by decide), if_pos rfl, hgo, if_pos rfl]
    rfl
  rw [hstart]
  unfold Dev.bootOffer
  rw [hoffer, if_pos rfl, ← hpow]
  have hkept : ((d.fielded r .pwr R.PWR_BOOTADR w).verifyRequest .boot).pow = (d.fielded r .pwr R.PWR_BOOTADR w).pow :=
    (keepsPower_setVerifs _ _).pow
  rw [Dev.modPow, hkept]

theorem reg_setVerifs {a : Nat} (l : List VerifyKind) (h : a ≠ R.SEC_STAT) : (d.setVerifs l).reg a = d.reg a := by
  unfold Dev.setVerifs Dev.syncVerify
  exact (reg_setFlag_ne _ _ h).trans (reg_setFld_ne _ _ h)

theorem reg_withPow (d : Dev) (p : PowerState) (a : Nat) : ({ d with pow := p } : Dev).reg a = d.reg a := rfl

theorem reg_verifyRequest_pow {a : Nat} (k : VerifyKind) (p : PowerState) (h : a ≠ R.SEC_STAT) :
    ({ d.verifyRequest k with pow := p } : Dev).reg a = d.reg a :=
  (reg_withPow (d.verifyRequest k) p a).trans (by rw [Dev.verifyRequest, reg_setVerifs _ h])

theorem startWrite_wkick (key : BitVec 16) : d.drawn.startWrite (d.who r) .pwr R.PWR_WKICK (key.setWidth 32) =
    if key = 0x6517 then { d.drawn with pow := { d.pow with wdogOnce := false } } else d.drawn := by
  have hbits : bits (key.setWidth 32).toNat 15 0 = key.toNat := by
    unfold bits
    rw [BitVec.toNat_setWidth]
    omega
  unfold Dev.startWrite
  dsimp only
  rw [if_neg (by decide), if_neg (by decide), if_neg (by decide), if_pos rfl, hbits]
  unfold Dev.watchdogKick
  by_cases hk : key = 0x6517
  · rw [if_pos hk, if_pos (by rw [hk]; rfl)]
    rfl
  · exact (if_neg (fun h => hk (BitVec.eq_of_toNat_eq h))).trans (if_neg hk).symm

theorem Dev.ResetBy.of_same {t : Dev} (h : e.ResetBy t cause) (hr : e.regs = d.regs) (hm : e.mem = d.mem) : d.ResetBy t cause := by
  obtain ⟨hmode, hon, hcause, hlcs, hnvs, hgal⟩ := h
  refine ⟨hmode, hon, hcause, hlcs.trans (fld_of_regs hr _), fun a hlo hhi => (hnvs a hlo hhi).trans ?_, hgal⟩
  rw [Dev.byte, hm, Dev.byte]

theorem resetPin_resets (hm : d.mode ≠ 0) : d.ResetBy d.resetPin R.PWR_RSTC_PIN ∧ d.resetPin.pow.resetLow = true := by
  have heq : d.resetPin = (d.modPow (fun p => { p with resetLow := true })).fullReset R.PWR_RSTC_PIN := if_neg hm
  rw [heq]
  refine ⟨(fullReset_resets _ rfl (by decide) rfl).of_same rfl rfl, ?_⟩
  unfold Dev.fullReset
  rw [pow_setFlag, pow_wipeAll]
  rfl

theorem watchdogRuns_of (hen : d.flag R.PWR_WDOG_EN = true) (hm : d.mode ∈ [2, 6, 7, 8, 9]) : d.watchdogRuns = true := by
  unfold Dev.watchdogRuns
  rw [hen, List.contains_eq_mem, decide_eq_true hm, Bool.and_self]

theorem watchdogExpire_warns (hen : d.flag R.PWR_WDOG_EN = true) (hm : d.mode ∈ [2, 6, 7, 8, 9]) (ho : d.pow.wdogOnce = false) :
    d.watchdogExpire = ({ d with pow := { d.pow with wdogOnce := true } } : Dev).raise 0xE3 := by
  unfold Dev.watchdogExpire
  rw [watchdogRuns_of hen hm, ho, if_neg (by decide), if_neg (by decide)]
  rfl

theorem watchdogExpire_resets (hen : d.flag R.PWR_WDOG_EN = true) (hm : d.mode ∈ [2, 6, 7, 8, 9]) (ho : d.pow.wdogOnce = true) :
    d.watchdogExpire = d.fullReset R.PWR_RSTC_WDOG := by
  unfold Dev.watchdogExpire
  rw [watchdogRuns_of hen hm, ho, if_neg (by decide), if_pos rfl]

/-- Settles O52: a request by the causes in their order, a transition's end by what stays after its mode, a wake by core 0's restart, a
full reset by what the wipe keeps. -/
theorem modesRun : Obligations.ModesRun := by
  unfold Obligations.ModesRun
  intro s r d reset
  refine ⟨fun e he => ?request, fun hready => ?done, fun hbusy => ⟨fun hm e he hf hon => ?sleep, fun hm e he hf => ?standby⟩,
    fun v => ?offer, fun hm => ?pin, fun hm => ?pinOff, rfl, fun hw => ?software, fun hen hm => ⟨fun ho => ?warn, fun ho => ?expire⟩,
    fun key hw => ?kick⟩
  case request =>
    intro v t refused hw
    obtain ⟨hlt, hexec⟩ := exec_modeReq (s := s) he
    rw [hexec, run_modeReq hlt hw]
    have hanswer : ∀ u, s.dev.modeAnswer r e.2 = u → s.wrote (s.dev.modeAnswer r e.2) = s.wrote u := fun u h => by rw [h]
    have hnot : ¬((d.mode, e.2) ∈ [(2, 6), (6, 7), (7, 8), (8, 7), (7, 6), (9, 6), (6, 9), (7, 9), (6, 5), (6, 4)]) ↔
        modeListed d.mode e.2 = false := by
      unfold modeListed
      rw [List.contains_eq_mem, decide_eq_false_iff_not]
    refine ⟨fun hm => hanswer _ (if_pos hm), fun hA hB => ⟨fun hb => hanswer _ ?busy, fun hb => ⟨fun hl => hanswer _ ?listed,
      fun hl => ⟨fun hr => hanswer _ ?ready, fun hr ht => hanswer _ ?starts⟩⟩⟩⟩
    case busy => exact (if_neg (by tauto)).trans (if_pos hb)
    case listed => exact (if_neg (by tauto)).trans ((if_neg (ne_true_of_eq_false hb)).trans (if_pos (hnot.mp hl)))
    case ready =>
      exact (if_neg (by tauto)).trans ((if_neg (ne_true_of_eq_false hb)).trans ((if_neg (fun h => hnot.mpr h hl)).trans (if_pos hr)))
    case starts =>
      exact (if_neg (by tauto)).trans ((if_neg (ne_true_of_eq_false hb)).trans ((if_neg (fun h => hnot.mpr h hl)).trans
        ((if_neg (ne_false_of_eq_true hr)).trans (if_neg (by rw [show s.dev.test = none from ht]; decide)))))
  case done =>
    intro m h4 h5 hh
    obtain ⟨t, ht, hend⟩ := transitionDone_ends hready h4 h5 hh
    exact ⟨t, run_eq_after (f := Dev.transitionDone) ht, hend⟩
  case sleep =>
    have hwake : exec e.1 s = s.after d.wakeSleep := by
      simp only [List.mem_cons, List.not_mem_nil, or_false] at he
      rcases he with rfl | rfl | rfl
      · exact run_eq_after (f := fun d => if d.flag R.PWR_WAKE_PIN then d.wake true else d) ((if_pos hf).trans (wake_sleep hbusy hm))
      · exact run_eq_after (f := fun d => if d.flag R.PWR_WAKE_ALRM then d.wake true else d) ((if_pos hf).trans (wake_sleep hbusy hm))
      · exact run_eq_after (f := fun d => if d.flag R.PWR_WAKE_HOST then d.wake false else d) ((if_pos hf).trans (wake_sleep hbusy hm))
    exact ⟨_, hwake, wakeSleep_wakes hon⟩
  case standby =>
    simp only [List.mem_cons, List.not_mem_nil, or_false] at he
    rcases he with rfl | rfl
    · exact run_eq_after (f := fun d => if d.flag R.PWR_WAKE_PIN then d.wake true else d) ((if_pos hf).trans (wake_standby hbusy hm))
    · exact run_eq_after (f := fun d => if d.flag R.PWR_WAKE_ALRM then d.wake true else d) ((if_pos hf).trans (wake_standby hbusy hm))
  case offer =>
    intro w t hw hm hb
    have hgo : (v ||| 0x80000000).getLsbD 31 = true := by
      rw [BitVec.getLsbD_or]
      simp
    have hfar : ∀ x ∈ responseRegs, x ≠ R.SEC_STAT ∧ x ≠ R.PWR_BOOTADR ∧ x ≠ cstatAddr .pwr := by decide
    refine run_commandWord hw (startWrite_bootadr hgo hm hb) (fun x hx => ?_)
    obtain ⟨hsec, hadr, hstat⟩ := hfar x hx
    rw [reg_verifyRequest_pow _ _ hsec]
    exact reg_plainWrite_noCommit d.drawn _ _ (by decide) hadr hstat
  case pin =>
    obtain ⟨hreset, hlow⟩ := resetPin_resets hm
    exact ⟨_, rfl, hreset, hlow⟩
  case pinOff => exact run_eq_after (f := Dev.resetPin) (if_pos hm)
  case software => exact ⟨_, run_softwareReset hw, (fullReset_resets s.dev.drawn rfl (by decide) rfl).of_same rfl rfl⟩
  case warn => exact run_eq_after (f := Dev.watchdogExpire) (watchdogExpire_warns hen hm ho)
  case expire => exact ⟨_, run_eq_after (f := Dev.watchdogExpire) (watchdogExpire_resets hen hm ho), fullReset_resets d rfl (by decide) rfl⟩
  case kick =>
    refine run_commandWord hw (startWrite_wkick key) (fun x _ => ?_)
    split <;> rfl

end Sys2Proof.Machine
end


section
/-! LOCKOUT (R406, R429): what the way there leaves of the tamper latch, the fuses, the key and the wipe, and the domains that go off. -/

namespace Sys2Proof.Machine

variable {d e : Dev} {k n : Nat} {cause : BitVec 4}

/-- The registers that show a tamper, the fuses, the key and the domains. -/
def lockRegs : List Nat := [R.PWR_TAMP, R.SEC_LCS, R.SEC_STAT, R.PWR_DSTAT]

/-- e has the tamper latch, the fuses and the key of d, no domain but core 0's on that d has off, and d's wipe has not ended. -/
structure Dev.Locks (d e : Dev) : Prop where
  tamp : e.reg R.PWR_TAMP = d.reg R.PWR_TAMP
  lcs : e.reg R.SEC_LCS = d.reg R.SEC_LCS
  key : e.flag R.SEC_STAT_KEYRDY = d.flag R.SEC_STAT_KEYRDY
  off : ∀ k, k ≠ 0 → d.domOn k = false → e.domOn k = false
  wipe : d.gal.wipe ≠ .idle → e.gal.wipe ≠ .idle

theorem Dev.Locks.refl (d : Dev) : d.Locks d := ⟨rfl, rfl, rfl, fun _ _ h => h, fun h => h⟩

theorem Dev.Locks.trans {f : Dev} (h : d.Locks e) (g : e.Locks f) : d.Locks f :=
  ⟨g.tamp.trans h.tamp, g.lcs.trans h.lcs, g.key.trans h.key, fun k hk hd => g.off k hk (h.off k hk hd), fun hd => g.wipe (h.wipe hd)⟩

theorem Dev.Locks.ite {p : Prop} [Decidable p] {f : Dev} (h : d.Locks e) (g : d.Locks f) : d.Locks (if p then e else f) := by
  split
  · exact h
  · exact g

theorem locks_of_regs (hr : ∀ a ∈ lockRegs, e.reg a = d.reg a) (hg : e.gal = d.gal) : d.Locks e := by
  refine ⟨hr _ (by decide), hr _ (by decide), flag_congr (hr _ (by decide)), fun k _ hd => ?_, fun hd => ?_⟩
  · rw [domOn_of_reg (hr _ (by decide)), hd]
  · rwa [hg]

theorem locks_forEach {β : Type} {f : Dev → β → Dev} (l : List β) (h : ∀ (d : Dev) b, d.Locks (f d b)) (d : Dev) : d.Locks (forEach l d f) :=
  forEach_keeps (P := d.Locks) l (fun s b hs => hs.trans (h s b)) (.refl d)

theorem Dev.EvcOnly.locks (h : d.EvcOnly e) : d.Locks e := by
  refine locks_of_regs (fun a _ => h.reg a) ?_
  unfold Dev.EvcOnly at h
  have hgal := congrArg Dev.gal h
  exact hgal

theorem locks_setReg (d : Dev) {a : Nat} (v : Word) (h : a ∉ lockRegs) : d.Locks (d.setReg a v) :=
  locks_of_regs (fun _ hb => reg_setReg_ne d v (by rintro rfl; exact h hb)) rfl

theorem locks_setFld (d : Dev) {f : Fld} (x : Nat) (h : f.addr ∉ lockRegs) : d.Locks (d.setFld f x) := locks_setReg d _ h

theorem locks_setFlag (d : Dev) {f : Fld} (b : Bool) (h : f.addr ∉ lockRegs) : d.Locks (d.setFlag f b) := locks_setReg d _ h

theorem locks_addFld (d : Dev) {f : Fld} (x : Nat) (h : f.addr ∉ lockRegs) : d.Locks (d.addFld f x) := locks_setReg d _ h

theorem locks_setStaged (d : Dev) (a : Nat) (v : Word) : d.Locks (d.setStaged a v) := locks_of_regs (fun _ _ => rfl) rfl

theorem locks_preset (d : Dev) {a : Nat} (v : Word) (h : a ∉ lockRegs) : d.Locks (d.preset a v) :=
  (locks_setReg d v h).trans (locks_setStaged _ a v)

theorem locks_modPow (d : Dev) (f : PowerState → PowerState) : d.Locks (d.modPow f) := locks_of_regs (fun _ _ => rfl) rfl

theorem locks_setCo (d : Dev) (c : CoreId) (x : CoreState) : d.Locks (d.setCo c x) := locks_of_regs (fun _ _ => rfl) rfl

theorem locks_modCo (d : Dev) (c : CoreId) (f : CoreState → CoreState) : d.Locks (d.modCo c f) := locks_of_regs (fun _ _ => rfl) rfl

/-- Registers beyond the security engine's window are none of them. -/
theorem notMem_lockRegs {a : Nat} (h : 0x10040000 ≤ a) : a ∉ lockRegs := by
  have hlow : ∀ b ∈ lockRegs, b < 0x10040000 := by decide
  exact fun ha => absurd (hlow a ha) (by omega)

theorem locks_setBr (d : Dev) (n st : Nat) : d.Locks (d.setBr n st) :=
  .ite (locks_setFld d st (notMem_lockRegs (show 0x10040000 ≤ R.ROAD_BR n by unfold R.ROAD_BR; omega))) (.refl d)

theorem locks_resetWindow (d : Dev) {b : Block} (h : 0x10040000 ≤ blockBase b) : d.Locks (d.resetWindow b) := by
  have hlow : ∀ a ∈ lockRegs, a < 0x10040000 := by decide
  exact locks_of_regs (fun a ha => (bankGet_bankClear _ _ _ a).trans (if_neg (by have := hlow a ha; omega))) rfl

theorem locks_withSec (d : Dev) (x : SecState) : d.Locks { d with sec := x } := locks_of_regs (fun _ _ => rfl) rfl

theorem locks_syncVerify (d : Dev) : d.Locks d.syncVerify := by
  unfold Dev.syncVerify Dev.setFlag
  have hne : ∀ a, a ≠ R.SEC_STAT → ((d.setFld R.SEC_STAT_NVQ d.sec.verifs.length).setFld R.SEC_STAT_BUSY
      (bn (!d.sec.verifs.isEmpty || !d.sec.sign.isEmpty))).reg a = d.reg a := fun a ha => (reg_setFld_ne _ _ ha).trans (reg_setFld_ne _ _ ha)
  refine ⟨hne _ (by decide), hne _ (by decide), ?_, fun k _ hd => (domOn_of_reg (hne _ (by decide)) k).trans hd, fun hd => hd⟩
  rw [flag_setFld_other _ _ _ _ (by decide) (by decide), flag_setFld_other _ _ _ _ (by decide) (by decide)]

theorem locks_setVerifs (d : Dev) (l : List VerifyKind) : d.Locks (d.setVerifs l) := by
  unfold Dev.setVerifs
  exact (locks_withSec d _).trans (locks_syncVerify _)

theorem locks_dropVerify (d : Dev) (k : VerifyKind) : d.Locks (d.dropVerify k) := .ite (locks_setVerifs d _) (.refl d)

theorem locks_darkLines (d : Dev) (k : Nat) : d.Locks (d.darkLines k) :=
  locks_forEach _ (fun d n => by
    split
    · exact locks_of_regs (fun _ _ => rfl) rfl
    · exact .refl d) d

theorem gal_answer (d : Dev) (n : Nat) (k : PacketKind) (p : Packet) (st : BitVec 4) : (d.answer n k p st).gal = d.gal := by
  unfold Dev.answer
  split <;> rfl

theorem gal_setBr (d : Dev) (n st : Nat) : (d.setBr n st).gal = d.gal := by
  unfold Dev.setBr
  split <;> rfl

theorem gal_answerHeld (d : Dev) (n : Nat) (st : BitVec 4) (count : Fld) : (d.answerHeld n st count).gal = d.gal := by
  have hloop : ∀ (l : List (BitVec 6 × PacketKind × Packet)) (e : Dev), (forEach l e (fun d x =>
      if x.2.1.answered then (d.answer n x.2.1 x.2.2 st).addFld count (bn (st = 3)) else d.addFld (R.ROAD_BR_DROP n) 1)).gal = e.gal := by
    intro l e
    refine forEach_frame Dev.gal l e (fun d x => ?_)
    split
    · exact (gal_addFld _ _ _).trans (gal_answer _ _ _ _ _)
    · exact gal_addFld _ _ _
  unfold Dev.answerHeld Dev.countHeld
  dsimp only
  split
  · exact hloop _ _
  · exact hloop _ _

theorem gal_bridgeReset (d : Dev) (n : Nat) : (d.bridgeReset n).gal = d.gal := by
  unfold Dev.bridgeReset
  split
  · rfl
  · rw [gal_setBr, gal_answerHeld]
    rfl

theorem locks_bridgeReset (d : Dev) (n : Nat) : d.Locks (d.bridgeReset n) :=
  locks_of_regs (fun a ha => reg_bridgeReset (fun h => notMem_lockRegs (show 0x10040000 ≤ R.ROAD_BR n by unfold R.ROAD_BR; omega) (h ▸ ha)))
    (gal_bridgeReset d n)

theorem locks_loseDomain (d : Dev) (k : Nat) : d.Locks (d.loseDomain k) := by
  refine (locks_darkLines d k).trans ?_
  generalize hd : d.darkLines k = e
  unfold Dev.loseDomain
  rw [hd]
  dsimp only
  split
  · obtain ⟨htamp, hlcs, hkey, hoff, hwipe⟩ := (locks_dropVerify e .fabric).trans (locks_resetWindow _ (b := .byw) (by decide))
    exact ⟨htamp, hlcs, hkey, hoff, hwipe⟩
  · obtain ⟨htamp, hlcs, hkey, hoff, hwipe⟩ := (locks_forEach (e.ownedBy 4) (fun d n => (endSource_evcOnly d n).locks) e).trans
      (locks_resetWindow _ (b := .host) (by decide))
    exact ⟨htamp, hlcs, hkey, hoff, hwipe⟩
  · split
    · obtain ⟨htamp, hlcs, hkey, hoff, hwipe⟩ := locks_resetWindow e (b := .ddr) (by decide)
      exact ⟨htamp, hlcs, hkey, hoff, hwipe⟩
    · obtain ⟨htamp, hlcs, hkey, hoff, hwipe⟩ := locks_resetWindow e.dropDram (b := .ddr) (by decide)
      exact ⟨htamp, hlcs, hkey, hoff, hwipe⟩
  · obtain ⟨htamp, hlcs, hkey, hoff, hwipe⟩ := locks_resetWindow e (b := .link) (by decide)
    exact ⟨htamp, hlcs, hkey, hoff, hwipe⟩
  · exact .refl e
  · split
    · rename_i hk
      have hbase : 0x10040000 ≤ blockBase (.hall ⟨k - 8, hk⟩) := by
        simp only [blockBase]
        omega
      obtain ⟨htamp, hlcs, hkey, hoff, hwipe⟩ := locks_resetWindow e hbase
      split
      · split
        · exact ⟨htamp, hlcs, hkey, hoff, hwipe⟩
        · exact ⟨htamp, hlcs, hkey, hoff, hwipe⟩
      · exact ⟨htamp, hlcs, hkey, hoff, hwipe⟩
    · exact .refl e

/-- A domain switched is no other domain. -/
theorem domOn_setOn_ne (d : Dev) {j k : Nat} (b : Bool) (h : j ≠ k) : (d.setOn k b).domOn j = d.domOn j := by
  unfold Dev.domOn Dev.setOn
  rw [reg_setReg_same, getLsbD_setBit_ne _ _ h]

theorem domOn_setOn_same (d : Dev) {k : Nat} (b : Bool) (h : k < 32) : (d.setOn k b).domOn k = b := by
  unfold Dev.domOn Dev.setOn
  rw [reg_setReg_same, getLsbD_setBit_same _ _ h]

theorem domOn_setOff (d : Dev) (k : Nat) : (d.setOn k false).domOn k = false := by
  by_cases h : k < 32
  · exact domOn_setOn_same d false h
  · exact BitVec.getLsbD_of_ge _ _ (by omega)

theorem locks_setOff (d : Dev) (k : Nat) : d.Locks (d.setOn k false) := by
  refine ⟨reg_setReg_ne d _ (by decide), reg_setReg_ne d _ (by decide), flag_congr (reg_setReg_ne d _ (by decide)), fun j _ hd => ?_, fun hd => hd⟩
  by_cases h : j = k
  · rw [h, domOn_setOff d k]
  · rw [domOn_setOn_ne d false h, hd]

theorem locks_ddrPowerDown (d : Dev) : d.Locks d.ddrPowerDown := locks_of_regs (fun _ _ => rfl) rfl

theorem locks_cutDomain (d : Dev) (k : Nat) : d.Locks (d.cutDomain k) := by
  refine (locks_modPow d (fun p => { p with
    goal := setBit p.goal k false, rising := setBit p.rising k false,
    falling := setBit p.falling k false, started := setBit p.started k false })).trans ?_
  unfold Dev.cutDomain
  exact .ite (((locks_bridgeReset _ _).trans (locks_setOff _ k)).trans (locks_loseDomain _ k)) (.ite (locks_ddrPowerDown _) (.refl _))

/-- A domain that is cut is off. -/
theorem cutDomain_off (d : Dev) {k : Nat} (h0 : k ≠ 0) : (d.cutDomain k).domOn k = false := by
  unfold Dev.cutDomain
  dsimp only
  split
  · exact (locks_loseDomain _ k).off k h0 (domOn_setOff _ k)
  · rename_i hoff
    split
    · exact (locks_ddrPowerDown _).off k h0 (Bool.eq_false_iff.mpr hoff)
    · exact Bool.eq_false_iff.mpr hoff

theorem locks_syncSec (d : Dev) : d.Locks d.syncSec := by
  unfold Dev.syncSec
  exact ((locks_setFlag d _ (notMem_lockRegs (by decide))).trans (locks_setFlag _ _ (notMem_lockRegs (by decide)))).trans
    (locks_setFld _ _ (notMem_lockRegs (by decide)))

theorem locks_presetRoad (d : Dev) : d.Locks d.presetRoad := by
  unfold Dev.presetRoad
  refine .trans (locks_forEach (List.range 64) (fun d n => ?_) d)
    (locks_forEach (List.range 10) (fun d r => locks_forEach allNodes (fun d n => ?_) d) _)
  · dsimp only
    split
    · exact .refl d
    · exact locks_preset d _ (notMem_lockRegs (show 0x10040000 ≤ R.ROAD_TID n by unfold R.ROAD_TID; omega))
  · exact locks_preset d _ (notMem_lockRegs (show 0x10040000 ≤ R.ROAD_RT r n by unfold R.ROAD_RT; omega))

theorem locks_presetBridges (d : Dev) : d.Locks (forEach ((List.range 33).filter hasBridge) d (fun d n =>
    match nodeDom n with
    | some k => if d.domOn k then d else d.setBr n 3
    | none => d)) := by
  refine locks_forEach _ (fun d n => ?_) d
  split
  · exact .ite (.refl d) (locks_setBr d n 3)
  · exact .refl d

theorem locks_resumeWipe (d : Dev) : d.Locks { d with gal := { d.gal with
    wipe := if d.gal.wipe = WipePhase.deferred then WipePhase.readback else d.gal.wipe } } := by
  refine ⟨rfl, rfl, rfl, fun _ _ h => h, fun hd => ?_⟩
  dsimp only
  split
  · decide
  · exact hd

theorem locks_presetCore (d : Dev) : d.Locks d.presetCore := by
  unfold Dev.presetCore
  dsimp only
  refine .trans ?_ (locks_syncSec _)
  refine .trans ?_ (locks_resumeWipe _)
  refine .trans ?_ (locks_presetBridges _)
  refine .trans ?_ (locks_presetRoad _)
  refine .trans ?_ (locks_setReg _ _ (notMem_lockRegs (by decide)))
  refine .trans ?_ (locks_setStaged _ _ _)
  refine (locks_preset d _ (notMem_lockRegs (show 0x10040000 ≤ R.SEQ_CTRL by decide))).trans (locks_forEach _ (fun d p => ?_) _)
  exact locks_setReg d _ (notMem_lockRegs (show 0x10040000 ≤ R.GAL_RPR p.1 by unfold R.GAL_RPR; omega))

theorem locks_setCoreOn (d : Dev) : d.Locks (d.setOn 0 true) := by
  refine ⟨reg_setReg_ne d _ (by decide), reg_setReg_ne d _ (by decide), flag_congr (reg_setReg_ne d _ (by decide)), fun j hj hd => ?_, fun hd => hd⟩
  rw [domOn_setOn_ne d true hj, hd]

theorem locks_coreOn (d : Dev) : d.Locks d.coreOn := by
  unfold Dev.coreOn
  split
  · exact .refl d
  · exact ((locks_setCoreOn d).trans (locks_presetCore _)).trans (locks_setCo _ 0 _)

theorem locks_holdCore (d : Dev) (c : CoreId) : d.Locks (d.holdCore c) := by
  unfold Dev.holdCore
  split
  · exact .refl d
  · exact (locks_setCo d c {}).trans (dropOwner_evcOnly _ _).locks

theorem locks_restartC0 (d : Dev) : d.Locks d.restartC0 := by
  unfold Dev.restartC0
  exact ((locks_holdCore d 0).trans (locks_setCo _ 0 _)).trans (locks_modCo _ 0 _)

theorem locks_setLevel (d : Dev) (l how : Nat) : d.Locks (d.setLevel l how) := by
  unfold Dev.setLevel
  exact (((locks_setFld d _ (notMem_lockRegs (by decide))).trans (locks_setFld _ _ (notMem_lockRegs (by decide)))).trans
    (locks_setReg _ _ (notMem_lockRegs (by decide)))).trans (locks_setStaged _ _ _)

theorem locks_setMode (d : Dev) (m : Nat) : d.Locks (d.setMode m) := by
  unfold Dev.setMode
  exact (((locks_setFlag d _ (by decide)).trans (locks_setFld _ _ (by decide))).trans (locks_setFld _ _ (by decide))).trans
    (raise_evcOnly _ _).locks

theorem gal_reconcileOne (d : Dev) (k : Nat) : (d.reconcileOne k).gal = d.gal := by
  unfold Dev.reconcileOne
  dsimp only
  split
  · rfl
  · split
    · split <;> rfl
    · split
      · split
        · rfl
        · exact gal_setBr _ _ _
      · rfl

theorem gal_reconcile (d : Dev) : d.reconcile.gal = d.gal := by
  have hall : (forEach seqDomains d Dev.reconcileOne).gal = d.gal := forEach_frame Dev.gal _ d gal_reconcileOne
  unfold Dev.reconcile Dev.startFirstGroup Dev.startGroup
  split
  · split
    · exact hall
    · exact hall
  · exact hall

theorem locks_reconcile (d : Dev) : d.Locks d.reconcile := by
  have hfar : ∀ a ∈ lockRegs, a < 0x10050300 := by decide
  exact locks_of_regs (fun a ha => reg_reconcile (.inl (hfar a ha))) (gal_reconcile d)

theorem locks_applyMode (d : Dev) (m : Nat) : d.Locks (d.applyMode m) := by
  unfold Dev.applyMode
  refine (locks_forEach seqDomains (fun d k => ?_) d).trans (locks_reconcile _)
  unfold Dev.followMode
  split
  · exact locks_modPow d _
  · exact locks_modPow d _
  · exact locks_modPow d _
  · exact .refl d

/-- The domains that LOCKOUT cuts. -/
def cutDomains : List Nat := [1, 3, 4] ++ (List.range 17).map (8 + ·)

/-- The part with those domains cut and nothing that waited. -/
def Dev.cutOff (d : Dev) : Dev :=
  forEach cutDomains ((d.modPow (fun p => { p with
    haltReq := 0, testReq := none, wakeDue := false, fromStandby := false, boot := none, forced := 0 })).dropVerify .boot) Dev.cutDomain

theorem locks_cutOff (d : Dev) : d.Locks d.cutOff :=
  ((locks_modPow d _).trans (locks_dropVerify _ .boot)).trans (locks_forEach cutDomains locks_cutDomain _)

theorem cutOff_off (d : Dev) (hk : k ∈ cutDomains) : d.cutOff.domOn k = false := by
  have h0 : k ≠ 0 := by
    rintro rfl
    revert hk
    decide
  exact forEach_reaches (P := fun e : Dev => e.domOn k = false) hk (fun e => cutDomain_off e h0)
    (fun e j he => (locks_cutDomain e j).off k h0 he) _

/-- The cores held but C0, which runs its boot ROM. -/
def Dev.reboots (d : Dev) : Dev :=
  ((forEach [(1 : CoreId), 2, 3] d Dev.holdCore).setReg R.SYS_CRUN (regReset R.SYS_CRUN)).restartC0

theorem locks_reboots (d : Dev) : d.Locks d.reboots :=
  ((locks_forEach _ locks_holdCore d).trans (locks_setReg _ _ (by decide))).trans (locks_restartC0 _)

/-- The bridges of CORE that do not drain any more. -/
def Dev.undrains (d : Dev) : Dev := forEach coreNodes d (fun d n => if d.brState n = 2 || d.brState n = 3 then d.setBr n 0 else d)

theorem locks_undrains (d : Dev) : d.Locks d.undrains := locks_forEach _ (fun d n => .ite (locks_setBr d n 0) (.refl d)) d

theorem lockout_eq (hm : 2 ≤ d.mode) (hb : d.mode ≠ 0xB) : d.lockout 1 =
    ((((((d.cutOff.undrains.coreOn.reboots).setFlag R.PWR_RSTC_LKV true).setFld R.PWR_RSTC_LKC 1).setLevel 0 0).setFld
      R.DBG_STAT_HALTED 0).setMode 0xB).applyMode 0xB := by
  unfold Dev.lockout
  have hgo : (decide (d.mode = 0) || decide (d.mode = 1) || decide (d.mode = 0xB)) = false := by
    simp only [Bool.or_eq_false_iff, decide_eq_false_iff_not]
    omega
  dsimp only
  rw [hgo, if_neg Bool.false_ne_true, if_pos rfl]
  rfl

theorem fld_setLevel_lvl (d : Dev) {l how : Nat} (hl : l < 4) : (d.setLevel l how).fld R.DBG_STAT_LVL = l := by
  have hlvl : ((d.setFld R.DBG_STAT_LVL l).setFld R.DBG_STAT_HOW how).fld R.DBG_STAT_LVL = l := by
    rw [fld_setFld_other _ _ _ _ (by decide) (by decide), fld_setFld_same _ _ _ (by decide)]
    exact Nat.mod_eq_of_lt hl
  unfold Dev.setLevel
  exact (fld_congr (f := R.DBG_STAT_LVL) (reg_setReg_ne _ _ (by decide))).trans hlvl

/-- LOCKOUT is entered: its mode, level LOCKED, the array's and the fabric's domains off, and what locks the part stays. -/
theorem lockout_locks (hm : 2 ≤ d.mode) (hb : d.mode ≠ 0xB) : d.Locks (d.lockout 1) ∧ (d.lockout 1).mode = 0xB ∧
    (d.lockout 1).fld R.DBG_STAT_LVL = 0 ∧ ∀ k ∈ cutDomains, (d.lockout 1).domOn k = false := by
  rw [lockout_eq hm hb]
  have hcut := locks_cutOff d
  have hoff : ∀ k ∈ cutDomains, d.cutOff.domOn k = false := fun k hk => cutOff_off d hk
  generalize d.cutOff = u at hcut hoff
  have hrest : u.Locks (((((((u.undrains.coreOn.reboots).setFlag R.PWR_RSTC_LKV true).setFld R.PWR_RSTC_LKC 1).setLevel 0 0).setFld
      R.DBG_STAT_HALTED 0).setMode 0xB).applyMode 0xB) :=
    ((((((((locks_undrains u).trans (locks_coreOn _)).trans (locks_reboots _)).trans (locks_setFlag _ _ (by decide))).trans
      (locks_setFld _ _ (by decide))).trans (locks_setLevel _ 0 0)).trans (locks_setFld _ _ (by decide))).trans (locks_setMode _ 0xB)).trans
      (locks_applyMode _ 0xB)
  have hne : ∀ k ∈ cutDomains, k ≠ 0 := by decide
  refine ⟨hcut.trans hrest, (mode_of_reg (reg_applyMode (.inl (by decide)))).trans (mode_set (by decide)), ?_,
    fun k hk => hrest.off k (hne k hk) (hoff k hk)⟩
  rw [fld_congr (reg_applyMode (.inr (by decide))), fld_congr (reg_setMode (by decide)), fld_setFld_other _ _ _ _ (by decide) (by decide)]
  exact fld_setLevel_lvl _ (by decide)

end Sys2Proof.Machine
end

section
/-! The security engine's steps, tamper and the boot of images (R406, R411 to R413, R416, R419, R420, R428, R429). The verdict of a
verification comes with its row (log entry 61). -/

namespace Sys2Proof.Machine

variable {d : Dev} {n : Nat}

/-! Steps of the derivation and of a signature (R411 to R413). -/

theorem secStep_serves (hv : d.sec.serve = true) : d.secStep = d := by
  unfold Dev.secStep
  rw [hv, Bool.or_true, if_pos rfl]

/-- The engine at a step's end, with the steps of the derivation that have passed. -/
def Dev.stepped (d : Dev) (derive : Nat) : Dev := { d with sec := { d.sec with derive := derive, serve := !d.sec.verifs.isEmpty } }

theorem secStep_eq (hs : d.sec.sign ≠ []) (hv : d.sec.serve = false) : d.secStep =
    if !d.flag R.SEC_STAT_KEYRDY then
      if 500 ≤ d.sec.derive + 1 then (d.stepped 0).setFlag R.SEC_STAT_KEYRDY true else d.stepped (d.sec.derive + 1)
    else if 120 ≤ d.fld R.SEC_STAT_SSTEP then d.stepped d.sec.derive
    else if d.fld R.SEC_STAT_SSTEP + 1 = 120 then ((d.stepped d.sec.derive).setFld R.SEC_STAT_SSTEP 120).raise 0xE8
    else (d.stepped d.sec.derive).setFld R.SEC_STAT_SSTEP (d.fld R.SEC_STAT_SSTEP + 1) := by
  have hsign : d.signing = true := by
    unfold Dev.signing
    rw [Bool.not_eq_true', List.isEmpty_eq_false_iff]
    exact hs
  unfold Dev.secStep
  rw [hsign, hv, if_neg (by decide)]
  rfl

/-! Verifications that wait (R413). -/

theorem verifs_setVerifs (d : Dev) (l : List VerifyKind) : (d.setVerifs l).sec.verifs = l := rfl

theorem nvq_setVerifs (d : Dev) (l : List VerifyKind) : (d.setVerifs l).fld R.SEC_STAT_NVQ = l.length % 256 := by
  unfold Dev.setVerifs Dev.syncVerify Dev.setFlag
  exact (fld_setFld_other _ _ _ _ (by decide) (by decide)).trans (fld_setFld_same _ R.SEC_STAT_NVQ l.length (by decide))

theorem busy_verifyRequest (d : Dev) (k : VerifyKind) : (d.verifyRequest k).flag R.SEC_STAT_BUSY = true := by
  unfold Dev.verifyRequest Dev.setVerifs Dev.syncVerify
  rw [flag_setFlag_same _ _ _ (by decide) rfl]
  simp

theorem verifs_verifyEnd (d : Dev) : d.verifyEnd.sec.verifs = d.sec.verifs.tail := by
  unfold Dev.verifyEnd
  rw [sec_raise, verifs_setVerifs, List.drop_one]

theorem burnDone_revokes {m : BitVec 8} (hb : d.sec.burn = some m) (hr : d.pow.boot ≠ some .revocation) : d.burnDone =
    (({ d with sec := { d.sec with burn := none } } : Dev).setFld R.SEC_KEYS_REVOKED (d.fld R.SEC_KEYS_REVOKED ||| m.toNat)).setFlag
      ⟨cstatAddr .sec, 1, 1⟩ false := by
  unfold Dev.burnDone
  rw [hb]
  exact if_neg hr

/-! Tamper (R428, R429). -/

/-- What latches a source leaves the other registers. -/
def Dev.latched (d : Dev) (n : Fin 5) : Dev :=
  ((d.setFlag R.PWR_TAMP_LATCH true).setFld R.PWR_TAMP_SRC (d.fld R.PWR_TAMP_SRC ||| 2 ^ n.val)).addFld R.PWR_TAMP_COUNT 1

theorem reg_latched {n : Fin 5} {a : Nat} (ha : a ≠ R.PWR_TAMP) : (d.latched n).reg a = d.reg a := by
  unfold Dev.latched
  exact (reg_addFld_ne _ _ ha).trans ((reg_setFld_ne _ _ ha).trans (reg_setFlag_ne _ _ ha))

theorem lcs_of_reg {d e : Dev} (h : e.reg R.SEC_LCS = d.reg R.SEC_LCS) : e.lcs = d.lcs := fld_congr (f := R.SEC_LCS_LCS) h

theorem latched_shows (d : Dev) (n : Fin 5) : (d.latched n).flag R.PWR_TAMP_LATCH = true ∧
    ((d.latched n).fld R.PWR_TAMP_SRC).testBit n.val = true := by
  have hsrc : d.fld R.PWR_TAMP_SRC ||| 2 ^ n.val < 2 ^ (R.PWR_TAMP_SRC.hi + 1 - R.PWR_TAMP_SRC.lo) :=
    Nat.or_lt_two_pow (fld_lt d R.PWR_TAMP_SRC) (Nat.pow_lt_pow_right (by decide) n.isLt)
  unfold Dev.latched Dev.addFld
  constructor
  · rw [flag_setFld_other _ _ _ _ (by decide) (by decide), flag_setFld_other _ _ _ _ (by decide) (by decide),
      flag_setFlag_same _ _ _ (by decide) rfl]
  · rw [fld_setFld_other _ _ _ _ (by decide) (by decide), fld_setFld_same _ _ _ (by decide), Nat.mod_eq_of_lt hsrc, Nat.testBit_or,
      Nat.testBit_two_pow_self, Bool.or_true]

/-- The engine without its key. -/
def Dev.dropsKey (d : Dev) : Dev :=
  (((d.modSec (fun x => { x with derive := 0 })).setFlag R.SEC_STAT_KEYRDY false).setFld R.SEC_STAT_SSTEP 0).setLevel 0 0

theorem wipe_startWipe (d : Dev) (c : BitVec 4) : (d.startWipe c).gal.wipe ≠ .idle := by
  have h : (d.startWipe c).gal.wipe = if d.gal.wipe = WipePhase.idle then WipePhase.clearing else d.gal.wipe := rfl
  rw [h]
  split
  · decide
  · assumption

theorem reg_startWipe {a : Nat} {c : BitVec 4} (h : a ≠ R.GAL_SEC) : (d.startWipe c).reg a = d.reg a := by
  unfold Dev.startWipe Dev.syncSec
  exact (reg_setFld_ne _ _ h).trans ((reg_setFlag_ne _ _ h).trans (reg_setFlag_ne _ _ h))

theorem reg_setStaged (d : Dev) (b : Nat) (v : Word) (a : Nat) : (d.setStaged b v).reg a = d.reg a := rfl

theorem reg_modSec (d : Dev) (f : SecState → SecState) (a : Nat) : (d.modSec f).reg a = d.reg a := rfl

theorem reg_setLevel {a l how : Nat} (hs : a ≠ R.DBG_STAT) (hl : a ≠ R.DBG_LVLSET) : (d.setLevel l how).reg a = d.reg a := by
  unfold Dev.setLevel
  rw [reg_setStaged, reg_setReg_ne _ _ hl, reg_setFld_ne _ _ hs, reg_setFld_ne _ _ hs]

theorem reg_dropsKey {a : Nat} (h : a ≠ R.SEC_STAT) (hs : a ≠ R.DBG_STAT) (hl : a ≠ R.DBG_LVLSET) : d.dropsKey.reg a = d.reg a := by
  unfold Dev.dropsKey
  rw [reg_setLevel hs hl, reg_setFld_ne _ _ h, reg_setFlag_ne _ _ h, reg_modSec]

theorem key_dropsKey (d : Dev) : d.dropsKey.flag R.SEC_STAT_KEYRDY = false := by
  unfold Dev.dropsKey
  rw [(locks_setLevel _ 0 0).key, flag_setFld_other _ _ _ _ (by decide) (by decide), flag_setFlag_same _ _ _ (by decide) rfl]

theorem wipe_dropsKey (d : Dev) : d.dropsKey.gal.wipe = d.gal.wipe := rfl

/-- The fuse of the mesh burns on a condition. -/
def Dev.fuses (d : Dev) (b : Bool) : Dev := if b then d.setFlag R.SEC_LCS_TFUSE true else d

theorem reg_fuses {a : Nat} {b : Bool} (h : a ≠ R.SEC_LCS) : (d.fuses b).reg a = d.reg a := by
  unfold Dev.fuses
  split
  · exact reg_setFlag_ne d true h
  · rfl

theorem gal_fuses (d : Dev) (b : Bool) : (d.fuses b).gal = d.gal := by
  cases b <;> rfl

theorem flag_fuses (d : Dev) : (d.fuses true).flag R.SEC_LCS_TFUSE = true := flag_setFlag_same d _ true (by decide) rfl

/-- The part when a source has been latched, the wipe begun, and the key, the level and the fuse have followed. -/
def Dev.tampered (d : Dev) (n : Fin 5) : Dev :=
  let e := ((d.latched n).startWipe 1).dropsKey
  e.fuses (n = 0 && e.lcs = 2)

theorem tampered_eq (d : Dev) (n : Fin 5) : d.tampered n = ((d.latched n).startWipe 1).dropsKey.fuses (n = 0 && d.lcs = 2) := by
  have hlcs : ((d.latched n).startWipe 1).dropsKey.lcs = d.lcs := lcs_of_reg
    ((reg_dropsKey (by decide) (by decide) (by decide)).trans ((reg_startWipe (by decide)).trans (reg_latched (by decide))))
  unfold Dev.tampered
  dsimp only
  rw [hlcs]

theorem reg_tampered {n : Fin 5} {a : Nat} (hf : a ≠ R.SEC_LCS) (hs : a ≠ R.SEC_STAT) (hd : a ≠ R.DBG_STAT) (hl : a ≠ R.DBG_LVLSET)
    (hg : a ≠ R.GAL_SEC) : (d.tampered n).reg a = (d.latched n).reg a := by
  rw [tampered_eq, reg_fuses hf, reg_dropsKey hs hd hl, reg_startWipe hg]

theorem wipe_tampered (d : Dev) (n : Fin 5) : (d.tampered n).gal.wipe ≠ .idle := by
  rw [tampered_eq, gal_fuses, wipe_dropsKey]
  exact wipe_startWipe _ 1

theorem key_tampered (d : Dev) (n : Fin 5) : (d.tampered n).flag R.SEC_STAT_KEYRDY = false := by
  rw [tampered_eq, flag_congr (reg_fuses (by decide)), key_dropsKey]

theorem mode_tampered (d : Dev) (n : Fin 5) : (d.tampered n).mode = d.mode :=
  mode_of_reg ((reg_tampered (by decide) (by decide) (by decide) (by decide) (by decide)).trans (reg_latched (by decide)))

theorem fuse_tampered (d : Dev) (h : d.lcs = 2) : (d.tampered 0).flag R.SEC_LCS_TFUSE = true := by
  rw [tampered_eq, h]
  exact flag_fuses _

theorem tamper_eq {n : Fin 5} (hm : 2 ≤ d.mode) (ha : (d.lcs = 2 ∧ n.val < 3) ∨ (d.fld R.PWR_TAMPEN_EN).testBit n.val = true) :
    d.tamper n = (d.tampered n).lockout 1 := by
  have hon : d.aonOn = true := by
    unfold Dev.aonOn
    simp only [Bool.and_eq_true, Bool.or_eq_true, decide_eq_true_eq]
    omega
  have hactive : d.tamperActive n.val = true := by
    unfold Dev.tamperActive
    simpa using ha
  unfold Dev.tamper
  rw [hon, hactive, if_neg (by decide)]
  rfl

/-- A detected source takes the part to LOCKOUT. -/
theorem tamper_locksOut {n : Fin 5} (hm : 2 ≤ d.mode) (hb : d.mode ≠ 0xB)
    (ha : (d.lcs = 2 ∧ n.val < 3) ∨ (d.fld R.PWR_TAMPEN_EN).testBit n.val = true) :
    (d.tamper n).mode = 0xB ∧ (d.tamper n).flag R.PWR_TAMP_LATCH = true ∧ ((d.tamper n).fld R.PWR_TAMP_SRC).testBit n.val = true ∧
      (d.tamper n).secureShut = true ∧ (d.tamper n).flag R.SEC_STAT_KEYRDY = false ∧ (d.tamper n).fld R.DBG_STAT_LVL = 0 ∧
      (d.tamper n).domOn 1 = false ∧ (∀ h, h < 17 → (d.tamper n).domOn (8 + h) = false) ∧
      (n = 0 → d.lcs = 2 → (d.tamper n).flag R.SEC_LCS_TFUSE = true) := by
  have hmode := mode_tampered d n
  obtain ⟨hlatch, hsrc⟩ := latched_shows d n
  obtain ⟨hlocks, hlmode, hlvl, hoff⟩ := lockout_locks (d := d.tampered n) (by rwa [hmode]) (by rwa [hmode])
  have hshown := hlocks.tamp.trans (reg_tampered (by decide) (by decide) (by decide) (by decide) (by decide))
  rw [tamper_eq hm ha]
  refine ⟨hlmode, (flag_congr hshown).trans hlatch, ?_, ?_, hlocks.key.trans (key_tampered d n), hlvl, hoff 1 (by decide), fun h hh => hoff _ ?_,
    ?_⟩
  · rw [fld_congr (f := R.PWR_TAMP_SRC) hshown, hsrc]
  · unfold Dev.secureShut
    rw [decide_eq_true (hlocks.wipe (wipe_tampered d n)), Bool.true_or]
  · exact List.mem_append_right _ (List.mem_map.mpr ⟨h, List.mem_range.mpr hh, rfl⟩)
  · rintro rfl h2
    exact (flag_congr hlocks.lcs).trans (fuse_tampered d h2)

/-! Images (R419, R420). -/

theorem length_wordsOf_le (a n : Nat) : a % 8 + n ≤ 8 * (wordsOf a n).length ∨ n = 0 := by
  unfold wordsOf
  split
  · exact .inr ‹_›
  · rw [List.length_map, List.length_range]
    omega

theorem length_imageBytes (d : Dev) (a n : Nat) : (d.imageBytes a n).length = n := by
  unfold Dev.imageBytes
  split
  · have hlen : ∀ l : List Nat, (l.flatMap (fun i => leBytes 8 (d.galWord i).1.toNat)).length = 8 * l.length := by
      intro l
      simp [List.length_flatMap, length_leBytes, Nat.mul_comm]
    rw [List.length_take, List.length_drop, hlen]
    have hwords := length_wordsOf_le (a - galBase) n
    omega
  · simp [Dev.bytes]

theorem bytes_of_mem {d e : Dev} (h : e.mem = d.mem) (a n : Nat) : e.bytes a n = d.bytes a n := by
  unfold Dev.bytes Dev.byte
  rw [h]

theorem mem_withSec (d : Dev) (x : SecState) : ({ d with sec := x } : Dev).mem = d.mem := rfl

/-- What a handover leaves of memory and of core 0. -/
theorem handover_runs (d : Dev) (a : Nat) : (d.handover a).pow.boot = none ∧ ((d.handover a).co 0).sec = false ∧
    ((d.handover a).co 0).pc = 0x08000000 + BitVec.ofNat 32 (parseHeader (d.imageBytes a 64)).entry ∧
    (d.handover a).sec.fwVersion = BitVec.ofNat 32 (parseHeader (d.imageBytes a 64)).version ∧
    (d.handover a).bytes (0x0C000000 + (parseHeader (d.imageBytes a 64)).target) (parseHeader (d.imageBytes a 64)).bodyLen =
      d.imageBytes (a + 64) (parseHeader (d.imageBytes a 64)).bodyLen := by
  unfold Dev.handover
  dsimp only
  generalize parseHeader (d.imageBytes a 64) = h
  refine ⟨rfl, ?sec, ?pc, rfl, ?body⟩
  case sec =>
    rw [co_modCo_same]
    exact getLsbD_setBit_same _ _ (by decide)
  case pc => rw [co_modCo_same]
  case body =>
    have hbody : (d.setBytes (0x0C000000 + h.target) (d.imageBytes (a + 64) h.bodyLen)).bytes (0x0C000000 + h.target) h.bodyLen =
        d.imageBytes (a + 64) h.bodyLen := by
      have hsame := bytes_setBytes_same (d := d) (a := 0x0C000000 + h.target) (l := d.imageBytes (a + 64) h.bodyLen)
      rwa [length_imageBytes] at hsame
    refine (bytes_of_mem ?_ _ _).trans hbody
    rw [mem_modCo, mem_modPow, mem_withSec]
    split <;> rfl

theorem bootAddr_verifyEnd (d : Dev) (b : BootItem) : d.verifyEnd.bootAddr b = d.bootAddr b := by
  have hreg : d.verifyEnd.reg R.PWR_BOOTADR = d.reg R.PWR_BOOTADR := (reg_raise _ _ _).trans (reg_setVerifs _ (by decide))
  unfold Dev.bootAddr
  rw [fld_congr (f := R.PWR_BOOTADR_OFF) hreg]

theorem mode_verifyEnd (d : Dev) : d.verifyEnd.mode = d.mode :=
  mode_of_reg ((reg_raise _ _ _).trans (reg_setVerifs _ (by decide)))

theorem pow_verifyEnd (d : Dev) : d.verifyEnd.pow = d.pow :=
  ((raise_evcOnly _ _).keepsPower.pow).trans (keepsPower_setVerifs d _).pow

/-- The verdict on an image: it runs, or the next source has its turn. -/
theorem firmwareVerified_image {b : BootItem} {a : Nat} (hb : d.pow.boot = some b) (ha : d.bootAddr b = some a)
    (hv : d.verifyFirst .boot = true) (v : Verdict) : d.firmwareVerified v =
      if v = .pass && d.verifyEnd.imageOk a then
        (if d.mode = 3 then (d.verifyEnd.setMode 2).applyMode 2 else d.verifyEnd).handover a
      else d.verifyEnd.bootFailed b := by
  unfold Dev.firmwareVerified
  rw [hb]
  cases b with
  | image n =>
    dsimp only
    rw [hv, bootAddr_verifyEnd, ha, mode_verifyEnd]
    rfl
  | host =>
    dsimp only
    rw [hv, bootAddr_verifyEnd, ha, mode_verifyEnd]
    rfl
  | wait => exact absurd ha (by simp [Dev.bootAddr])
  | record => exact absurd ha (by simp [Dev.bootAddr])
  | revocation => exact absurd ha (by simp [Dev.bootAddr])

theorem bootFailed_first (d : Dev) : d.bootFailed (.image 0) =
    (d.verifyRequest .boot).modPow (fun p => { p with boot := some (.image 1) }) := by
  unfold Dev.bootFailed
  exact if_pos rfl

/-- Settles O53: the engine's step by what it works on, a burn by the revoked slots, a source by what LOCKOUT leaves of its latch, an
image by its verdict. -/
theorem securityRuns : Obligations.SecurityRuns := by
  unfold Obligations.SecurityRuns
  intro s d
  refine ⟨fun _ hv => run_eq_after (f := Dev.secStep) (secStep_serves hv), fun hs hv => ⟨fun hk => ⟨fun hn => ?derives, fun hn => ?derived⟩,
    fun hk => ⟨fun hn => ?signs, fun hn => ?signed⟩⟩,
    fun k => ⟨rfl, (nvq_setVerifs _ _).trans (by rw [List.length_append]; rfl), busy_verifyRequest d k, verifs_verifyEnd d⟩,
    fun m hb hr => run_eq_after (f := Dev.burnDone) (burnDone_revokes hb hr),
    fun n hm hb ha => ⟨_, rfl, tamper_locksOut hm hb ha⟩, fun b a hb ha hv => ⟨fun hok hm => ?runs, fun h0 v hbad => ?fails⟩⟩
  case derives =>
    refine run_eq_after (f := Dev.secStep) ((secStep_eq hs hv).trans ?_)
    rw [show s.dev.flag R.SEC_STAT_KEYRDY = false from hk, Bool.not_false, if_pos rfl]
    exact if_neg (by omega)
  case derived =>
    refine run_eq_after (f := Dev.secStep) ((secStep_eq hs hv).trans ?_)
    rw [show s.dev.flag R.SEC_STAT_KEYRDY = false from hk, Bool.not_false, if_pos rfl]
    exact if_pos (by omega)
  case signs =>
    refine run_eq_after (f := Dev.secStep) ((secStep_eq hs hv).trans ?_)
    rw [show s.dev.flag R.SEC_STAT_KEYRDY = true from hk, Bool.not_true, if_neg Bool.false_ne_true, if_neg (by omega)]
    exact if_neg (by omega)
  case signed =>
    refine run_eq_after (f := Dev.secStep) ((secStep_eq hs hv).trans ?_)
    rw [show s.dev.flag R.SEC_STAT_KEYRDY = true from hk, Bool.not_true, if_neg Bool.false_ne_true, if_neg (by omega)]
    exact if_pos (by omega)
  case runs =>
    refine ⟨_, run_eq_after (f := fun d => d.firmwareVerified .pass) ?_, handover_runs d.verifyEnd a⟩
    refine (firmwareVerified_image hb ha hv .pass).trans ((if_pos ?_).trans ?_)
    · rw [show s.dev.verifyEnd.imageOk a = true from hok]
      rfl
    · rw [if_neg (by rw [show s.dev.mode = 2 from hm]; decide)]
  case fails =>
    refine run_eq_after (f := fun d => d.firmwareVerified v) ((firmwareVerified_image hb ha hv v).trans ((if_neg ?_).trans ?_))
    · rw [Bool.and_eq_true, decide_eq_true_eq]
      rintro ⟨hpass, hok⟩
      rcases hbad with h | h
      · exact h hpass
      · exact Bool.false_ne_true (h.symm.trans hok)
    · rw [h0, bootFailed_first]
      have hpow : (d.verifyEnd.verifyRequest .boot).pow = d.pow := (keepsPower_setVerifs _ _).pow.trans (pow_verifyEnd d)
      unfold Dev.modPow
      rw [hpow]

end Sys2Proof.Machine
end


section
/-! Debug challenges and tokens (R432, R433). The verdict of a token comes with its row (log entry 61). -/

namespace Sys2Proof.Machine

variable {d e : Dev} {s : State} {r : Requester} {w : Who} {v : Word}

/-- A plain write keeps all but registers and what is staged for them. -/
theorem plainWrite_keeps {b : Block} {a : Nat} (d : Dev) (w : Who) (v : Word) (hc : a ≠ blockBase b + 0x7FF0) :
    (d.plainWrite w b a v).sec = d.sec ∧ (d.plainWrite w b a v).pow = d.pow ∧ (d.plainWrite w b a v).core = d.core := by
  obtain ⟨g, t, h⟩ := plainWrite_eq (d := d) (b := b) (a := a) w v hc
  rw [h]
  exact ⟨rfl, rfl, rfl⟩

theorem reg_writeTokcmd {x : Nat} (ha : x ≠ R.DBG_TOKCMD) (hs : x ≠ cstatAddr .dbg) :
    (d.plainWrite w .dbg R.DBG_TOKCMD v).reg x = d.reg x := reg_plainWrite_noCommit d w v (by decide) ha hs

/-- The nonce's words, in their order. -/
theorem reg_chal (l : List Word) (d : Dev) {k : Nat} (hk : k < 8) :
    (forEach (List.range 8) d (fun d k => d.setReg (R.DBG_CHAL k) (l.getD k 0))).reg (R.DBG_CHAL k) = l.getD k 0 := by
  refine forEach_at (fun e : Dev => e.reg (R.DBG_CHAL k)) (fun _ => l.getD k 0) List.nodup_range (List.mem_range.mpr hk) (fun e c _ hc => ?_)
    (fun e => reg_setReg_same e _ _) d
  refine reg_setReg_ne e _ ?_
  unfold R.DBG_CHAL
  omega

/-- NEWCH draws its nonce where nothing blocks it. -/
theorem newChallenge_draws {l : List Word} (hb : d.sec.blocked = false) (hu : d.unlockOff = false) :
    (d.newChallenge l).sec = { d.sec with nonce := true } ∧ ∀ k, k < 8 → (d.newChallenge l).reg (R.DBG_CHAL k) = l.getD k 0 := by
  have hsec : (forEach (List.range 8) d (fun d k => d.setReg (R.DBG_CHAL k) (l.getD k 0))).sec = d.sec :=
    forEach_frame Dev.sec (List.range 8) d (fun _ _ => rfl)
  unfold Dev.newChallenge
  rw [hb, hu, if_neg (by decide)]
  refine ⟨?_, fun k hk => (reg_modSec _ _ _).trans (reg_chal l d hk)⟩
  exact congrArg (fun x => ({ x with nonce := true } : SecState)) hsec

theorem unlockOff_of_mode (h3 : d.mode ≠ 3) (hb : d.mode ≠ 0xB) : d.unlockOff = false := by
  unfold Dev.unlockOff
  rw [decide_eq_false h3, decide_eq_false hb, Bool.or_self]

theorem unlockOff_congr (h : e.mode = d.mode) : e.unlockOff = d.unlockOff := by
  unfold Dev.unlockOff
  rw [h]

theorem drawNonce_draws {l : List Word} (h31 : (d.reg R.DBG_TOKCMD).getLsbD 31 = false) (hcan : d.canRequest (d.who r).node = true)
    (hw : d.writeRefused (d.who r) .dbg R.DBG_TOKCMD (setBit (d.reg R.DBG_TOKCMD) 30 true) = false) (hb : d.sec.blocked = false)
    (h3 : d.mode ≠ 3) (hB : d.mode ≠ 0xB) : ∃ t : Dev, d.drawNonce r l = t.respond 0 [] ∧ t.sec = { d.sec with nonce := true } ∧
      ∀ k, k < 8 → t.reg (R.DBG_CHAL k) = l.getD k 0 := by
  have hv30 : (setBit (d.reg R.DBG_TOKCMD) 30 true).getLsbD 30 = true := getLsbD_setBit_same _ _ (by decide)
  have hv31 : (setBit (d.reg R.DBG_TOKCMD) 30 true).getLsbD 31 = false := (getLsbD_setBit_ne _ _ (by decide)).trans h31
  refine ⟨d.tokenWrite (d.who r) (setBit (d.reg R.DBG_TOKCMD) 30 true) l, ?_, ?_⟩
  · unfold Dev.drawNonce Dev.regWith
    dsimp only
    rw [hcan, hw, if_neg (by decide), if_neg Bool.false_ne_true]
  · unfold Dev.tokenWrite
    dsimp only
    rw [hv30, hv31, if_pos rfl, if_neg Bool.false_ne_true]
    obtain ⟨hsec, _, _⟩ := plainWrite_keeps (b := .dbg) (a := R.DBG_TOKCMD) d (d.who r) (setBit (d.reg R.DBG_TOKCMD) 30 true) (by decide)
    have hmode : (d.plainWrite (d.who r) .dbg R.DBG_TOKCMD (setBit (d.reg R.DBG_TOKCMD) 30 true)).mode = d.mode :=
      mode_of_reg (reg_writeTokcmd (by decide) (by decide))
    have hdraws := newChallenge_draws (d := d.plainWrite (d.who r) .dbg R.DBG_TOKCMD (setBit (d.reg R.DBG_TOKCMD) 30 true)) (l := l)
      (by rw [hsec, hb]) ((unlockOff_congr hmode).trans (unlockOff_of_mode h3 hB))
    rwa [hsec] at hdraws

/-- A token that goes to its verification. -/
def Dev.sendsToken (d t : Dev) : Dev :=
  let lvl := if d.sec.nonce then t.fld R.DBG_TOKCMD_REQLVL else 0
  (({ t with sec := { d.sec with
    nonce := false, tokReq := some (BitVec.ofNat 2 lvl, BitVec.ofNat 3 (t.fld R.DBG_TOKCMD_SLOT)) } } : Dev).setFlag
      R.DBG_STAT_TOKBUSY true).verifyRequest .token

theorem tokenGo_sends (hb : d.flag R.DBG_STAT_TOKBUSY = false) (hu : d.unlockOff = false) : d.tokenGo = d.sendsToken d := by
  unfold Dev.tokenGo
  rw [hb, hu, if_neg (by decide)]
  rfl

theorem startWrite_tokenGo (h30 : v.getLsbD 30 = false) (h31 : v.getLsbD 31 = true) (hb : d.flag R.DBG_STAT_TOKBUSY = false)
    (h3 : d.mode ≠ 3) (hB : d.mode ≠ 0xB) :
    d.drawn.startWrite (d.who r) .dbg R.DBG_TOKCMD v = d.sendsToken (d.fielded r .dbg R.DBG_TOKCMD v) := by
  have hstart : d.drawn.startWrite (d.who r) .dbg R.DBG_TOKCMD v = (d.fielded r .dbg R.DBG_TOKCMD v).tokenGo := by
    unfold Dev.startWrite Dev.tokenWrite
    dsimp only
    rw [if_pos rfl, h30, h31, if_neg Bool.false_ne_true, if_neg Bool.false_ne_true, if_pos rfl]
    rfl
  obtain ⟨hsec, _, _⟩ := plainWrite_keeps (b := .dbg) (a := R.DBG_TOKCMD) d.drawn (d.who r) v (by decide)
  have hmode : (d.fielded r .dbg R.DBG_TOKCMD v).mode = d.mode :=
    mode_of_reg (reg_writeTokcmd (d := d.drawn) (by decide) (by decide))
  have hbusy : (d.fielded r .dbg R.DBG_TOKCMD v).flag R.DBG_STAT_TOKBUSY = false :=
    (flag_congr (reg_writeTokcmd (d := d.drawn) (by decide) (by decide))).trans hb
  rw [hstart, tokenGo_sends hbusy ((unlockOff_congr hmode).trans (unlockOff_of_mode h3 hB))]
  unfold Dev.sendsToken
  rw [show (d.fielded r .dbg R.DBG_TOKCMD v).sec = d.sec from hsec]

theorem reg_sendsToken {t : Dev} {x : Nat} (hs : x ≠ R.DBG_STAT) (hv : x ≠ R.SEC_STAT) : (d.sendsToken t).reg x = t.reg x := by
  unfold Dev.sendsToken Dev.verifyRequest
  dsimp only
  rw [reg_setVerifs _ hv, reg_setFlag_ne _ _ hs]
  rfl

/-- The state in which a token's verdict is judged. -/
def Dev.tokenJudged (d : Dev) : Dev :=
  (({ d with sec := { d.sec with tokReq := none } } : Dev).setFlag R.DBG_STAT_TOKBUSY false).verifyEnd

theorem tok_tokenJudged (d : Dev) : d.tokenJudged.sec.tok = d.sec.tok := by
  unfold Dev.tokenJudged Dev.verifyEnd
  rw [sec_raise]
  rfl

theorem reg_tokenJudged {x : Nat} (hs : x ≠ R.DBG_STAT) (hv : x ≠ R.SEC_STAT) : d.tokenJudged.reg x = d.reg x := by
  unfold Dev.tokenJudged Dev.verifyEnd
  rw [reg_raise, reg_setVerifs _ hv, reg_setFlag_ne _ _ hs]
  rfl

theorem tokenDone_eq {lvl : BitVec 2} {slot : BitVec 3} (vd : Verdict) (ht : d.sec.tokReq = some (lvl, slot)) (hf : d.verifyFirst .token = true) :
    d.tokenDone vd =
      if vd = .pass && (d.tokenBlock.ok && d.slotValid slot.toNat && tokenAllowed d.lcs slot.toNat lvl.toNat && decide (d.mode ≠ 3 ∧ d.mode ≠ 0xB))
      then (d.tokenJudged.setLevel lvl.toNat (if slot = 4 then 1 else 2)).raise 0xE9
      else { d.tokenJudged.setFlag R.DBG_STAT_TOKERR true with sec := { d.tokenJudged.sec with blocked := true } } := by
  have hblock : d.tokenJudged.tokenBlock = d.tokenBlock := by
    unfold Dev.tokenBlock
    rw [tok_tokenJudged]
  have hlcs : d.tokenJudged.lcs = d.lcs := lcs_of_reg (reg_tokenJudged (by decide) (by decide))
  have hslot : d.tokenJudged.slotValid slot.toNat = d.slotValid slot.toNat := by
    unfold Dev.slotValid
    rw [fld_congr (f := R.SEC_KEYS_PROG) (reg_tokenJudged (d := d) (by decide) (by decide)),
      fld_congr (f := R.SEC_KEYS_REVOKED) (reg_tokenJudged (d := d) (by decide) (by decide)), hlcs]
  have hunlock : d.tokenJudged.unlockOff = !decide (d.mode ≠ 3 ∧ d.mode ≠ 0xB) := by
    rw [unlockOff_congr (mode_of_reg (reg_tokenJudged (by decide) (by decide)))]
    unfold Dev.unlockOff
    by_cases h3 : d.mode = 3 <;> by_cases hB : d.mode = 0xB <;> simp [h3, hB]
  unfold Dev.tokenDone
  rw [ht]
  dsimp only
  rw [hf, Bool.not_true, if_neg Bool.false_ne_true]
  rw [show (((d.modSec (fun x => { x with tokReq := none })).setFlag R.DBG_STAT_TOKBUSY false).verifyEnd) = d.tokenJudged from rfl, hblock, hlcs,
    hslot, hunlock, Bool.not_not]
  simp only [Bool.and_assoc]
  rfl

end Sys2Proof.Machine
end

section
/-! HALT and its end (R402, R405, R434). -/

namespace Sys2Proof.Machine

variable {d e : Dev} {r : Requester} {m : BitVec 4}

/-- A core halts on a condition, unless it is in reset. -/
def CoreState.haltIf (k : CoreState) (b : Bool) : CoreState := if b && k.mode ≠ .reset then { k with halted := true } else k

/-- A core of the mask halts. -/
def Dev.haltOne (m : BitVec 4) (d : Dev) (c : CoreId) : Dev :=
  if m.getLsbD c.val && (d.co c).mode ≠ .reset then d.modCo c (fun k => { k with halted := true }) else d

theorem co_haltOne_ne {c f : CoreId} (h : f ≠ c) : (d.haltOne m f).co c = d.co c := by
  unfold Dev.haltOne
  split
  · exact co_setCo_ne d f c _ h.symm
  · rfl

theorem co_haltOne_same (c : CoreId) : (d.haltOne m c).co c = (d.co c).haltIf (m.getLsbD c.val) := by
  unfold Dev.haltOne CoreState.haltIf
  split
  · exact co_modCo_same d c _
  · rfl

theorem reg_haltOne (c : CoreId) (a : Nat) : (d.haltOne m c).reg a = d.reg a := by
  unfold Dev.haltOne
  split <;> rfl

theorem rest_haltOne (c : CoreId) : (d.haltOne m c).pow = d.pow ∧ (d.haltOne m c).arr = d.arr := by
  unfold Dev.haltOne
  split
  · exact ⟨rfl, rfl⟩
  · exact ⟨rfl, rfl⟩

/-- The cores of a mask, halted. -/
def Dev.haltMask (d : Dev) (m : BitVec 4) : Dev := forEach (List.finRange 4) d (Dev.haltOne m)

theorem co_haltMask (c : CoreId) : (d.haltMask m).co c = (d.co c).haltIf (m.getLsbD c.val) :=
  forEach_at (fun e : Dev => e.co c) (fun k => k.haltIf (m.getLsbD c.val)) (List.nodup_finRange 4) (List.mem_finRange c)
    (fun _ _ _ h => co_haltOne_ne h) (fun _ => co_haltOne_same c) d

theorem reg_haltMask (a : Nat) : (d.haltMask m).reg a = d.reg a := forEach_frame (fun e : Dev => e.reg a) _ d (fun _ c => reg_haltOne c a)

theorem pow_haltMask : (d.haltMask m).pow = d.pow := forEach_frame Dev.pow _ d (fun _ c => (rest_haltOne c).1)

theorem arr_haltMask : (d.haltMask m).arr = d.arr := forEach_frame Dev.arr _ d (fun _ c => (rest_haltOne c).2)

theorem haltCores_eq (d : Dev) (m : BitVec 4) : ∃ n, d.haltCores m = ((d.haltMask m).setFld R.DBG_STAT_HALTED n).scanFallback := ⟨_, rfl⟩

theorem st_setSt_ne {x y : StreamId} (v : Strm) (h : x ≠ y) : (d.setSt y v).st x = d.st x := by
  simp only [Dev.st, Dev.setSt]
  exact Vector.getElem_set_ne _ _ (fun hv => h (Fin.ext hv.symm))

theorem co_modCo_ne {c f : CoreId} (g : CoreState → CoreState) (h : f ≠ c) : (d.modCo c g).co f = d.co f := co_setCo_ne d c f _ h

/-- What a request to stop reads and writes of a stream. -/
def Dev.stopView (d : Dev) (x : StreamId) : Bool × Strm := (d.ownsStream x, d.st x)

/-- A stream that is owned and not held is asked to stop. -/
def stopAsked (p : Bool × Strm) : Bool × Strm := (p.1, if p.1 && p.2.held.isNone then { p.2 with preReq := true } else p.2)

theorem stopView_stopRequest_ne {x y : StreamId} (h : y ≠ x) : (d.stopRequest y).stopView x = d.stopView x := by
  unfold Dev.stopRequest Dev.stopView
  split
  · exact Prod.ext rfl (st_setSt_ne _ h.symm)
  · rfl

theorem stopView_stopRequest_same (x : StreamId) : (d.stopRequest x).stopView x = stopAsked (d.stopView x) := by
  unfold Dev.stopRequest Dev.stopView stopAsked
  dsimp only
  split
  · exact Prod.ext rfl (st_modSt_same d x _)
  · rfl

/-- The streams, asked to stop. -/
def Dev.stopStreams (d : Dev) : Dev := forEach (List.finRange 4) d (fun d s => d.stopRequest s)

theorem stopView_stopStreams (x : StreamId) : d.stopStreams.stopView x = stopAsked (d.stopView x) :=
  forEach_at (fun e : Dev => e.stopView x) stopAsked (List.nodup_finRange 4) (List.mem_finRange x)
    (fun _ _ _ h => stopView_stopRequest_ne h) (fun _ => stopView_stopRequest_same x) d

theorem rest_stopRequest (x : StreamId) : (d.stopRequest x).pow = d.pow ∧ (d.stopRequest x).core = d.core := by
  unfold Dev.stopRequest
  split
  · exact ⟨rfl, rfl⟩
  · exact ⟨rfl, rfl⟩

theorem pow_stopStreams : d.stopStreams.pow = d.pow := forEach_frame Dev.pow _ d (fun _ x => (rest_stopRequest x).1)

theorem core_stopStreams : d.stopStreams.core = d.core := forEach_frame Dev.core _ d (fun _ x => (rest_stopRequest x).2)

theorem enterHalt_eq (d : Dev) : d.enterHalt =
    (((d.modPow (fun p => { p with haltFrom := d.mode, haltReq := 0 })).haltCores 0xF).stopStreams).setMode 0xA := rfl

theorem ownsStream_congr {x : StreamId} (h : e.reg R.SEQ_CTRL = d.reg R.SEQ_CTRL) : e.ownsStream x = d.ownsStream x := by
  unfold Dev.ownsStream Dev.numStreams
  rw [fld_congr (f := R.SEQ_CTRL_SPLIT) h]

/-- HALT: its mode, the mode that was left, the cores and the streams. -/
theorem enterHalt_halts (d : Dev) : d.enterHalt.mode = 0xA ∧ d.enterHalt.pow.haltFrom = d.mode ∧
    (∀ c : CoreId, (d.co c).mode ≠ .reset → (d.enterHalt.co c).halted = true) ∧
    (∀ x : StreamId, d.ownsStream x = true → (d.st x).held = none → (d.enterHalt.st x).preReq = true) := by
  obtain ⟨n, hn⟩ := haltCores_eq (d.modPow (fun p => { p with haltFrom := d.mode, haltReq := 0 })) 0xF
  rw [enterHalt_eq, hn]
  generalize hu : ((d.modPow (fun p => { p with haltFrom := d.mode, haltReq := 0 })).haltMask 0xF).setFld R.DBG_STAT_HALTED n = u
  have hscan := scanFallback_evcOnly u
  have hmode : ∀ f : Dev, (f.setMode 0xA).pow = f.pow ∧ (f.setMode 0xA).core = f.core ∧ (f.setMode 0xA).arr = f.arr := fun f => by
    unfold Dev.setMode
    exact ⟨(raise_evcOnly _ _).keepsPower.pow, (raise_evcOnly _ _).core, arr_raise _ _⟩
  obtain ⟨hpow, hcore, harr⟩ := hmode u.scanFallback.stopStreams
  refine ⟨mode_set (by decide), ?left, fun c hr => ?core, fun x ho hh => ?stream⟩
  case left =>
    rw [hpow, pow_stopStreams, hscan.keepsPower.pow, ← hu, pow_setFld, pow_haltMask]
    rfl
  case core =>
    have hm : (0xF : BitVec 4).getLsbD c.val = true := by
      clear hr
      revert c
      decide
    have hco : ((u.scanFallback.stopStreams).setMode 0xA).co c = u.co c := congrArg (·[c]) ((hcore.trans core_stopStreams).trans hscan.core)
    have hu' : u.co c = (d.co c).haltIf true := by
      rw [← hu, Dev.setFld, co_setReg, co_haltMask, hm]
      rfl
    rw [hco, hu']
    unfold CoreState.haltIf
    rw [Bool.true_and, decide_eq_true hr, if_pos rfl]
  case stream =>
    have hst : ((u.scanFallback.stopStreams).setMode 0xA).st x = (stopAsked (u.scanFallback.stopView x)).2 := by
      rw [← stopView_stopStreams]
      exact congrArg (fun a : ArrayState => a.strm[x]) harr
    have hview : u.scanFallback.stopView x = (true, d.st x) := by
      refine Prod.ext ?_ ?_
      · refine (ownsStream_congr (hscan.reg _)).trans ((ownsStream_congr (d := d) ?_).trans ho)
        rw [← hu, reg_setFld_ne _ _ (by decide), reg_haltMask]
        rfl
      · refine congrArg (fun a : ArrayState => a.strm[x]) (hscan.arr.trans ?_)
        rw [← hu, arr_setFld, arr_haltMask, arr_modPow]
    rw [hst, hview]
    unfold stopAsked
    rw [hh]
    rfl

/-! The end of HALT (R402). -/

/-- The cores go on. -/
def Dev.goesOn (d : Dev) : Dev := forEach (List.finRange 4) d (fun d c => d.modCo c (fun k => { k with halted := false }))

theorem co_goesOn (c : CoreId) : d.goesOn.co c = { d.co c with halted := false } :=
  forEach_at (fun e : Dev => e.co c) (fun k => { k with halted := false }) (List.nodup_finRange 4) (List.mem_finRange c)
    (f := fun e f => e.modCo f (fun k => { k with halted := false })) (fun _ _ _ h => co_modCo_ne _ h.symm) (fun e => co_modCo_same e c _) d

theorem pow_goesOn : d.goesOn.pow = d.pow := forEach_frame Dev.pow _ d (fun _ _ => rfl)

theorem resume_goesOn (hm : d.mode = 0xA) : d.resume = (d.goesOn.setFld R.DBG_STAT_HALTED 0).setMode d.pow.haltFrom := by
  have heq : d.resume = (d.goesOn.setFld R.DBG_STAT_HALTED 0).setMode d.goesOn.pow.haltFrom := if_neg (not_not.mpr hm)
  rw [heq, pow_goesOn]

theorem resume_shows (hm : d.mode = 0xA) (hf : d.pow.haltFrom < 16) : d.resume.mode = d.pow.haltFrom ∧ d.resume.fld R.DBG_STAT_HALTED = 0 ∧
    (∀ c : CoreId, (d.resume.co c).halted = false) ∧ d.resume.pow = d.pow := by
  rw [resume_goesOn hm]
  have hkeeps : ∀ (f : Dev) n, (f.setMode n).pow = f.pow ∧ (f.setMode n).core = f.core := fun f n => by
    unfold Dev.setMode
    exact ⟨(raise_evcOnly _ _).keepsPower.pow, (raise_evcOnly _ _).core⟩
  obtain ⟨hpow, hcore⟩ := hkeeps (d.goesOn.setFld R.DBG_STAT_HALTED 0) d.pow.haltFrom
  refine ⟨mode_set hf, ?_, fun c => ?_, hpow.trans pow_goesOn⟩
  · exact (fld_congr (reg_setMode (by decide))).trans (fld_setFld_same _ R.DBG_STAT_HALTED 0 (by decide))
  · have hco : ((d.goesOn.setFld R.DBG_STAT_HALTED 0).setMode d.pow.haltFrom).co c = d.goesOn.co c := congrArg (·[c]) hcore
    rw [hco, co_goesOn]

theorem reg_goesOn (a : Nat) : d.goesOn.reg a = d.reg a := forEach_frame (fun e : Dev => e.reg a) _ d (fun _ _ => rfl)

theorem reg_resume {a : Nat} (hm : d.mode = 0xA) (hs : a ≠ R.DBG_STAT) (hp : a ≠ R.PWR_MSTAT) : d.resume.reg a = d.reg a := by
  rw [resume_goesOn hm, reg_setMode hp, reg_setFld_ne _ _ hs, reg_goesOn]

/-! Writes of DBG_HALT (R434). -/

/-- A halt request in force. -/
def Dev.haltAsked (d : Dev) (m : BitVec 4) : Dev := { d.setFld R.DBG_HALT_HREQ m.toNat with pow := { d.pow with haltReq := m } }

theorem mode_haltAsked : (d.haltAsked m).mode = d.mode := mode_of_reg (reg_setFld_ne d _ (by decide))

theorem haltRequest_eq (h3 : d.mode ≠ 3) (hA : d.mode ≠ 0xA) (hB : d.mode ≠ 0xB) : d.haltRequest m = (d.haltAsked m).tryHalt := by
  have hmode : (d.setFld R.DBG_HALT_HREQ m.toNat).mode = d.mode := mode_of_reg (reg_setFld_ne d _ (by decide))
  unfold Dev.haltRequest Dev.haltRefused
  dsimp only
  rw [hmode, decide_eq_false h3, decide_eq_false hA, decide_eq_false hB, if_neg (by decide)]
  rfl

theorem tryHalt_enters (hr : d.pow.haltReq ≠ 0) (hb : d.flag R.PWR_MSTAT_BUSY = false) (h6 : 6 ≤ d.mode) (h9 : d.mode ≤ 9) :
    d.tryHalt = d.enterHalt := by
  unfold Dev.tryHalt
  rw [decide_eq_true hr, hb, decide_eq_true h6, decide_eq_true h9]
  exact if_pos rfl

theorem tryHalt_waits (h : d.mode = 2 ∨ d.flag R.PWR_MSTAT_BUSY = true) : d.tryHalt = d := by
  unfold Dev.tryHalt
  rcases h with h | h
  · rw [h, decide_eq_false (show ¬6 ≤ 2 by decide), Bool.and_false, Bool.false_and, if_neg Bool.false_ne_true]
  · rw [h, Bool.not_true, Bool.and_false, Bool.false_and, Bool.false_and, if_neg Bool.false_ne_true]

theorem startWrite_haltReq (w : Who) (m : BitVec 4) : d.startWrite w .dbg R.DBG_HALT (m.setWidth 32) = d.haltRequest m := by
  have h31 : (m.setWidth 32).getLsbD 31 = false := by simp
  have hm : BitVec.ofNat 4 (m.setWidth 32).toNat = m := by
    refine BitVec.eq_of_toNat_eq ?_
    rw [BitVec.toNat_ofNat, BitVec.toNat_setWidth]
    omega
  unfold Dev.startWrite Dev.haltWrite
  dsimp only
  rw [if_neg (by decide), if_pos rfl, h31, if_neg Bool.false_ne_true, hm]

/-- A halt request that HALT answers, and one that waits. -/
theorem haltRequest_halts (hm : m ≠ 0) (h6 : 6 ≤ d.mode) (h9 : d.mode ≤ 9) (hb : d.flag R.PWR_MSTAT_BUSY = false) :
    d.haltRequest m = (d.haltAsked m).enterHalt := by
  rw [haltRequest_eq (by omega) (by omega) (by omega)]
  exact tryHalt_enters hm ((flag_congr (reg_setFld_ne d _ (by decide))).trans hb) (by rwa [mode_haltAsked]) (by rwa [mode_haltAsked])

theorem haltRequest_waits (h : d.mode = 2 ∨ (d.flag R.PWR_MSTAT_BUSY = true ∧ d.mode ≠ 3 ∧ d.mode ≠ 0xA ∧ d.mode ≠ 0xB)) :
    d.haltRequest m = d.haltAsked m := by
  have hmodes : d.mode ≠ 3 ∧ d.mode ≠ 0xA ∧ d.mode ≠ 0xB := by
    rcases h with h | ⟨_, h⟩
    · omega
    · exact h
  rw [haltRequest_eq hmodes.1 hmodes.2.1 hmodes.2.2]
  refine tryHalt_waits ?_
  rcases h with h | ⟨h, _⟩
  · exact .inl (mode_haltAsked.trans h)
  · exact .inr ((flag_congr (reg_setFld_ne d _ (by decide))).trans h)

theorem reg_haltAsked {a : Nat} (h : a ≠ R.DBG_HALT) : (d.haltAsked m).reg a = d.reg a := reg_setFld_ne d _ h

theorem reg_stopStreams (a : Nat) : d.stopStreams.reg a = d.reg a := by
  refine forEach_frame (fun e : Dev => e.reg a) _ d (fun e x => ?_)
  unfold Dev.stopRequest
  split <;> rfl

theorem reg_enterHalt {a : Nat} (hs : a ≠ R.DBG_STAT) (hp : a ≠ R.PWR_MSTAT) : d.enterHalt.reg a = d.reg a := by
  obtain ⟨n, hn⟩ := haltCores_eq (d.modPow (fun p => { p with haltFrom := d.mode, haltReq := 0 })) 0xF
  rw [enterHalt_eq, hn, reg_setMode hp, reg_stopStreams, (scanFallback_evcOnly _).reg, reg_setFld_ne _ _ hs, reg_haltMask, reg_modPow]

theorem startWrite_resume (w : Who) :
    d.startWrite w .dbg R.DBG_HALT 0x80000000 = d.resume.haltRequest 0 := by
  unfold Dev.startWrite Dev.haltWrite
  dsimp only
  rw [if_neg (by decide), if_pos rfl, if_pos (by decide)]
  rfl

theorem haltRequest_none : d.haltRequest 0 = d.setFld R.DBG_HALT_HREQ 0 ∨ d.haltRequest 0 = d.haltAsked 0 := by
  unfold Dev.haltRequest
  dsimp only
  split
  · exact .inl rfl
  · exact .inr (tryHalt_idle rfl)

end Sys2Proof.Machine
end

section
/-! The debug memory port (R431). -/

namespace Sys2Proof.Machine

variable {d e : Dev} {s : State} {r : Requester} {w : Who} {node a : Nat} {v : Word}

/-- What an access of the port leaves: its word, its status OK, and the address that it moves on to. -/
def Dev.portMoved (d : Dev) (v lo : Word) (hi : Nat) : Dev :=
  (((d.setReg R.DBG_MDATA v).setFld R.DBG_STAT_MSTAT 0).setReg R.DBG_MADDR lo).setFld R.DBG_MADDRH_HI hi

theorem zero_toNat_four : (0 : BitVec 4).toNat = 0 := rfl

/-- A request that the road carries to its target is answered by it. -/
theorem busWrite_served {l : List Byte} {st : BitVec 4} (hc : d.Carries w node) (hn : nodeOfAddr d.chipId a = some node)
    (hs : d.drawn.serveWrite w a l = .done st () e) (hk : ∀ x ∈ responseRegs, e.reg x = d.reg x) (hw : w.node < 32) :
    d.busWrite w a l = .answered st () e := by
  have hreach := reach_of_carries hc true
  obtain ⟨_, _, _, _, hfree, hoff, halive⟩ := hc
  obtain ⟨tid, htid⟩ := drawTid_free hfree
  have hend := concluded_off (probesOff_of_responseRegs hk hoff) ((nodeDead_of_responseRegs hk hw).trans halive) node true
    (w.packet tid a l.length l) st [] ()
  unfold Dev.busWrite
  simp only [hn, hreach, htid, hs, hend]

theorem busRead_served {n : Nat} {l : List Byte} {st : BitVec 4} (hc : d.Carries w node) (hn : nodeOfAddr d.chipId a = some node)
    (hs : d.drawn.serveRead w a n = .done st l e) (hk : ∀ x ∈ responseRegs, e.reg x = d.reg x) (hw : w.node < 32) :
    d.busRead w a n = .answered st l e := by
  have hreach := reach_of_carries hc true
  obtain ⟨_, _, _, _, hfree, hoff, halive⟩ := hc
  obtain ⟨tid, htid⟩ := drawTid_free hfree
  have hend := concluded_off (probesOff_of_responseRegs hk hoff) ((nodeDead_of_responseRegs hk hw).trans halive) node false
    (w.packet tid a n []) st l l
  unfold Dev.busRead
  simp only [hn, hreach, htid, hs, hend]

/-- A request that is answered at once is so for a requester that has asked for nothing. -/
theorem awaited_none {wr : Bool} {n : Nat} {issue : Issued (List Byte)} {st : BitVec 4} {l : List Byte} (hq : d.road.asked = [])
    (hissue : issue = .answered st l e) : d.awaited w wr a n issue = .answered st l e := by
  unfold Dev.awaited
  rw [hq, hissue]
  rfl

theorem memPort_answered {o : Option Word} (ha : d.memPortAddr = a) (h : d.portAccess a o = .answered 0 v e) :
    d.memPort o = e.portMoved v (BitVec.ofNat 32 (a + 4)) ((a + 4) / 2 ^ 32) := by
  rw [memPort_eq, ha]
  simp only [Dev.portMove, h, Dev.portMoved, zero_toNat_four]

section Port

variable (ha : d.memPortAddr = a) (hc : d.Carries ⟨0x0F, true, false⟩ node) (hq : d.road.asked = [])
  (ht : ∀ i, i < 4 → nodeOfAddr d.chipId (a + i) = some node ∧ d.place (a + i) = some (.tcm (a + i)))

include ht

theorem place_tcm_first : d.place a = some (.tcm a) := (ht 0 (by decide)).2

theorem node_tcm_first : nodeOfAddr d.chipId a = some node := (ht 0 (by decide)).1

include ha in
theorem memPortOpen_of_tcm (hl : 2 ≤ d.debugLevel) : d.memPortOpen = true := by
  have hlt := lt_of_place_tcm (place_tcm_first ht)
  have hne : a ≠ R.DBG_MDATA := by
    unfold R.DBG_MDATA
    omega
  unfold Dev.memPortOpen
  rw [ha, Bool.and_eq_true, decide_eq_true_eq, decide_eq_true_eq]
  exact ⟨hl, hne⟩

/-- The port's own place is the device's, not the debug logic's. -/
theorem debugPlace_unused : (if (d.place a).isNone then Config.debugPlace a else none) = none := by
  rw [place_tcm_first ht]
  exact if_neg Bool.false_ne_true

include hc hq

theorem portAccess_write (v : Word) : d.portAccess a (some v) = .answered 0 v (d.drawn.setBytes a (leBytes 4 v.toNat)) := by
  have hlen : (leBytes 4 v.toNat).length = 4 := length_leBytes _ _
  have hserved : d.drawn.serveWrite ⟨0x0F, true, false⟩ a (leBytes 4 v.toNat) = .done 0 () (d.drawn.setBytes a (leBytes 4 v.toNat)) :=
    serveWrite_tcm _ (fun i hi => (ht i (hlen ▸ hi)).2) (by rw [hlen]; decide)
  have hbus := busWrite_served hc (node_tcm_first ht) hserved (fun x _ => reg_of_regs (regs_setBytes _ _ _) x) (by decide)
  unfold Dev.portAccess
  dsimp only
  rw [debugPlace_unused ht]
  dsimp only
  rw [awaited_none hq (congrArg (Issued.data (fun _ => [])) hbus)]

theorem portAccess_read : d.portAccess a none = .answered 0 (BitVec.ofNat 32 (leNat (d.bytes a 4))) d.drawn := by
  have hserved : d.drawn.serveRead ⟨0x0F, true, false⟩ a 4 = .done 0 (d.bytes a 4) d.drawn :=
    serveRead_tcm (d := d.drawn) _ (fun i hi => (ht i hi).2) (by decide)
  have hbus := busRead_served hc (node_tcm_first ht) hserved (fun x _ => rfl) (by decide)
  unfold Dev.portAccess
  dsimp only
  rw [debugPlace_unused ht]
  dsimp only
  rw [awaited_none hq hbus]

include ha

theorem memPort_write (v : Word) : d.memPort (some v) =
    (d.drawn.setBytes a (leBytes 4 v.toNat)).portMoved v (BitVec.ofNat 32 (a + 4)) ((a + 4) / 2 ^ 32) :=
  memPort_answered ha (portAccess_write hc hq ht v)

theorem memPort_read : d.memPort none =
    d.drawn.portMoved (BitVec.ofNat 32 (leNat (d.bytes a 4))) (BitVec.ofNat 32 (a + 4)) ((a + 4) / 2 ^ 32) :=
  memPort_answered ha (portAccess_read hc hq ht)

end Port

end Sys2Proof.Machine
end

section
/-! What a write and a read of DBG_MDATA do through the memory port (R431). -/

namespace Sys2Proof.Machine

variable {d e : Dev} {s : State} {r : Requester} {w : Who} {node a : Nat} {v x lo : Word} {hi : Nat}

/-- The bytes of the number that bytes spell are those bytes (R2). -/
theorem leBytes_leNat (l : List Byte) : leBytes l.length (leNat l) = l := by
  induction l with
  | nil => rfl
  | cons b l ih =>
    have hlow : BitVec.ofNat 8 (leNat (b :: l) / 256 ^ 0) = b := by
      apply BitVec.eq_of_toNat_eq
      rw [leNat, pow_zero, Nat.div_one, BitVec.toNat_ofNat]
      omega
    have hhigh : leNat (b :: l) / 256 = leNat l := by
      rw [leNat]
      omega
    have hrest : (List.range l.length).map (fun i => BitVec.ofNat 8 (leNat (b :: l) / 256 ^ (i + 1))) = l := by
      refine Eq.trans (List.map_congr_left fun i _ => ?_) ih
      rw [pow_succ', ← Nat.div_div_eq_div_mul, hhigh]
    unfold leBytes
    rw [List.length_cons, List.range_succ_eq_map, List.map_cons, List.map_map, hlow]
    exact congrArg (b :: ·) hrest

theorem leBytes_word (l : List Byte) (h : l.length = 4) : leBytes 4 (BitVec.ofNat 32 (leNat l)).toNat = l := by
  have hlt := leNat_lt l
  rw [h] at hlt
  rw [BitVec.toNat_ofNat, Nat.mod_eq_of_lt (show leNat l < 2 ^ 32 from hlt), ← h, leBytes_leNat]

theorem responseRegs_ne_port : ∀ y ∈ responseRegs, y ≠ R.DBG_MDATA ∧ y ≠ R.DBG_STAT ∧ y ≠ R.DBG_MADDR ∧ y ≠ R.DBG_MADDRH := by decide

theorem reg_portMoved {y : Nat} (hd : y ≠ R.DBG_MDATA) (hs : y ≠ R.DBG_STAT) (ha : y ≠ R.DBG_MADDR) (hh : y ≠ R.DBG_MADDRH) :
    (d.portMoved x lo hi).reg y = d.reg y := by
  unfold Dev.portMoved
  rw [reg_setFld_ne _ _ hh, reg_setReg_ne _ _ ha, reg_setFld_ne _ _ hs, reg_setReg_ne _ _ hd]

theorem mdata_portMoved : (d.portMoved x lo hi).reg R.DBG_MDATA = x := by
  unfold Dev.portMoved
  rw [reg_setFld_ne _ _ (by decide), reg_setReg_ne _ _ (by decide), reg_setFld_ne _ _ (by decide), reg_setReg_same]

theorem maddr_portMoved : (d.portMoved x lo hi).reg R.DBG_MADDR = lo := by
  unfold Dev.portMoved
  rw [reg_setFld_ne _ _ (by decide), reg_setReg_same]

theorem lvl_portMoved : (d.portMoved x lo hi).fld R.DBG_STAT_LVL = d.fld R.DBG_STAT_LVL := by
  have hmstat : ((d.setReg R.DBG_MDATA x).setFld R.DBG_STAT_MSTAT 0).fld R.DBG_STAT_LVL = (d.setReg R.DBG_MDATA x).fld R.DBG_STAT_LVL :=
    fld_setFld_other _ _ _ _ (by decide) (by decide)
  have hmoved : (d.portMoved x lo hi).reg R.DBG_STAT = ((d.setReg R.DBG_MDATA x).setFld R.DBG_STAT_MSTAT 0).reg R.DBG_STAT :=
    (reg_setFld_ne _ _ (by decide)).trans (reg_setReg_ne _ _ (by decide))
  exact (fld_congr hmoved).trans (hmstat.trans (fld_congr (reg_setReg_ne _ _ (by decide))))

theorem mem_portMoved : (d.portMoved x lo hi).mem = d.mem := by
  unfold Dev.portMoved
  simp

theorem road_portMoved : (d.portMoved x lo hi).road = d.road := rfl

theorem pow_portMoved : (d.portMoved x lo hi).pow = d.pow := rfl

theorem core_portMoved : (d.portMoved x lo hi).core = d.core := rfl

theorem debugLevel_portMoved : (d.portMoved x lo hi).debugLevel = d.debugLevel := by
  have hmode : (d.portMoved x lo hi).mode = d.mode := mode_of_reg (reg_portMoved (by decide) (by decide) (by decide) (by decide))
  unfold Dev.debugLevel Dev.co
  rw [hmode, lvl_portMoved, pow_portMoved, core_portMoved]

theorem portRead_open (h : d.memPortOpen = true) : d.portRead R.DBG_MDATA 4 = d.memPort none := by
  unfold Dev.portRead
  rw [h]
  exact (if_neg (by decide)).trans (if_pos rfl)

/-- A write of DBG_MDATA by a requester whose port is open is the port's access. -/
theorem commandWord_port (hcan : d.canRequest (d.who r).node = true) (h : d.memPortOpen = true)
    (hp : d.memPort (some v) = e) : d.commandWord r R.DBG_MDATA v = e.respond 0 [] := by
  have hword : BitVec.ofNat 32 (leNat (leBytes 4 v.toNat)) = v := by
    rw [leNat_leBytes, Nat.mod_eq_of_lt (show v.toNat < 256 ^ 4 by omega), BitVec.ofNat_toNat, BitVec.setWidth_eq]
  have hissue : d.issueWrite (d.who r) R.DBG_MDATA (leBytes 4 v.toNat) = .answered 0 () e := by
    unfold Dev.issueWrite
    rw [hcan, h, hword, hp, length_leBytes]
    exact (if_neg (by decide)).trans (if_pos (by decide))
  unfold Dev.commandWord Dev.command
  rw [hissue]
  exact if_pos (by simp)

/-- The road's registers lie outside the debug block. -/
theorem reg_portMoved_road {y : Nat} (hy : y < R.DBG_STAT) : (d.portMoved x lo hi).reg y = d.reg y := by
  unfold R.DBG_STAT at hy
  refine reg_portMoved ?_ ?_ ?_ ?_ <;>
  · refine Nat.ne_of_lt (hy.trans_le ?_)
    decide

theorem carries_portMoved (hc : d.Carries w node) (hw : w.node < 32) (hn : node < 32) : (d.drawn.portMoved x lo hi).Carries w node := by
  have hresp : ∀ y ∈ responseRegs, (d.drawn.portMoved x lo hi).reg y = d.reg y := fun y hy => by
    obtain ⟨hd, hs, ha, hh⟩ := responseRegs_ne_port y hy
    exact reg_portMoved hd hs ha hh
  have hbr : ∀ n < 32, (d.drawn.portMoved x lo hi).brState n = d.brState n := fun n hn => by
    have hreg : (d.drawn.portMoved x lo hi).fld (R.ROAD_BR_STATE n) = d.fld (R.ROAD_BR_STATE n) :=
      fld_congr (reg_portMoved_road (by unfold R.ROAD_BR_STATE R.ROAD_BR R.DBG_STAT; dsimp only; omega))
    unfold Dev.brState
    rw [hreg]
  have htid : (d.drawn.portMoved x lo hi).slice w.node = d.slice w.node := by
    have haddr : R.ROAD_TID w.node < R.DBG_STAT := by
      unfold R.ROAD_TID R.DBG_STAT
      omega
    exact Prod.ext (fld_congr (f := R.ROAD_TID_BASE w.node) (reg_portMoved_road haddr))
      (fld_congr (f := R.ROAD_TID_CNT w.node) (reg_portMoved_road haddr))
  obtain ⟨hon, hout, hdead, hin, ⟨i, hi, hfree⟩, hoff, halive⟩ := hc
  refine ⟨?_, by rwa [hbr _ hw], by rwa [nodeDead_of_responseRegs hresp hn], fun hb => by rw [hbr _ hn, hin hb],
    ⟨i, by rwa [htid], ?_⟩, probesOff_of_responseRegs hresp hoff, by rwa [nodeDead_of_responseRegs hresp hw]⟩
  · exact (domOn_of_reg (reg_portMoved_road (by decide)) _).trans hon
  · rw [htid]
    exact hfree

theorem merge_zero {n : Nat} (x y : BitVec n) : merge 0 x y = x := by
  simp [merge]

theorem view_mdata : d.viewReg .dbg (R.DBG_MDATA - blockBase .dbg) = d.reg R.DBG_MDATA := by
  have hin : regIn .dbg ((R.DBG_MDATA - blockBase .dbg) % 0x8000) = some ⟨0x68, [], [⟨31, 0, .rw, 0⟩]⟩ := by decide
  have hmask : tyMask [⟨31, 0, .rw, 0⟩] (· == .st) = 0 := by decide
  unfold Dev.viewReg
  dsimp only
  rw [hin]
  dsimp only
  have hactive : d.viewActive .dbg (blockBase .dbg + (R.DBG_MDATA - blockBase .dbg) % 0x8000) = d.reg R.DBG_MDATA := rfl
  rw [if_pos (by decide), hmask, if_neg (by decide), hactive]
  exact merge_zero _ _

theorem levelNeeded_mdata : levelNeeded w .dbg R.DBG_MDATA ≤ 2 := by
  unfold levelNeeded
  split
  · exact le_rfl
  · dsimp only
    split <;> decide

theorem regRead_mdata (hl : 2 ≤ d.debugLevel) : d.regRead w .dbg (R.DBG_MDATA - blockBase .dbg) = (0, d.reg R.DBG_MDATA, d) := by
  have hneed : ¬d.debugLevel < levelNeeded w .dbg R.DBG_MDATA := not_lt.mpr (levelNeeded_mdata.trans hl)
  unfold Dev.regRead
  dsimp only
  rw [if_neg (by exact hneed), view_mdata]

theorem readCommand_port (hc : d.Carries (d.who r) 0x04) (hq : d.road.asked = []) (hl : 2 ≤ d.debugLevel) (h : d.memPortOpen = true)
    (hp : d.memPort none = d.drawn.portMoved x lo hi) :
    d.readCommand r R.DBG_MDATA = (d.drawn.portMoved x lo hi).drawn.respond 0 (leBytes 4 x.toNat) := by
  have hw := who_node_lt d r
  have hlevel : 2 ≤ (d.drawn.portMoved x lo hi).drawn.debugLevel := (debugLevel_portMoved (d := d.drawn)).symm ▸ hl
  have hread := regRead_mdata (w := d.who r) hlevel
  rw [show (d.drawn.portMoved x lo hi).drawn.reg R.DBG_MDATA = x from mdata_portMoved] at hread
  have hserved : (d.drawn.portMoved x lo hi).drawn.serveRead (d.who r) R.DBG_MDATA 4 =
      .done 0 (leBytes 4 x.toNat) (d.drawn.portMoved x lo hi).drawn := by
    have hplace : (d.drawn.portMoved x lo hi).drawn.place R.DBG_MDATA = some (.window .dbg (R.DBG_MDATA - blockBase .dbg)) := rfl
    unfold Dev.serveRead
    rw [hplace]
    dsimp only
    rw [if_neg (by decide), hread]
    rfl
  have hbus := busRead_served (carries_portMoved hc hw (by decide)) rfl hserved (fun _ _ => rfl) hw
  have hcan : d.canRequest (d.who r).node = true := by
    obtain ⟨hon, hout, _⟩ := hc
    simp [Dev.canRequest, hon, hout]
  have hissue : d.issueRead (d.who r) R.DBG_MDATA 4 = .answered 0 (leBytes 4 x.toNat) (d.drawn.portMoved x lo hi).drawn := by
    unfold Dev.issueRead
    rw [hcan, portRead_open h, hp, hbus]
    exact if_neg (by decide)
  unfold Dev.readCommand Dev.read
  dsimp only
  rw [awaited_none hq hissue]
  exact if_pos (by simp)

theorem exec_portWrite (h : s.dev.commandWord r R.DBG_MDATA v = e) : exec (.memPortAccess r true v) s = s.after e :=
  (exec_memPortAccess s r true v).trans (run_eq_after ((if_pos rfl).trans h))

theorem exec_portRead (h : s.dev.readCommand r R.DBG_MDATA = e) : exec (.memPortAccess r false v) s = s.after e :=
  (exec_memPortAccess s r false v).trans (run_eq_after ((if_neg Bool.false_ne_true).trans h))

/-- What a requester sees of a read through the port. -/
theorem portRead_shown {l : List Byte} (h : s.dev.readCommand r R.DBG_MDATA = e.drawn.respond 0 l) (hlo : e.reg R.DBG_MADDR = lo)
    (hmem : e.mem = s.dev.mem) : ∃ t, exec (.memPortAccess r false v) s = s.after t ∧ t.resp = ⟨0, l⟩ ∧ t.reg R.DBG_MADDR = lo ∧
      ∀ b, t.byte b = s.dev.byte b :=
  ⟨_, exec_portRead h, rfl, hlo, fun b => congrArg (fun m => bankGet byteReset m b) hmem⟩

end Sys2Proof.Machine
end

section
/-! Debug (R402, R405, R431 to R434). -/

namespace Sys2Proof.Machine

variable {s : State} {r : Requester} {d : Dev}

theorem exec_halt {m : BitVec 4} {e : Dev} (hw : s.dev.Writes r .dbg R.DBG_HALT (m.setWidth 32)) (he : s.dev.drawn.haltRequest m = e)
    (hk : ∀ x ∈ responseRegs, e.reg x = s.dev.reg x) : exec (.debugHalt r m) s = s.wrote e :=
  run_commandWord hw ((startWrite_haltReq _ m).trans he) hk

theorem responseRegs_ne_halt : ∀ x ∈ responseRegs, x ≠ R.DBG_HALT ∧ x ≠ R.DBG_STAT ∧ x ≠ R.PWR_MSTAT ∧ x ≠ R.SEC_STAT ∧ x ≠ R.DBG_TOKCMD ∧
    x ≠ cstatAddr .dbg := by decide

/-- RESUME keeps what it showed when its write has no halt request of its own. -/
theorem startWrite_resume_shows (hm : d.mode = 0xA) (hf : d.pow.haltFrom < 16) : ∃ t : Dev, d.resume.haltRequest 0 = t ∧
    t.mode = d.pow.haltFrom ∧ t.fld R.DBG_STAT_HALTED = 0 ∧ (∀ c : CoreId, (t.co c).halted = false) ∧
    ∀ x, x ≠ R.DBG_HALT → x ≠ R.DBG_STAT → x ≠ R.PWR_MSTAT → t.reg x = d.reg x := by
  obtain ⟨hmode, hhalted, hcores, _⟩ := resume_shows hm hf
  have hreg : ∀ x, x ≠ R.DBG_HALT → (d.resume.haltRequest 0).reg x = d.resume.reg x := fun x hx => by
    rcases haltRequest_none (d := d.resume) with h | h
    · rw [h, reg_setFld_ne _ _ hx]
    · rw [h, reg_haltAsked hx]
  have hcore : (d.resume.haltRequest 0).core = d.resume.core := by
    rcases haltRequest_none (d := d.resume) with h | h
    · rw [h]
      rfl
    · rw [h]
      rfl
  refine ⟨_, rfl, (mode_of_reg (hreg _ (by decide))).trans hmode, (fld_congr (hreg _ (by decide))).trans hhalted, fun c => ?_,
    fun x hx hs hp => (hreg x hx).trans (reg_resume hm hs hp)⟩
  have hco : (d.resume.haltRequest 0).co c = d.resume.co c := congrArg (·[c]) hcore
  rw [hco, hcores c]

/-- Settles O54: each debug register starts what the lemmas above say, and a token's verdict is judged once. -/
theorem debugRuns : Obligations.DebugRuns := by
  intro s r
  dsimp only
  refine ⟨?newch, ?tokenGo, ?tokenDone, rfl, ?halt, ?resume, ?port⟩
  case newch =>
    intro nonce h31 hcan hw hb h3 hB
    obtain ⟨t, hdraw, hsec, hchal⟩ := drawNonce_draws (l := nonce) h31 hcan hw hb h3 hB
    exact ⟨t, run_eq_after (f := fun d => d.drawNonce r nonce) hdraw, hsec, hchal⟩
  case tokenGo =>
    intro h30 hw hb h3 hB
    have h31 : (setBit (s.dev.reg R.DBG_TOKCMD) 31 true).getLsbD 31 = true := getLsbD_setBit_same _ _ (by decide)
    have h30' : (setBit (s.dev.reg R.DBG_TOKCMD) 31 true).getLsbD 30 = false := (getLsbD_setBit_ne _ _ (by decide)).trans h30
    refine (run_regWith s r R.DBG_TOKCMD 31).trans (run_commandWord hw (startWrite_tokenGo h30' h31 hb h3 hB) fun x hx => ?_)
    obtain ⟨_, hstat, _, hsec, hcmd, hcst⟩ := responseRegs_ne_halt x hx
    exact (reg_sendsToken hstat hsec).trans (reg_writeTokcmd hcmd hcst)
  case tokenDone =>
    intro lvl slot hreq hfirst
    refine ⟨fun hgood => ?_, fun vd hbad => ?_⟩
    · refine run_eq_after (f := fun d => d.tokenDone .pass) ((tokenDone_eq .pass hreq hfirst).trans (if_pos ?_))
      rw [hgood]
      rfl
    · refine run_eq_after (f := fun d => d.tokenDone vd) ((tokenDone_eq vd hreq hfirst).trans (if_neg ?_))
      rcases hbad with hfail | hbad
      · rw [decide_eq_false hfail]
        exact Bool.false_ne_true
      · rw [hbad, Bool.and_false]
        exact Bool.false_ne_true
  case halt =>
    intro m hw
    refine ⟨fun hm h6 h9 hb => ?_, fun hwait => ?_⟩
    · obtain ⟨hmode, hfrom, hcores, hstreams⟩ := enterHalt_halts (s.dev.drawn.haltAsked m)
      refine ⟨_, exec_halt hw (haltRequest_halts hm h6 h9 hb) fun x hx => ?_, hmode, hfrom.trans mode_haltAsked, hcores, fun x ho hh => ?_⟩
      · obtain ⟨hhalt, hstat, hmst, _⟩ := responseRegs_ne_halt x hx
        rw [reg_enterHalt hstat hmst, reg_haltAsked hhalt]
        rfl
      · exact hstreams x ((ownsStream_congr (reg_haltAsked (by decide))).trans ho) hh
    · exact exec_halt hw (haltRequest_waits hwait) fun x hx => reg_haltAsked (responseRegs_ne_halt x hx).1
  case resume =>
    intro hw hm hf
    obtain ⟨t, ht, hmode, hhalted, hcores, hreg⟩ := startWrite_resume_shows (d := s.dev.drawn) hm hf
    refine ⟨t, run_commandWord hw ((startWrite_resume _).trans ht) fun x hx => ?_, hmode, hhalted, hcores⟩
    obtain ⟨hhalt, hstat, hmst, _⟩ := responseRegs_ne_halt x hx
    exact hreg x hhalt hstat hmst
  case port =>
    intro v node hcan hl hc hq ht
    generalize ha : s.dev.memPortAddr = a at ht ⊢
    have hopen := memPortOpen_of_tcm ha ht hl
    refine ⟨exec_portWrite (commandWord_port hcan hopen (memPort_write ha hc hq ht v)), fun hcr => ?_⟩
    have hread := readCommand_port hcr hq hl hopen (memPort_read ha hc hq ht)
    rw [leBytes_word _ (length_bytes _ _ _)] at hread
    exact portRead_shown hread maddr_portMoved mem_portMoved

end Sys2Proof.Machine
end

section
/-! The TAP (R447 to R451): an access through DBGACC or TESTACC, and the instructions. -/

namespace Sys2Proof.Machine

variable {d e : Dev} {i : TapInstr} {base : Nat} {off : BitVec 16} {v : Word} {st : BitVec 4} {l : List Byte}

/-- The TAP with the outcome of its last access. -/
def Dev.keepAccess (d : Dev) (x : TapAccess) : Dev := { d with tap := { d.tap with acc := x } }

/-- Capture shows the outcome of the access before, and ends it. -/
theorem tapAccess_shows (wr : Bool) : d.tapAccess i base false wr off v = (d.setTap i).captureAccess := rfl

theorem tapAccess_write (h : (d.setTap i).captureAccess.write ⟨0x0F, false, false⟩ (base + off.toNat) (leBytes 4 v.toNat) = .answered st l e) :
    d.tapAccess i base true true off v = e.keepAccess ⟨true, off, v, if st = 0 then 0 else 1, true⟩ := by
  unfold Dev.tapAccess
  dsimp only [Dev.who]
  rw [h, if_neg (by decide), if_pos rfl]
  rfl

theorem tapAccess_read (h : (d.setTap i).captureAccess.read ⟨0x0F, false, false⟩ (base + off.toNat) 4 = .answered st l e) :
    d.tapAccess i base true false off v = e.keepAccess ⟨false, off, BitVec.ofNat 32 (leNat l), if st = 0 then 0 else 1, true⟩ := by
  unfold Dev.tapAccess
  dsimp only [Dev.who]
  rw [h, if_neg (by decide), if_neg (by decide)]
  rfl

/-- The TAP's instruction that an access belongs to, with its window. -/
theorem exec_tapAccess {s : State} {f : Bool → Bool → BitVec 16 → BitVec 32 → Instr} {b : Block}
    (h : (f, i, b) ∈ [(Instr.dbgacc, TapInstr.dbgacc, Block.dbg), (.testacc, .testacc, .test)]) (go wr : Bool) :
    exec (f go wr off v) s = s.after (s.dev.tapAccess i (blockBase b) go wr off v) := by
  simp only [List.mem_cons, List.not_mem_nil, or_false, Prod.mk.injEq] at h
  obtain ⟨rfl, rfl, rfl⟩ | ⟨rfl, rfl, rfl⟩ := h
  · exact run_eq_after (f := fun d => d.tapAccess .dbgacc (blockBase .dbg) go wr off v) rfl
  · exact run_eq_after (f := fun d => d.tapAccess .testacc (blockBase .test) go wr off v) rfl

/-- Settles O56: an instruction is in force when it has been loaded, and an access performs what GO asks for. -/
theorem tapRuns : Obligations.TapRuns := by
  intro s
  dsimp only
  refine ⟨?instructions, rfl, fun cells => rfl, ?accesses⟩
  case instructions =>
    intro e he
    simp only [List.mem_cons, List.not_mem_nil, or_false] at he
    obtain rfl | rfl | rfl | rfl | rfl | rfl | rfl := he <;> rfl
  case accesses =>
    rintro ⟨f, i, b⟩ he off v
    refine ⟨fun wr => (exec_tapAccess he false wr).trans (congrArg _ (tapAccess_shows wr)), fun st l t h => ?_, fun st l t h => ?_⟩
    · exact (exec_tapAccess he true true).trans (congrArg _ (tapAccess_write h))
    · exact (exec_tapAccess he true false).trans (congrArg _ (tapAccess_read h))

end Sys2Proof.Machine
end

section
/-! The self-test's record and the streams are the same after the operations that a held request or the way to LOCKOUT can reach: one
lemma for each. -/

namespace Sys2Proof.Machine

/-- The test that runs and the streams are the same in e as in d: the two facts, as rewrite rules. -/
abbrev Dev.KeepsTest (d e : Dev) : Prop := e.test = d.test ∧ e.arr.strm = d.arr.strm

/-- The same as one relation, which is composed along an operation's steps. -/
def Dev.SameTest (d e : Dev) : Prop := d.KeepsTest e

namespace Dev.SameTest

variable {d e f : Dev}

theorem of (ht : e.test = d.test) (hs : e.arr.strm = d.arr.strm) : d.SameTest e := ⟨ht, hs⟩

theorem refl (d : Dev) : d.SameTest d := ⟨rfl, rfl⟩

theorem trans (h : d.SameTest e) (k : e.SameTest f) : d.SameTest f := ⟨k.1.trans h.1, k.2.trans h.2⟩

theorem ite {p : Prop} [Decidable p] (h : d.SameTest e) (k : d.SameTest f) : d.SameTest (if p then e else f) := by
  split
  · exact h
  · exact k

theorem forEach {β : Type} (l : List β) {f : Dev → β → Dev} (h : ∀ (d : Dev) b, d.SameTest (f d b)) :
    d.SameTest (Machine.forEach l d f) :=
  ⟨forEach_frame Dev.test l d fun d b => (h d b).1, forEach_frame (fun e => e.arr.strm) l d fun d b => (h d b).2⟩

/-- A sequence of operations that answer besides. -/
theorem foldl {α β : Type} (l : List β) (r : α × Dev) {f : α × Dev → β → α × Dev}
    (h : ∀ (r : α × Dev) b, r.2.SameTest (f r b).2) : r.2.SameTest (l.foldl f r).2 := by
  induction l generalizing r with
  | nil => exact .refl r.2
  | cons b l ih => exact (h r b).trans (ih (f r b))

theorem withFatal (x : Option (BitVec 4)) : d.SameTest { d with fatal := x } := ⟨rfl, rfl⟩

theorem setFld (f : Fld) (x : Nat) : d.SameTest (d.setFld f x) := ⟨rfl, rfl⟩

theorem addFld (f : Fld) (n : Nat) : d.SameTest (d.addFld f n) := ⟨rfl, rfl⟩

theorem setHostQ (q : Fin 16) (x : HostQueue) : d.SameTest (d.setHostQ q x) := ⟨rfl, rfl⟩

theorem withHost (x : HostState) : d.SameTest { d with host := x } := ⟨rfl, rfl⟩

theorem setFlag (f : Fld) (b : Bool) : d.SameTest (d.setFlag f b) := ⟨rfl, rfl⟩

theorem modCo (c : CoreId) (f : CoreState → CoreState) : d.SameTest (d.modCo c f) := ⟨rfl, rfl⟩

theorem modPow (f : PowerState → PowerState) : d.SameTest (d.modPow f) := ⟨rfl, rfl⟩

theorem withRoad (x : RoadState) : d.SameTest { d with road := x } := ⟨rfl, rfl⟩

theorem withGal (x : GalState) : d.SameTest { d with gal := x } := ⟨rfl, rfl⟩

theorem kept (h : d.KeepsTest e) : d.SameTest e := h

theorem withArr {x : ArrayState} (h : x.strm = d.arr.strm) : d.SameTest { d with arr := x } := ⟨rfl, h⟩

end Dev.SameTest

variable (d : Dev)

@[simp] theorem test_ite {p : Prop} [Decidable p] (a b : Dev) : (if p then a else b).test = if p then a.test else b.test := by
  split <;> rfl

@[simp] theorem arr_ite {p : Prop} [Decidable p] (a b : Dev) : (if p then a else b).arr = if p then a.arr else b.arr := by
  split <;> rfl

@[simp] theorem strm_ite {p : Prop} [Decidable p] (a b : ArrayState) : (if p then a else b).strm = if p then a.strm else b.strm := by
  split <;> rfl

@[simp] theorem keepsTest_forEach {β : Type} (l : List β) {f : Dev → β → Dev} (h : ∀ d b, (f d b).test = d.test ∧ (f d b).arr.strm = d.arr.strm) :
    d.KeepsTest (forEach l d f) :=
  Dev.SameTest.forEach l h

@[simp] theorem keepsTest_setCapture (b : Block) (c : List (Nat × Word)) : d.KeepsTest (d.setCapture b c) := by simp [Dev.KeepsTest, Dev.setCapture]
@[simp] theorem keepsTest_resetWindow (b : Block) : d.KeepsTest (d.resetWindow b) := by simp [Dev.KeepsTest, Dev.resetWindow]

@[simp] theorem keepsTest_writeFields (b : Block) (a : Nat) (fs : List FieldDesc) (v : Word) : d.KeepsTest (d.writeFields b a fs v) := by
  simp [Dev.KeepsTest, Dev.writeFields]

@[simp] theorem keepsTest_fresh : d.KeepsTest d.fresh.2 := by simp [Dev.KeepsTest, Dev.fresh]
@[simp] theorem keepsTest_setHeld (n : Nat) (m : BitVec 5) : d.KeepsTest (d.setHeld n m) := by simp [Dev.KeepsTest, Dev.setHeld]
@[simp] theorem keepsTest_setHeldBy (n g : Nat) : d.KeepsTest (d.setHeldBy n g) := by simp [Dev.KeepsTest, Dev.setHeldBy]
@[simp] theorem keepsTest_setOwner (n o : Nat) : d.KeepsTest (d.setOwner n o) := by simp [Dev.KeepsTest, Dev.setOwner]
@[simp] theorem keepsTest_setCount (g c : Nat) : d.KeepsTest (d.setCount g c) := by simp [Dev.KeepsTest, Dev.setCount]
@[simp] theorem keepsTest_setPend (n : Nat) (b : Bool) : d.KeepsTest (d.setPend n b) := by simp [Dev.KeepsTest, Dev.setPend]
@[simp] theorem keepsTest_setAct (n : Nat) (b : Bool) : d.KeepsTest (d.setAct n b) := by simp [Dev.KeepsTest, Dev.setAct]
@[simp] theorem keepsTest_darkLines (k : Nat) : d.KeepsTest (d.darkLines k) := by simp [Dev.KeepsTest, Dev.darkLines]
@[simp] theorem keepsTest_toHost (n : Nat) : d.KeepsTest (d.toHost n) := by simp [Dev.KeepsTest, Dev.toHost]
@[simp] theorem keepsTest_askHost (n : Nat) : d.KeepsTest (d.askHost n) := by simp [Dev.KeepsTest, Dev.askHost]
@[simp] theorem keepsTest_scanFallback : d.KeepsTest d.scanFallback := by simp [Dev.KeepsTest, Dev.scanFallback]
@[simp] theorem keepsTest_releaseGroup (g : Nat) : d.KeepsTest (d.releaseGroup g) := by simp [Dev.KeepsTest, Dev.releaseGroup]
@[simp] theorem keepsTest_pendSource (n : Nat) : d.KeepsTest (d.pendSource n) := by simp [Dev.KeepsTest, Dev.pendSource]
@[simp] theorem keepsTest_levelScan (n : Nat) : d.KeepsTest (d.levelScan n) := by simp [Dev.KeepsTest, Dev.levelScan]
@[simp] theorem keepsTest_sourceLine (n : Nat) (v : Bool) : d.KeepsTest (d.sourceLine n v) := by simp [Dev.KeepsTest, Dev.sourceLine]
@[simp] theorem keepsTest_raise (n : Nat) : d.KeepsTest (d.raise n) := by simp [Dev.KeepsTest, Dev.raise]

@[simp] theorem keepsTest_claim (c : Nat) : d.KeepsTest (d.claim c).2 := by
  unfold Dev.claim
  split <;> simp [Dev.KeepsTest]

@[simp] theorem keepsTest_endSource (n : Nat) : d.KeepsTest (d.endSource n) := by simp [Dev.KeepsTest, Dev.endSource]
@[simp] theorem keepsTest_doneSource (o n : Nat) : d.KeepsTest (d.doneSource o n) := by simp [Dev.KeepsTest, Dev.doneSource]
@[simp] theorem keepsTest_dropOwner (c : Nat) : d.KeepsTest (d.dropOwner c) := by simp [Dev.KeepsTest, Dev.dropOwner]
@[simp] theorem keepsTest_dropHost : d.KeepsTest d.dropHost := by simp [Dev.KeepsTest, Dev.dropHost]
@[simp] theorem keepsTest_refuseEvent (b : Block) : d.KeepsTest (d.refuseEvent b) := by simp [Dev.KeepsTest, Dev.refuseEvent]
@[simp] theorem keepsTest_setPeRaw (h row a : Nat) (v : BitVec 76) : d.KeepsTest (d.setPeRaw h row a v) := by simp [Dev.KeepsTest, Dev.setPeRaw]

@[simp] theorem keepsTest_setLatchNo (h copy row n : Nat) (v : BitVec 64) : d.KeepsTest (d.setLatchNo h copy row n v) := by
  simp [Dev.KeepsTest, Dev.setLatchNo]

@[simp] theorem keepsTest_checkEcol (h : Nat) : d.KeepsTest (d.checkEcol h) := by simp [Dev.KeepsTest, Dev.checkEcol]
@[simp] theorem keepsTest_pePut (h row a : Nat) (x : BitVec 64) : d.KeepsTest (d.pePut h row a x) := by simp [Dev.KeepsTest, Dev.pePut]
@[simp] theorem keepsTest_setWord32 (a : Nat) (v : Word) : d.KeepsTest (d.setWord32 a v) := by simp [Dev.KeepsTest, Dev.setWord32]
@[simp] theorem keepsTest_setWord64 (a : Nat) (v : BitVec 64) : d.KeepsTest (d.setWord64 a v) := by simp [Dev.KeepsTest, Dev.setWord64]
@[simp] theorem keepsTest_setGalErr (i : Nat) (e : BitVec 72) : d.KeepsTest (d.setGalErr i e) := by simp [Dev.KeepsTest, Dev.setGalErr]

@[simp] theorem keepsTest_galCount (i : Nat) (r : EccFind) (reading : Bool) : d.KeepsTest (d.galCount i r reading) := by
  unfold Dev.galCount
  split <;> simp [Dev.KeepsTest]

@[simp] theorem keepsTest_galPut (i : Nat) (x : BitVec 64) : d.KeepsTest (d.galPut i x) := by simp [Dev.KeepsTest, Dev.galPut]
@[simp] theorem keepsTest_galRead (a n : Nat) : d.KeepsTest (d.galRead a n).2.2 := by simp [Dev.KeepsTest, Dev.galRead]

@[simp] theorem keepsTest_galWrite (strict : Bool) (a : Nat) (l : List Byte) : d.KeepsTest (d.galWrite strict a l).2 := by
  refine Dev.SameTest.foldl _ (false, d) fun r i => ?_
  dsimp only
  split
  · exact .kept (keepsTest_galPut _ _ _)
  · split
    · exact .kept (keepsTest_galCount _ _ _ _)
    · exact .trans (.kept (keepsTest_galCount r.2 _ _ _)) (.kept (keepsTest_galPut _ _ _))

@[simp] theorem keepsTest_setHq (h : LHall) (x : HallQ) : d.KeepsTest (d.setHq h x) := by simp [Dev.KeepsTest, Dev.setHq]

@[simp] theorem keepsTest_modHq (h : LHall) (f : HallQ → HallQ) : d.KeepsTest (d.modHq h f) := keepsTest_setHq d h _

@[simp] theorem keepsTest_doubleFault (c : CoreId) : d.KeepsTest (d.doubleFault c) := by
  show d.SameTest _
  unfold Dev.doubleFault
  exact .trans (.trans (.trans (.modCo c _) (.kept (keepsTest_dropOwner _ c.val))) (.kept (keepsTest_raise _ _))) (.ite (.withFatal _) (.refl _))

@[simp] theorem keepsTest_enter (c : CoreId) (ret : Word) (entry : Nat) (f : CoreState → CoreState) : d.KeepsTest (d.enter c ret entry f) := by
  unfold Dev.enter
  dsimp only
  split
  · exact keepsTest_doubleFault _ _
  · split
    · exact keepsTest_doubleFault _ _
    · simp -implicitDefEqProofs [Dev.KeepsTest]

@[simp] theorem keepsTest_takeTrap (c : CoreId) (n : BitVec 5) (ret taddr : Word) (impr : Bool) : d.KeepsTest (d.takeTrap c n ret taddr impr) := by
  simp [Dev.KeepsTest, Dev.takeTrap]

@[simp] theorem keepsTest_trap (c : CoreId) (t : Trap) (ret taddr : Word) (impr : Bool) : d.KeepsTest (d.trap c t ret taddr impr) := by
  simp [Dev.KeepsTest, Dev.trap]

@[simp] theorem keepsTest_syncVerify : d.KeepsTest d.syncVerify := by simp [Dev.KeepsTest, Dev.syncVerify]
@[simp] theorem keepsTest_setVerifs (l : List VerifyKind) : d.KeepsTest (d.setVerifs l) := by simp [Dev.KeepsTest, Dev.setVerifs]
@[simp] theorem keepsTest_verifyRequest (k : VerifyKind) : d.KeepsTest (d.verifyRequest k) := by simp [Dev.KeepsTest, Dev.verifyRequest]
@[simp] theorem keepsTest_dropVerify (k : VerifyKind) : d.KeepsTest (d.dropVerify k) := by simp [Dev.KeepsTest, Dev.dropVerify]

@[simp] theorem keepsTest_modWay (w : Nat) (f : WayUnit → WayUnit) : d.KeepsTest (d.modWay w f) := by
  unfold Dev.modWay
  split <;> simp [Dev.KeepsTest]

@[simp] theorem keepsTest_wayClear (w : Nat) : d.KeepsTest (d.wayClear w) := by simp [Dev.KeepsTest, Dev.wayClear]

@[simp] theorem keepsTest_waySnap (w : Nat) : d.KeepsTest (d.waySnap w) := by
  show d.SameTest _
  unfold Dev.waySnap
  split
  · exact .refl d
  · dsimp only
    refine .trans ?_ (.forEach _ fun e b => .of rfl rfl)
    split <;> exact .of rfl rfl

@[simp] theorem keepsTest_wayControl (w : Nat) (v : Word) : d.KeepsTest (d.wayControl w v) := by simp [Dev.KeepsTest, Dev.wayControl]
@[simp] theorem keepsTest_preset (a : Nat) (v : Word) : d.KeepsTest (d.preset a v) := by simp [Dev.KeepsTest, Dev.preset]
@[simp] theorem keepsTest_presetRoad : d.KeepsTest d.presetRoad := by simp [Dev.KeepsTest, Dev.presetRoad]
@[simp] theorem keepsTest_setBr (n st : Nat) : d.KeepsTest (d.setBr n st) := by simp [Dev.KeepsTest, Dev.setBr]
@[simp] theorem keepsTest_countHeld (n : Nat) : d.KeepsTest (d.countHeld n) := by simp [Dev.KeepsTest, Dev.countHeld]

@[simp] theorem keepsTest_answer (n : Nat) (k : PacketKind) (p : Packet) (st : BitVec 4) : d.KeepsTest (d.answer n k p st) := by
  simp [Dev.KeepsTest, Dev.answer]

@[simp] theorem keepsTest_answerWaiting (n : Nat) (st : BitVec 4) : d.KeepsTest (d.answerWaiting n st) := by simp [Dev.KeepsTest, Dev.answerWaiting]
@[simp] theorem keepsTest_sinkFor (n : Nat) : d.KeepsTest (d.sinkFor n) := by simp [Dev.KeepsTest, Dev.sinkFor]

@[simp] theorem keepsTest_answerHeld (n : Nat) (st : BitVec 4) (count : Fld) : d.KeepsTest (d.answerHeld n st count) := by
  simp [Dev.KeepsTest, Dev.answerHeld]

@[simp] theorem keepsTest_bridgeReset (n : Nat) : d.KeepsTest (d.bridgeReset n) := by simp [Dev.KeepsTest, Dev.bridgeReset]
@[simp] theorem keepsTest_declareDead (n : Nat) : d.KeepsTest (d.declareDead n) := by simp [Dev.KeepsTest, Dev.declareDead]
@[simp] theorem keepsTest_setOn (k : Nat) (b : Bool) : d.KeepsTest (d.setOn k b) := by simp [Dev.KeepsTest, Dev.setOn]
@[simp] theorem keepsTest_startGroup : d.KeepsTest d.startGroup := by simp [Dev.KeepsTest, Dev.startGroup]
@[simp] theorem keepsTest_startFirstGroup : d.KeepsTest d.startFirstGroup := by simp [Dev.KeepsTest, Dev.startFirstGroup]
@[simp] theorem keepsTest_ddrPowerUp : d.KeepsTest d.ddrPowerUp := by simp [Dev.KeepsTest, Dev.ddrPowerUp]
@[simp] theorem keepsTest_ddrPowerDown : d.KeepsTest d.ddrPowerDown := by simp [Dev.KeepsTest, Dev.ddrPowerDown]
@[simp] theorem keepsTest_reconcileOne (k : Nat) : d.KeepsTest (d.reconcileOne k) := by simp [Dev.KeepsTest, Dev.reconcileOne]
@[simp] theorem keepsTest_reconcile : d.KeepsTest d.reconcile := by simp [Dev.KeepsTest, Dev.reconcile]

@[simp] theorem keepsTest_followMode (mode k : Nat) : d.KeepsTest (d.followMode mode k) := by
  unfold Dev.followMode
  split <;> simp [Dev.KeepsTest]

@[simp] theorem keepsTest_applyMode (mode : Nat) : d.KeepsTest (d.applyMode mode) := by simp [Dev.KeepsTest, Dev.applyMode]
@[simp] theorem keepsTest_requestDomains (v : Word) : d.KeepsTest (d.requestDomains v) := by simp [Dev.KeepsTest, Dev.requestDomains]

@[simp] theorem keepsTest_wakeNode (n : Nat) : d.KeepsTest (d.wakeNode n) := by
  unfold Dev.wakeNode
  split <;> simp [Dev.KeepsTest]

@[simp] theorem keepsTest_dropMem (lo hi : Nat) : d.KeepsTest (d.dropMem lo hi) := by simp [Dev.KeepsTest, Dev.dropMem]
@[simp] theorem keepsTest_dropDram : d.KeepsTest d.dropDram := by simp [Dev.KeepsTest, Dev.dropDram]

@[simp] theorem keepsTest_loseDomain (k : Nat) : d.KeepsTest (d.loseDomain k) := by
  show d.SameTest _
  refine .trans (.kept (keepsTest_darkLines d k)) ?_
  unfold Dev.loseDomain
  generalize d.darkLines k = e
  dsimp only
  repeat' split
  all_goals simp -implicitDefEqProofs [Dev.SameTest, Dev.KeepsTest]

@[simp] theorem keepsTest_cutDomain (k : Nat) : d.KeepsTest (d.cutDomain k) := by simp [Dev.KeepsTest, Dev.cutDomain]
@[simp] theorem keepsTest_refuseDown (k : Nat) : d.KeepsTest (d.refuseDown k) := by simp [Dev.KeepsTest, Dev.refuseDown]
@[simp] theorem keepsTest_fenceCore : d.KeepsTest d.fenceCore := by simp [Dev.KeepsTest, Dev.fenceCore]

@[simp] theorem keepsTest_refuseCore : d.KeepsTest d.refuseCore := by
  show d.SameTest _
  unfold Dev.refuseCore
  exact .trans (.forEach _ fun e n => .ite (.kept (keepsTest_setBr e n 0)) (.refl e)) (.of rfl rfl)

@[simp] theorem keepsTest_abortDown (n : Nat) : d.KeepsTest (d.abortDown n) := by
  unfold Dev.abortDown
  split <;> simp [Dev.KeepsTest]

@[simp] theorem keepsTest_reach (n : Nat) (answered : Bool) : d.KeepsTest (d.reach n answered).2 := by
  unfold Dev.reach
  split
  · simp [Dev.KeepsTest]
  split
  · exact ⟨rfl, rfl⟩
  split
  · exact ⟨rfl, rfl⟩
  · dsimp only
    split <;> simp [Dev.KeepsTest]
  · dsimp only
    split_ifs <;> simp -implicitDefEqProofs [Dev.KeepsTest]

@[simp] theorem keepsTest_dramCount (i : Nat) (r : EccFind) : d.KeepsTest (d.dramCount i r) := by
  unfold Dev.dramCount
  split <;> simp [Dev.KeepsTest]

@[simp] theorem keepsTest_touchImages (off : Nat) : d.KeepsTest (d.touchImages off) := by
  show d.SameTest _
  unfold Dev.touchImages
  exact .ite (.refl d) (.forEach _ fun e i => .ite (.withArr rfl) (.refl e))

@[simp] theorem keepsTest_dramPut (i : Nat) (x : BitVec 64) : d.KeepsTest (d.dramPut i x) := by simp [Dev.KeepsTest, Dev.dramPut]
@[simp] theorem keepsTest_dramRead (a n : Nat) : d.KeepsTest (d.dramRead a n).2.2 := by simp [Dev.KeepsTest, Dev.dramRead]

@[simp] theorem keepsTest_dramWrite (a : Nat) (l : List Byte) : d.KeepsTest (d.dramWrite a l).2 := by
  refine Dev.SameTest.foldl _ (false, d) fun r i => ?_
  dsimp only
  split
  · exact .kept (keepsTest_dramPut _ _ _)
  · split
    · exact .kept (keepsTest_dramCount _ _ _)
    · exact .trans (.kept (keepsTest_dramCount r.2 _ _)) (.kept (keepsTest_dramPut _ _ _))

@[simp] theorem keepsTest_patchError (c : Nat) : d.KeepsTest (d.patchError c) := by simp [Dev.KeepsTest, Dev.patchError]

@[simp] theorem keepsTest_patchLoad : d.KeepsTest d.patchLoad := by
  show d.SameTest _
  unfold Dev.patchLoad
  refine .ite (.of rfl rfl) ?_
  split
  · exact .kept (keepsTest_patchError _ _)
  · exact .of rfl rfl

@[simp] theorem keepsTest_himgRefuse (c : Nat) : d.KeepsTest (d.himgRefuse c) := by simp [Dev.KeepsTest, Dev.himgRefuse]
@[simp] theorem keepsTest_himgGo (op : BitVec 2) (h : LHall) : d.KeepsTest (d.himgGo op h) := by simp [Dev.KeepsTest, Dev.himgGo]
@[simp] theorem keepsTest_clearCells (ks : List Nat) : d.KeepsTest (d.clearCells ks) := by simp [Dev.KeepsTest, Dev.clearCells]
@[simp] theorem keepsTest_cfgRefuse (c : Nat) : d.KeepsTest (d.cfgRefuse c) := by simp [Dev.KeepsTest, Dev.cfgRefuse]
@[simp] theorem keepsTest_stopRegions (ks : List Nat) : d.KeepsTest (d.stopRegions ks) := by simp [Dev.KeepsTest, Dev.stopRegions]
@[simp] theorem keepsTest_clearFrames (f : FabricLoad) : d.KeepsTest (d.clearFrames f) := by simp [Dev.KeepsTest, Dev.clearFrames]
@[simp] theorem keepsTest_fabricGo (part : Bool) (rgn : BitVec 3) : d.KeepsTest (d.fabricGo part rgn) := by simp [Dev.KeepsTest, Dev.fabricGo]
@[simp] theorem keepsTest_captureArm : d.KeepsTest d.captureArm := by simp [Dev.KeepsTest, Dev.captureArm]
@[simp] theorem keepsTest_captureResume : d.KeepsTest d.captureResume := by simp [Dev.KeepsTest, Dev.captureResume]

@[simp] theorem keepsTest_captureRead : d.KeepsTest d.captureRead.2 := by
  unfold Dev.captureRead
  dsimp only
  split <;> simp [Dev.KeepsTest, Dev.fresh]

@[simp] theorem keepsTest_syncSec : d.KeepsTest d.syncSec := by simp [Dev.KeepsTest, Dev.syncSec]

theorem sameTest_syncSec_withGal (x : GalState) : d.SameTest ({ d with gal := x } : Dev).syncSec :=
  .trans (.withGal x) (.kept (keepsTest_syncSec _))

@[simp] theorem keepsTest_startWipe (cause : BitVec 4) : d.KeepsTest (d.startWipe cause) := by simp [Dev.KeepsTest, Dev.startWipe]
@[simp] theorem keepsTest_marchGo : d.KeepsTest d.marchGo := by simp [Dev.KeepsTest, Dev.marchGo]
@[simp] theorem keepsTest_looseRow (b row : Nat) : d.KeepsTest (d.looseRow b row) := by simp [Dev.KeepsTest, Dev.looseRow]
@[simp] theorem keepsTest_writeRpr (n : Nat) (v : Word) : d.KeepsTest (d.writeRpr n v) := by simp [Dev.KeepsTest, Dev.writeRpr]
@[simp] theorem keepsTest_holdCore (c : CoreId) : d.KeepsTest (d.holdCore c) := by simp [Dev.KeepsTest, Dev.holdCore]
@[simp] theorem keepsTest_releaseCore (c : CoreId) (pc : Word) : d.KeepsTest (d.releaseCore c pc) := by simp [Dev.KeepsTest, Dev.releaseCore]

@[simp] theorem keepsTest_releaseRun : d.KeepsTest d.releaseRun := by
  show d.SameTest _
  unfold Dev.releaseRun
  refine .ite (.refl d) (.forEach _ fun e c => .ite ?_ (.refl e))
  exact .trans (.kept (keepsTest_releaseCore e c _)) (.ite (.refl _) (.kept (keepsTest_trap _ _ _ _ _ _)))

@[simp] theorem keepsTest_restartC0 : d.KeepsTest d.restartC0 := by simp [Dev.KeepsTest, Dev.restartC0]

@[simp] theorem keepsTest_presetCore : d.KeepsTest d.presetCore := by
  show d.SameTest _
  unfold Dev.presetCore
  extract_lets part e1 e2 e3 e4 e5 e6 e7
  have h1 : d.SameTest e1 := .kept (keepsTest_preset d _ _)
  have h2 : e1.SameTest e2 := .forEach _ fun e p => .of rfl rfl
  have h5 : e4.SameTest e5 := .kept (keepsTest_presetRoad e4)
  have h6 : e5.SameTest e6 := .forEach _ fun e n => by
    split
    · exact .ite (.refl e) (.kept (keepsTest_setBr e n 3))
    · exact .refl e
  have h4 : e2.SameTest e4 := .of rfl rfl
  clear_value e1 e2 e3 e4 e5 e6
  exact ((((h1.trans h2).trans h4).trans h5).trans h6).trans (sameTest_syncSec_withGal e6 _)

@[simp] theorem keepsTest_coreOn : d.KeepsTest d.coreOn := by simp [Dev.KeepsTest, Dev.coreOn]
@[simp] theorem keepsTest_setMode (m : Nat) : d.KeepsTest (d.setMode m) := by simp [Dev.KeepsTest, Dev.setMode]
@[simp] theorem keepsTest_presetPwr : d.KeepsTest d.presetPwr := by simp [Dev.KeepsTest, Dev.presetPwr]
@[simp] theorem keepsTest_setLevel (l how : Nat) : d.KeepsTest (d.setLevel l how) := by simp [Dev.KeepsTest, Dev.setLevel]

@[simp] theorem keepsTest_lockout (cause : BitVec 4) : d.KeepsTest (d.lockout cause) := by
  show d.SameTest _
  unfold Dev.lockout
  split
  · exact .refl d
  extract_lets e1 e2 e3 e4 e5 e6 e7 e8
  have h1 : d.SameTest e1 := by simp -implicitDefEqProofs [Dev.SameTest, Dev.KeepsTest, e1]
  clear_value e1
  have h2 : e1.SameTest e2 := .forEach _ fun e k => .kept (keepsTest_cutDomain e k)
  clear_value e2
  have h3 : e2.SameTest e3 := .trans (.forEach _ fun e n => .ite (.kept (keepsTest_setBr e n 0)) (.refl e)) (.kept (keepsTest_coreOn _))
  clear_value e3
  have h4 : e3.SameTest e4 := .ite (.refl e3) (.kept (keepsTest_startWipe e3 2))
  clear_value e4
  have h5 : e4.SameTest e5 := .forEach _ fun e c => .kept (keepsTest_holdCore e c)
  clear_value e5
  have h6 : e5.SameTest e6 := .trans (e := e5.setReg R.SYS_CRUN (regReset R.SYS_CRUN)) (.of rfl rfl) (.kept (keepsTest_restartC0 _))
  clear_value e6
  have h8 : e6.SameTest e8 := by simp -implicitDefEqProofs [Dev.SameTest, Dev.KeepsTest, e8, e7]
  clear_value e8
  have h9 : e8.SameTest ((e8.setMode 0xB).applyMode 0xB) := .trans (.kept (keepsTest_setMode e8 0xB)) (.kept (keepsTest_applyMode _ 0xB))
  exact ((((((h1.trans h2).trans h3).trans h4).trans h5).trans h6).trans h8).trans h9

@[simp] theorem keepsTest_bootOffer : d.KeepsTest d.bootOffer := by
  show d.SameTest _
  unfold Dev.bootOffer
  refine .ite (.trans (.kept (keepsTest_verifyRequest d .boot)) ?_) (.refl d)
  exact .of (test_modPow _ _) (congrArg ArrayState.strm (arr_modPow _ _))

@[simp] theorem keepsTest_modeRefuse (c : Nat) : d.KeepsTest (d.modeRefuse c) := by simp [Dev.KeepsTest, Dev.modeRefuse]
@[simp] theorem keepsTest_modeRequest (c : CoreId) (t : Nat) : d.KeepsTest (d.modeRequest c t) := by simp [Dev.KeepsTest, Dev.modeRequest]
@[simp] theorem keepsTest_haltCores (m : BitVec 4) : d.KeepsTest (d.haltCores m) := by simp [Dev.KeepsTest, Dev.haltCores]
@[simp] theorem keepsTest_watchdogKick (key : Nat) : d.KeepsTest (d.watchdogKick key) := by simp [Dev.KeepsTest, Dev.watchdogKick]

@[simp] theorem keepsTest_newChallenge (nonce : List Word) : d.KeepsTest (d.newChallenge nonce) := by
  show d.SameTest _
  unfold Dev.newChallenge
  split
  · exact .refl d
  extract_lets e1
  have h1 : d.SameTest e1 := .forEach _ fun e k => .of rfl rfl
  clear_value e1
  exact h1.trans (.of rfl rfl)

@[simp] theorem keepsTest_tokenGo : d.KeepsTest d.tokenGo := by simp [Dev.KeepsTest, Dev.tokenGo]

@[simp] theorem keepsTest_resume : d.KeepsTest d.resume := by
  show d.SameTest _
  unfold Dev.resume
  exact .ite (.refl d) (.trans (.trans (.forEach _ fun e c => .modCo c _) (.setFld _ _)) (.kept (keepsTest_setMode _ _)))

theorem sameTest_refused (b : Block) (a cause : Nat) :
    d.SameTest ((((d.setFlag ⟨a, 2, 2⟩ true).setFld ⟨a, 15, 8⟩ cause).addFld ⟨a, 31, 16⟩ 1).refuseEvent b) :=
  .trans (.trans (.trans (.setFlag _ _) (.setFld _ _)) (.addFld _ _)) (.kept (keepsTest_refuseEvent _ b))

@[simp] theorem keepsTest_refuseCommit (b : Block) (cause : Nat) : d.KeepsTest (d.refuseCommit b cause) := sameTest_refused d b _ cause

theorem sameTest_captured (b : Block) (c : List (Nat × Word)) (f : Fld) : d.SameTest ((d.setCapture b c).setFlag f true) :=
  .trans (.kept (keepsTest_setCapture d b c)) (.setFlag f true)

@[simp] theorem keepsTest_commitGo (b : Block) (sec : Bool) : d.KeepsTest (d.commitGo b sec) := by
  show d.SameTest _
  unfold Dev.commitGo
  refine .ite (.refl d) (.ite (.kept (keepsTest_refuseCommit _ _ _)) ?_)
  dsimp only
  split
  · exact .kept (keepsTest_refuseCommit _ _ _)
  · exact .ite (.trans (sameTest_captured d b _ _) (.withArr rfl)) (sameTest_captured d b _ _)

@[simp] theorem keepsTest_complete (q : Fin 16) (st detail : Nat) (result : BitVec 64) : d.KeepsTest (d.complete q st detail result) := by
  show d.SameTest _
  unfold Dev.complete
  dsimp only
  split
  · exact .refl d
  · exact .trans (.trans (.setHostQ q _) (.ite (.withHost _) (.refl _))) (.kept (keepsTest_raise _ _))

@[simp] theorem keepsTest_doorbell (q : Fin 16) (f : Fld) (v : Nat) : d.KeepsTest (d.doorbell q f v) := by
  show d.SameTest _
  unfold Dev.doorbell
  exact .trans (.setFld f v) (.ite (.setFlag _ _) (.refl _))

@[simp] theorem keepsTest_fwGo (q : Fin 16) : d.KeepsTest (d.fwGo q) := by
  unfold Dev.fwGo
  split <;> simp [Dev.KeepsTest]

@[simp] theorem keepsTest_hostReset : d.KeepsTest d.hostReset := by simp [Dev.KeepsTest, Dev.hostReset]
@[simp] theorem keepsTest_repairBurn : d.KeepsTest d.repairBurn := by simp [Dev.KeepsTest, Dev.repairBurn]

@[simp] theorem keepsTest_traceHeader (k vc : Nat) (hdr : BitVec 64) : d.KeepsTest (d.traceHeader k vc hdr) := by
  simp [Dev.KeepsTest, Dev.traceHeader]

@[simp] theorem keepsTest_probeAlong (t vc inj : Nat) (links : List (Nat × Bool)) (injected : Bool) (hdr : BitVec 64) (flits : Nat) : d.KeepsTest (d.probeAlong t vc inj links injected hdr flits) := by
  simp [Dev.KeepsTest, Dev.probeAlong]

@[simp] theorem keepsTest_probe (t inj dst : Nat) (hdr : BitVec 64) (flits : Nat) : d.KeepsTest (d.probe t inj dst hdr flits) := by
  simp [Dev.KeepsTest, Dev.probe]

@[simp] theorem keepsTest_drawTid (n : Nat) : d.KeepsTest (d.drawTid n).2 := by simp [Dev.KeepsTest, Dev.drawTid]

@[simp] theorem keepsTest_plainWrite (w : Who) (b : Block) (a : Nat) (v : Word) : d.KeepsTest (d.plainWrite w b a v) := by
  unfold Dev.plainWrite
  split
  · exact ⟨rfl, rfl⟩
  · simp -implicitDefEqProofs [Dev.KeepsTest]

@[simp] theorem keepsTest_coreRun (v : Word) : d.KeepsTest (d.coreRun v) := by
  show d.SameTest _
  unfold Dev.coreRun
  refine .trans (.trans (e := d.setReg R.SYS_CRUN ((v &&& 0xE) ||| 1)) (.of rfl rfl) (.forEach _ fun e c => ?_)) (.kept (keepsTest_releaseRun _))
  exact .ite (.refl e) (.trans (.kept (keepsTest_holdCore e c)) (.kept (keepsTest_bridgeReset _ _)))

@[simp] theorem keepsTest_eventSet (w : Nat) (v : Word) : d.KeepsTest (d.eventSet w v) := by simp [Dev.KeepsTest, Dev.eventSet]
@[simp] theorem keepsTest_eventClear (w : Nat) (v : Word) : d.KeepsTest (d.eventClear w v) := by simp [Dev.KeepsTest, Dev.eventClear]
@[simp] theorem keepsTest_modWrite (w : Who) (g : Nat) (v : Word) : d.KeepsTest (d.modWrite w g v) := by simp [Dev.KeepsTest, Dev.modWrite]
@[simp] theorem keepsTest_deadRevive (i : Nat) (v : Word) : d.KeepsTest (d.deadRevive i v) := by simp [Dev.KeepsTest, Dev.deadRevive]

@[simp] theorem keepsTest_dmaWrite (w : Who) (e : Nat) (v : Word) : d.KeepsTest (d.dmaWrite w e v) := by
  show d.SameTest _
  unfold Dev.dmaWrite
  exact .trans (.kept (keepsTest_plainWrite d w .gal (R.GAL_DMACTL e) v))
    (.ite (.refl _) (.ite (.trans (.setFlag _ _) (.setFld _ _)) (.setFlag _ _)))

@[simp] theorem keepsTest_tokenWrite (w : Who) (v : Word) (nonce : List Word) : d.KeepsTest (d.tokenWrite w v nonce) := by
  simp [Dev.KeepsTest, Dev.tokenWrite]

@[simp] theorem keepsTest_freeWords : d.KeepsTest d.freeWords.2 := by simp [Dev.KeepsTest, Dev.freeWords]
@[simp] theorem keepsTest_addFree (f : Fld) : d.KeepsTest (d.addFree f) := by simp [Dev.KeepsTest, Dev.addFree]

@[simp] theorem keepsTest_regRead (w : Who) (b : Block) (off : Nat) : d.KeepsTest (d.regRead w b off).2.2 := by
  unfold Dev.regRead
  dsimp only
  repeat' split
  all_goals simp -implicitDefEqProofs [Dev.KeepsTest]

@[simp] theorem keepsTest_probePair (w : Who) (n : Nat) (wr mgmt : Bool) (tid a len st bytes : Nat) : d.KeepsTest (d.probePair w n wr mgmt tid a len st bytes) := by
  simp [Dev.KeepsTest, Dev.probePair]

@[simp] theorem keepsTest_freeBytes (n : Nat) : d.KeepsTest (d.freeBytes n).2 := by simp [Dev.KeepsTest, Dev.freeBytes]

@[simp] theorem keepsTest_probeRequest (node : Nat) (k : PacketKind) (p : Packet) : d.KeepsTest (d.probeRequest node k p) := by
  simp [Dev.KeepsTest, Dev.probeRequest]

@[simp] theorem keepsTest_debugWrite (p : Config.DebugPlace) (v : Word) : d.KeepsTest (d.debugWrite p v) := by
  unfold Dev.debugWrite
  split <;> simp [Dev.KeepsTest]

end Sys2Proof.Machine
end

section
/-! What the requests that a bridge has held can start (R332, R442): no self-test of a hall in whose stream an instruction has been
accepted since its MILESTONE. -/

namespace Sys2Proof.Machine

/-- The logic test of every hall runs only while stream 0, which owns the first halls, has accepted nothing since its MILESTONE. -/
def Dev.TestsClean (d : Dev) : Prop := d.test = some (2, 0x1FFFF) → (d.st 0).dirty = false

variable {d e : Dev} {w : Who} {a n node : Nat} {l : List Byte}

theorem Dev.SameTest.clean (h : d.SameTest e) (k : d.TestsClean) : e.TestsClean := by
  intro ht
  have hst : e.st 0 = d.st 0 := congrArg (fun v : Vector Strm 4 => v[(0 : StreamId)]) h.2
  rw [hst]
  exact k (h.1.symm.trans ht)

theorem clean_of_noTest (h : d.test = none) : d.TestsClean := by
  intro ht
  rw [h] at ht
  cases ht

theorem clean_ite {p : Prop} [Decidable p] (h : d.TestsClean) (k : e.TestsClean) : (if p then d else e).TestsClean := by
  split
  · exact h
  · exact k

theorem clean_forEach {β : Type} (l : List β) {f : Dev → β → Dev} (hf : ∀ (e : Dev) b, e.TestsClean → (f e b).TestsClean)
    (h : d.TestsClean) : (forEach l d f).TestsClean := forEach_keeps (P := Dev.TestsClean) l hf h

/-! The reset of the part, halts, and the start of a self-test. -/

theorem test_wipeAll (d : Dev) : d.wipeAll.test = none := by
  simp [Dev.wipeAll]

theorem clean_fullReset (cause : Fld) : (d.fullReset cause).TestsClean := by
  refine clean_of_noTest ?_
  rw [Dev.fullReset, test_setFlag, test_wipeAll]

theorem clean_stopRequest (x : StreamId) (h : d.TestsClean) : (d.stopRequest x).TestsClean := by
  unfold Dev.stopRequest
  split
  · intro ht
    have hd := h ht
    by_cases hx : x = 0
    · subst hx
      rw [st_modSt_same]
      exact hd
    · rw [Dev.modSt, st_setSt_ne _ (Ne.symm hx)]
      exact hd
  · exact h

theorem clean_enterHalt (h : d.TestsClean) : d.enterHalt.TestsClean := by
  rw [enterHalt_eq]
  refine Dev.SameTest.clean (.kept (keepsTest_setMode _ _)) (clean_forEach _ (fun e x he => clean_stopRequest x he) ?_)
  exact Dev.SameTest.clean (.trans (.modPow _) (.kept (keepsTest_haltCores _ _))) h

theorem clean_haltRequest (m : BitVec 4) (h : d.TestsClean) : (d.haltRequest m).TestsClean := by
  unfold Dev.haltRequest Dev.tryHalt
  exact clean_ite h (clean_ite (clean_enterHalt h) h)

theorem clean_haltWrite (v : Word) (h : d.TestsClean) : (d.haltWrite v).TestsClean := by
  unfold Dev.haltWrite
  exact clean_haltRequest _ (clean_ite (Dev.SameTest.clean (.kept (keepsTest_resume d)) h) h)

/-- A hall whose place is not taken over belongs to stream 0 if it is one of the first two. -/
theorem streamOfPhys_first {h : Nat} (hh : h < 2) (hp : d.phys h = h) (h0 : d.phys 0 = h → h = 0) :
    (d.streamOfPhys h).bind d.stream? = some 0 := by
  have hnum : d.numStreams = 1 ∨ d.numStreams = 2 ∨ d.numStreams = 4 := by
    unfold Dev.numStreams streamsOf
    split_ifs <;> simp
  have hlog : d.logicalOf h = some h := by
    unfold Dev.logicalOf findIdx
    interval_cases h
    · simp [List.range_succ_eq_map, hp]
    · have hne : ¬d.phys 0 = 1 := fun hc => absurd (h0 hc) (by decide)
      simp [List.range_succ_eq_map, hp, hne]
  have hstream : d.streamOf h = 0 := by
    unfold Dev.streamOf Dev.perStream
    rcases hnum with hn | hn | hn <;> rw [hn] <;> omega
  unfold Dev.streamOfPhys Dev.stream?
  rw [hlog]
  simp only [Option.map_some, Option.bind_some, hstream]
  rcases hnum with hn | hn | hn <;> simp [hn]

/-- One of the first two halls stands in its own place, in stream 0. -/
theorem first_hall_of_stream_zero (d : Dev) : ∃ h < 2, (d.streamOfPhys h).bind d.stream? = some 0 := by
  by_cases h0 : d.phys 0 = 0
  · exact ⟨0, by decide, streamOfPhys_first (by decide) h0 fun _ => rfl⟩
  · have hsub : (d.flag R.SEQ_HSUB_V && d.fld R.SEQ_HSUB_HALL = 0) = true := by
      by_contra hc
      exact h0 (if_neg hc)
    have h1 : d.phys 1 = 1 := by
      have hhall : d.fld R.SEQ_HSUB_HALL = 0 := by simpa using (Bool.and_eq_true_iff.mp hsub).2
      unfold Dev.phys
      rw [hhall]
      simp
    refine ⟨1, by decide, streamOfPhys_first (by decide) h1 fun hc => ?_⟩
    have h16 : d.phys 0 = 16 := if_pos hsub
    omega

/-- A logic test of every hall is refused while stream 0 has accepted an instruction since its MILESTONE. -/
theorem testRefusal_dirty (hd : (d.st 0).dirty = true) : d.testRefusal 2 0x1FFFF ≠ none := by
  obtain ⟨h, hlt, hstream⟩ := first_hall_of_stream_zero d
  have htaken : d.hallTaken h = true := by
    unfold Dev.hallTaken
    rw [hstream]
    simp [hd]
  have hmem : h ∈ maskHalls 0x1FFFF := by
    interval_cases h <;> decide
  have hany : (maskHalls 0x1FFFF).any d.hallTaken = true := List.any_eq_true.mpr ⟨h, hmem, htaken⟩
  unfold Dev.testRefusal firstCause
  intro hnone
  simp [hany] at hnone

theorem clean_testGo (h : d.TestsClean) : d.testGo.TestsClean := by
  unfold Dev.testGo
  extract_lets t m
  split
  · exact Dev.SameTest.clean (.trans (.setFlag _ _) (.setFld _ _)) h
  next src e _ hnone =>
    have he : e.TestsClean := by
      intro ht
      by_contra hd
      have hpair : (BitVec.ofNat 3 t, BitVec.ofNat 17 m) = (2, 0x1FFFF) := Option.some.inj ht
      have ht2 : t = 2 := by
        have hlt : t < 8 := fld_lt _ _
        have := congrArg BitVec.toNat (congrArg Prod.fst hpair)
        simp at this
        omega
      have hm2 : m = 0x1FFFF := by
        have hlt : m < 2 ^ 17 := fld_lt _ _
        have := congrArg BitVec.toNat (congrArg Prod.snd hpair)
        simp at this
        omega
      have hst : e.st 0 = d.st 0 := rfl
      rw [hst] at hd
      rw [ht2, hm2] at hnone
      exact testRefusal_dirty (by simpa using hd) hnone
    exact clean_ite (Dev.SameTest.clean (.kept (keepsTest_hostReset e)) he) he

end Sys2Proof.Machine
end

section
/-! The same through every request that a bridge has held, and so through what follows a command at once (R332, R406). -/

namespace Sys2Proof.Machine

variable {α : Type} {d e : Dev} {w : Who} {a n node : Nat} {l : List Byte}

/-- A property of whatever part a target's answer leaves. -/
def Served.All (P : Dev → Prop) : Served α → Prop
  | .done _ _ d => P d
  | .away d => P d

/-- The same of a transaction. -/
def Issued.All (P : Dev → Prop) : Issued α → Prop
  | .answered _ _ d => P d
  | .sent _ d => P d
  | .wait d => P d

def Done.All (P : Dev → Prop) : Done α → Prop
  | .answered _ _ d => P d
  | .wait d => P d

section All

variable {P : Dev → Prop} {st : BitVec 4} {x : α}

theorem Served.All.of_done {r : Served α} (h : r.All P) (he : r = .done st x e) : P e := by
  subst he
  exact h

theorem Served.All.of_away {r : Served α} (h : r.All P) (he : r = .away e) : P e := by
  subst he
  exact h

theorem Done.All.of_answered {r : Done α} (h : r.All P) (he : r = .answered st x e) : P e := by
  subst he
  exact h

theorem Done.All.of_wait {r : Done α} (h : r.All P) (he : r = .wait e) : P e := by
  subst he
  exact h

theorem Served.All.ite {p : Prop} [Decidable p] {r s : Served α} (h : r.All P) (k : s.All P) : (if p then r else s).All P := by
  split
  · exact h
  · exact k

theorem Issued.All.data {β : Type} {f : α → β} {i : Issued α} (h : i.All P) : (i.data f).All P := by
  cases i with
  | answered st x d => exact h
  | sent tid d => exact h
  | wait d => exact h

end All

theorem clean_withArr {x : ArrayState} (hx : x.strm = d.arr.strm) (h : d.TestsClean) : ({ d with arr := x } : Dev).TestsClean :=
  Dev.SameTest.clean (.withArr hx) h

theorem clean_withBlock (x : List (Nat × Nat)) (h : d.TestsClean) : ({ d with arr := { d.arr with block := x } } : Dev).TestsClean :=
  clean_withArr rfl h

theorem clean_startWrite {b : Block} {v : Word} (h : d.TestsClean) : (d.startWrite w b a v).TestsClean := by
  have hp : (d.plainWrite w b a v).TestsClean := Dev.SameTest.clean (.kept (keepsTest_plainWrite d w b a v)) h
  unfold Dev.startWrite
  dsimp only
  cases b
  case seq =>
    refine clean_ite (clean_ite (Dev.SameTest.clean (.kept (keepsTest_patchLoad _)) hp) hp)
      (clean_ite (clean_ite (Dev.SameTest.clean (.kept (keepsTest_himgGo _ _ _)) hp) hp) ?_)
    split
    · exact clean_ite (clean_withBlock _ hp) hp
    · exact hp
  case test =>
    exact clean_ite (clean_ite (clean_testGo hp) hp)
      (clean_ite (clean_ite (Dev.SameTest.clean (.kept (keepsTest_repairBurn _)) hp) hp) hp)
  case pwr =>
    dsimp only
    refine clean_ite ?_ (clean_ite ?_ (clean_ite (clean_ite (clean_fullReset _) h) ?_))
    all_goals repeat' split
    all_goals exact Dev.SameTest.clean (by simp -implicitDefEqProofs [Dev.SameTest, Dev.KeepsTest]) h
  case dbg =>
    dsimp only
    refine clean_ite ?_ (clean_ite (clean_haltWrite v h) ?_)
    · split
      · exact Dev.SameTest.clean (by simp -implicitDefEqProofs [Dev.SameTest, Dev.KeepsTest]) h
      · exact Dev.SameTest.clean (by simp -implicitDefEqProofs [Dev.SameTest, Dev.KeepsTest]) h
    · split
      · exact h
      · exact Dev.SameTest.clean (by simp -implicitDefEqProofs [Dev.SameTest, Dev.KeepsTest]) h
  all_goals
    dsimp only
    repeat' split
    all_goals exact Dev.SameTest.clean (by simp -implicitDefEqProofs [Dev.SameTest, Dev.KeepsTest]) h

theorem clean_regWrite {b : Block} {off : Nat} {v : Word} (h : d.TestsClean) : (d.regWrite w b off v).2.TestsClean := by
  unfold Dev.regWrite
  dsimp only
  split
  · exact h
  · split
    · exact h
    · exact clean_startWrite h

theorem clean_serveRead (h : d.TestsClean) : (d.serveRead w a n).All Dev.TestsClean := by
  unfold Dev.serveRead
  split
  · exact h
  · exact .ite h h
  · exact .ite h h
  · exact .ite h (Dev.SameTest.clean (.kept (keepsTest_regRead d w _ _)) h)
  · exact .ite h h
  · have hg : ∀ off, (d.galRead off n).2.2.TestsClean := fun off => Dev.SameTest.clean (.kept (keepsTest_galRead d off n)) h
    exact .ite h (.ite h (.ite (hg _) (hg _)))
  · have hg : ∀ off, (d.dramRead off n).2.2.TestsClean := fun off => Dev.SameTest.clean (.kept (keepsTest_dramRead d off n)) h
    exact .ite h (.ite (hg _) (hg _))
  · exact .ite h h
  · exact .ite h h

theorem clean_serveWrite (h : d.TestsClean) : (d.serveWrite w a l).All Dev.TestsClean := by
  have hbytes : ∀ b, (d.setBytes b l).TestsClean := fun b => Dev.SameTest.clean (.of (test_setBytes _ _ _) (congrArg ArrayState.strm (arr_setBytes _ _ _))) h
  unfold Dev.serveWrite
  dsimp only
  split
  · exact h
  · exact h
  · exact .ite (hbytes _) h
  · exact .ite h (clean_regWrite h)
  · exact .ite h (.ite h (hbytes _))
  · exact .ite h (.ite h (Dev.SameTest.clean (.kept (keepsTest_galWrite d _ _ _)) h))
  · exact .ite h (Dev.SameTest.clean (.kept (keepsTest_dramWrite d _ _)) h)
  · exact .ite h h
  · exact .ite h h

theorem sameTest_holdRequest {wr : Bool} {tid : BitVec 12} (h : d.holdRequest w node wr a n l = some (tid, e)) : d.SameTest e := by
  unfold Dev.holdRequest at h
  have hd : d.SameTest (d.drawTid w.node).2 := .kept (keepsTest_drawTid d w.node)
  dsimp only at h
  split at h
  · cases h
  · split at h
    · cases h
    next t f hf =>
      rw [hf] at hd
      injection h with h
      injection h with _ h
      subst h
      have hprobe : f.SameTest (f.probeRequest node (w.kind wr) (w.packet t a n l)) := .kept (keepsTest_probeRequest f _ _ _)
      exact hd.trans (hprobe.trans (.trans (.withRoad _) (.kept (keepsTest_countHeld _ node))))

theorem clean_concluded {α : Type} {wr : Bool} {p : Packet} {st : BitVec 4} {x : α} (h : d.TestsClean) :
    (d.concluded w node wr p st l x).All Dev.TestsClean := by
  unfold Dev.concluded
  split
  · exact Dev.SameTest.clean (.trans (.kept (keepsTest_probeRequest d _ _ _)) (.withRoad _)) h
  · exact Dev.SameTest.clean (.kept (keepsTest_probePair d _ _ _ _ _ _ _ _ _)) h

theorem clean_busRead (h : d.TestsClean) : (d.busRead w a n).All Dev.TestsClean := by
  unfold Dev.busRead
  split
  · exact h
  next node _ =>
  have hr : (d.reach node true).2.TestsClean := Dev.SameTest.clean (.kept (keepsTest_reach d node true)) h
  split
  next e he =>
    rw [he] at hr
    split
    next tid f hf => exact Dev.SameTest.clean (sameTest_holdRequest hf) hr
    next => exact h
  next st e he =>
    rw [he] at hr
    exact hr
  next e he =>
    rw [he] at hr
    have hd : (e.drawTid w.node).2.TestsClean := Dev.SameTest.clean (.kept (keepsTest_drawTid e w.node)) hr
    split
    next f hf => exact hr
    next tid f hf =>
      rw [hf] at hd
      have hs : (f.serveRead w a n).All Dev.TestsClean := clean_serveRead hd
      split
      next st l g hg => exact clean_concluded (hs.of_done hg)
      next g hg =>
        have hfree : (g.fresh.2.freeBytes n).2.TestsClean :=
          Dev.SameTest.clean (.trans (.kept (keepsTest_fresh g)) (.kept (keepsTest_freeBytes _ n))) (hs.of_away hg)
        dsimp only
        split <;> exact hfree

theorem clean_busWrite (h : d.TestsClean) : (d.busWrite w a l).All Dev.TestsClean := by
  unfold Dev.busWrite
  split
  · exact h
  next node _ =>
  have hr : (d.reach node true).2.TestsClean := Dev.SameTest.clean (.kept (keepsTest_reach d node true)) h
  split
  next e he =>
    rw [he] at hr
    split
    next tid f hf => exact Dev.SameTest.clean (sameTest_holdRequest hf) hr
    next => exact h
  next st e he =>
    rw [he] at hr
    exact hr
  next e he =>
    rw [he] at hr
    have hd : (e.drawTid w.node).2.TestsClean := Dev.SameTest.clean (.kept (keepsTest_drawTid e w.node)) hr
    split
    next f hf => exact hr
    next tid f hf =>
      rw [hf] at hd
      have hs : (f.serveWrite w a l).All Dev.TestsClean := clean_serveWrite hd
      split
      next st l g hg => exact clean_concluded (hs.of_done hg)
      next g hg => exact Dev.SameTest.clean (.kept (keepsTest_fresh g)) (hs.of_away hg)

theorem clean_awaited {wr : Bool} {i : Issued (List Byte)} (hi : i.All Dev.TestsClean) (h : d.TestsClean) :
    (d.awaited w wr a n i).All Dev.TestsClean := by
  unfold Dev.awaited
  split
  · split
    · exact Dev.SameTest.clean (.withRoad _) h
    · exact h
  · cases i with
    | answered st l e => exact hi
    | sent tid e => exact Dev.SameTest.clean (.withRoad _) hi
    | wait e => exact hi

theorem clean_debugAccess {p : Config.DebugPlace} {wr : Option Word} (h : d.TestsClean) : (d.debugAccess p wr).All Dev.TestsClean := by
  unfold Dev.debugAccess
  extract_lets run inHall
  have hrun : ∀ e : Dev, e.TestsClean → (run e).All Dev.TestsClean := fun e he => by
    unfold run
    split
    · exact Dev.SameTest.clean (.kept (keepsTest_debugWrite e p _)) he
    · exact he
  have hin : ∀ k, (inHall k).All Dev.TestsClean := fun k => by
    have hr : (d.reach (0x10 + k) true).2.TestsClean := Dev.SameTest.clean (.kept (keepsTest_reach d _ true)) h
    unfold inHall
    split
    next e he =>
      rw [he] at hr
      exact hr
    next st e he =>
      rw [he] at hr
      exact hr
    next e he =>
      rw [he] at hr
      split
      · exact hrun e hr
      · exact hr
  split
  · exact hrun d h
  · exact hin _
  · exact hin _

theorem clean_portAccess {wr : Option Word} (h : d.TestsClean) : (d.portAccess a wr).All Dev.TestsClean := by
  unfold Dev.portAccess
  extract_lets w
  split
  · exact clean_debugAccess h
  split
  next v =>
    have hw := clean_awaited (w := w) (wr := true) (a := a) (n := 4)
      (Issued.All.data (f := fun _ => []) (clean_busWrite (w := w) (a := a) (l := leBytes 4 v.toNat) h)) h
    split
    next st l e he => exact hw.of_answered he
    next e he => exact hw.of_wait he
  next =>
    have hw := clean_awaited (w := w) (wr := false) (a := a) (n := 4) (clean_busRead (w := w) (a := a) (n := 4) h) h
    split
    next st l e he => exact hw.of_answered he
    next e he => exact hw.of_wait he

theorem clean_portMove {wr : Option Word} (h : d.TestsClean) : (d.portMove wr a).TestsClean := by
  have hp : (d.portAccess a wr).All Dev.TestsClean := clean_portAccess h
  unfold Dev.portMove
  split
  next st v e he =>
    have hreg : ∀ (f : Dev) x y, f.SameTest (f.setReg x y) := fun f x y => .of rfl rfl
    exact Dev.SameTest.clean (.trans (.trans (.trans (hreg e _ _) (.setFld _ _)) (hreg _ _ _)) (.setFld _ _)) (hp.of_answered he)
  next e he => exact hp.of_wait he

theorem clean_memPort {wr : Option Word} (h : d.TestsClean) : (d.memPort wr).TestsClean := by
  rw [memPort_eq]
  exact clean_portMove h

theorem clean_portRead (h : d.TestsClean) : (d.portRead a n).TestsClean := by
  have hmirror : ∀ x y, (d.setReg x y).TestsClean := fun x y => Dev.SameTest.clean (.of rfl rfl) h
  unfold Dev.portRead
  exact clean_ite h (clean_ite (clean_memPort h) (clean_ite (hmirror _ _) h))

/-! Packets, and what follows a command at once. -/

variable {k : PacketKind} {p : Packet}

theorem clean_serveRd (h : d.TestsClean) : (d.serveRd node k p).TestsClean := by
  unfold Dev.serveRd
  extract_lets a n
  have hs : ((d.portRead a n).serveRead (packetWho p) a n).All Dev.TestsClean := clean_serveRead (clean_portRead h)
  split
  next st l e he => exact Dev.SameTest.clean (.withRoad _) (hs.of_done he)
  next e he => exact Dev.SameTest.clean (.withRoad _) (hs.of_away he)

theorem clean_serveWr (h : d.TestsClean) : (d.serveWr node k p).TestsClean := by
  unfold Dev.serveWr
  extract_lets a
  split
  · exact Dev.SameTest.clean (.withRoad _) (clean_memPort h)
  have hs : (d.serveWrite (packetWho p) a p.data).All Dev.TestsClean := clean_serveWrite h
  split
  next st u e he => exact Dev.SameTest.clean (.withRoad _) (hs.of_done he)
  next e he => exact Dev.SameTest.clean (.withRoad _) (hs.of_away he)

theorem clean_servePosted (h : d.TestsClean) : (d.servePosted p).TestsClean := by
  refine clean_forEach _ (fun e x he => ?_) h
  have hs : (e.serveWrite (packetWho p) x.1 x.2).All Dev.TestsClean := clean_serveWrite he
  split
  next st u f hf => exact clean_ite (Dev.SameTest.clean (.kept (keepsTest_raise f _)) (hs.of_done hf)) (hs.of_done hf)
  next f hf => exact hs.of_away hf

theorem clean_servePacket (h : d.TestsClean) : (d.servePacket node k p).TestsClean := by
  cases k with
  | rd => exact clean_serveRd h
  | mrd => exact clean_serveRd h
  | wr => exact clean_serveWr h
  | mwr => exact clean_serveWr h
  | pwr => exact clean_servePosted h
  | swr => exact clean_servePosted h
  | msg => exact h

theorem clean_settleBridge (h : d.TestsClean) : (d.settleBridge n).TestsClean := by
  unfold Dev.settleBridge
  extract_lets mine st road e
  have he : e.TestsClean := Dev.SameTest.clean (.withRoad _) h
  refine clean_ite h (clean_ite (Dev.SameTest.clean (.kept (keepsTest_countHeld _ n)) ?_) (clean_ite ?_ h))
  · exact clean_forEach _ (fun e x he => clean_servePacket he) he
  · exact Dev.SameTest.clean (.trans (.kept (keepsTest_answerHeld d n 3 _)) (.kept (keepsTest_setBr _ n 3))) h

theorem clean_settle (h : d.TestsClean) : d.settle.TestsClean := by
  have hserved : (if d.road.hold.isEmpty then d else forEach (List.range 0x21) d Dev.settleBridge).TestsClean :=
    clean_ite h (clean_forEach _ (fun e n he => clean_settleBridge he) h)
  unfold Dev.settle Dev.settleFatal
  split
  · exact Dev.SameTest.clean (.trans (.withFatal none) (.kept (keepsTest_lockout _ _))) hserved
  · exact hserved

end Sys2Proof.Machine
end

section
/-! Self-tests that wait for a MILESTONE (R442, R471): what O55's statement leaves out. -/

namespace Sys2Proof.Machine

variable {s : State} {d t : Dev}

/-- A MILESTONE that has been accepted and has not committed. -/
def openMilestone : Job := { opc := 0x6E, sd := 0, sa := 0, sb := 0, core := 0, pc := 0, dD := (0, 0), dA := (0, 0), dB := (0, 0), fpctl := 0 }

/-- A part in TEST with every domain on, which tests the logic of every hall on an accepted MILESTONE of stream 0; another instruction
has been accepted since. -/
def testOnMilestone : Dev :=
  ((({ test := some (2, 0x1FFFF), arr := { strm := (Vector.replicate 4 {}).set 0 { log := [openMilestone], dirty := true } } } : Dev).setReg
    R.PWR_DSTAT 0x01FFFFFF).setFld R.PWR_MSTAT_MODE 9).setFlag R.TEST_BSTAT_BUSY true

theorem testWaits_testOnMilestone : testOnMilestone.testWaits 2 0x1FFFF = true := by
  decide

/-- The end of a test that still waits for its MILESTONE changes nothing. -/
theorem testDone_waits {k : BitVec 3} {m : BitVec 17} (res : BistRes) (ht : d.test = some (k, m)) (hw : d.testWaits k.toNat m.toNat = true) :
    d.testDone res = d := by
  unfold Dev.testDone
  rw [ht]
  exact if_pos hw

theorem settle_testOnMilestone : testOnMilestone.settle = testOnMilestone := rfl

/-- No command's effect without a test leaves that part: what follows at once starts no such test. -/
theorem settle_ne_testOnMilestone (h : t.test = none) : t.settle ≠ testOnMilestone := by
  intro heq
  have hclean : testOnMilestone.TestsClean := heq ▸ clean_settle (clean_of_noTest h)
  exact absurd (hclean rfl) (by decide)

/-- Refutes O55: BIST_DONE of a hall test that was admitted on an accepted MILESTONE changes nothing until the MILESTONE has committed
(R471); the statement has every hall test end there. -/
theorem not_waymarksAndTestsRun : ¬ Obligations.WaymarksAndTestsRun := by
  intro h
  obtain ⟨_, _, _, hdone, _⟩ := h ⟨testOnMilestone, []⟩ .dbg
  obtain ⟨_, _, hhalls⟩ := hdone ⟨0, 0, 0, [], 0⟩ 0x1FFFF rfl
  obtain ⟨t, hexec, hnone, _⟩ := hhalls (.inl rfl)
  have hsame : exec (.bistDone ⟨0, 0, 0, [], 0⟩) ⟨testOnMilestone, []⟩ = State.after ⟨testOnMilestone, []⟩ testOnMilestone :=
    run_eq_after (f := fun d => d.testDone ⟨0, 0, 0, [], 0⟩) (testDone_waits _ rfl testWaits_testOnMilestone)
  have hsettle : t.settle = testOnMilestone.settle := by
    have hnext := hexec.symm.trans hsame
    unfold State.after at hnext
    injection hnext with hstate
    exact congrArg State.dev hstate
  exact settle_ne_testOnMilestone hnone (hsettle.trans settle_testOnMilestone)

end Sys2Proof.Machine
end
